-- ==== Sys2Proof/Word.lean ====
section
/-! DEFINITION. The words of the part and their plainest arithmetic. Registers, addresses on a bus and fields are bit
patterns; counts, positions and exact results are `Nat`, `Int` or `Rat`. -/

namespace Sys2Proof

/-- One byte. -/
abbrev Byte := BitVec 8
/-- A 32-bit register value (R44). -/
abbrev W32 := BitVec 32
/-- A 64-bit value. -/
abbrev W64 := BitVec 64

/-- Drive channel number, DC0 to DC5 (R1). -/
abbrev Ch := Fin 6
/-- Host function number (R42). -/
abbrev Fn := Fin 64
/-- PCI Express port, VM bus, flash bank, management core or stepper axis number. -/
abbrev Two := Fin 2
/-- Data beam or emitter number B0 to B7 (R10). -/
abbrev Beam := Fin 8

/-- `n` reduced to `w` bits. -/
def trunc (w n : Nat) : Nat := n % 2 ^ w

/-- The value of the low `w` bits of `n` read as two's complement. -/
def toSigned (w n : Nat) : Int :=
  let m := n % 2 ^ w
  if 2 * m < 2 ^ w then m else (m : Int) - 2 ^ w

/-- The low `w` bits of `z` in two's complement. -/
def ofSigned (w : Nat) (z : Int) : Nat := (z % (2 ^ w : Int)).toNat

/-- Bits `hi` down to `lo` of `n`. -/
def bitsOf (hi lo n : Nat) : Nat := n / 2 ^ lo % 2 ^ (hi + 1 - lo)

/-- `n` with bits `hi` down to `lo` replaced by `v` reduced to the field's width. -/
def setBits (hi lo n v : Nat) : Nat :=
  n - bitsOf hi lo n * 2 ^ lo + v % 2 ^ (hi + 1 - lo) * 2 ^ lo

/-- Bit `k` of `n`. -/
def bitOf (k n : Nat) : Bool := n / 2 ^ k % 2 == 1

/-- The number 1 for true, 0 for false. -/
def b2n (b : Bool) : Nat := if b then 1 else 0

/-- `z` limited to the range `lo` to `hi`. -/
def clamp (lo hi z : Int) : Int := if z < lo then lo else if hi < z then hi else z

/-- `n` limited to the range `lo` to `hi`. -/
def clampN (lo hi n : Nat) : Nat := if n < lo then lo else if hi < n then hi else n

end Sys2Proof
end

