-- ==== Sys2Proof/Syntax.lean ====
section
/-! DEFINITION. The commands the part takes: one constructor for each row of the table of operations and events,
with the operands and the data of the world outside that the row needs. -/

namespace Sys2Proof

/-- Where a register access comes from (R28, R63, R69): a host function, a management core, an internal sequencer of
a drive channel (`none` for chip-wide) named by its owning block's type code, the I²C sideband, or JTAG. -/
inductive Origin where
  | fn (f : Fn)
  | core (i : Two)
  | seqr (chan : Option Ch) (type : Nat)
  | i2c
  | jtag
deriving DecidableEq, Repr

/-- The block types of R45 and R46. -/
inductive BlkT where
  | sys | tmb | hlt | hlk | hqe | cmd | map | mca | str | sea | mem | fls | cal | vmb
  | dcm | rdc | det | wrc | srv | mot | spn
deriving DecidableEq, Repr

/-- A block: its type and, for a drive-channel block, its channel (0 for a chip-wide block). -/
structure Blk where
  ty : BlkT
  ch : Ch := 0
deriving DecidableEq, Repr

/-- A fault record on its way to the health manager (R696): tick of detection, class, instance, the block that raised
it, and the detail word of the rule that raised it; `zone` is the layer and zone in which the fault arose, where the
class's action needs it (R692); `replay` marks a fault of a channel in REPLAY (R695). -/
structure FaultRec where
  tick : Nat
  cls : Nat
  inst : Nat
  blk : Blk
  detail : Nat := 0
  zone : Option (Nat × Nat) := none
  replay : Bool := false
  counted : Bool := false
  madeLasting : Bool := false
deriving DecidableEq, Repr

/-- A change-log entry (R67–R69): tick, address, old and new value, origin field. -/
structure ChangeEntry where
  tick : Nat
  addr : Nat
  old : W32
  new : W32
  origin : Nat
deriving DecidableEq, Repr

/-- DATA of an event log entry, by kind (R702). -/
inductive EventData where
  | fault (cls inst blkType detail : Nat) (counted madeLasting replay : Bool)
  | cleared (cls inst origin : Nat)
  | fifoOverrun (lost : Nat)
  | timeSet (old new : Nat)
  | commandDropped (f : Fn) (localRing index : Nat) (tag : Nat)
  | flashUnfinished (sector : Nat)
  | dramUe (line : Nat)
  | journalHolder (disc : Nat)
  | fwStart (slot : Nat) (fallback : Bool) (version : Nat)
  | dramTrain (fail : Nat)
  | memberFailed (chan disc : Nat)
  | recordEnd (cause channels : Nat)
deriving DecidableEq, Repr

/-- An event log entry (R700, R702). -/
structure EventEntry where
  tick : Nat
  data : EventData
deriving DecidableEq, Repr

/-- A violation log entry (R417, R701). -/
structure ViolEntry where
  tick : Nat
  code : Nat
  fn : Fn
  localRing : Nat
  detail : Nat
deriving DecidableEq, Repr

/-- What the DRAM rings of the logs hold when LOG_EN is set: the entries the resident firmware wrote, with INDEX, in
increasing INDEX (R751). -/
structure LogArea where
  change : List (Nat × ChangeEntry)
  event : List (Nat × EventEntry)
  viol0 : List (Nat × ViolEntry)
  viol1 : List (Nat × ViolEntry)
deriving DecidableEq, Repr


/-- A tile slot of a disc (R81, R100): layer, zone, region code (0 data, 1 spare ring, 2 metadata) and number. -/
structure TilePos where
  layer : Nat
  zone : Nat
  region : Nat
  tile : Nat
deriving DecidableEq, Repr

/-- A run of ADC samples of one signal in order (R123, R126): `first` is the time of the first one, in samples from a place
that the user of the run names. -/
structure Samples where
  first : Int
  xs : List Int
deriving DecidableEq, Repr

/-- What one signal brings to a wedge boundary (R126, R127, R140, R164): its ADC samples over the wedge that ends, and, for the
sum signals where the wobble unit sync was found, the sample at which the unit sync leaves the FIFO, counted from the SA wobble
wedge start. -/
structure SigWedge where
  adc : List Int
  unit : Option Int
deriving DecidableEq, Repr

/-- What a wedge-sync window delivers on one data signal (R135, R142, R143, R164, R191): the ADC samples, timed from the SA
wobble wedge start; the WN and LZ bytes read after each place of a sync, by its distance from the prediction; the phase errors
of the preamble's samples in T/64; and the measured lead of the emitter in channel bits when one is measured. -/
structure WedgeSyncIn where
  adc : Samples
  names : List (Int × BitVec 8 × BitVec 8)
  phaseErr : List Int
  lead : Option Nat
deriving DecidableEq, Repr

/-- What a completed sector row delivers (R130, R135, R152, R160). `adc`: the ADC samples of the ten signals, timed from the
slot's first bit by the SA wobble. For each data beam, from three bits before the row's first bit on: the detector's tentative
decisions, and the expected values ā of its bits in units of 1/256. For each data beam, from the row's first bit on: the phase
errors of its digital PLL in T/64. The row's bits reach from its sector's start, for row 0 from the slot's, to the next
sector's. -/
structure RowIn where
  adc : List Samples
  dec : List (List Bool)
  soft : List (List Int)
  phaseErr : List (List Int)
deriving DecidableEq, Repr

/-- The accepted level changes of a channel's three back-EMF comparators, the servo inputs and the other inputs one
tick latches for one channel (R17, R230, R308, R326, R707): the ten servo codes as 14-bit two's complement, the home
inputs, the shunt code when a sample was taken in the previous tick, and how many frames of the recorder's on-chip store
the DRAM took in the tick that ends (R37). In REPLAY, `late` says that the frame of the tick has not arrived (R713).
`filled` says that the fill of the oldest incomplete tile of the channel's tile buffer ended (R13, R194), and `wedge` that the
wedge under the spots ends before the next tick boundary (R176, R257). -/
structure ChIn where
  servo : List Int
  homeSled : Bool
  homeSac : Bool
  shunt : Option Int
  drained : Nat
  late : Bool
  filled : Bool
  wedge : Bool
deriving DecidableEq, Repr

/-- The inputs of a tick: those of each channel and the VM codes of the two buses (R358). -/
structure TickIn where
  chans : List ChIn
  vmA : Nat
  vmB : Nat
deriving DecidableEq, Repr


/-- A configuration request to one function (R394–R399, R405–R409). -/
inductive CfgReq where
  | identity
  /-- Device Control: Max_Payload_Size, Max_Read_Request_Size, Enable Relaxed Ordering. -/
  | devCtl (mps mrrs : Nat) (relaxed : Bool)
  /-- Device Control 2: Completion Timeout value and Disable. -/
  | devCtl2 (value : Nat) (disable : Bool)
  /-- MSI-X Enable and Function Mask. -/
  | msixCtl (enable mask : Bool)
  /-- Power state: D3hot. -/
  | powerD3
  | vfEnable
deriving DecidableEq, Repr

/-- How a read request of the part in host memory was answered (R416): good, Unsupported Request, Completer Abort,
poisoned. -/
inductive DmaEnd where
  | good | unsupported | abort | poisoned
deriving DecidableEq, Repr

/-- What the read of a ring entry finds in host memory: the 64 bytes, and the segment list they name; or a failure by
violation code (R432, R451). -/
inductive FetchEnd where
  | entry (bytes : List Byte) (segs : List (Nat × Nat))
  | failed (code : Nat)
deriving DecidableEq, Repr

/-- An error that Advanced Error Reporting reports (R414). -/
inductive AerErr where
  | receiver | badTlp | badDllp | replayRollover | replayTimeout | advisory
  | dllProtocol | receiverOverflow | malformed | flowControl
  | poisoned | completionTimeout | completerAbort | unexpected | unsupported
deriving DecidableEq, Repr

/-- What an access to BAR2 asks for: a read, or a write of these bytes (R402). -/
inductive BarReq where
  | read (len : Nat)
  | write (bytes : List Byte)
deriving DecidableEq, Repr

/-- How a port's link ends (R410). -/
inductive LinkEnd where
  | hotReset | down | perst
deriving DecidableEq, Repr


/-- A requester of the map cache: its stream (R536). -/
inductive Stream where
  | ring (g : Nat)
  | nspace (nsid : Nat)
deriving DecidableEq, Repr

/-- What probing a region at a mount finds: its next blank tile slot (R382), by layer, zone and region. -/
structure ProbeIn where
  layer : Nat
  zone : Nat
  region : Nat
  next : Nat
deriving DecidableEq, Repr

/-- What a mount reads from a disc (R381): by layer, the 4,096-byte blocks of metadata tile slot 0 that could be read; whether
the metadata region of L0 is blank, the record blocks found in the metadata region, the probes' results, and, as WSEQ
and member, the tiles of stripes in flight that decode with all 64 slots accepted (R567); and relocations
that stand in the spare rings and in no SPARE_LIST (R115, R750). -/
structure DiscIn where
  identity : List (Nat × List (List Byte))
  blank : Bool
  blocks : List (List Byte)
  probes : List ProbeIn
  flight : List (Nat × Nat)
  unlisted : List Nat
deriving DecidableEq, Repr

/-- A tile slot that a member disc gives for a reconstruction or a recovery (R559, R567): its 64 slots, absent where a
slot could not be obtained. -/
structure MemberTile where
  member : Nat
  slots : List (Option (List Byte))
deriving DecidableEq, Repr


/-- Who asks for a DRAM line, and what depends on it (R590): a host delivery (command, block), stripe closing, the tile
buffer fill of a closed stripe (WSEQ, member, data index), the map cache, background work (with the command that
depends on it), the recorder, or the replay. -/
inductive DramUser where
  | hostRead (ctx block : Nat)
  | stripeClose
  | tileFill (wseq member data : Nat)
  | mapCache
  | background (ctx : Option Nat)
  | recorder
  | replay
deriving DecidableEq, Repr


/-- The means of one AFE measurement of one signal (R660), in units of 1/4,096 LSB: M0, then M+ and M− with VA and with
VB. -/
structure AfeIn where
  m0 : Int
  aPlus : Int
  aMinus : Int
  bPlus : Int
  bMinus : Int
deriving DecidableEq, Repr

/-- What the reference check measures (R651): REF_IN in µV and IREF in nA. -/
structure RefIn where
  vref : Nat
  iref : Nat
deriving DecidableEq, Repr

/-- One measurement of the shunt path (R661), in units of 1/4,096 code: Z, and the means with +VC and −VC. -/
structure ShuntIn where
  z : Int
  plus : Int
  minus : Int
deriving DecidableEq, Repr



/-- The straps sampled when chip reset is released (R730, R400, R584, R606): AF_SEL, DRAM_W, DRAM_R, DRAM_D, SBA and
SRAM_REP. -/
structure Straps where
  afSel : Bool := false
  dramW : Bool := false
  dramR : Bool := false
  dramD : BitVec 2 := 0
  sba : BitVec 3 := 0
  sramRep : Bool := false
deriving DecidableEq, Repr


/-- The commands: one constructor per row of the table of operations and events, in the table's order; those
without operands follow the others. -/
inductive Instr where
  /-- TICK (R17): a tick boundary with the inputs every channel latches at it. -/
  | tick (i : TickIn)
  /-- ROUTINE_OVERRUN (R250): the next overrun of channel `c` is reported. -/
  | routineOverrun (c : Ch)
  /-- HOLD_DELAY_EXPIRY (R293): the hold delay of axis `x` ends. -/
  | holdDelayExpiry (c : Ch) (x : Two)
  /-- TICK_CAPTURE_READ (R28, R44): a read of TMB_TICK_LO by origin `o`: of `len` of its bytes from byte `first` on, or with
  TMB_TICK_HI as one 64-bit access. -/
  | tickCaptureRead (o : Origin) (first len : Nat)
  /-- TOD_CAPTURE_READ (R29, R44): a read of TMB_TOD_LO by origin `o`, likewise. -/
  | todCaptureRead (o : Origin) (first len : Nat)
  /-- TOD_APPLY_WRITE (R30): a write of `v` to TMB_TOD_CTL. -/
  | todApplyWrite (o : Origin) (v : W32)
  /-- REGISTER_WRITE (R58): a register write with byte enables `be`; `high` is the upper half of a 64-bit access (R44), and `e`
  what the part reads of the entry when the address is that of a staging doorbell (R433). -/
  | registerWrite (o : Origin) (addr : Nat) (be : BitVec 4) (v : W32) (high : Option (BitVec 4 × W32)) (e : FetchEnd)
  /-- EXPERT_UNLOCK (R60): a write of `v` to BLK_LOCK of block `b`. -/
  | expertUnlock (o : Origin) (b : Blk) (v : W32)
  /-- EXPERT_LOCK_TIMEOUT (R60): the unlock time of block `b` is judged. -/
  | expertLockTimeout (b : Blk)
  /-- FREEZE_WRITE (R52): a write of `v` to BLK_CTL of block `b`. -/
  | freezeWrite (o : Origin) (b : Blk) (v : W32)
  /-- COUNTER_CLEAR (R190): a write of 1 to the CNT_CLEAR bit of block `b` (`bus`: of VMB_CTL of that bus). -/
  | counterClear (o : Origin) (b : Blk) (bus : Two)
  /-- WEDGE_BOUNDARY (R124): a wedge boundary timed by the SA wobble, with what the ten signals showed. -/
  | wedgeBoundary (c : Ch) (sigs : List SigWedge)
  /-- EQ_RESTART (R132): a write of `v` to RDC_EQ_CTL of signal `g`. -/
  | eqRestart (o : Origin) (c : Ch) (g : Fin 10) (v : W32)
  /-- SA_ADDRESS (R134): an address unit ends: which of wobbles 0 to 63 of SA, and of SB where it is read, were
  inverted. -/
  | saAddress (c : Ch) (sa : BitVec 64) (sb : Option (BitVec 64))
  /-- WOBBLE_READ_STOP (R137): the holdover of the synthesiser is judged. -/
  | wobbleReadStop (c : Ch)
  /-- TILE_READ_START (R138): the reading of a tile slot is judged at the wedge before its first. -/
  | tileReadStart (c : Ch) (p : TilePos)
  /-- WEDGE_SYNC (R143): the wedge-sync search window of beam `b` ends. -/
  | wedgeSync (c : Ch) (b : Beam) (i : WedgeSyncIn)
  /-- SECTOR_SYNC (R147): the sector-sync window of sector `q` on beam `b` ends: its ADC samples, timed from the place that the SA
  wobble gives the sector's first bit. -/
  | sectorSync (c : Ch) (b : Beam) (q : Fin 8) (adc : Samples)
  /-- DEFECT_SPAN_START (R165): the envelope of beam `b` is judged at slot position `pos`, over the equalised samples `y` that
  end there. -/
  | defectSpanStart (c : Ch) (b : Beam) (pos : Nat) (y : List Int)
  /-- DEFECT_SPAN_END (R165): the end of the span on beam `b` is judged at slot position `pos`, over the equalised samples `y`
  that end there. -/
  | defectSpanEnd (c : Ch) (b : Beam) (pos : Nat) (y : List Int)
  /-- DROPOUT_START (R166): the sum level of signal 8 (or 9, `outer`) is judged at `pos`, over the equalised samples `y` that end
  there. -/
  | dropoutStart (c : Ch) (outer : Bool) (pos : Nat) (y : List Int)
  /-- DROPOUT_END (R166): as DROPOUT_START, for the end of a dropout. -/
  | dropoutEnd (c : Ch) (outer : Bool) (pos : Nat) (y : List Int)
  /-- SECTOR_ROW_COMPLETE (R160): the ratios of row `q` are complete. -/
  | sectorRowComplete (c : Ch) (q : Fin 8) (i : RowIn)
  /-- LDPC_DECODE_DONE (R159): the decode of the codeword of row `q` on beam `b` ends. -/
  | ldpcDecodeDone (c : Ch) (q : Fin 8) (b : Beam)
  /-- OUTER_DECODE_DONE (R172): the outer decode of the tile read ends. -/
  | outerDecodeDone (c : Ch)
  /-- LADDER_REREAD (R175): a ladder attempt's decodes have ended. -/
  | ladderReread (c : Ch)
  /-- TILE_WRITE_START (R193): the writing of a tile slot is judged at the tick boundary before its first wedge. -/
  | tileWriteStart (c : Ch) (p : TilePos)
  /-- DRIVER_FRAME (R203): a control frame completes with the driver's response. -/
  | driverFrame (c : Ch) (resp : BitVec 32)
  /-- DRIVER_STATUS_POLL (R204): the port is judged for a STATUS read. -/
  | driverStatusPoll (c : Ch)
  /-- BANK_SWAP (R209): the sending of BANK is judged. -/
  | bankSwap (c : Ch)
  /-- APC_UPDATE (R211): a /16 period ends with 16 samples of LMON; of each emitter's `bits` bits in it, `sent` are the marks
  and the spaces. -/
  | apcUpdate (c : Ch) (lmon : List Nat) (sent : List (Nat × Nat)) (bits : Nat)
  /-- RAPC_UPDATE (R212): a /16 period ends with 16 samples of RMON. -/
  | rapcUpdate (c : Ch) (rmon : List Nat)
  /-- TILE_VERIFY_JUDGE (R216): the tile whose slots have results is judged. -/
  | tileVerifyJudge (c : Ch)
  /-- SPARE_TILE_WRITE (R219): the writing of a spare tile is judged. -/
  | spareTileWrite (c : Ch)
  /-- SAFE_CLR (R223): a write of `v` to WRC_CTL with SAFE_CLR. -/
  | safeClr (o : Origin) (c : Ch) (v : W32)
  /-- TT_SWAP (R248): a write of `v` to SRV_CTL. -/
  | ttSwap (o : Origin) (c : Ch) (v : W32)
  /-- TT_SWAP_APPLY (R248): the 64-tick boundary of a pending Timetable swap. -/
  | ttSwapApply (c : Ch)
  /-- LOOP_SWAP (R259): a write of `v` to LOOP_CTL of loop `l`, with SWAP. -/
  | loopSwap (o : Origin) (c : Ch) (l : Fin 7) (v : W32)
  /-- LOOP_CLOSE (R265): a write of `v` to LOOP_CTL, with CMD close. -/
  | loopClose (o : Origin) (c : Ch) (l : Fin 7) (v : W32)
  /-- LOOP_OPEN (R284): a write of `v` to LOOP_CTL, with CMD open. -/
  | loopOpen (o : Origin) (c : Ch) (l : Fin 7) (v : W32)
  /-- LOOP_HOLD (R284): a write of `v` to LOOP_CTL, with CMD hold. -/
  | loopHold (o : Origin) (c : Ch) (l : Fin 7) (v : W32)
  /-- LOOP_RELEASE (R284): a write of `v` to LOOP_CTL, with CMD release. -/
  | loopRelease (o : Origin) (c : Ch) (l : Fin 7) (v : W32)
  /-- HOLD_RESUME (R271): the light on the servo detectors is judged for the end of a hold. -/
  | holdResume (c : Ch)
  /-- FOCUS_CAPTURE (R268): the capture condition of FOCUS is judged. -/
  | focusCapture (c : Ch)
  /-- FOCUS_SWEEP_END (R268): the end of the focus sweep is judged. -/
  | focusSweepEnd (c : Ch)
  /-- TRACK_CAPTURE (R268): the capture condition of TRACK is judged. -/
  | trackCapture (c : Ch)
  /-- ACQUIRE_ADDRESS_TIMEOUT (R268): the wait for an address is judged. -/
  | acquireAddressTimeout (c : Ch)
  /-- LAYER_JUMP_CORRECTOR_DONE (R269): the corrector's arrival is judged. -/
  | layerJumpCorrectorDone (c : Ch)
  /-- LAYER_JUMP_PROFILE_END (R269): the end of the focus jump profile is judged. -/
  | layerJumpProfileEnd (c : Ch)
  /-- LAYER_JUMP_CAPTURE_TIMEOUT (R269): the wait for focus capture after a jump is judged. -/
  | layerJumpCaptureTimeout (c : Ch)
  /-- FOCUS_DROP (R272): the focus-drop conditions are judged. -/
  | focusDrop (c : Ch)
  /-- SERVO_BEAM_LOSS (R272): the servo-beam-loss conditions are judged. -/
  | servoBeamLoss (c : Ch)
  /-- TRACK_SLIP (R272): the track-slip conditions are judged. -/
  | trackSlip (c : Ch)
  /-- ONE_BEAM_END (R276): the end of one-beam mode is judged. -/
  | oneBeamEnd (c : Ch)
  /-- RECOVERY_ATTEMPT_TIMEOUT (R277): the time of a recovery attempt is judged. -/
  | recoveryAttemptTimeout (c : Ch)
  /-- RECOVERY_DONE (R275): the end of a recovery is judged. -/
  | recoveryDone (c : Ch)
  /-- AXIS_MODE_WRITE (R289): a write of `v` to AX_CTL of axis `x`. -/
  | axisModeWrite (o : Origin) (c : Ch) (x : Two) (v : W32)
  /-- DIR_INV_WRITE (R290): a write of `v` to AX_CTL with a new DIR_INV. -/
  | dirInvWrite (o : Origin) (c : Ch) (x : Two) (v : W32)
  /-- AXIS_PUSH (R300): a write of `v` to AX_QCMD. -/
  | axisPush (o : Origin) (c : Ch) (x : Two) (v : W32)
  /-- AXIS_ABORT (R303): a write of `v` to AX_CTL with ABORT. -/
  | axisAbort (o : Origin) (c : Ch) (x : Two) (v : W32)
  /-- HOMING_START (R307): a write of `v` to AX_CTL with MODE 3. -/
  | homingStart (o : Origin) (c : Ch) (x : Two) (v : W32)
  /-- HOME_INPUT_CHANGE (R308): the filtered change of the home input of axis `x` is judged. -/
  | homeInputChange (c : Ch) (x : Two)
  /-- HOMING_PHASE_FAIL (R310): the travel of the homing phase of axis `x` is judged. -/
  | homingPhaseFail (c : Ch) (x : Two)
  /-- SEEK_GO (R311): a write of `v` to MOT_SEEK. -/
  | seekGo (o : Origin) (c : Ch) (v : W32)
  /-- SEEK_COUNT_TIMEOUT (R315): the count of a seek whose profile has ended is judged. -/
  | seekCountTimeout (c : Ch)
  /-- CURRENT_LIMIT (R327): the shunt current exceeds ILIM_HW at a cycle of the present tick. -/
  | currentLimit (c : Ch) (cycle : Fin 2000)
  /-- BEMF_EDGE (R338): a comparator level of phase `ph` has held for 2 µs; it appeared at `cycle` relative to the present tick. -/
  | bemfEdge (c : Ch) (ph : Fin 3) (rising : Bool) (cycle : Int)
  /-- SPINDLE_START (R340): a write of `v` to SPN_CTL with CMD start. -/
  | spindleStart (o : Origin) (c : Ch) (v : W32)
  /-- SPINDLE_BRAKE (R355): a write of `v` to SPN_CTL with CMD brake. -/
  | spindleBrake (o : Origin) (c : Ch) (v : W32)
  /-- SPINDLE_COAST (R367): a write of `v` to SPN_CTL with CMD coast. -/
  | spindleCoast (o : Origin) (c : Ch) (v : W32)
  /-- START_WATCH_TIMEOUT (R340): the 800 ticks without a crossing are judged. -/
  | startWatchTimeout (c : Ch)
  /-- PROBE_END (R341): the end of the six probe pulses is judged. -/
  | probeEnd (c : Ch)
  /-- START_TIMEOUT (R342): the time limit of the attempt's phase is judged. -/
  | startTimeout (c : Ch)
  /-- START_PAUSE_END (R343): the end of the pause is judged. -/
  | startPauseEnd (c : Ch)
  /-- SIX_STEP_COMMUTATION (R347): the due commutation is judged. -/
  | sixStepCommutation (c : Ch)
  /-- COMMUTATION_LOST (R350): the wait for a crossing in six-step is judged. -/
  | commutationLost (c : Ch)
  /-- CATCH_COAST_END (R351): the end of the coast of a catch is judged. -/
  | catchCoastEnd (c : Ch)
  /-- CATCH_TIMEOUT (R352): the time of the catch is judged. -/
  | catchTimeout (c : Ch)
  /-- SHORT_V0_START (R356): the short-circuit current of SHORT is judged. -/
  | shortV0Start (c : Ch)
  /-- SPINDLE_STOPPED (R357): standstill in SHORT is judged. -/
  | spindleStopped (c : Ch)
  /-- CHOPPER_ON (R358): the bus has risen to `mv` mV. -/
  | chopperOn (b : Two) (mv : Nat)
  /-- CHOPPER_OFF (R358): the bus has fallen to `mv` mV. -/
  | chopperOff (b : Two) (mv : Nat)
  /-- CHOPPER_FAULT (R361): the chopper is judged; `noCurrent`: its current comparator did not hold. -/
  | chopperFault (b : Two) (noCurrent : Bool)
  /-- CHOP_CLR (R362): a write of `v` to VMB_CTL of bus `b`. -/
  | chopClr (o : Origin) (b : Two) (v : W32)
  /-- BUFFER_STOP (R359): the bus reaches `mv` mV. -/
  | bufferStop (b : Two) (mv : Nat)
  /-- BUFFER_STOP_RELEASE (R359): the release of a buffer stop is judged. -/
  | bufferStopRelease (b : Two)
  /-- UNDERVOLT_STOP (R363): the undervoltage condition is judged. -/
  | undervoltStop (b : Two)
  /-- UNDERVOLT_RELEASE (R363): the release of an undervoltage stop is judged. -/
  | undervoltRelease (b : Two)
  /-- MODE_REQUEST (R373): a write of `v` to DCM_CTL that requests a mode. -/
  | modeRequest (o : Origin) (c : Ch) (v : W32)
  /-- TARGET_WRITE (R373): a write of `v` to DCM_TGT. -/
  | targetWrite (o : Origin) (c : Ch) (v : W32)
  /-- PROFILE_REQUEST (R387): a write of `v` to DCM_CTL that requests a profile. -/
  | profileRequest (o : Origin) (c : Ch) (v : W32)
  /-- MODE_TRANSITION (R375): the transitions of the channel's mode are judged. -/
  | modeTransition (c : Ch)
  /-- SPINUP_TIMEOUT (R378): SPINUP_TIME is judged. -/
  | spinupTimeout (c : Ch)
  /-- SEEK_TIMEOUT (R378): SEEK_TIME is judged. -/
  | seekTimeout (c : Ch)
  /-- BRAKE_TIMEOUT (R378): BRAKE_TIME is judged. -/
  | brakeTimeout (c : Ch)
  /-- BUS_WAIT_TIMEOUT (R378): BUS_WAIT is judged. -/
  | busWaitTimeout (c : Ch)
  /-- TRANSFER_RESUME (R378): the resumption of transfer is judged. -/
  | transferResume (c : Ch)
  /-- STOP_CLR (R379): a write of `v` to DCM_CTL with STOP_CLR. -/
  | stopClr (o : Origin) (c : Ch) (v : W32)
  /-- PROFILE_APPLY (R387): the application of a changed profile is judged. -/
  | profileApply (c : Ch)
  /-- ALLOW_WRITE (R389): a write of `v` to DCM_ALLOW. -/
  | allowWrite (o : Origin) (c : Ch) (v : W32)
  /-- CONFIG_REQUEST (R396): a configuration request to function `f`. -/
  | configRequest (f : Fn) (q : CfgReq)
  /-- CFG_READY_WRITE (R422): a write of `v` to HLK_CTL. -/
  | cfgReadyWrite (o : Origin) (v : W32)
  /-- LINK_TRAINING_START (R396): PERST_N of port `p` is high and link training begins. -/
  | linkTrainingStart (p : Two)
  /-- LINK_UP (R395): training of port `p` ends: the highest speed code and the widest link the partner and the lanes allow. -/
  | linkUp (p : Two) (speed width : Nat)
  /-- LINK_DOWN (R410): the link of port `p` ends. -/
  | linkDown (p : Two) (k : LinkEnd)
  /-- FLR_VF (R410): Initiate Function Level Reset on virtual function `f`. -/
  | flrVf (f : Fn)
  /-- FLR_PF (R410): Initiate Function Level Reset on the physical function of port `p`. -/
  | flrPf (p : Two)
  /-- VF_ENABLE_CLEAR (R399): VF Enable of port `p` is written 0. -/
  | vfEnableClear (p : Two)
  /-- NUMVFS_WRITE (R399): NumVFs of port `p` is written. -/
  | numvfsWrite (p : Two) (n : Nat)
  /-- D3HOT_TO_D0 (R397): function `f` goes from D3hot to D0. -/
  | d3hotToD0 (f : Fn)
  /-- FUNCTION_RESET_END (R412): the end of the reset of function `f` is judged. -/
  | functionResetEnd (f : Fn)
  /-- BAR2_ACCESS (R402): a request to BAR2 of function `f` at an offset. -/
  | bar2Access (f : Fn) (off : Nat) (q : BarReq)
  /-- UNSUPPORTED_REQUEST (R415): a request that matches no BAR, on the port of function `f`. -/
  | unsupportedRequest (f : Fn) (isRead : Bool)
  /-- TENANT_READ_DENIED (R403): a register read of TENANT function `f`. -/
  | tenantReadDenied (f : Fn) (addr : Nat)
  /-- MSIX_UNMASK (R405): the mask of vector `v`, or of the function, clears. -/
  | msixUnmask (f : Fn) (v : Option Nat)
  /-- DMA_COMPLETION (R416): a completion for the `n`-th request outstanding on port `p`. -/
  | dmaCompletion (p : Two) (n : Nat) (e : DmaEnd)
  /-- COMPLETION_TIMEOUT (R409): the time of the `n`-th request outstanding on port `p` ends. -/
  | completionTimeout (p : Two) (n : Nat)
  /-- RING_ASSIGN_WRITE (R425): a write of `v` to HQE_FRINGf. -/
  | ringAssignWrite (o : Origin) (f : Fn) (v : W32)
  /-- RING_ENABLE (R428): a write of `v` to RC_CTL of global ring `g`, with ENABLE. -/
  | ringEnable (o : Origin) (g : Nat) (v : W32)
  /-- RING_SHUTDOWN (R452): a write of `v` to RC_CTL of global ring `g`, with SHUTDOWN. -/
  | ringShutdown (o : Origin) (g : Nat) (v : W32)
  /-- DRAIN_COMPLETE (R453): the end of the drain of ring `g` is judged; the HOST_TAGs of its unfetched entries, absent where the read fails. -/
  | drainComplete (g : Nat) (tags : List (Option Nat))
  /-- EVQ_ENABLE (R459): a write of `v` to RC_EVQ_LO of global ring `g`. -/
  | evqEnable (o : Origin) (g : Nat) (v : W32)
  /-- DOORBELL (R435): a write to the doorbell of local ring `r` of function `f`. -/
  | doorbell (f : Fn) (r : Nat) (be : BitVec 4) (v : W32)
  /-- STAGING_DOORBELL (R449): a write to the staging doorbell of local ring `r`; what the read of the entry then finds. -/
  | stagingDoorbell (f : Fn) (r : Nat) (be : BitVec 4) (v : W32) (e : FetchEnd)
  /-- ENTRY_FETCHED (R462): the entry due under the present grant is fetched. -/
  | entryFetched (e : FetchEnd)
  /-- DATA_RECEIVED (R449): every byte of the write fetched as number `id` has arrived; `data` are the bytes. -/
  | dataReceived (id : Nat) (data : List Byte)
  /-- GRANT_EXPIRY (R450): the pending grant of the command fetched as number `id` is judged. -/
  | grantExpiry (id : Nat)
  /-- READ (R486): the READ fetched as number `id` goes on. -/
  | read (id : Nat)
  /-- WRITE (R477): the WRITE fetched as number `id` goes on. -/
  | write (id : Nat)
  /-- VERIFY (R473): the VERIFY fetched as number `id` goes on. -/
  | verify (id : Nat)
  /-- FLUSH (R475): the FLUSH fetched as number `id` goes on. -/
  | flush (id : Nat)
  /-- QUERY_LOCATION (R474): the QUERY_LOCATION fetched as number `id` goes on. -/
  | queryLocation (id : Nat)
  /-- NS_CREATE (R506): the NS_CREATE fetched as number `id` begins. -/
  | nsCreate (id : Nat)
  /-- NS_DELETE (R508): the NS_DELETE fetched as number `id` is judged. -/
  | nsDelete (id : Nat)
  /-- NS_LIST (R478): the NS_LIST fetched as number `id` runs. -/
  | nsList (id : Nat)
  /-- MOUNT_NOTIFY (R381): the MOUNT_NOTIFY fetched as number `id` goes on; `d` is what its steps find on the disc. -/
  | mountNotify (id : Nat) (d : DiscIn)
  /-- UNMOUNT (R383): the UNMOUNT fetched as number `id` goes on. -/
  | unmount (id : Nat)
  /-- GET_LOG (R478): the GET_LOG fetched as number `id` runs. -/
  | getLog (id : Nat)
  /-- SET_TIME (R26): the SET_TIME fetched as number `id` runs. -/
  | setTime (id : Nat)
  /-- FW_DOWNLOAD (R641): the FW_DOWNLOAD fetched as number `id` runs on the bytes of its buffer; `bad`: a word or sector of the slot fails its verify. -/
  | fwDownload (id : Nat) (data : List Byte) (bad : Bool)
  /-- FW_ACTIVATE (R502): the FW_ACTIVATE fetched as number `id` begins. -/
  | fwActivate (id : Nat)
  /-- ACTIVATION_IMAGE_START (R643): the new image starts, or does not. -/
  | activationImageStart (starts : Bool)
  /-- REBUILD_START (R570): the REBUILD_START fetched as number `id` begins. -/
  | rebuildStart (id : Nat)
  /-- CALIBRATE (R657): the CALIBRATE fetched as number `id` begins. -/
  | calibrate (id : Nat)
  /-- RECORD_START (R705): the RECORD_START fetched as number `id` begins. -/
  | recordStart (id : Nat)
  /-- RECORD_LOAD (R704): the RECORD_START with LOAD fetched as number `id` runs on the bytes of its buffer. -/
  | recordLoad (id : Nat) (data : List Byte)
  /-- RECORD_STOP (R704): the RECORD_STOP fetched as number `id` begins. -/
  | recordStop (id : Nat)
  /-- RECORD_READ (R704): the RECORD_STOP with READ fetched as number `id` runs. -/
  | recordRead (id : Nat)
  /-- SET_FEATURE (R481): the SET_FEATURE fetched as number `id` runs. -/
  | setFeature (id : Nat)
  /-- SET_WRITER_ID (R482): the SET_FEATURE of WRITER_ID fetched as number `id` runs. -/
  | setWriterId (id : Nat)
  /-- IMPORT_CLOSE (R529): the SET_FEATURE of IMPORT fetched as number `id` runs. -/
  | importClose (id : Nat)
  /-- GET_FEATURE (R481): the GET_FEATURE fetched as number `id` runs. -/
  | getFeature (id : Nat)
  /-- SIDING_TIMEOUT (R491): the time in the Siding of the command fetched as number `id` is judged. -/
  | sidingTimeout (id : Nat)
  /-- MAP_CHECKPOINT_WRITE (R524): a checkpoint is written on the disc of channel `c` when one is due. -/
  | mapCheckpointWrite (c : Ch)
  /-- MAP_CACHE_ACCESS (R530): stream `q` reads or writes DRAM line `line` of the map. -/
  | mapCacheAccess (q : Stream) (line : Nat) (write : Bool)
  /-- MCA_PRELOAD (R535): a write of `v` to MCA_OP with OP 1. -/
  | mcaPreload (o : Origin) (v : W32)
  /-- MCA_INVALIDATE (R534): a write of `v` to MCA_OP with OP 2. -/
  | mcaInvalidate (o : Origin) (v : W32)
  /-- MCA_WRITEBACK (R530): a write of `v` to MCA_OP with OP 3. -/
  | mcaWriteback (o : Origin) (v : W32)
  /-- MCA_LOCK_WRITE (R535): a write of `v` to MCA_WAY. -/
  | mcaLockWrite (o : Origin) (v : W32)
  /-- STRIPE_CLOSE (R553): the closing of the open stripe of a set is judged; blocks, by member and data index, that come back uncorrectable. -/
  | stripeClose (set : Nat) (poison : List (Nat × Nat))
  /-- COALESCE_TIMEOUT (R476): the COALESCE time of the open stripe of a set is judged. -/
  | coalesceTimeout (set : Nat)
  /-- STRIPE_COMPLETE (R555): the closed stripe with WSEQ `w` is judged. -/
  | stripeComplete (w : Nat)
  /-- WELT_SECTOR_ERASE (R565): Welt sector `k` is judged for its erase. -/
  | weltSectorErase (k : Nat)
  /-- WELT_COPY_WRITE (R566): the Welt copies that wait for the disc of channel `c` are judged. -/
  | weltCopyWrite (c : Ch)
  /-- STRIPE_RECONSTRUCT (R559): rung 5 for block `k` of command `id`, or for the tile of channel `c` at rung 5, with the tiles that the other members give. -/
  | stripeReconstruct (id : Option Nat) (k : Nat) (c : Ch) (tiles : List MemberTile)
  /-- MEMBER_TIMEOUT (R561): the member reads of command `id` are judged against MEMBER_TIMEOUT. -/
  | memberTimeout (id : Nat)
  /-- REBUILD_POSITION (R571): Resole handles its next position with the survivors' tiles; `kept`: a slot already written on the replacement decodes with all 64 slots accepted. -/
  | rebuildPosition (tiles : List MemberTile) (kept : Bool)
  /-- SEAL_INJECT_ARM (R582): a write of `v` to SEA_INJ. -/
  | sealInjectArm (o : Origin) (v : W32)
  /-- DRAM_TRAINING_DONE (R586): training ends; for 6,400, 5,600 and 4,800 MT/s, whether channel 0 and channel 1 train. -/
  | dramTrainingDone (trains : List (Bool × Bool))
  /-- DRAM_READ (R589): a line is read; bytes of the 80 that arrive changed, and by which bits. -/
  | dramRead (u : DramUser) (line : Nat) (err : List (Nat × Byte))
  /-- DRAM_RMW (R594): a write of some bytes of a line. -/
  | dramRmw (u : DramUser) (line : Nat) (new : List (Nat × Byte)) (err : List (Nat × Byte))
  /-- SCRUB_READ (R596): the scrubber reads its next line. -/
  | scrubRead (err : List (Nat × Byte))
  /-- REMAP_WRITE (R600): a write of `v` to MEM_REMAPk. -/
  | remapWrite (o : Origin) (k : Fin 16) (v : W32)
  /-- SRAM_CORRECTED (R604): a read of array `a` corrects a word; `again`: on its first read after such a write-back. -/
  | sramCorrected (a : Fin 44) (again : Bool)
  /-- SRAM_UNCORRECTABLE (R603): a word of array `a` is uncorrectable: the command, ring or DRAM line it holds, or the slots that read it. -/
  | sramUncorrectable (a : Fin 44) (n : Nat) (slots : List Nat)
  /-- SRAM_MODE_WRITE (R606): a write of `v` to MEM_SRAM_MODE_LO or _HI. -/
  | sramModeWrite (o : Origin) (hi : Bool) (v : W32)
  /-- SRAM_SEAL (R606): a write of `v` to MEM_REPAIR. -/
  | sramSeal (o : Origin) (v : W32)
  /-- SRAM_INJECT_ARM (R608): a write of `v` to MEM_SRAM_INJ. -/
  | sramInjectArm (o : Origin) (v : W32)
  /-- TEST_RAW_READ (R607): a write of `v` to MEM_TCMD with CMD 1. -/
  | testRawRead (o : Origin) (v : W32)
  /-- TEST_RAW_WRITE (R607): a write of `v` to MEM_TCMD with CMD 2. -/
  | testRawWrite (o : Origin) (v : W32)
  /-- TEST_ENCODED_WRITE (R607): a write of `v` to MEM_TCMD with CMD 3. -/
  | testEncodedWrite (o : Origin) (v : W32)
  /-- FLASH_READ (R619): a write of `v` to FLS_CMDb that reads; bit positions of the word's 137 that read wrong. -/
  | flashRead (o : Origin) (b : Two) (v : W32) (err : List Nat)
  /-- FLASH_PROGRAM (R621): a write of `v` to FLS_CMDb that programs. -/
  | flashProgram (o : Origin) (b : Two) (v : W32)
  /-- FLASH_PROGRAM_DONE (R622): the program of bank `b` ends; `bad`: the word read back differs. -/
  | flashProgramDone (b : Two) (bad : Bool)
  /-- FLASH_ERASE (R624): a write of `v` to FLS_CMDb that erases. -/
  | flashErase (o : Origin) (b : Two) (v : W32)
  /-- FLASH_ERASE_DONE (R624): the erase of bank `b` ends; `bad`: a word did not verify. -/
  | flashEraseDone (b : Two) (bad : Bool)
  /-- FLASH_SUSPEND (R626): a write of `v` to FLS_CMDb that suspends. -/
  | flashSuspend (o : Origin) (b : Two) (v : W32)
  /-- FLASH_SUSPEND_ACCEPT (R626): the pending suspend of bank `b` is judged. -/
  | flashSuspendAccept (b : Two)
  /-- FLASH_RESUME (R623): a write of `v` to FLS_CMDb that resumes. -/
  | flashResume (o : Origin) (b : Two) (v : W32)
  /-- FLASH_CORE_READ (R620): a read of flash by a management core, or an instruction fetch. -/
  | flashCoreRead (core : Two) (addr : Nat) (fetch : Bool) (err : List Nat)
  /-- FETCH_DIVERT_WRITE (R630): a write of `v` to FLS_DIVERT. -/
  | fetchDivertWrite (o : Origin) (v : W32)
  /-- FETCH_STALL (R629): the wait of a core for its fetch is judged. -/
  | fetchStall (core : Two)
  /-- CAL_REF (R651): MEASURE 0x01 runs with what the reference check measures. -/
  | calRef (ref : RefIn)
  /-- CAL_AFE (R660): MEASURE 0x02 runs on channel `c`: both measurements of each of the ten signals. -/
  | calAfe (c : Ch) (ref : RefIn) (l : List (AfeIn × AfeIn))
  /-- CAL_SERVO_OFS (R661): MEASURE 0x03: both means of inputs 0 to 8, in 1/4,096 code. -/
  | calServoOfs (c : Ch) (ref : RefIn) (l : List (Int × Int))
  /-- CAL_MONITOR (R661): MEASURE 0x04: both means of LMON and of RMON, in 1/4,096 code. -/
  | calMonitor (c : Ch) (ref : RefIn) (lm rm : Int × Int)
  /-- CAL_SHUNT (R661): MEASURE 0x05: both measurements of the shunt path. -/
  | calShunt (c : Ch) (ref : RefIn) (a b : ShuntIn)
  /-- CAL_TRIMS (R656): MEASURE 0x0F ends once its four measurements have. -/
  | calTrims (c : Ch)
  /-- CAL_LASER (R673): MEASURE 0x10: for each emitter the 64 LMON readings, each the sum over 16 ticks. -/
  | calLaser (c : Ch) (ref : RefIn) (l : List (List Nat))
  /-- CAL_RESPONSE (R674): MEASURE 0x11: the mean 8T amplitude of each beam in 1/16 LSB, and the mean RMON reading. -/
  | calResponse (c : Ch) (ref : RefIn) (amp : List Nat) (rmean : Nat)
  /-- CAL_ACTUATOR (R675): MEASURE 0x12: the magnitudes of the accumulated signal and output of FOCUS, TRACK and TILT. -/
  | calActuator (c : Ch) (ref : RefIn) (l : List (Nat × Nat))
  /-- CAL_FRICTION (R676): MEASURE 0x13: the ticks t1 and t2 of the coast and the speed at t2 in 0.1 rpm. -/
  | calFriction (c : Ch) (ref : RefIn) (t1 t2 v2 : Nat)
  /-- CAL_MARGIN (R677): MEASURE 0x14: corrected bits and failed codewords of its 18 reads: nominal, SPAN 0b10, focus +1 to +4, −1 to −4, track +1 to +4, −1 to −4. -/
  | calMargin (c : Ch) (ref : RefIn) (l : List (Nat × Nat))
  /-- CAL_AGEING (R679): MEASURE 0x1F ends once its five measurements have. -/
  | calAgeing (c : Ch)
  /-- CAL_LAST_CAPTURE (R672): MEASURE 0x20 ends once its five measurements have. -/
  | calLastCapture (c : Ch)
  /-- CAL_STORE_TABLES (R668): MEASURE 0x30 runs on channel `c`. -/
  | calStoreTables (c : Ch) (ref : RefIn)
  /-- AGEING_DUE (R678): the time of the next ageing run of channel `c` is judged. -/
  | ageingDue (c : Ch)
  /-- AGEING_START (R678): the start of a due ageing run is judged. -/
  | ageingStart (c : Ch)
  /-- HLT_CLR (R693): a write of `v` to HLT_CLR. -/
  | hltClr (o : Origin) (v : W32)
  /-- JUNCTION_HOT (R690): the junction temperature becomes `temp`, in 1/16 °C. -/
  | junctionHot (temp : Int)
  /-- LOG_ENABLE (R751): a write of `v` to HLT_CTL; `area` is what the DRAM rings hold. -/
  | logEnable (o : Origin) (v : W32) (area : LogArea)
  /-- TRIG_WRITE (R710): a write of `v` to TMB_TRIG; `snip` is the snippet captured if one is. -/
  | trigWrite (o : Origin) (v : W32) (snip : List Byte)
  /-- REPLAY_PREP (R711): a write of `v` to TMB_REPLAY. -/
  | replayPrep (o : Origin) (v : W32)
  /-- REPLAY_END (R712): the frames of the replaying channel are exhausted. -/
  | replayEnd (c : Ch)
  /-- I2C_POINTER_WRITE (R715): a 4-byte sideband write. -/
  | i2cPointerWrite (addr : W32)
  /-- I2C_REGISTER_WRITE (R715): an 8-byte sideband write; `e` as in REGISTER_WRITE. -/
  | i2cRegisterWrite (addr v : W32) (e : FetchEnd)
  /-- I2C_READ (R715): a sideband read of `n` registers. -/
  | i2cRead (n : Nat)
  /-- CHIP_RESET_RELEASE (R742): 1.0 ms has passed since PORST_N rose; `t` is what the straps show. -/
  | chipResetRelease (t : Straps)
  /-- SUPPLY_RESTORED (R740): both rails have been back in range for 5 ms and 1.0 ms more has passed; `t` is what the straps show. -/
  | supplyRestored (t : Straps)
  /-- JTAG_REGACC (R746): Update-DR under REGACC with WRITE, ADDR and DATA; `e` as in REGISTER_WRITE. -/
  | jtagRegacc (write : Bool) (addr : Nat) (data : W32) (e : FetchEnd)
  /-- JTAG_EXTEST (R745): EXTEST takes effect with `load` in the boundary cells. -/
  | jtagExtest (load : List Bool)
  /-- JTAG_SAMPLE_PRELOAD (R745): SAMPLE/PRELOAD captures the balls' levels and loads the boundary cells. -/
  | jtagSamplePreload (sample load : List Bool)
  /-- WOBBLE_PLL_LOCK (R134): the wobble PLL locks at `freq` units of 1/16 Hz. -/
  | wobblePllLock (c : Ch) (freq : Nat)
  /-- WOBBLE_PLL_LOCK_LOSS (R137): the wobble PLL loses lock. -/
  | wobblePllLockLoss (c : Ch)
  /-- FLASH_SUSPENDED (R626): the accepted suspend of bank `b` completes. -/
  | flashSuspended (b : Two)
  /-- AER_ERROR (R414): an error concerning function `f`, with its header. -/
  | aerError (f : Fn) (e : AerErr) (hdr : List Nat)
  /-- TIMEBASE_LOST (R33): the timebase PLL loses lock. -/
  | timebaseLost
  /-- PWRFAIL_ASSERT (R222): PWRFAIL_N falls. -/
  | pwrfailAssert
  /-- PWRFAIL_CONFIRMED (R222): PWRFAIL_N has stayed low for 0.10 µs. -/
  | pwrfailConfirmed
  /-- PWRFAIL_DEASSERT (R744): PWRFAIL_N rises. -/
  | pwrfailDeassert
  /-- PWRFAIL_RESTART (R380): PWRFAIL_N has stood high for 10 ms. -/
  | pwrfailRestart
  /-- ARBITER_GRANT (R439): the Signal box gives its next grant. -/
  | arbiterGrant
  /-- BUFFER_RESERVATION (R448): the next reservation in the stripe buffer is judged. -/
  | bufferReservation
  /-- ACTIVATION_DRAIN_TIMEOUT (R502): the drain time of the activation is judged. -/
  | activationDrainTimeout
  /-- MAP_COMMIT (R518): the next ready group is staged. -/
  | mapCommit
  /-- JOURNAL_RECORD_PROGRAMMED (R519): the last journal record of the group is programmed. -/
  | journalRecordProgrammed
  /-- MAP_RECOVERY (R521): the map is rebuilt from base and journal. -/
  | mapRecovery (badJ badW : List Nat)
  /-- MAP_BASE_REWRITE (R522): the map base is rewritten. -/
  | mapBaseRewrite
  /-- CACHE_FILL_DONE (R532): the outstanding line fill ends. -/
  | cacheFillDone
  /-- CACHE_EVICT_DONE (R533): the write-back of the eviction buffer ends. -/
  | cacheEvictDone
  /-- DRAM_FILL_DONE (R592): the initialisation fill ends. -/
  | dramFillDone
  /-- REMAP_COPY_DONE (R600): the copy to a spare line ends. -/
  | remapCopyDone
  /-- FLASH_FLAG_SCAN (R625): the flag cells are read after chip reset. -/
  | flashFlagScan
  /-- IMAGE_CHECK (R638): both images are checked. -/
  | imageCheck
  /-- CORE_RELEASE (R638): the release of the cores is judged. -/
  | coreRelease
  /-- FETCH_DIVERT_END (R630): the end of diversion is judged. -/
  | fetchDivertEnd
  /-- FAULT_REPORT (R696): the oldest fault on its way arrives at the health manager. -/
  | faultReport
  /-- FAULT_RECORD_HANDLE (R696): the health manager takes its next record. -/
  | faultRecordHandle
  /-- EVENT_LOG_PERSIST (R703): a batch of event log entries is stored. -/
  | eventLogPersist
  /-- VIOLATION_LOG_PERSIST (R703): the new violation log entries are stored. -/
  | violationLogPersist
  /-- RECORDING_BEGIN (R705): the pending recording begins at its 64-tick boundary. -/
  | recordingBegin
  /-- RECORDING_END (R710): the end condition of the running recording is judged. -/
  | recordingEnd
  /-- I2C_BUS_RESET (R715): SCL has been low for 35 ms. -/
  | i2cBusReset
  /-- SIDEBAND_READY (R715): 10 ms after chip reset release. -/
  | sidebandReady
  /-- PORST_ASSERT (R739): PORST_N has been low for 10 µs. -/
  | porstAssert
  /-- SUPPLY_LOW (R740): VDD_CORE falls below 0.68 V or VDD_3V3 below 2.90 V. -/
  | supplyLow
  /-- JTAG_IDCODE (R745): a scan under IDCODE. -/
  | jtagIdcode
  /-- JTAG_BYPASS (R745): a scan under BYPASS or an unlisted code. -/
  | jtagBypass
deriving DecidableEq, Repr

end Sys2Proof
end

