-- ==== Sys2Proof/Decode.lean ====
section
/-! DEFINITION. The decoder of table words. The part is a block: it has no instruction words, and no row of the table of
operations and events gives any bit. -/

namespace Sys2Proof

/-- The command that a word of `nbits` bits spells by the table's bits: none, since no row has bits. -/
def decodeTableWord (_nbits _w : Nat) : Option Instr := none

end Sys2Proof
end

