-- ==== Sys2Proof/Machine/Crypto.lean ====
section
/-! DEFINITION. SHA-384 and the verification of an ECDSA P-384 signature, which R633 and R634 name. PRESUMED (log 41):
the spec names both and their published standards define them. -/

namespace Sys2Proof.Machine

/-! ### SHA-384 -/

/-- The largest number whose `k`-th power is at most `n`, found bit by bit from bit `b` down. -/
def iroot (k n : Nat) : Nat → Nat → Nat
  | 0, r => r
  | b + 1, r => iroot k n b (if (r + 2 ^ b) ^ k ≤ n then r + 2 ^ b else r)

/-- Is `n` a prime? -/
def isPrime (n : Nat) : Bool := decide (2 ≤ n) && (List.range n).all (fun d => d < 2 || n % d != 0)

/-- The first 80 primes. -/
def primes80 : List Nat := ((List.range 410).filter isPrime).take 80

/-- Round constants: the first 64 bits of the fractional parts of the cube roots of the primes. -/
def shaK : List Nat := primes80.map (fun p => iroot 3 (p * 2 ^ 192) 68 0 % 2 ^ 64)

/-- Initial value: the first 64 bits of the fractional parts of the square roots of the ninth to sixteenth primes. -/
def shaInit : List Nat := ((primes80.drop 8).take 8).map (fun p => iroot 2 (p * 2 ^ 128) 68 0 % 2 ^ 64)

/-- Rotation of a 64-bit word to the right. -/
def rotr (x n : Nat) : Nat := (x >>> n) ||| ((x <<< (64 - n)) % 2 ^ 64)

/-- The next word of the message schedule, words newest first. -/
def shaNext (w : List Nat) : Nat :=
  let a := w.getD 1 0
  let b := w.getD 14 0
  let s0 := rotr b 1 ^^^ rotr b 8 ^^^ b >>> 7
  let s1 := rotr a 19 ^^^ rotr a 61 ^^^ a >>> 6
  (w.getD 15 0 + s0 + w.getD 6 0 + s1) % 2 ^ 64

/-- The message schedule extended, newest first. -/
def shaExpand : Nat → List Nat → List Nat
  | 0, w => w
  | n + 1, w => shaExpand n (shaNext w :: w)

/-- One round on the eight working words. -/
def shaRound (v : List Nat) (kw : Nat × Nat) : List Nat :=
  let g := fun i => v.getD i 0
  let s1 := rotr (g 4) 14 ^^^ rotr (g 4) 18 ^^^ rotr (g 4) 41
  let c := (g 4 &&& g 5) ^^^ ((2 ^ 64 - 1 - g 4) &&& g 6)
  let t1 := g 7 + s1 + c + kw.1 + kw.2
  let s0 := rotr (g 0) 28 ^^^ rotr (g 0) 34 ^^^ rotr (g 0) 39
  let m := (g 0 &&& g 1) ^^^ (g 0 &&& g 2) ^^^ (g 1 &&& g 2)
  [(t1 + s0 + m) % 2 ^ 64, g 0, g 1, g 2, (g 3 + t1) % 2 ^ 64, g 4, g 5, g 6]

/-- A number from bytes, the first the most significant. -/
def beNat (l : List Byte) : Nat := l.foldl (fun n b => n * 256 + b.toNat) 0

/-- `k` bytes of a number, the first the most significant. -/
def beBytes (k n : Nat) : List Byte := (List.range k).map (fun i => BitVec.ofNat 8 (n / 256 ^ (k - 1 - i)))

/-- The message padded to blocks of 128 bytes. -/
def shaPad (l : List Byte) : List Byte :=
  let z := (239 - l.length % 128) % 128
  l ++ [0x80] ++ List.replicate z 0 ++ beBytes 16 (8 * l.length)

/-- Runs the blocks of a padded message; on fuel. -/
def shaBlocks : Nat → List Byte → List Nat → List Nat
  | 0, _, h => h
  | n + 1, l, h =>
    let w := (shaExpand 64 ((List.range 16).map (fun k => beNat ((l.drop (8 * k)).take 8))).reverse).reverse
    let v := (shaK.zip w).foldl shaRound h
    shaBlocks n (l.drop 128) (List.zipWith (fun a b => (a + b) % 2 ^ 64) h v)

/-- SHA-384 as a number, first byte the most significant. -/
def sha384 (l : List Byte) : Nat :=
  let p := shaPad l
  ((shaBlocks (p.length / 128) p shaInit).take 6).foldl (fun n x => n * 2 ^ 64 + x) 0

/-! ### ECDSA P-384 -/

/-- The prime of the field. -/
def p384 : Nat := 2 ^ 384 - 2 ^ 128 - 2 ^ 96 + 2 ^ 32 - 1
/-- The order of the base point. -/
def n384 : Nat := 0xffffffffffffffffffffffffffffffffffffffffffffffffc7634d81f4372ddf581a0db248b0a77aecec196accc52973
/-- The constant term of the curve. -/
def b384 : Nat := 0xb3312fa7e23ee7e4988e056be3f82d19181d9c6efe8141120314088f5013875ac656398d8a2ed19d2a85c8edd3ec2aef
/-- The base point. -/
def g384 : Nat × Nat :=
  (0xaa87ca22be8b05378eb1c71ef320ad746e1d3b628ba79b9859f741e082542a385502f25dbf55296c3a545e3872760ab7,
   0x3617de4a96262c6f5d9e98bf9292dc29f8f41dbd289a147ce9da3113b5f0b8c00a60b1ce1d7e819d7a431d7c90ea0e5f)

/-- Power modulo `m`, over the low `k` bits of the exponent. -/
def modPow (m : Nat) : Nat → Nat → Nat → Nat → Nat
  | 0, _, _, r => r
  | k + 1, a, e, r => modPow m k (a * a % m) (e / 2) (if e % 2 = 1 then r * a % m else r)

/-- Inverse modulo a prime. -/
def modInv (m a : Nat) : Nat := modPow m 384 (a % m) (m - 2) 1

/-- Difference modulo the field's prime. -/
def fsub (a b : Nat) : Nat := (a + (p384 - b % p384)) % p384

/-- Sum of two points; none is the point at infinity. -/
def ptAdd : Option (Nat × Nat) → Option (Nat × Nat) → Option (Nat × Nat)
  | none, q => q
  | p, none => p
  | some (x1, y1), some (x2, y2) =>
    let out := fun l =>
      let x := fsub (l * l) (x1 + x2)
      some (x, fsub (l * fsub x1 x) y1)
    if x1 = x2 then
      if (y1 + y2) % p384 = 0 then none
      else out (fsub (3 * x1 * x1) 3 * modInv p384 (2 * y1) % p384)
    else out (fsub y2 y1 * modInv p384 (fsub x2 x1) % p384)

/-- Multiple of a point, over the low `k` bits. -/
def ptMul : Nat → Nat → Option (Nat × Nat) → Option (Nat × Nat) → Option (Nat × Nat)
  | 0, _, _, r => r
  | k + 1, n, p, r => ptMul k (n / 2) (ptAdd p p) (if n % 2 = 1 then ptAdd r p else r)

/-- Does a signature (r, s) over a digest verify against a public key? -/
def ecdsaOk (q : Nat × Nat) (digest r s : Nat) : Bool :=
  let on := q.1 < p384 && q.2 < p384 && (q.2 * q.2) % p384 == (fsub (q.1 * q.1 * q.1) (3 * q.1) + b384) % p384
  if !on || r == 0 || s == 0 || decide (n384 ≤ r ∨ n384 ≤ s) then false
  else
    let w := modInv n384 s
    match ptAdd (ptMul 384 (digest * w % n384) (some g384) none) (ptMul 384 (r * w % n384) (some q) none) with
    | none => false
    | some (x, _) => x % n384 == r

end Sys2Proof.Machine
end

