-- ==== Sys2Proof/Config.lean ====
section
/-! DEFINITION. What the spec leaves to the part, the board or chance: constants of the implementation and free
values. A free value is opaque, so no proof can see what it is. -/

namespace Sys2Proof.Config

/-- REV of every BLK_ID (R49). DEDUCED (log 2): the worked example of R62 reads BLK_ID 0x0105_0301 for SRV of DC3,
revision 0x01; the model gives every block that revision. -/
def blkRev : Nat := 1

/-- FLS_SECMIN as fused in the part (R649): the spec gives no number. Free value (log 4). -/
opaque secMinFuse : Nat

/-- The CORDIC functions of R330: the unit vector of an angle, with LSB 2⁻³⁰; the angle of a vector in 2⁻³² turn; and
the product of a unit vector and a vector. Free values (log 12): the spec says they are the same on every part and
gives no digits. -/
opaque cordicDir : Nat → Int × Int
/-- Angle of a vector by the CORDIC of R330. -/
opaque cordicAngle : Int → Int → Nat
/-- Dot product of a unit vector (LSB 2⁻³⁰) and a vector by the CORDIC of R330. -/
opaque cordicDot : Int × Int → Int × Int → Int

/-- Predicted current of the observer when IND is 0 (R331). Free value (log 12): the spec divides by IND. -/
opaque currentNoInd : Int → Int

/-- A torque as a fraction of TMAX, and the width term of R336, when TMAX is 0. Free values (log 24): the spec divides
by TMAX. -/
opaque noTmax : Int → Int

/-- The detail word of a fault (R696) whose rule defines none: by class and tick. Free value (log 17). -/
opaque openDetail : Nat → Nat → Nat

/-- What the internal state items of a loaded state image without a stated layout, and the registers' record order,
hold (R708): by the bytes of the image. Free value (log 26). -/
opaque openImageWord : Nat → Nat → Nat

/-- The log-likelihood ratio of a difference of path metrics in the joint detector (R152, R155), before LLR_SCALE, and
the metric an a-priori ratio adds (R157). Free values (log 32): the spec gives the detector's rule and no unit of its
metrics. -/
opaque ratioOf : Int → Rat
/-- Metric of an a-priori ratio. -/
opaque priorCost : Int → Int

/-- The expected value of a channel bit, in units of 1/256, from its detector's ratio before LLR_SCALE (R152, R157). Free value
(log 144): the spec names its range and no function. -/
opaque expectOf : Rat → Int
/-- The a-priori ratios of a sector's code channel bits from the extrinsic ratios of its codeword and the ratios that the code
channel bits had (R157). Free value (log 144). -/
opaque channelPriors : List Int → List Int → List Int

/-- A power level above 16 bits (R210). Free value (log 34): the spec states no result there. -/
opaque levelOver : Nat → Nat

/-- Scale corrections when the expected monitor value is 0 (R211, R212). Free value (log 35): the spec divides by it. -/
opaque scaleNoMean : Nat → Rat → Int

/-- What a monitor input is expected to read for a level, by its gain trim (R211, R212); the first argument is true for RMON.
Free value (log 135): the spec does not state the conversion. -/
opaque monitorCodes : Bool → Int → Rat → Rat

/-- The bytes of a snippet that a fault triggers (R709): by tick and offset. Free value (log 27): they are what the ten
signals show. -/
opaque snippet : Nat → Nat → Nat

/-- Decisions before the first compared sample of a snippet, as ±1: signal and distance. Free value (log 27): the
snippet holds none (R709). -/
opaque snipBefore : Nat → Nat → Int

/-- The rank a DRAM line lies in when a channel has two (R593). Free value (log 36): the spec gives no mapping. -/
opaque rankOf : Nat → Nat

/-- Spare rows of an on-chip array in use by its fuse map (R612). Free value (log 38): the fuses hold it. -/
opaque fuseRows : Nat → Nat

/-- The key hash fused in a slot, and whether the slot is programmed and not revoked (R634). Free values (log 39): the
vendor programs the fuses. -/
opaque keyHash : Nat → Nat
/-- A programmed key slot that is not revoked. -/
opaque keyGood : Nat → Bool

/-- A flash word after a program or an erase whose verify failed: by word address and tick. Free value (log 40): the
spec says only that it differs. -/
opaque flashBad : Nat → Nat → Nat

/-- The fault class that INTERNAL_FAULT reports for an extent whose disc holds nothing of it (R526): by extent. Free
value (log 45): no fault class names the case. -/
opaque orphanClass : Nat → Nat

/-- The fault class that INTERNAL_FAULT reports when a new image does not start (R504): by tick. Free value (log 48): no
fault class names the case. -/
opaque startClass : Nat → Nat

/-- A quotient of a calibration result whose divisor is 0 (R673–R682): by the dividend. Free value (log 50): the spec
states no result there. -/
opaque calQuot : Rat → Rat

/-- A calibration result outside the 16 bits that hold it (R667, R680): by the result. Free value (log 50): the spec
states no result there. -/
opaque calOver : Int → Nat

/-- The INDEX that the part reads at a position of a log's DRAM ring that the resident firmware has not written (R751): by
log and position. Free value (log 52): it is what DRAM holds there. -/
opaque ringIndex : Nat → Nat → Nat

/-- The cycle at which the current limit ended a replayed tick's vector (R365): by tick. Free value (log 55): a frame
holds only that it acted (R707). -/
opaque replayCut : Nat → Nat

/-- The bus voltage in mV that a code of the VM ADC stands for (R358). Free value (log 57): the spec gives a 12-bit ADC and
no voltage of a code. -/
opaque vmMilli : Nat → Nat

/-- A quotient whose divisor is 0 where the spec states no result: the expected value of an outer neighbour with AMP 0
(R153), a correlation over samples without energy (R142), the TE term with KNM_T 0 (R270), the SPEED error with a set speed of 0 (R254), and a seed speed from crossings
without time between them (R349, R351). By place and dividend. Free value (log 58). -/
opaque openQuot : Nat → Int → Int

end Sys2Proof.Config
end

