-- ==== Sys2Proof/Machine/RegMap.lean ====
section
/-! DEFINITION. The register map: every field of every register, and one row per register with the access of its
bits (R58) and its reset value, as the chapters' register tables give them. Channel blocks are listed relative to
the channel's base (R46); every other block at its absolute address (R45). -/

namespace Sys2Proof.Machine

/-- A register field: address of the register (element 0 of an array), highest and lowest bit, and the strides of
the two array indices. -/
structure Fld where
  base : Nat
  hi : Nat
  lo : Nat
  s1 : Nat
  s2 : Nat
deriving DecidableEq, Repr

/-- One register or register array: address, the two index counts and strides, the masks of the RW, RWL, W1C, W1S
and WO bits (R58; every other bit is RO or reserved), and the reset value by index. -/
structure RegRow where
  base : Nat
  n1 : Nat
  s1 : Nat
  n2 : Nat
  s2 : Nat
  rw : Nat
  rwl : Nat
  w1c : Nat
  w1s : Nat
  wo : Nat
  reset : Nat → Nat → Nat

/-- Reset values of AX_WAVEk, k from 0 to 256: round(32,767 × sin(π × k / 512)) (R319). -/
def waveTable : List Nat :=
  [0, 201, 402, 603, 804, 1005, 1206, 1407, 1608, 1809, 2009, 2210, 2410, 2611, 2811, 3012] ++
  [3212, 3412, 3612, 3811, 4011, 4210, 4410, 4609, 4808, 5007, 5205, 5404, 5602, 5800, 5998, 6195] ++
  [6393, 6590, 6786, 6983, 7179, 7375, 7571, 7767, 7962, 8157, 8351, 8545, 8739, 8933, 9126, 9319] ++
  [9512, 9704, 9896, 10087, 10278, 10469, 10659, 10849, 11039, 11228, 11417, 11605, 11793, 11980, 12167, 12353] ++
  [12539, 12725, 12910, 13094, 13279, 13462, 13645, 13828, 14010, 14191, 14372, 14553, 14732, 14912, 15090, 15269] ++
  [15446, 15623, 15800, 15976, 16151, 16325, 16499, 16673, 16846, 17018, 17189, 17360, 17530, 17700, 17869, 18037] ++
  [18204, 18371, 18537, 18703, 18868, 19032, 19195, 19357, 19519, 19680, 19841, 20000, 20159, 20317, 20475, 20631] ++
  [20787, 20942, 21096, 21250, 21403, 21554, 21705, 21856, 22005, 22154, 22301, 22448, 22594, 22739, 22884, 23027] ++
  [23170, 23311, 23452, 23592, 23731, 23870, 24007, 24143, 24279, 24413, 24547, 24680, 24811, 24942, 25072, 25201] ++
  [25329, 25456, 25582, 25708, 25832, 25955, 26077, 26198, 26319, 26438, 26556, 26674, 26790, 26905, 27019, 27133] ++
  [27245, 27356, 27466, 27575, 27683, 27790, 27896, 28001, 28105, 28208, 28310, 28411, 28510, 28609, 28706, 28803] ++
  [28898, 28992, 29085, 29177, 29268, 29358, 29447, 29534, 29621, 29706, 29791, 29874, 29956, 30037, 30117, 30195] ++
  [30273, 30349, 30424, 30498, 30571, 30643, 30714, 30783, 30852, 30919, 30985, 31050, 31113, 31176, 31237, 31297] ++
  [31356, 31414, 31470, 31526, 31580, 31633, 31685, 31736, 31785, 31833, 31880, 31926, 31971, 32014, 32057, 32098] ++
  [32137, 32176, 32213, 32250, 32285, 32318, 32351, 32382, 32412, 32441, 32469, 32495, 32521, 32545, 32567, 32589] ++
  [32609, 32628, 32646, 32663, 32678, 32692, 32705, 32717, 32728, 32737, 32745, 32752, 32757, 32761, 32765, 32766] ++
  [32767]

/-- Reset speeds of the zones in the four profiles, rpm (R384). -/
def rpmTable : List (List Nat) :=
  [[7200, 7200, 7200, 7200, 7200, 6757, 6176, 5687],
   [6000, 6000, 6000, 6000, 6000, 6000, 6000, 5687],
   [4200, 4200, 4200, 4200, 4200, 4200, 4200, 4200],
   [3189, 3000, 3000, 3000, 3000, 3000, 3000, 2844]]

/-- Reset values of HLT_CLASSc: FIXED, WINDOW_MS and THRESH of each class (R689, R717). Reserved classes read 0 (R717). -/
def classTable : List Nat :=
  [1073741825, 1073997827, 15360020, 15360020, 15360020, 921600004, 921600003, 1073741825] ++
  [1076301827, 921600010, 1073741825, 921600010, 15360050, 921600003, 921600001, 1073741825] ++
  [921600001, 921600001, 1073741825, 921600003, 1073741825, 921600255, 921600001, 921600001] ++
  [921600001, 921600001, 921600001, 921600001, 921600001, 921600001, 921600003, 921600001] ++
  [921600001, 921600001, 921600001, 921600016, 921600032, 921600003, 921600001, 0] ++
  [0, 0, 0, 0, 0, 0, 0, 0] ++
  [0, 0, 0, 0, 0, 0, 0, 0] ++
  [0, 0, 0, 0, 0, 0, 0, 0]

/-- AX_LIM set `n` of an axis: VMAX (R318). -/
def resetLimV (_ n : Nat) : Nat := if n = 0 then 0x00600000 else 0x00100000
/-- AX_LIM set `n` of an axis: AMAX (R318). -/
def resetLimA (_ n : Nat) : Nat := if n = 0 then 0x00080000 else 0x00040000
/-- AX_LIM set `n` of an axis: JMAX (R318). -/
def resetLimJ (_ n : Nat) : Nat := if n = 0 then 0x00080000 else 0x00040000
/-- AX_WAVEk (R319). -/
def resetWave (_ k : Nat) : Nat := waveTable.getD k 0
/-- DCM_CFGp from the table of R386, laid out per R393. -/
def resetCfg (p _ : Nat) : Nat := [0x000A16CC, 0x000A17CC, 0x000B1BAC, 0x000A2F8C].getD p 0
/-- DCM_RPMp_k: zone 2k in the low half, zone 2k + 1 in the high half (R384, R393). -/
def resetRpm (p k : Nat) : Nat :=
  ((rpmTable.getD p []).getD (2 * k + 1) 0) * 0x10000 + (rpmTable.getD p []).getD (2 * k) 0
/-- HLT_CLASSc (R689). -/
def resetClass (c _ : Nat) : Nat := classTable.getD c 0
/-- HQE_FRINGf: BASE 256 f, COUNT 256 (R458). -/
def resetFring (f _ : Nat) : Nat := 0x1000000 + 256 * f
/-- RDC_EQ_TAPk: tap 7 is 0x200 in CUR and START, the others 0 (R183). -/
def resetTap (_ k : Nat) : Nat := if k = 7 then 0x02000200 else 0
/-- FLS_SECMIN holds the fuse value of the part (R649). -/
def resetSecMin (_ _ : Nat) : Nat := Config.secMinFuse

namespace Reg

/-- TMB_TICK_LO (R28). -/
def TMB_TICK_LO : Fld := ⟨0x100040, 31, 0, 0x0, 0x0⟩
def TMB_TICK_LO_TICK : Fld := ⟨0x100040, 31, 0, 0x0, 0x0⟩
/-- TMB_TICK_HI (R28). -/
def TMB_TICK_HI : Fld := ⟨0x100044, 31, 0, 0x0, 0x0⟩
def TMB_TICK_HI_TICK : Fld := ⟨0x100044, 31, 0, 0x0, 0x0⟩
/-- TMB_TOD_LO (R29). -/
def TMB_TOD_LO : Fld := ⟨0x100048, 31, 0, 0x0, 0x0⟩
def TMB_TOD_LO_TOD : Fld := ⟨0x100048, 31, 0, 0x0, 0x0⟩
/-- TMB_TOD_HI (R29). -/
def TMB_TOD_HI : Fld := ⟨0x10004C, 31, 0, 0x0, 0x0⟩
def TMB_TOD_HI_TOD : Fld := ⟨0x10004C, 31, 0, 0x0, 0x0⟩
/-- TMB_TOD_SET_LO (R30). -/
def TMB_TOD_SET_LO : Fld := ⟨0x100050, 31, 0, 0x0, 0x0⟩
def TMB_TOD_SET_LO_TOD_SET : Fld := ⟨0x100050, 31, 0, 0x0, 0x0⟩
/-- TMB_TOD_SET_HI (R30). -/
def TMB_TOD_SET_HI : Fld := ⟨0x100054, 31, 0, 0x0, 0x0⟩
def TMB_TOD_SET_HI_TOD_SET : Fld := ⟨0x100054, 31, 0, 0x0, 0x0⟩
/-- TMB_TOD_CTL (R30). -/
def TMB_TOD_CTL : Fld := ⟨0x100058, 31, 0, 0x0, 0x0⟩
def TMB_TOD_CTL_TOD_APPLY : Fld := ⟨0x100058, 1, 1, 0x0, 0x0⟩
def TMB_TOD_CTL_TOD_VALID : Fld := ⟨0x100058, 0, 0, 0x0, 0x0⟩
/-- RDC_CTL (R181). -/
def RDC_CTL : Fld := ⟨0x20040, 31, 0, 0x0, 0x0⟩
def RDC_CTL_SYNC_THR : Fld := ⟨0x20040, 15, 12, 0x0, 0x0⟩
def RDC_CTL_CNT_CLEAR : Fld := ⟨0x20040, 0, 0, 0x0, 0x0⟩
/-- RDC_AFE (R182). -/
def RDC_AFE : Fld := ⟨0x21000, 31, 0, 0x1000, 0x0⟩
def RDC_AFE_INPUT_EN : Fld := ⟨0x21000, 31, 31, 0x1000, 0x0⟩
def RDC_AFE_AGC_EN : Fld := ⟨0x21000, 24, 24, 0x1000, 0x0⟩
def RDC_AFE_CTF_BOOST : Fld := ⟨0x21000, 23, 20, 0x1000, 0x0⟩
def RDC_AFE_CTF_FC : Fld := ⟨0x21000, 19, 14, 0x1000, 0x0⟩
def RDC_AFE_GAIN : Fld := ⟨0x21000, 6, 0, 0x1000, 0x0⟩
/-- RDC_STAT (R182). -/
def RDC_STAT : Fld := ⟨0x21004, 31, 0, 0x1000, 0x0⟩
def RDC_STAT_ENV : Fld := ⟨0x21004, 31, 24, 0x1000, 0x0⟩
def RDC_STAT_ENV_REF : Fld := ⟨0x21004, 23, 16, 0x1000, 0x0⟩
def RDC_STAT_GAIN_NOW : Fld := ⟨0x21004, 15, 9, 0x1000, 0x0⟩
def RDC_STAT_ALIGN_RANGE : Fld := ⟨0x21004, 4, 4, 0x1000, 0x0⟩
def RDC_STAT_CLIP : Fld := ⟨0x21004, 3, 3, 0x1000, 0x0⟩
def RDC_STAT_DEFECT : Fld := ⟨0x21004, 2, 2, 0x1000, 0x0⟩
def RDC_STAT_FLY_LOST : Fld := ⟨0x21004, 1, 1, 0x1000, 0x0⟩
def RDC_STAT_LOCK : Fld := ⟨0x21004, 0, 0, 0x1000, 0x0⟩
/-- RDC_EQ_CTL (R182). -/
def RDC_EQ_CTL : Fld := ⟨0x21008, 31, 0, 0x1000, 0x0⟩
def RDC_EQ_CTL_RESTART : Fld := ⟨0x21008, 7, 7, 0x1000, 0x0⟩
def RDC_EQ_CTL_MU : Fld := ⟨0x21008, 6, 4, 0x1000, 0x0⟩
def RDC_EQ_CTL_SPAN : Fld := ⟨0x21008, 3, 2, 0x1000, 0x0⟩
def RDC_EQ_CTL_FREEZE : Fld := ⟨0x21008, 1, 1, 0x1000, 0x0⟩
def RDC_EQ_CTL_ADAPT_EN : Fld := ⟨0x21008, 0, 0, 0x1000, 0x0⟩
/-- RDC_PLL_CTL (R182). -/
def RDC_PLL_CTL : Fld := ⟨0x2100C, 31, 0, 0x1000, 0x0⟩
def RDC_PLL_CTL_DD_EN : Fld := ⟨0x2100C, 8, 8, 0x1000, 0x0⟩
def RDC_PLL_CTL_KI : Fld := ⟨0x2100C, 7, 4, 0x1000, 0x0⟩
def RDC_PLL_CTL_KP : Fld := ⟨0x2100C, 3, 0, 0x1000, 0x0⟩
/-- RDC_PLL_STAT (R182). -/
def RDC_PLL_STAT : Fld := ⟨0x21010, 31, 0, 0x1000, 0x0⟩
def RDC_PLL_STAT_FREQ_OFS : Fld := ⟨0x21010, 31, 16, 0x1000, 0x0⟩
def RDC_PLL_STAT_PHASE : Fld := ⟨0x21010, 5, 0, 0x1000, 0x0⟩
/-- RDC_ALIGN (R182). -/
def RDC_ALIGN : Fld := ⟨0x21014, 31, 0, 0x1000, 0x0⟩
def RDC_ALIGN_AUTO : Fld := ⟨0x21014, 31, 31, 0x1000, 0x0⟩
def RDC_ALIGN_MEAS : Fld := ⟨0x21014, 26, 16, 0x1000, 0x0⟩
def RDC_ALIGN_DELAY : Fld := ⟨0x21014, 10, 0, 0x1000, 0x0⟩
/-- RDC_CNT_SYNC (R182). -/
def RDC_CNT_SYNC : Fld := ⟨0x21018, 31, 0, 0x1000, 0x0⟩
def RDC_CNT_SYNC_OUTSIDE : Fld := ⟨0x21018, 31, 16, 0x1000, 0x0⟩
def RDC_CNT_SYNC_INSERTED : Fld := ⟨0x21018, 15, 0, 0x1000, 0x0⟩
/-- RDC_CNT_WEDGE (R182). -/
def RDC_CNT_WEDGE : Fld := ⟨0x2101C, 31, 0, 0x1000, 0x0⟩
def RDC_CNT_WEDGE_FLY_LOST_CNT : Fld := ⟨0x2101C, 31, 16, 0x1000, 0x0⟩
def RDC_CNT_WEDGE_WSYNC_MISS : Fld := ⟨0x2101C, 15, 0, 0x1000, 0x0⟩
/-- RDC_EQ_TAP (R183). -/
def RDC_EQ_TAP : Fld := ⟨0x21040, 31, 0, 0x1000, 0x4⟩
def RDC_EQ_TAP_CUR : Fld := ⟨0x21040, 27, 16, 0x1000, 0x4⟩
def RDC_EQ_TAP_START : Fld := ⟨0x21040, 11, 0, 0x1000, 0x4⟩
/-- RDC_TRIM (R184). -/
def RDC_TRIM : Fld := ⟨0x21800, 31, 0, 0x1000, 0x0⟩
def RDC_TRIM_ADC_GAIN : Fld := ⟨0x21800, 15, 8, 0x1000, 0x0⟩
def RDC_TRIM_OFS : Fld := ⟨0x21800, 7, 0, 0x1000, 0x0⟩
/-- DET_TARGET (R186). -/
def DET_TARGET : Fld := ⟨0x40040, 31, 0, 0x0, 0x0⟩
def DET_TARGET_AMP : Fld := ⟨0x40040, 23, 16, 0x0, 0x0⟩
def DET_TARGET_G3 : Fld := ⟨0x40040, 15, 12, 0x0, 0x0⟩
def DET_TARGET_G2 : Fld := ⟨0x40040, 11, 8, 0x0, 0x0⟩
def DET_TARGET_G1 : Fld := ⟨0x40040, 7, 4, 0x0, 0x0⟩
def DET_TARGET_G0 : Fld := ⟨0x40040, 3, 0, 0x0, 0x0⟩
/-- DET_ITER (R186). -/
def DET_ITER : Fld := ⟨0x40044, 31, 0, 0x0, 0x0⟩
def DET_ITER_RETRY_LDPC : Fld := ⟨0x40044, 15, 12, 0x0, 0x0⟩
def DET_ITER_RETRY_GLOBAL : Fld := ⟨0x40044, 9, 8, 0x0, 0x0⟩
def DET_ITER_INLINE_LDPC : Fld := ⟨0x40044, 7, 4, 0x0, 0x0⟩
def DET_ITER_INLINE_GLOBAL : Fld := ⟨0x40044, 1, 0, 0x0, 0x0⟩
/-- DET_XT (R186). -/
def DET_XT : Fld := ⟨0x40048, 31, 0, 0x0, 0x0⟩
def DET_XT_NB_SCALE : Fld := ⟨0x40048, 11, 8, 0x0, 0x0⟩
def DET_XT_LLR_SCALE : Fld := ⟨0x40048, 7, 4, 0x0, 0x0⟩
def DET_XT_XT_ADAPT_EN : Fld := ⟨0x40048, 0, 0, 0x0, 0x0⟩
/-- DET_DEFECT (R186). -/
def DET_DEFECT : Fld := ⟨0x4004C, 31, 0, 0x0, 0x0⟩
def DET_DEFECT_SLOT_ERASE : Fld := ⟨0x4004C, 27, 20, 0x0, 0x0⟩
def DET_DEFECT_BLANK_MOD : Fld := ⟨0x4004C, 19, 16, 0x0, 0x0⟩
def DET_DEFECT_GUARD : Fld := ⟨0x4004C, 15, 8, 0x0, 0x0⟩
def DET_DEFECT_SUM_THR : Fld := ⟨0x4004C, 6, 4, 0x0, 0x0⟩
def DET_DEFECT_DROP_THR : Fld := ⟨0x4004C, 2, 0, 0x0, 0x0⟩
/-- DET_LADDER (R186). -/
def DET_LADDER : Fld := ⟨0x40050, 31, 0, 0x0, 0x0⟩
def DET_LADDER_MARGIN_READS : Fld := ⟨0x40050, 27, 24, 0x0, 0x0⟩
def DET_LADDER_TRACK_STEP : Fld := ⟨0x40050, 23, 16, 0x0, 0x0⟩
def DET_LADDER_FOCUS_STEP : Fld := ⟨0x40050, 15, 8, 0x0, 0x0⟩
def DET_LADDER_MAX_RUNG : Fld := ⟨0x40050, 2, 0, 0x0, 0x0⟩
/-- DET_LAST_TILE (R187). -/
def DET_LAST_TILE : Fld := ⟨0x40080, 31, 0, 0x0, 0x0⟩
def DET_LAST_TILE_RUNG : Fld := ⟨0x40080, 31, 29, 0x0, 0x0⟩
def DET_LAST_TILE_SYNC_SUSPECT : Fld := ⟨0x40080, 28, 28, 0x0, 0x0⟩
def DET_LAST_TILE_SYNC_INSERTED : Fld := ⟨0x40080, 27, 27, 0x0, 0x0⟩
def DET_LAST_TILE_FLY_LOST : Fld := ⟨0x40080, 26, 26, 0x0, 0x0⟩
def DET_LAST_TILE_BLANK : Fld := ⟨0x40080, 25, 25, 0x0, 0x0⟩
def DET_LAST_TILE_RELOC : Fld := ⟨0x40080, 24, 24, 0x0, 0x0⟩
def DET_LAST_TILE_ERASED : Fld := ⟨0x40080, 15, 8, 0x0, 0x0⟩
def DET_LAST_TILE_UNFLAGGED : Fld := ⟨0x40080, 7, 0, 0x0, 0x0⟩
/-- DET_LAST_ERASED_LO (R187). -/
def DET_LAST_ERASED_LO : Fld := ⟨0x40084, 31, 0, 0x0, 0x0⟩
def DET_LAST_ERASED_LO_SLOTS : Fld := ⟨0x40084, 31, 0, 0x0, 0x0⟩
/-- DET_LAST_ERASED_HI (R187). -/
def DET_LAST_ERASED_HI : Fld := ⟨0x40088, 31, 0, 0x0, 0x0⟩
def DET_LAST_ERASED_HI_SLOTS : Fld := ⟨0x40088, 31, 0, 0x0, 0x0⟩
/-- DET_LAST_POS (R187). -/
def DET_LAST_POS : Fld := ⟨0x4008C, 31, 0, 0x0, 0x0⟩
def DET_LAST_POS_TILE : Fld := ⟨0x4008C, 31, 16, 0x0, 0x0⟩
def DET_LAST_POS_REGION : Fld := ⟨0x4008C, 9, 8, 0x0, 0x0⟩
def DET_LAST_POS_ZONE : Fld := ⟨0x4008C, 6, 4, 0x0, 0x0⟩
def DET_LAST_POS_LAYER : Fld := ⟨0x4008C, 3, 0, 0x0, 0x0⟩
/-- DET_RUNGk (R188). -/
def DET_RUNGk : Fld := ⟨0x400C0, 31, 0, 0x4, 0x0⟩
def DET_RUNGk_OK : Fld := ⟨0x400C0, 31, 16, 0x4, 0x0⟩
def DET_RUNGk_TRY : Fld := ⟨0x400C0, 15, 0, 0x4, 0x0⟩
/-- DET_CNT_LDPC (R188). -/
def DET_CNT_LDPC : Fld := ⟨0x400D4, 31, 0, 0x0, 0x0⟩
def DET_CNT_LDPC_FAIL_INLINE : Fld := ⟨0x400D4, 31, 16, 0x0, 0x0⟩
def DET_CNT_LDPC_CUT : Fld := ⟨0x400D4, 15, 0, 0x0, 0x0⟩
/-- DET_CNT_ERASE (R188). -/
def DET_CNT_ERASE : Fld := ⟨0x400D8, 31, 0, 0x0, 0x0⟩
def DET_CNT_ERASE_DEFECT_SLOT : Fld := ⟨0x400D8, 31, 16, 0x0, 0x0⟩
def DET_CNT_ERASE_HEADER : Fld := ⟨0x400D8, 15, 0, 0x0, 0x0⟩
/-- DET_CNT_SYNC (R188). -/
def DET_CNT_SYNC : Fld := ⟨0x400DC, 31, 0, 0x0, 0x0⟩
def DET_CNT_SYNC_PRED_WIN : Fld := ⟨0x400DC, 31, 16, 0x0, 0x0⟩
def DET_CNT_SYNC_DET_WIN : Fld := ⟨0x400DC, 15, 0, 0x0, 0x0⟩
/-- DET_CNT_RELOC (R188). -/
def DET_CNT_RELOC : Fld := ⟨0x400E0, 31, 0, 0x0, 0x0⟩
def DET_CNT_RELOC_WEAK_PARITY : Fld := ⟨0x400E0, 31, 16, 0x0, 0x0⟩
def DET_CNT_RELOC_RELOC : Fld := ⟨0x400E0, 15, 0, 0x0, 0x0⟩
/-- DET_CNT_MISC (R188). -/
def DET_CNT_MISC : Fld := ⟨0x400E4, 31, 0, 0x0, 0x0⟩
def DET_CNT_MISC_STORE_FULL : Fld := ⟨0x400E4, 31, 16, 0x0, 0x0⟩
def DET_CNT_MISC_ARM_FAIL : Fld := ⟨0x400E4, 15, 8, 0x0, 0x0⟩
def DET_CNT_MISC_DEFECT_SPANS : Fld := ⟨0x400E4, 7, 0, 0x0, 0x0⟩
/-- DET_XTC (R189). -/
def DET_XTC : Fld := ⟨0x40100, 31, 0, 0x8, 0x4⟩
def DET_XTC_C_LATE : Fld := ⟨0x40100, 23, 16, 0x8, 0x4⟩
def DET_XTC_C_NOW : Fld := ⟨0x40100, 15, 8, 0x8, 0x4⟩
def DET_XTC_C_EARLY : Fld := ⟨0x40100, 7, 0, 0x8, 0x4⟩
/-- WRC_CTL (R225). -/
def WRC_CTL : Fld := ⟨0x60040, 31, 0, 0x0, 0x0⟩
def WRC_CTL_CNT_CLEAR : Fld := ⟨0x60040, 7, 7, 0x0, 0x0⟩
def WRC_CTL_SAFE_CLR : Fld := ⟨0x60040, 6, 6, 0x0, 0x0⟩
def WRC_CTL_AUTO_ADV : Fld := ⟨0x60040, 5, 5, 0x0, 0x0⟩
def WRC_CTL_RAPC_EN : Fld := ⟨0x60040, 4, 4, 0x0, 0x0⟩
def WRC_CTL_APC_EN : Fld := ⟨0x60040, 3, 3, 0x0, 0x0⟩
def WRC_CTL_RPC_EN : Fld := ⟨0x60040, 2, 2, 0x0, 0x0⟩
def WRC_CTL_VFY_EN : Fld := ⟨0x60040, 1, 1, 0x0, 0x0⟩
def WRC_CTL_WR_EN : Fld := ⟨0x60040, 0, 0, 0x0, 0x0⟩
/-- WRC_STAT (R225). -/
def WRC_STAT : Fld := ⟨0x60044, 31, 0, 0x0, 0x0⟩
def WRC_STAT_DRV_STATUS : Fld := ⟨0x60044, 31, 24, 0x0, 0x0⟩
def WRC_STAT_PWRFAIL_SEEN : Fld := ⟨0x60044, 16, 16, 0x0, 0x0⟩
def WRC_STAT_LINK_OK : Fld := ⟨0x60044, 11, 11, 0x0, 0x0⟩
def WRC_STAT_BANK : Fld := ⟨0x60044, 10, 10, 0x0, 0x0⟩
def WRC_STAT_LSAFE : Fld := ⟨0x60044, 9, 9, 0x0, 0x0⟩
def WRC_STAT_ABORT_CAUSE : Fld := ⟨0x60044, 7, 4, 0x0, 0x0⟩
def WRC_STAT_STATE : Fld := ⟨0x60044, 1, 0, 0x0, 0x0⟩
/-- WRC_VFY (R225). -/
def WRC_VFY : Fld := ⟨0x60048, 31, 0, 0x0, 0x0⟩
def WRC_VFY_PAR_MAX : Fld := ⟨0x60048, 23, 20, 0x0, 0x0⟩
def WRC_VFY_TILE_MAX : Fld := ⟨0x60048, 19, 16, 0x0, 0x0⟩
def WRC_VFY_VFY_BITS : Fld := ⟨0x60048, 15, 4, 0x0, 0x0⟩
def WRC_VFY_VFY_ITER : Fld := ⟨0x60048, 3, 0, 0x0, 0x0⟩
/-- WRC_RPC (R225). -/
def WRC_RPC : Fld := ⟨0x6004C, 31, 0, 0x0, 0x0⟩
def WRC_RPC_RPC_LIMIT : Fld := ⟨0x6004C, 28, 24, 0x0, 0x0⟩
def WRC_RPC_RPC_N : Fld := ⟨0x6004C, 23, 16, 0x0, 0x0⟩
def WRC_RPC_RPC_HI : Fld := ⟨0x6004C, 15, 8, 0x0, 0x0⟩
def WRC_RPC_RPC_LO : Fld := ⟨0x6004C, 7, 0, 0x0, 0x0⟩
/-- WRC_APC (R225). -/
def WRC_APC : Fld := ⟨0x60050, 31, 0, 0x0, 0x0⟩
def WRC_APC_RAPC_GAIN : Fld := ⟨0x60050, 15, 8, 0x0, 0x0⟩
def WRC_APC_APC_GAIN : Fld := ⟨0x60050, 7, 0, 0x0, 0x0⟩
/-- WRC_SCALE (R225). -/
def WRC_SCALE : Fld := ⟨0x60054, 31, 0, 0x0, 0x0⟩
def WRC_SCALE_RSCALE : Fld := ⟨0x60054, 31, 16, 0x0, 0x0⟩
def WRC_SCALE_WSCALE : Fld := ⟨0x60054, 15, 0, 0x0, 0x0⟩
/-- WRC_RELOC (R225). -/
def WRC_RELOC : Fld := ⟨0x60058, 31, 0, 0x0, 0x0⟩
def WRC_RELOC_PENDING : Fld := ⟨0x60058, 31, 16, 0x0, 0x0⟩
def WRC_RELOC_RELOC_HOLD : Fld := ⟨0x60058, 7, 0, 0x0, 0x0⟩
/-- WRC_VLOG_LO (R225). -/
def WRC_VLOG_LO : Fld := ⟨0x60060, 31, 0, 0x0, 0x0⟩
def WRC_VLOG_LO_VLOG_ADDR : Fld := ⟨0x60060, 31, 12, 0x0, 0x0⟩
def WRC_VLOG_LO_SIZE : Fld := ⟨0x60060, 3, 0, 0x0, 0x0⟩
/-- WRC_VLOG_HI (R225). -/
def WRC_VLOG_HI : Fld := ⟨0x60064, 31, 0, 0x0, 0x0⟩
def WRC_VLOG_HI_VLOG_ADDR : Fld := ⟨0x60064, 31, 0, 0x0, 0x0⟩
/-- WRC_VLOG_IDX (R225). -/
def WRC_VLOG_IDX : Fld := ⟨0x60068, 31, 0, 0x0, 0x0⟩
def WRC_VLOG_IDX_WRAPS : Fld := ⟨0x60068, 31, 16, 0x0, 0x0⟩
def WRC_VLOG_IDX_NEXT : Fld := ⟨0x60068, 15, 0, 0x0, 0x0⟩
/-- WRC_CNT_TILE (R226). -/
def WRC_CNT_TILE : Fld := ⟨0x60080, 31, 0, 0x0, 0x0⟩
def WRC_CNT_TILE_REWRITE : Fld := ⟨0x60080, 31, 16, 0x0, 0x0⟩
def WRC_CNT_TILE_VERIFIED : Fld := ⟨0x60080, 15, 0, 0x0, 0x0⟩
/-- WRC_CNT_SLOT (R226). -/
def WRC_CNT_SLOT : Fld := ⟨0x60084, 31, 0, 0x0, 0x0⟩
def WRC_CNT_SLOT_PAR_FAIL : Fld := ⟨0x60084, 31, 16, 0x0, 0x0⟩
def WRC_CNT_SLOT_DATA_FAIL : Fld := ⟨0x60084, 15, 0, 0x0, 0x0⟩
/-- WRC_CNT_RELOC (R226). -/
def WRC_CNT_RELOC : Fld := ⟨0x60088, 31, 0, 0x0, 0x0⟩
def WRC_CNT_RELOC_READ_DROP : Fld := ⟨0x60088, 31, 16, 0x0, 0x0⟩
def WRC_CNT_RELOC_WRITTEN : Fld := ⟨0x60088, 15, 0, 0x0, 0x0⟩
/-- WRC_CNT_MISC (R226). -/
def WRC_CNT_MISC : Fld := ⟨0x6008C, 31, 0, 0x0, 0x0⟩
def WRC_CNT_MISC_ABORTS : Fld := ⟨0x6008C, 31, 24, 0x0, 0x0⟩
def WRC_CNT_MISC_LINK_RETRY : Fld := ⟨0x6008C, 23, 16, 0x0, 0x0⟩
def WRC_CNT_MISC_PLACE_ERR : Fld := ⟨0x6008C, 15, 8, 0x0, 0x0⟩
def WRC_CNT_MISC_UNDERRUN : Fld := ⟨0x6008C, 7, 0, 0x0, 0x0⟩
/-- WRC_EMIT (R227). -/
def WRC_EMIT : Fld := ⟨0x60100, 31, 0, 0x10, 0x0⟩
def WRC_EMIT_LEAD : Fld := ⟨0x60100, 27, 16, 0x10, 0x0⟩
def WRC_EMIT_FINE : Fld := ⟨0x60100, 14, 12, 0x10, 0x0⟩
def WRC_EMIT_ADV : Fld := ⟨0x60100, 11, 0, 0x10, 0x0⟩
/-- WRC_BSTAT (R227). -/
def WRC_BSTAT : Fld := ⟨0x60104, 31, 0, 0x10, 0x0⟩
def WRC_BSTAT_PERR : Fld := ⟨0x60104, 31, 24, 0x10, 0x0⟩
def WRC_BSTAT_MEAN_Q : Fld := ⟨0x60104, 23, 16, 0x10, 0x0⟩
def WRC_BSTAT_RPC_OFS : Fld := ⟨0x60104, 5, 0, 0x10, 0x0⟩
/-- WRC_LEVEL (R228). -/
def WRC_LEVEL : Fld := ⟨0x60800, 31, 0, 0x20, 0x0⟩
def WRC_LEVEL_BIAS_BASE : Fld := ⟨0x60800, 31, 16, 0x20, 0x0⟩
def WRC_LEVEL_PEAK_BASE : Fld := ⟨0x60800, 15, 0, 0x20, 0x0⟩
/-- WRC_READLVL (R228). -/
def WRC_READLVL : Fld := ⟨0x60804, 31, 0, 0x20, 0x0⟩
def WRC_READLVL_READ_BASE : Fld := ⟨0x60804, 15, 0, 0x20, 0x0⟩
/-- SRV_CTL (R281). -/
def SRV_CTL : Fld := ⟨0x80040, 31, 0, 0x0, 0x0⟩
def SRV_CTL_CNT_CLEAR : Fld := ⟨0x80040, 1, 1, 0x0, 0x0⟩
def SRV_CTL_TT_SWAP : Fld := ⟨0x80040, 0, 0, 0x0, 0x0⟩
/-- SRV_STAT (R281). -/
def SRV_STAT : Fld := ⟨0x80044, 31, 0, 0x0, 0x0⟩
def SRV_STAT_OVR_SLOT : Fld := ⟨0x80044, 26, 22, 0x0, 0x0⟩
def SRV_STAT_RECOVERY : Fld := ⟨0x80044, 19, 16, 0x0, 0x0⟩
def SRV_STAT_ATTEMPT : Fld := ⟨0x80044, 15, 14, 0x0, 0x0⟩
def SRV_STAT_LAYER : Fld := ⟨0x80044, 13, 10, 0x0, 0x0⟩
def SRV_STAT_TT_PEND : Fld := ⟨0x80044, 9, 9, 0x0, 0x0⟩
def SRV_STAT_TT_BANK : Fld := ⟨0x80044, 8, 8, 0x0, 0x0⟩
def SRV_STAT_SPEED_OK : Fld := ⟨0x80044, 4, 4, 0x0, 0x0⟩
def SRV_STAT_SB_OK : Fld := ⟨0x80044, 3, 3, 0x0, 0x0⟩
def SRV_STAT_SA_OK : Fld := ⟨0x80044, 2, 2, 0x0, 0x0⟩
def SRV_STAT_TRACK_LOCK : Fld := ⟨0x80044, 1, 1, 0x0, 0x0⟩
def SRV_STAT_FOCUS_LOCK : Fld := ⟨0x80044, 0, 0, 0x0, 0x0⟩
/-- SRV_OFS (R281). -/
def SRV_OFS : Fld := ⟨0x80048, 31, 0, 0x0, 0x0⟩
def SRV_OFS_TRACK_OFS : Fld := ⟨0x80048, 15, 8, 0x0, 0x0⟩
def SRV_OFS_FOCUS_OFS : Fld := ⟨0x80048, 7, 0, 0x0, 0x0⟩
/-- SRV_LADDER (R281). -/
def SRV_LADDER : Fld := ⟨0x8004C, 31, 0, 0x0, 0x0⟩
def SRV_LADDER_LADDER_T : Fld := ⟨0x8004C, 25, 16, 0x0, 0x0⟩
def SRV_LADDER_LADDER_F : Fld := ⟨0x8004C, 9, 0, 0x0, 0x0⟩
/-- SRV_FMON (R281). -/
def SRV_FMON : Fld := ⟨0x80050, 31, 0, 0x0, 0x0⟩
def SRV_FMON_FE_LIM : Fld := ⟨0x80050, 31, 24, 0x0, 0x0⟩
def SRV_FMON_FD_TICKS : Fld := ⟨0x80050, 23, 16, 0x0, 0x0⟩
def SRV_FMON_HOLD_THR : Fld := ⟨0x80050, 15, 12, 0x0, 0x0⟩
def SRV_FMON_CAP_THR : Fld := ⟨0x80050, 11, 8, 0x0, 0x0⟩
def SRV_FMON_FLOCK_WIN : Fld := ⟨0x80050, 7, 0, 0x0, 0x0⟩
/-- SRV_TMON (R281). -/
def SRV_TMON : Fld := ⟨0x80054, 31, 0, 0x0, 0x0⟩
def SRV_TMON_TS_THR : Fld := ⟨0x80054, 31, 24, 0x0, 0x0⟩
def SRV_TMON_TS_TICKS : Fld := ⟨0x80054, 23, 16, 0x0, 0x0⟩
def SRV_TMON_TCAP_TICKS : Fld := ⟨0x80054, 15, 8, 0x0, 0x0⟩
def SRV_TMON_TLOCK_WIN : Fld := ⟨0x80054, 7, 0, 0x0, 0x0⟩
/-- SRV_BMON (R281). -/
def SRV_BMON : Fld := ⟨0x80058, 31, 0, 0x0, 0x0⟩
def SRV_BMON_SBL_THR : Fld := ⟨0x80058, 15, 12, 0x0, 0x0⟩
def SRV_BMON_SBL_TICKS : Fld := ⟨0x80058, 7, 0, 0x0, 0x0⟩
/-- SRV_REC (R281). -/
def SRV_REC : Fld := ⟨0x8005C, 31, 0, 0x0, 0x0⟩
def SRV_REC_REC_TICKS : Fld := ⟨0x8005C, 31, 16, 0x0, 0x0⟩
def SRV_REC_REC_TRIES : Fld := ⟨0x8005C, 1, 0, 0x0, 0x0⟩
/-- SRV_SEARCH (R281). -/
def SRV_SEARCH : Fld := ⟨0x80060, 31, 0, 0x0, 0x0⟩
def SRV_SEARCH_SEARCH_RATE : Fld := ⟨0x80060, 31, 16, 0x0, 0x0⟩
def SRV_SEARCH_REC_SWEEP : Fld := ⟨0x80060, 15, 0, 0x0, 0x0⟩
/-- SRV_JUMP (R281). -/
def SRV_JUMP : Fld := ⟨0x80064, 31, 0, 0x0, 0x0⟩
def SRV_JUMP_JUMP_A : Fld := ⟨0x80064, 31, 16, 0x0, 0x0⟩
def SRV_JUMP_JUMP_V : Fld := ⟨0x80064, 15, 0, 0x0, 0x0⟩
/-- SRV_JERK (R281). -/
def SRV_JERK : Fld := ⟨0x80068, 31, 0, 0x0, 0x0⟩
def SRV_JERK_JUMP_J : Fld := ⟨0x80068, 15, 0, 0x0, 0x0⟩
/-- SRV_INJ (R281). -/
def SRV_INJ : Fld := ⟨0x80080, 31, 0, 0x0, 0x0⟩
def SRV_INJ_INJ_EN : Fld := ⟨0x80080, 31, 31, 0x0, 0x0⟩
def SRV_INJ_INJ_POINT : Fld := ⟨0x80080, 30, 30, 0x0, 0x0⟩
def SRV_INJ_INJ_LOOP : Fld := ⟨0x80080, 26, 24, 0x0, 0x0⟩
/-- SRV_WAVE (R281). -/
def SRV_WAVE : Fld := ⟨0x80084, 31, 0, 0x0, 0x0⟩
def SRV_WAVE_INJ_FREQ : Fld := ⟨0x80084, 31, 16, 0x0, 0x0⟩
def SRV_WAVE_INJ_AMP : Fld := ⟨0x80084, 15, 0, 0x0, 0x0⟩
/-- SRV_CNT_LOCK (R282). -/
def SRV_CNT_LOCK : Fld := ⟨0x80070, 31, 0, 0x0, 0x0⟩
def SRV_CNT_LOCK_TRACK_SLIPS : Fld := ⟨0x80070, 31, 16, 0x0, 0x0⟩
def SRV_CNT_LOCK_FOCUS_DROPS : Fld := ⟨0x80070, 15, 0, 0x0, 0x0⟩
/-- SRV_CNT_REC (R282). -/
def SRV_CNT_REC : Fld := ⟨0x80074, 31, 0, 0x0, 0x0⟩
def SRV_CNT_REC_BEAM_LOSSES : Fld := ⟨0x80074, 31, 16, 0x0, 0x0⟩
def SRV_CNT_REC_RECOVERY_FAILS : Fld := ⟨0x80074, 15, 8, 0x0, 0x0⟩
def SRV_CNT_REC_LAYER_MISS : Fld := ⟨0x80074, 7, 0, 0x0, 0x0⟩
/-- SRV_CNT_OVR (R282). -/
def SRV_CNT_OVR : Fld := ⟨0x80078, 31, 0, 0x0, 0x0⟩
def SRV_CNT_OVR_OVERRUNS : Fld := ⟨0x80078, 31, 16, 0x0, 0x0⟩
def SRV_CNT_OVR_SWAP_STEPS : Fld := ⟨0x80078, 15, 0, 0x0, 0x0⟩
/-- SRV_INk (R282). -/
def SRV_INk : Fld := ⟨0x800A0, 31, 0, 0x4, 0x0⟩
def SRV_INk_IN_HI : Fld := ⟨0x800A0, 31, 16, 0x4, 0x0⟩
def SRV_INk_IN_LO : Fld := ⟨0x800A0, 15, 0, 0x4, 0x0⟩
/-- SRV_SUMNOM (R283). -/
def SRV_SUMNOM : Fld := ⟨0x80800, 31, 0, 0x0, 0x0⟩
def SRV_SUMNOM_SUM_NOM : Fld := ⟨0x80800, 15, 0, 0x0, 0x0⟩
/-- SRV_KNM (R283). -/
def SRV_KNM : Fld := ⟨0x80804, 31, 0, 0x0, 0x0⟩
def SRV_KNM_KNM_T : Fld := ⟨0x80804, 31, 16, 0x0, 0x0⟩
def SRV_KNM_KNM_F : Fld := ⟨0x80804, 15, 0, 0x0, 0x0⟩
/-- SRV_FOCR (R283). -/
def SRV_FOCR : Fld := ⟨0x80808, 31, 0, 0x0, 0x0⟩
def SRV_FOCR_FOC_END : Fld := ⟨0x80808, 31, 16, 0x0, 0x0⟩
def SRV_FOCR_FOC_START : Fld := ⟨0x80808, 15, 0, 0x0, 0x0⟩
/-- SRV_LAYERn (R283). -/
def SRV_LAYERn : Fld := ⟨0x80840, 31, 0, 0x4, 0x0⟩
def SRV_LAYERn_SA_POS : Fld := ⟨0x80840, 31, 16, 0x4, 0x0⟩
def SRV_LAYERn_FF_FOC : Fld := ⟨0x80840, 15, 0, 0x4, 0x0⟩
/-- LOOP_CTL (R284). -/
def LOOP_CTL : Fld := ⟨0x81000, 31, 0, 0x1000, 0x0⟩
def LOOP_CTL_NEST : Fld := ⟨0x81000, 23, 20, 0x1000, 0x0⟩
def LOOP_CTL_SWAP : Fld := ⟨0x81000, 8, 8, 0x1000, 0x0⟩
def LOOP_CTL_CMD : Fld := ⟨0x81000, 2, 0, 0x1000, 0x0⟩
/-- LOOP_STAT (R284). -/
def LOOP_STAT : Fld := ⟨0x81004, 31, 0, 0x1000, 0x0⟩
def LOOP_STAT_LASTCUT : Fld := ⟨0x81004, 11, 11, 0x1000, 0x0⟩
def LOOP_STAT_SWAP_RUN : Fld := ⟨0x81004, 10, 10, 0x1000, 0x0⟩
def LOOP_STAT_SWAP_PEND : Fld := ⟨0x81004, 9, 9, 0x1000, 0x0⟩
def LOOP_STAT_BANK : Fld := ⟨0x81004, 8, 8, 0x1000, 0x0⟩
def LOOP_STAT_ESIGN : Fld := ⟨0x81004, 6, 6, 0x1000, 0x0⟩
def LOOP_STAT_AW : Fld := ⟨0x81004, 5, 5, 0x1000, 0x0⟩
def LOOP_STAT_ICLAMP : Fld := ⟨0x81004, 4, 4, 0x1000, 0x0⟩
def LOOP_STAT_STATE : Fld := ⟨0x81004, 2, 0, 0x1000, 0x0⟩
/-- LOOP_TGT (R284). -/
def LOOP_TGT : Fld := ⟨0x81008, 31, 0, 0x1000, 0x0⟩
def LOOP_TGT_NOW : Fld := ⟨0x81008, 31, 16, 0x1000, 0x0⟩
def LOOP_TGT_TARGET : Fld := ⟨0x81008, 15, 0, 0x1000, 0x0⟩
/-- LOOP_OUT (R284). -/
def LOOP_OUT : Fld := ⟨0x8100C, 31, 0, 0x1000, 0x0⟩
def LOOP_OUT_V : Fld := ⟨0x8100C, 31, 16, 0x1000, 0x0⟩
def LOOP_OUT_Y : Fld := ⟨0x8100C, 15, 0, 0x1000, 0x0⟩
/-- LOOP_INT (R284). -/
def LOOP_INT : Fld := ⟨0x81010, 31, 0, 0x1000, 0x0⟩
def LOOP_INT_I : Fld := ⟨0x81010, 31, 0, 0x1000, 0x0⟩
/-- LOOP_OPEN (R284). -/
def LOOP_OPEN : Fld := ⟨0x81014, 31, 0, 0x1000, 0x0⟩
def LOOP_OPEN_OPENVAL : Fld := ⟨0x81014, 15, 0, 0x1000, 0x0⟩
/-- LOOP_SS (R284). -/
def LOOP_SS : Fld := ⟨0x81018, 31, 0, 0x1000, 0x0⟩
def LOOP_SS_SS_RATE : Fld := ⟨0x81018, 15, 0, 0x1000, 0x0⟩
/-- LOOP_CNT (R284). -/
def LOOP_CNT : Fld := ⟨0x8101C, 31, 0, 0x1000, 0x0⟩
def LOOP_CNT_SWAPS : Fld := ⟨0x8101C, 31, 16, 0x1000, 0x0⟩
def LOOP_CNT_CUTS : Fld := ⟨0x8101C, 15, 0, 0x1000, 0x0⟩
/-- BK_GAIN (R285). -/
def BK_GAIN : Fld := ⟨0x81800, 31, 0, 0x1000, 0x0⟩
def BK_GAIN_GSHIFT : Fld := ⟨0x81800, 17, 16, 0x1000, 0x0⟩
def BK_GAIN_GAIN : Fld := ⟨0x81800, 15, 0, 0x1000, 0x0⟩
/-- BA_GAIN (R285). -/
def BA_GAIN : Fld := ⟨0x81900, 31, 0, 0x1000, 0x0⟩
def BA_GAIN_GSHIFT : Fld := ⟨0x81900, 17, 16, 0x1000, 0x0⟩
def BA_GAIN_GAIN : Fld := ⟨0x81900, 15, 0, 0x1000, 0x0⟩
/-- BK_KI (R285). -/
def BK_KI : Fld := ⟨0x81804, 31, 0, 0x1000, 0x0⟩
def BK_KI_KI_SHIFT : Fld := ⟨0x81804, 19, 16, 0x1000, 0x0⟩
def BK_KI_KI : Fld := ⟨0x81804, 15, 0, 0x1000, 0x0⟩
/-- BA_KI (R285). -/
def BA_KI : Fld := ⟨0x81904, 31, 0, 0x1000, 0x0⟩
def BA_KI_KI_SHIFT : Fld := ⟨0x81904, 19, 16, 0x1000, 0x0⟩
def BA_KI_KI : Fld := ⟨0x81904, 15, 0, 0x1000, 0x0⟩
/-- BK_CLAMP (R285). -/
def BK_CLAMP : Fld := ⟨0x81808, 31, 0, 0x1000, 0x0⟩
def BK_CLAMP_ICLAMP : Fld := ⟨0x81808, 14, 0, 0x1000, 0x0⟩
/-- BA_CLAMP (R285). -/
def BA_CLAMP : Fld := ⟨0x81908, 31, 0, 0x1000, 0x0⟩
def BA_CLAMP_ICLAMP : Fld := ⟨0x81908, 14, 0, 0x1000, 0x0⟩
/-- BK_LIM (R285). -/
def BK_LIM : Fld := ⟨0x8180C, 31, 0, 0x1000, 0x0⟩
def BK_LIM_LIMIT_HI : Fld := ⟨0x8180C, 31, 16, 0x1000, 0x0⟩
def BK_LIM_LIMIT_LO : Fld := ⟨0x8180C, 15, 0, 0x1000, 0x0⟩
/-- BA_LIM (R285). -/
def BA_LIM : Fld := ⟨0x8190C, 31, 0, 0x1000, 0x0⟩
def BA_LIM_LIMIT_HI : Fld := ⟨0x8190C, 31, 16, 0x1000, 0x0⟩
def BA_LIM_LIMIT_LO : Fld := ⟨0x8190C, 15, 0, 0x1000, 0x0⟩
/-- BK_N (R285). -/
def BK_N : Fld := ⟨0x81810, 31, 0, 0x1000, 0x0⟩
def BK_N_NN : Fld := ⟨0x81810, 6, 4, 0x1000, 0x0⟩
def BK_N_NB : Fld := ⟨0x81810, 2, 0, 0x1000, 0x0⟩
/-- BA_N (R285). -/
def BA_N : Fld := ⟨0x81910, 31, 0, 0x1000, 0x0⟩
def BA_N_NN : Fld := ⟨0x81910, 6, 4, 0x1000, 0x0⟩
def BA_N_NB : Fld := ⟨0x81910, 2, 0, 0x1000, 0x0⟩
/-- TT_A0 (R286). -/
def TT_A0 : Fld := ⟨0x88000, 31, 0, 0x8, 0x0⟩
def TT_A0_END : Fld := ⟨0x88000, 26, 16, 0x8, 0x0⟩
def TT_A0_START : Fld := ⟨0x88000, 10, 0, 0x8, 0x0⟩
/-- TT_S0 (R286). -/
def TT_S0 : Fld := ⟨0x88800, 31, 0, 0x8, 0x0⟩
def TT_S0_END : Fld := ⟨0x88800, 26, 16, 0x8, 0x0⟩
def TT_S0_START : Fld := ⟨0x88800, 10, 0, 0x8, 0x0⟩
/-- TT_A1 (R286). -/
def TT_A1 : Fld := ⟨0x88004, 31, 0, 0x8, 0x0⟩
def TT_A1_EN : Fld := ⟨0x88004, 31, 31, 0x8, 0x0⟩
def TT_A1_PHASE : Fld := ⟨0x88004, 21, 16, 0x8, 0x0⟩
def TT_A1_RATE : Fld := ⟨0x88004, 9, 8, 0x8, 0x0⟩
def TT_A1_LOOP : Fld := ⟨0x88004, 6, 4, 0x8, 0x0⟩
def TT_A1_ROUTINE : Fld := ⟨0x88004, 3, 0, 0x8, 0x0⟩
/-- TT_S1 (R286). -/
def TT_S1 : Fld := ⟨0x88804, 31, 0, 0x8, 0x0⟩
def TT_S1_EN : Fld := ⟨0x88804, 31, 31, 0x8, 0x0⟩
def TT_S1_PHASE : Fld := ⟨0x88804, 21, 16, 0x8, 0x0⟩
def TT_S1_RATE : Fld := ⟨0x88804, 9, 8, 0x8, 0x0⟩
def TT_S1_LOOP : Fld := ⟨0x88804, 6, 4, 0x8, 0x0⟩
def TT_S1_ROUTINE : Fld := ⟨0x88804, 3, 0, 0x8, 0x0⟩
/-- MOT_CTL (R317). -/
def MOT_CTL : Fld := ⟨0xA0040, 31, 0, 0x0, 0x0⟩
def MOT_CTL_CNT_CLEAR : Fld := ⟨0xA0040, 0, 0, 0x0, 0x0⟩
/-- MOT_SEEK (R317). -/
def MOT_SEEK : Fld := ⟨0xA0044, 31, 0, 0x0, 0x0⟩
def MOT_SEEK_GO : Fld := ⟨0xA0044, 31, 31, 0x0, 0x0⟩
def MOT_SEEK_KIND : Fld := ⟨0xA0044, 17, 16, 0x0, 0x0⟩
def MOT_SEEK_DELTA : Fld := ⟨0xA0044, 15, 0, 0x0, 0x0⟩
/-- MOT_FS_V (R317). -/
def MOT_FS_V : Fld := ⟨0xA0048, 31, 0, 0x0, 0x0⟩
def MOT_FS_V_FS_V : Fld := ⟨0xA0048, 31, 0, 0x0, 0x0⟩
/-- MOT_FS_A (R317). -/
def MOT_FS_A : Fld := ⟨0xA004C, 31, 0, 0x0, 0x0⟩
def MOT_FS_A_FS_A : Fld := ⟨0xA004C, 31, 0, 0x0, 0x0⟩
/-- MOT_FS_J (R317). -/
def MOT_FS_J : Fld := ⟨0xA0050, 31, 0, 0x0, 0x0⟩
def MOT_FS_J_FS_J : Fld := ⟨0xA0050, 31, 0, 0x0, 0x0⟩
/-- MOT_CNT (R317). -/
def MOT_CNT : Fld := ⟨0xA0054, 31, 0, 0x0, 0x0⟩
def MOT_CNT_SEEK_MISS : Fld := ⟨0xA0054, 31, 16, 0x0, 0x0⟩
def MOT_CNT_SEEKS : Fld := ⟨0xA0054, 15, 0, 0x0, 0x0⟩
/-- MOT_USTEP (R317). -/
def MOT_USTEP : Fld := ⟨0xA0800, 31, 0, 0x0, 0x0⟩
def MOT_USTEP_USTEP_NM : Fld := ⟨0xA0800, 15, 0, 0x0, 0x0⟩
/-- AX_CTL (R318). -/
def AX_CTL : Fld := ⟨0xA1000, 31, 0, 0x1000, 0x0⟩
def AX_CTL_DIR_INV : Fld := ⟨0xA1000, 16, 16, 0x1000, 0x0⟩
def AX_CTL_ABORT : Fld := ⟨0xA1000, 8, 8, 0x1000, 0x0⟩
def AX_CTL_MODE : Fld := ⟨0xA1000, 2, 0, 0x1000, 0x0⟩
/-- AX_STAT (R318). -/
def AX_STAT : Fld := ⟨0xA1004, 31, 0, 0x1000, 0x0⟩
def AX_STAT_QCOUNT : Fld := ⟨0xA1004, 19, 16, 0x1000, 0x0⟩
def AX_STAT_HOME_PHASE : Fld := ⟨0xA1004, 11, 10, 0x1000, 0x0⟩
def AX_STAT_AT_LIMIT : Fld := ⟨0xA1004, 7, 7, 0x1000, 0x0⟩
def AX_STAT_BLENDING : Fld := ⟨0xA1004, 6, 6, 0x1000, 0x0⟩
def AX_STAT_HOME_IN : Fld := ⟨0xA1004, 5, 5, 0x1000, 0x0⟩
def AX_STAT_AT_TARGET : Fld := ⟨0xA1004, 4, 4, 0x1000, 0x0⟩
def AX_STAT_HOMED : Fld := ⟨0xA1004, 3, 3, 0x1000, 0x0⟩
def AX_STAT_MODE_NOW : Fld := ⟨0xA1004, 2, 0, 0x1000, 0x0⟩
/-- AX_POS (R318). -/
def AX_POS : Fld := ⟨0xA1008, 31, 0, 0x1000, 0x0⟩
def AX_POS_POS : Fld := ⟨0xA1008, 31, 0, 0x1000, 0x0⟩
/-- AX_VEL (R318). -/
def AX_VEL : Fld := ⟨0xA100C, 31, 0, 0x1000, 0x0⟩
def AX_VEL_VEL : Fld := ⟨0xA100C, 31, 0, 0x1000, 0x0⟩
/-- AX_QTGT (R318). -/
def AX_QTGT : Fld := ⟨0xA1010, 31, 0, 0x1000, 0x0⟩
def AX_QTGT_QTGT : Fld := ⟨0xA1010, 31, 0, 0x1000, 0x0⟩
/-- AX_QCMD (R318). -/
def AX_QCMD : Fld := ⟨0xA1014, 31, 0, 0x1000, 0x0⟩
def AX_QCMD_SET : Fld := ⟨0xA1014, 4, 4, 0x1000, 0x0⟩
def AX_QCMD_NOBLEND : Fld := ⟨0xA1014, 2, 2, 0x1000, 0x0⟩
def AX_QCMD_REL : Fld := ⟨0xA1014, 1, 1, 0x1000, 0x0⟩
def AX_QCMD_PUSH : Fld := ⟨0xA1014, 0, 0, 0x1000, 0x0⟩
/-- AX_CUR (R318). -/
def AX_CUR : Fld := ⟨0xA1030, 31, 0, 0x1000, 0x0⟩
def AX_CUR_IHOLD : Fld := ⟨0xA1030, 31, 16, 0x1000, 0x0⟩
def AX_CUR_IRUN : Fld := ⟨0xA1030, 15, 0, 0x1000, 0x0⟩
/-- AX_HCTL (R318). -/
def AX_HCTL : Fld := ⟨0xA1034, 31, 0, 0x1000, 0x0⟩
def AX_HCTL_HOME_FILT : Fld := ⟨0xA1034, 27, 24, 0x1000, 0x0⟩
def AX_HCTL_HOME_DIR : Fld := ⟨0xA1034, 16, 16, 0x1000, 0x0⟩
def AX_HCTL_HOLD_DELAY : Fld := ⟨0xA1034, 15, 0, 0x1000, 0x0⟩
/-- AX_HOMEV (R318). -/
def AX_HOMEV : Fld := ⟨0xA1038, 31, 0, 0x1000, 0x0⟩
def AX_HOMEV_FAST : Fld := ⟨0xA1038, 31, 16, 0x1000, 0x0⟩
def AX_HOMEV_SLOW : Fld := ⟨0xA1038, 15, 0, 0x1000, 0x0⟩
/-- AX_HOMEPOS (R318). -/
def AX_HOMEPOS : Fld := ⟨0xA103C, 31, 0, 0x1000, 0x0⟩
def AX_HOMEPOS_HOME_POS : Fld := ⟨0xA103C, 31, 0, 0x1000, 0x0⟩
/-- AX_BACKOFF (R318). -/
def AX_BACKOFF : Fld := ⟨0xA1040, 31, 0, 0x1000, 0x0⟩
def AX_BACKOFF_BACKOFF : Fld := ⟨0xA1040, 15, 0, 0x1000, 0x0⟩
/-- AX_RANGE (R318). -/
def AX_RANGE : Fld := ⟨0xA1044, 31, 0, 0x1000, 0x0⟩
def AX_RANGE_HOME_RANGE : Fld := ⟨0xA1044, 31, 0, 0x1000, 0x0⟩
/-- AX_MINPOS (R318). -/
def AX_MINPOS : Fld := ⟨0xA1048, 31, 0, 0x1000, 0x0⟩
def AX_MINPOS_MIN_POS : Fld := ⟨0xA1048, 31, 0, 0x1000, 0x0⟩
/-- AX_MAXPOS (R318). -/
def AX_MAXPOS : Fld := ⟨0xA104C, 31, 0, 0x1000, 0x0⟩
def AX_MAXPOS_MAX_POS : Fld := ⟨0xA104C, 31, 0, 0x1000, 0x0⟩
/-- AX_FOLLOW (R318). -/
def AX_FOLLOW : Fld := ⟨0xA1050, 31, 0, 0x1000, 0x0⟩
def AX_FOLLOW_FOLLOW_V : Fld := ⟨0xA1050, 31, 0, 0x1000, 0x0⟩
/-- AX_CAPT (R318). -/
def AX_CAPT : Fld := ⟨0xA1054, 31, 0, 0x1000, 0x0⟩
def AX_CAPT_CAPT : Fld := ⟨0xA1054, 31, 0, 0x1000, 0x0⟩
/-- AX_DAC (R318). -/
def AX_DAC : Fld := ⟨0xA1058, 31, 0, 0x1000, 0x0⟩
def AX_DAC_DACB : Fld := ⟨0xA1058, 31, 16, 0x1000, 0x0⟩
def AX_DAC_DACA : Fld := ⟨0xA1058, 15, 0, 0x1000, 0x0⟩
/-- AX_CNT (R318). -/
def AX_CNT : Fld := ⟨0xA105C, 31, 0, 0x1000, 0x0⟩
def AX_CNT_REFUSED : Fld := ⟨0xA105C, 31, 16, 0x1000, 0x0⟩
def AX_CNT_MOVES : Fld := ⟨0xA105C, 15, 0, 0x1000, 0x0⟩
/-- AX_WAVE (R319). -/
def AX_WAVE : Fld := ⟨0xA1B00, 31, 0, 0x1000, 0x4⟩
def AX_WAVE_WAVE : Fld := ⟨0xA1B00, 15, 0, 0x1000, 0x4⟩
/-- SPN_CTL (R367). -/
def SPN_CTL : Fld := ⟨0xC0040, 31, 0, 0x0, 0x0⟩
def SPN_CTL_CNT_CLEAR : Fld := ⟨0xC0040, 7, 7, 0x0, 0x0⟩
def SPN_CTL_DUTY_EN : Fld := ⟨0xC0040, 5, 5, 0x0, 0x0⟩
def SPN_CTL_DRIVE : Fld := ⟨0xC0040, 4, 4, 0x0, 0x0⟩
def SPN_CTL_CMD : Fld := ⟨0xC0040, 2, 0, 0x0, 0x0⟩
/-- SPN_STAT (R367). -/
def SPN_STAT : Fld := ⟨0xC0044, 31, 0, 0x0, 0x0⟩
def SPN_STAT_RPM : Fld := ⟨0xC0044, 31, 16, 0x0, 0x0⟩
def SPN_STAT_STATE : Fld := ⟨0xC0044, 15, 12, 0x0, 0x0⟩
def SPN_STAT_ATTEMPT : Fld := ⟨0xC0044, 11, 9, 0x0, 0x0⟩
def SPN_STAT_SECTOR : Fld := ⟨0xC0044, 8, 6, 0x0, 0x0⟩
def SPN_STAT_VECTOR : Fld := ⟨0xC0044, 5, 3, 0x0, 0x0⟩
def SPN_STAT_NEG_CLAMP : Fld := ⟨0xC0044, 2, 2, 0x0, 0x0⟩
def SPN_STAT_ILIM : Fld := ⟨0xC0044, 1, 1, 0x0, 0x0⟩
def SPN_STAT_PREDICT : Fld := ⟨0xC0044, 0, 0, 0x0, 0x0⟩
/-- SPN_TREF (R367). -/
def SPN_TREF : Fld := ⟨0xC0048, 31, 0, 0x0, 0x0⟩
def SPN_TREF_TREF : Fld := ⟨0xC0048, 31, 16, 0x0, 0x0⟩
def SPN_TREF_TORQUE : Fld := ⟨0xC0048, 15, 0, 0x0, 0x0⟩
/-- SPN_DTC (R367). -/
def SPN_DTC : Fld := ⟨0xC004C, 31, 0, 0x0, 0x0⟩
def SPN_DTC_HB_T : Fld := ⟨0xC004C, 15, 8, 0x0, 0x0⟩
def SPN_DTC_HB_F : Fld := ⟨0xC004C, 7, 0, 0x0, 0x0⟩
/-- SPN_DUTY (R367). -/
def SPN_DUTY : Fld := ⟨0xC0050, 31, 0, 0x0, 0x0⟩
def SPN_DUTY_KDUTY : Fld := ⟨0xC0050, 23, 16, 0x0, 0x0⟩
def SPN_DUTY_TA_BASE : Fld := ⟨0xC0050, 10, 0, 0x0, 0x0⟩
/-- SPN_START (R367). -/
def SPN_START : Fld := ⟨0xC0054, 31, 0, 0x0, 0x0⟩
def SPN_START_START_T : Fld := ⟨0xC0054, 31, 16, 0x0, 0x0⟩
def SPN_START_PROBE_TICKS : Fld := ⟨0xC0054, 15, 12, 0x0, 0x0⟩
def SPN_START_PROBE_MIN : Fld := ⟨0xC0054, 7, 0, 0x0, 0x0⟩
/-- SPN_STIME (R367). -/
def SPN_STIME : Fld := ⟨0xC0058, 31, 0, 0x0, 0x0⟩
def SPN_STIME_START_TIME : Fld := ⟨0xC0058, 31, 16, 0x0, 0x0⟩
def SPN_STIME_START_PAUSE : Fld := ⟨0xC0058, 15, 0, 0x0, 0x0⟩
/-- SPN_BRAKE (R367). -/
def SPN_BRAKE : Fld := ⟨0xC005C, 31, 0, 0x0, 0x0⟩
def SPN_BRAKE_BRAKE_T : Fld := ⟨0xC005C, 31, 16, 0x0, 0x0⟩
def SPN_BRAKE_REGEN_MIN : Fld := ⟨0xC005C, 15, 0, 0x0, 0x0⟩
/-- SPN_RPM (R367). -/
def SPN_RPM : Fld := ⟨0xC0060, 31, 0, 0x0, 0x0⟩
def SPN_RPM_STILL_RPM : Fld := ⟨0xC0060, 31, 16, 0x0, 0x0⟩
def SPN_RPM_HAND_RPM : Fld := ⟨0xC0060, 15, 0, 0x0, 0x0⟩
/-- SPN_SIX (R367). -/
def SPN_SIX : Fld := ⟨0xC0064, 31, 0, 0x0, 0x0⟩
def SPN_SIX_SIX_MIN : Fld := ⟨0xC0064, 31, 16, 0x0, 0x0⟩
def SPN_SIX_ADV_DEG : Fld := ⟨0xC0064, 15, 8, 0x0, 0x0⟩
def SPN_SIX_EDGE_TICKS : Fld := ⟨0xC0064, 7, 4, 0x0, 0x0⟩
def SPN_SIX_BLANK_TICKS : Fld := ⟨0xC0064, 3, 0, 0x0, 0x0⟩
/-- SPN_IAB (R367). -/
def SPN_IAB : Fld := ⟨0xC0068, 31, 0, 0x0, 0x0⟩
def SPN_IAB_I_BETA : Fld := ⟨0xC0068, 31, 16, 0x0, 0x0⟩
def SPN_IAB_I_ALPHA : Fld := ⟨0xC0068, 15, 0, 0x0, 0x0⟩
/-- SPN_FLUX (R367). -/
def SPN_FLUX : Fld := ⟨0xC006C, 31, 0, 0x0, 0x0⟩
def SPN_FLUX_PSIR : Fld := ⟨0xC006C, 31, 16, 0x0, 0x0⟩
def SPN_FLUX_THETA : Fld := ⟨0xC006C, 15, 0, 0x0, 0x0⟩
/-- SPN_CNT_START (R368). -/
def SPN_CNT_START : Fld := ⟨0xC0080, 31, 0, 0x0, 0x0⟩
def SPN_CNT_START_STARTS : Fld := ⟨0xC0080, 31, 16, 0x0, 0x0⟩
def SPN_CNT_START_START_FAILS : Fld := ⟨0xC0080, 15, 0, 0x0, 0x0⟩
/-- SPN_CNT_CATCH (R368). -/
def SPN_CNT_CATCH : Fld := ⟨0xC0084, 31, 0, 0x0, 0x0⟩
def SPN_CNT_CATCH_CATCHES : Fld := ⟨0xC0084, 31, 16, 0x0, 0x0⟩
def SPN_CNT_CATCH_CATCH_FAILS : Fld := ⟨0xC0084, 15, 8, 0x0, 0x0⟩
def SPN_CNT_CATCH_BUS_CATCH : Fld := ⟨0xC0084, 7, 0, 0x0, 0x0⟩
/-- SPN_CNT_PRED (R368). -/
def SPN_CNT_PRED : Fld := ⟨0xC0088, 31, 0, 0x0, 0x0⟩
def SPN_CNT_PRED_PRED : Fld := ⟨0xC0088, 31, 16, 0x0, 0x0⟩
def SPN_CNT_PRED_INSERTED : Fld := ⟨0xC0088, 15, 0, 0x0, 0x0⟩
/-- SPN_CNT_LOSS (R368). -/
def SPN_CNT_LOSS : Fld := ⟨0xC008C, 31, 0, 0x0, 0x0⟩
def SPN_CNT_LOSS_LOSS_FLUX : Fld := ⟨0xC008C, 31, 24, 0x0, 0x0⟩
def SPN_CNT_LOSS_LOSS_SPEED : Fld := ⟨0xC008C, 23, 16, 0x0, 0x0⟩
def SPN_CNT_LOSS_LOSS_ILIM : Fld := ⟨0xC008C, 15, 8, 0x0, 0x0⟩
def SPN_CNT_LOSS_LOSS_SIX : Fld := ⟨0xC008C, 7, 0, 0x0, 0x0⟩
/-- SPN_CNT_ILIM (R368). -/
def SPN_CNT_ILIM : Fld := ⟨0xC0090, 31, 0, 0x0, 0x0⟩
def SPN_CNT_ILIM_ILIM_TICKS : Fld := ⟨0xC0090, 31, 0, 0x0, 0x0⟩
/-- SPN_MOTOR (R369). -/
def SPN_MOTOR : Fld := ⟨0xC0800, 31, 0, 0x0, 0x0⟩
def SPN_MOTOR_POLES : Fld := ⟨0xC0800, 27, 24, 0x0, 0x0⟩
def SPN_MOTOR_RES_MOHM : Fld := ⟨0xC0800, 15, 0, 0x0, 0x0⟩
/-- SPN_IND (R369). -/
def SPN_IND : Fld := ⟨0xC0804, 31, 0, 0x0, 0x0⟩
def SPN_IND_PSI_M : Fld := ⟨0xC0804, 31, 16, 0x0, 0x0⟩
def SPN_IND_IND : Fld := ⟨0xC0804, 15, 0, 0x0, 0x0⟩
/-- SPN_FREF (R369). -/
def SPN_FREF : Fld := ⟨0xC0808, 31, 0, 0x0, 0x0⟩
def SPN_FREF_KPSI : Fld := ⟨0xC0808, 31, 16, 0x0, 0x0⟩
def SPN_FREF_PSI_REF : Fld := ⟨0xC0808, 15, 0, 0x0, 0x0⟩
/-- SPN_TORQ (R369). -/
def SPN_TORQ : Fld := ⟨0xC080C, 31, 0, 0x0, 0x0⟩
def SPN_TORQ_TMAX : Fld := ⟨0xC080C, 31, 16, 0x0, 0x0⟩
def SPN_TORQ_OMEGA_K : Fld := ⟨0xC080C, 15, 0, 0x0, 0x0⟩
/-- SPN_SHUNT (R369). -/
def SPN_SHUNT : Fld := ⟨0xC0810, 31, 0, 0x0, 0x0⟩
def SPN_SHUNT_ILIM_HW : Fld := ⟨0xC0810, 31, 16, 0x0, 0x0⟩
def SPN_SHUNT_ISH_LSB : Fld := ⟨0xC0810, 15, 0, 0x0, 0x0⟩
/-- SPN_GATE (R369). -/
def SPN_GATE : Fld := ⟨0xC0814, 31, 0, 0x0, 0x0⟩
def SPN_GATE_DEADTIME : Fld := ⟨0xC0814, 15, 8, 0x0, 0x0⟩
def SPN_GATE_DT_COMP : Fld := ⟨0xC0814, 7, 0, 0x0, 0x0⟩
/-- SPN_TRIM (R369). -/
def SPN_TRIM : Fld := ⟨0xC0818, 31, 0, 0x0, 0x0⟩
def SPN_TRIM_SH_GAIN : Fld := ⟨0xC0818, 15, 8, 0x0, 0x0⟩
def SPN_TRIM_SH_OFS : Fld := ⟨0xC0818, 7, 0, 0x0, 0x0⟩
/-- SPN_BEMF (R369). -/
def SPN_BEMF : Fld := ⟨0xC081C, 31, 0, 0x0, 0x0⟩
def SPN_BEMF_BEMF_HYST : Fld := ⟨0xC081C, 15, 8, 0x0, 0x0⟩
def SPN_BEMF_BEMF_FC : Fld := ⟨0xC081C, 7, 0, 0x0, 0x0⟩
/-- VMB_CTLx (R371). -/
def VMB_CTLx : Fld := ⟨0xD00040, 31, 0, 0x10, 0x0⟩
def VMB_CTLx_CHOP_CLR : Fld := ⟨0xD00040, 1, 1, 0x10, 0x0⟩
def VMB_CTLx_CNT_CLEAR : Fld := ⟨0xD00040, 0, 0, 0x10, 0x0⟩
/-- VMB_STATx (R371). -/
def VMB_STATx : Fld := ⟨0xD00044, 31, 0, 0x10, 0x0⟩
def VMB_STATx_VM : Fld := ⟨0xD00044, 31, 16, 0x10, 0x0⟩
def VMB_STATx_FAULT_CAUSE : Fld := ⟨0xD00044, 7, 6, 0x10, 0x0⟩
def VMB_STATx_CHOPPER_FAULT : Fld := ⟨0xD00044, 5, 5, 0x10, 0x0⟩
def VMB_STATx_UNDER : Fld := ⟨0xD00044, 4, 4, 0x10, 0x0⟩
def VMB_STATx_BUFFER_STOP : Fld := ⟨0xD00044, 3, 3, 0x10, 0x0⟩
def VMB_STATx_CHOP_ON : Fld := ⟨0xD00044, 2, 2, 0x10, 0x0⟩
/-- VMB_CNTx (R371). -/
def VMB_CNTx : Fld := ⟨0xD00048, 31, 0, 0x10, 0x0⟩
def VMB_CNTx_CHOP_ONS : Fld := ⟨0xD00048, 31, 16, 0x10, 0x0⟩
def VMB_CNTx_STOPS : Fld := ⟨0xD00048, 15, 8, 0x10, 0x0⟩
def VMB_CNTx_UV : Fld := ⟨0xD00048, 7, 0, 0x10, 0x0⟩
/-- VMB_UVx (R371). -/
def VMB_UVx : Fld := ⟨0xD0004C, 31, 0, 0x10, 0x0⟩
def VMB_UVx_UV_MV : Fld := ⟨0xD0004C, 15, 0, 0x10, 0x0⟩
/-- DCM_CTL (R391). -/
def DCM_CTL : Fld := ⟨0x40, 31, 0, 0x0, 0x0⟩
def DCM_CTL_STOP_CLR : Fld := ⟨0x40, 31, 31, 0x0, 0x0⟩
def DCM_CTL_CNT_CLEAR : Fld := ⟨0x40, 30, 30, 0x0, 0x0⟩
def DCM_CTL_ACQ_TRIES : Fld := ⟨0x40, 13, 12, 0x0, 0x0⟩
def DCM_CTL_PROFILE_REQ : Fld := ⟨0x40, 9, 8, 0x0, 0x0⟩
def DCM_CTL_DISC_LOADED : Fld := ⟨0x40, 4, 4, 0x0, 0x0⟩
def DCM_CTL_MODE_REQ : Fld := ⟨0x40, 3, 0, 0x0, 0x0⟩
/-- DCM_TGT (R391). -/
def DCM_TGT : Fld := ⟨0x44, 31, 0, 0x0, 0x0⟩
def DCM_TGT_BAND : Fld := ⟨0x44, 19, 4, 0x0, 0x0⟩
def DCM_TGT_LAYER : Fld := ⟨0x44, 3, 0, 0x0, 0x0⟩
/-- DCM_STAT (R391). -/
def DCM_STAT : Fld := ⟨0x48, 31, 0, 0x0, 0x0⟩
def DCM_STAT_MODE : Fld := ⟨0x48, 31, 28, 0x0, 0x0⟩
def DCM_STAT_HEADING : Fld := ⟨0x48, 27, 24, 0x0, 0x0⟩
def DCM_STAT_PROFILE : Fld := ⟨0x48, 23, 22, 0x0, 0x0⟩
def DCM_STAT_LADDER_MARGIN : Fld := ⟨0x48, 21, 21, 0x0, 0x0⟩
def DCM_STAT_STOPPED : Fld := ⟨0x48, 20, 20, 0x0, 0x0⟩
def DCM_STAT_DISC_LOADED : Fld := ⟨0x48, 19, 19, 0x0, 0x0⟩
def DCM_STAT_WRITE_BLOCK : Fld := ⟨0x48, 18, 18, 0x0, 0x0⟩
def DCM_STAT_TRANSFER_WAIT : Fld := ⟨0x48, 17, 17, 0x0, 0x0⟩
def DCM_STAT_LAYER : Fld := ⟨0x48, 15, 12, 0x0, 0x0⟩
def DCM_STAT_ZONE : Fld := ⟨0x48, 11, 9, 0x0, 0x0⟩
/-- DCM_ERR (R391). -/
def DCM_ERR : Fld := ⟨0x4C, 31, 0, 0x0, 0x0⟩
def DCM_ERR_MODE : Fld := ⟨0x4C, 11, 8, 0x0, 0x0⟩
def DCM_ERR_CAUSE : Fld := ⟨0x4C, 3, 0, 0x0, 0x0⟩
/-- DCM_TIME (R391). -/
def DCM_TIME : Fld := ⟨0x50, 31, 0, 0x0, 0x0⟩
def DCM_TIME_SPINUP_TIME : Fld := ⟨0x50, 31, 24, 0x0, 0x0⟩
def DCM_TIME_BRAKE_TIME : Fld := ⟨0x50, 23, 16, 0x0, 0x0⟩
def DCM_TIME_SEEK_TIME : Fld := ⟨0x50, 15, 8, 0x0, 0x0⟩
def DCM_TIME_BUS_WAIT : Fld := ⟨0x50, 7, 0, 0x0, 0x0⟩
/-- DCM_CNT (R392). -/
def DCM_CNT : Fld := ⟨0x54, 31, 0, 0x0, 0x0⟩
def DCM_CNT_MODE_FAILS : Fld := ⟨0x54, 31, 16, 0x0, 0x0⟩
def DCM_CNT_STOPS : Fld := ⟨0x54, 15, 8, 0x0, 0x0⟩
def DCM_CNT_WITHDRAWALS : Fld := ⟨0x54, 7, 0, 0x0, 0x0⟩
/-- DCM_CNT2 (R392). -/
def DCM_CNT2 : Fld := ⟨0x58, 31, 0, 0x0, 0x0⟩
def DCM_CNT2_PROBED : Fld := ⟨0x58, 31, 16, 0x0, 0x0⟩
def DCM_CNT2_MARGIN_ENTRIES : Fld := ⟨0x58, 15, 0, 0x0, 0x0⟩
/-- DCM_DISC_LO (R392). -/
def DCM_DISC_LO : Fld := ⟨0x60, 31, 0, 0x0, 0x0⟩
def DCM_DISC_LO_DISC : Fld := ⟨0x60, 31, 0, 0x0, 0x0⟩
/-- DCM_DISC_HI (R392). -/
def DCM_DISC_HI : Fld := ⟨0x64, 31, 0, 0x0, 0x0⟩
def DCM_DISC_HI_DISC : Fld := ⟨0x64, 31, 0, 0x0, 0x0⟩
/-- DCM_ALLOW (R393). -/
def DCM_ALLOW : Fld := ⟨0x800, 31, 0, 0x0, 0x0⟩
def DCM_ALLOW_MARGIN : Fld := ⟨0x800, 3, 3, 0x0, 0x0⟩
def DCM_ALLOW_QUIET : Fld := ⟨0x800, 2, 2, 0x0, 0x0⟩
def DCM_ALLOW_BALANCED : Fld := ⟨0x800, 1, 1, 0x0, 0x0⟩
def DCM_ALLOW_SPRINT : Fld := ⟨0x800, 0, 0, 0x0, 0x0⟩
/-- DCM_RPMp_k (R393). -/
def DCM_RPMp_k : Fld := ⟨0x840, 31, 0, 0x10, 0x4⟩
def DCM_RPMp_k_RPM_HI : Fld := ⟨0x840, 31, 16, 0x10, 0x4⟩
def DCM_RPMp_k_RPM_LO : Fld := ⟨0x840, 15, 0, 0x10, 0x4⟩
/-- DCM_CFGp (R393). -/
def DCM_CFGp : Fld := ⟨0x880, 31, 0, 0x4, 0x0⟩
def DCM_CFGp_MAX_RUNG : Fld := ⟨0x880, 19, 17, 0x4, 0x0⟩
def DCM_CFGp_SIX : Fld := ⟨0x880, 16, 16, 0x4, 0x0⟩
def DCM_CFGp_SPAN : Fld := ⟨0x880, 13, 12, 0x4, 0x0⟩
def DCM_CFGp_INLINE_GLOBAL : Fld := ⟨0x880, 11, 10, 0x4, 0x0⟩
def DCM_CFGp_RETRY_GLOBAL : Fld := ⟨0x880, 9, 8, 0x4, 0x0⟩
def DCM_CFGp_INLINE_LDPC : Fld := ⟨0x880, 7, 4, 0x4, 0x0⟩
def DCM_CFGp_RETRY_LDPC : Fld := ⟨0x880, 3, 0, 0x4, 0x0⟩
/-- HLK_CTL (R422). -/
def HLK_CTL : Fld := ⟨0x300040, 31, 0, 0x0, 0x0⟩
def HLK_CTL_CNT_CLEAR : Fld := ⟨0x300040, 2, 2, 0x0, 0x0⟩
def HLK_CTL_CFG_READY1 : Fld := ⟨0x300040, 1, 1, 0x0, 0x0⟩
def HLK_CTL_CFG_READY0 : Fld := ⟨0x300040, 0, 0, 0x0, 0x0⟩
/-- HLK_STAT (R422). -/
def HLK_STAT : Fld := ⟨0x300044, 31, 0, 0x0, 0x0⟩
def HLK_STAT_AF_FUNC : Fld := ⟨0x300044, 5, 0, 0x0, 0x0⟩
/-- HLK_SUBSYS (R422). -/
def HLK_SUBSYS : Fld := ⟨0x300048, 31, 0, 0x0, 0x0⟩
def HLK_SUBSYS_SSID : Fld := ⟨0x300048, 31, 16, 0x0, 0x0⟩
def HLK_SUBSYS_SSVID : Fld := ⟨0x300048, 15, 0, 0x0, 0x0⟩
/-- HLK_PORTp (R423). -/
def HLK_PORTp : Fld := ⟨0x300050, 31, 0, 0x10, 0x0⟩
def HLK_PORTp_NUM_VFS : Fld := ⟨0x300050, 15, 11, 0x10, 0x0⟩
def HLK_PORTp_VF_EN : Fld := ⟨0x300050, 10, 10, 0x10, 0x0⟩
def HLK_PORTp_PERST : Fld := ⟨0x300050, 9, 9, 0x10, 0x0⟩
def HLK_PORTp_LINK_UP : Fld := ⟨0x300050, 8, 8, 0x10, 0x0⟩
def HLK_PORTp_WIDTH : Fld := ⟨0x300050, 7, 4, 0x10, 0x0⟩
def HLK_PORTp_SPEED : Fld := ⟨0x300050, 3, 0, 0x10, 0x0⟩
/-- HLK_RSTp (R423). -/
def HLK_RSTp : Fld := ⟨0x300054, 31, 0, 0x10, 0x0⟩
def HLK_RSTp_RESET_PEND : Fld := ⟨0x300054, 31, 1, 0x10, 0x0⟩
def HLK_RSTp_RESET_PEND_0 : Fld := ⟨0x300054, 0, 0, 0x10, 0x0⟩
/-- HLK_VCNTp (R423). -/
def HLK_VCNTp : Fld := ⟨0x300058, 31, 0, 0x10, 0x0⟩
def HLK_VCNTp_WRAPS : Fld := ⟨0x300058, 31, 16, 0x10, 0x0⟩
def HLK_VCNTp_SUPPRESSED : Fld := ⟨0x300058, 15, 8, 0x10, 0x0⟩
def HLK_VCNTp_VIOL : Fld := ⟨0x300058, 7, 0, 0x10, 0x0⟩
/-- HLK_DCNTp (R423). -/
def HLK_DCNTp : Fld := ⟨0x30005C, 31, 0, 0x10, 0x0⟩
def HLK_DCNTp_DENIED_RD : Fld := ⟨0x30005C, 31, 16, 0x10, 0x0⟩
def HLK_DCNTp_DMA_FAULT : Fld := ⟨0x30005C, 15, 0, 0x10, 0x0⟩
/-- HQE_CTL (R458). -/
def HQE_CTL : Fld := ⟨0x400040, 31, 0, 0x0, 0x0⟩
def HQE_CTL_CNT_CLEAR : Fld := ⟨0x400040, 0, 0, 0x0, 0x0⟩
/-- HQE_STAT (R458). -/
def HQE_STAT : Fld := ⟨0x400044, 31, 0, 0x0, 0x0⟩
def HQE_STAT_CTX_BUSY : Fld := ⟨0x400044, 12, 0, 0x0, 0x0⟩
/-- HQE_STALL (R458). -/
def HQE_STALL : Fld := ⟨0x400048, 31, 0, 0x0, 0x0⟩
def HQE_STALL_CTX_STALL : Fld := ⟨0x400048, 31, 0, 0x0, 0x0⟩
/-- HQE_GRANT (R458). -/
def HQE_GRANT : Fld := ⟨0x40004C, 31, 0, 0x0, 0x0⟩
def HQE_GRANT_GRANT_TMO : Fld := ⟨0x40004C, 15, 0, 0x0, 0x0⟩
/-- HQE_CNT (R458). -/
def HQE_CNT : Fld := ⟨0x400050, 31, 0, 0x0, 0x0⟩
def HQE_CNT_HEAD_WAITS : Fld := ⟨0x400050, 31, 16, 0x0, 0x0⟩
def HQE_CNT_GRANT_EXPIRED : Fld := ⟨0x400050, 15, 0, 0x0, 0x0⟩
/-- HQE_FRINGf (R458). -/
def HQE_FRINGf : Fld := ⟨0x400100, 31, 0, 0x4, 0x0⟩
def HQE_FRINGf_COUNT : Fld := ⟨0x400100, 26, 16, 0x4, 0x0⟩
def HQE_FRINGf_BASE : Fld := ⟨0x400100, 13, 0, 0x4, 0x0⟩
/-- RC_BASE_LO (R459). -/
def RC_BASE_LO : Fld := ⟨0x2000000, 31, 0, 0x40, 0x0⟩
def RC_BASE_LO_BASE : Fld := ⟨0x2000000, 31, 12, 0x40, 0x0⟩
/-- RC_BASE_HI (R459). -/
def RC_BASE_HI : Fld := ⟨0x2000004, 31, 0, 0x40, 0x0⟩
def RC_BASE_HI_BASE : Fld := ⟨0x2000004, 31, 0, 0x40, 0x0⟩
/-- RC_CFG (R459). -/
def RC_CFG : Fld := ⟨0x2000008, 31, 0, 0x40, 0x0⟩
def RC_CFG_VECTOR : Fld := ⟨0x2000008, 29, 24, 0x40, 0x0⟩
def RC_CFG_BURST : Fld := ⟨0x2000008, 22, 16, 0x40, 0x0⟩
def RC_CFG_WEIGHT : Fld := ⟨0x2000008, 15, 8, 0x40, 0x0⟩
def RC_CFG_LOG_DEPTH : Fld := ⟨0x2000008, 3, 0, 0x40, 0x0⟩
/-- RC_CTL (R459). -/
def RC_CTL : Fld := ⟨0x200000C, 31, 0, 0x40, 0x0⟩
def RC_CTL_SHUTDOWN : Fld := ⟨0x200000C, 1, 1, 0x40, 0x0⟩
def RC_CTL_ENABLE : Fld := ⟨0x200000C, 0, 0, 0x40, 0x0⟩
/-- RC_STAT (R459). -/
def RC_STAT : Fld := ⟨0x2000010, 31, 0, 0x40, 0x0⟩
def RC_STAT_INFLIGHT : Fld := ⟨0x2000010, 31, 16, 0x40, 0x0⟩
def RC_STAT_GRANTS : Fld := ⟨0x2000010, 15, 4, 0x40, 0x0⟩
def RC_STAT_HEAD_WAIT : Fld := ⟨0x2000010, 3, 3, 0x40, 0x0⟩
def RC_STAT_STATE : Fld := ⟨0x2000010, 2, 0, 0x40, 0x0⟩
/-- RC_PTR (R459). -/
def RC_PTR : Fld := ⟨0x2000014, 31, 0, 0x40, 0x0⟩
def RC_PTR_PASS : Fld := ⟨0x2000014, 28, 28, 0x40, 0x0⟩
def RC_PTR_TAIL : Fld := ⟨0x2000014, 27, 16, 0x40, 0x0⟩
def RC_PTR_HEAD : Fld := ⟨0x2000014, 11, 0, 0x40, 0x0⟩
/-- RC_CNT (R459). -/
def RC_CNT : Fld := ⟨0x2000018, 31, 0, 0x40, 0x0⟩
def RC_CNT_STALLS : Fld := ⟨0x2000018, 31, 16, 0x40, 0x0⟩
def RC_CNT_FETCHED : Fld := ⟨0x2000018, 15, 0, 0x40, 0x0⟩
/-- RC_EVQ_LO (R459). -/
def RC_EVQ_LO : Fld := ⟨0x2000020, 31, 0, 0x40, 0x0⟩
def RC_EVQ_LO_EVQ_BASE : Fld := ⟨0x2000020, 31, 10, 0x40, 0x0⟩
def RC_EVQ_LO_EVQ_EN : Fld := ⟨0x2000020, 0, 0, 0x40, 0x0⟩
/-- RC_EVQ_HI (R459). -/
def RC_EVQ_HI : Fld := ⟨0x2000024, 31, 0, 0x40, 0x0⟩
def RC_EVQ_HI_EVQ_BASE : Fld := ⟨0x2000024, 31, 0, 0x40, 0x0⟩
/-- RC_EVQ_PTR (R459). -/
def RC_EVQ_PTR : Fld := ⟨0x2000028, 31, 0, 0x40, 0x0⟩
def RC_EVQ_PTR_LOST : Fld := ⟨0x2000028, 31, 24, 0x40, 0x0⟩
def RC_EVQ_PTR_EVQ_TAIL : Fld := ⟨0x2000028, 21, 16, 0x40, 0x0⟩
def RC_EVQ_PTR_EVQ_HEAD : Fld := ⟨0x2000028, 5, 0, 0x40, 0x0⟩
/-- MAP_CTL (R539). -/
def MAP_CTL : Fld := ⟨0x600040, 31, 0, 0x0, 0x0⟩
def MAP_CTL_CNT_CLEAR : Fld := ⟨0x600040, 1, 1, 0x0, 0x0⟩
def MAP_CTL_MAP_EN : Fld := ⟨0x600040, 0, 0, 0x0, 0x0⟩
/-- MAP_STAT (R539). -/
def MAP_STAT : Fld := ⟨0x600044, 31, 0, 0x0, 0x0⟩
def MAP_STAT_JRNL_WAIT : Fld := ⟨0x600044, 16, 16, 0x0, 0x0⟩
def MAP_STAT_NS_COUNT : Fld := ⟨0x600044, 10, 0, 0x0, 0x0⟩
/-- MAP_JRNL (R539). -/
def MAP_JRNL : Fld := ⟨0x600048, 31, 0, 0x0, 0x0⟩
def MAP_JRNL_FILL_PCT : Fld := ⟨0x600048, 31, 24, 0x0, 0x0⟩
def MAP_JRNL_JRNL_HI : Fld := ⟨0x600048, 23, 16, 0x0, 0x0⟩
def MAP_JRNL_HOLDERS : Fld := ⟨0x600048, 15, 0, 0x0, 0x0⟩
/-- MAP_PATCH_USED (R539). -/
def MAP_PATCH_USED : Fld := ⟨0x60004C, 31, 0, 0x0, 0x0⟩
def MAP_PATCH_USED_PAGES_USED : Fld := ⟨0x60004C, 31, 0, 0x0, 0x0⟩
/-- MAP_CNT_COMMIT (R539). -/
def MAP_CNT_COMMIT : Fld := ⟨0x600050, 31, 0, 0x0, 0x0⟩
def MAP_CNT_COMMIT_COMMITS : Fld := ⟨0x600050, 31, 0, 0x0, 0x0⟩
/-- MAP_CNT_MISC (R539). -/
def MAP_CNT_MISC : Fld := ⟨0x600054, 31, 0, 0x0, 0x0⟩
def MAP_CNT_MISC_CONVERSIONS : Fld := ⟨0x600054, 31, 16, 0x0, 0x0⟩
def MAP_CNT_MISC_ORPHANS : Fld := ⟨0x600054, 15, 8, 0x0, 0x0⟩
def MAP_CNT_MISC_NO_SPACE : Fld := ⟨0x600054, 7, 0, 0x0, 0x0⟩
/-- MAP_BASE_LO (R539). -/
def MAP_BASE_LO : Fld := ⟨0x600800, 31, 0, 0x0, 0x0⟩
def MAP_BASE_LO_BASE : Fld := ⟨0x600800, 31, 28, 0x0, 0x0⟩
/-- MAP_BASE_HI (R539). -/
def MAP_BASE_HI : Fld := ⟨0x600804, 31, 0, 0x0, 0x0⟩
def MAP_BASE_HI_BASE : Fld := ⟨0x600804, 31, 0, 0x0, 0x0⟩
/-- MAP_POOL_LO (R539). -/
def MAP_POOL_LO : Fld := ⟨0x600808, 31, 0, 0x0, 0x0⟩
def MAP_POOL_LO_POOL_BASE : Fld := ⟨0x600808, 31, 15, 0x0, 0x0⟩
/-- MAP_POOL_HI (R539). -/
def MAP_POOL_HI : Fld := ⟨0x60080C, 31, 0, 0x0, 0x0⟩
def MAP_POOL_HI_POOL_BASE : Fld := ⟨0x60080C, 31, 0, 0x0, 0x0⟩
/-- MAP_POOL_CFG (R539). -/
def MAP_POOL_CFG : Fld := ⟨0x600810, 31, 0, 0x0, 0x0⟩
def MAP_POOL_CFG_PATCH_PAGES : Fld := ⟨0x600810, 16, 0, 0x0, 0x0⟩
/-- MCA_CTL (R541). -/
def MCA_CTL : Fld := ⟨0x700040, 31, 0, 0x0, 0x0⟩
def MCA_CTL_CNT_CLEAR : Fld := ⟨0x700040, 7, 7, 0x0, 0x0⟩
def MCA_CTL_PF_DEPTH : Fld := ⟨0x700040, 6, 4, 0x0, 0x0⟩
def MCA_CTL_PF_EN : Fld := ⟨0x700040, 0, 0, 0x0, 0x0⟩
/-- MCA_WAY (R541). -/
def MCA_WAY : Fld := ⟨0x700044, 31, 0, 0x0, 0x0⟩
def MCA_WAY_DISABLED : Fld := ⟨0x700044, 31, 16, 0x0, 0x0⟩
def MCA_WAY_LOCK : Fld := ⟨0x700044, 15, 0, 0x0, 0x0⟩
/-- MCA_OP (R541). -/
def MCA_OP : Fld := ⟨0x700048, 31, 0, 0x0, 0x0⟩
def MCA_OP_GO : Fld := ⟨0x700048, 31, 31, 0x0, 0x0⟩
def MCA_OP_BUSY : Fld := ⟨0x700048, 30, 30, 0x0, 0x0⟩
def MCA_OP_OP : Fld := ⟨0x700048, 29, 28, 0x0, 0x0⟩
def MCA_OP_WAY : Fld := ⟨0x700048, 27, 24, 0x0, 0x0⟩
def MCA_OP_RESULT : Fld := ⟨0x700048, 17, 16, 0x0, 0x0⟩
/-- MCA_ADDR_LO (R541). -/
def MCA_ADDR_LO : Fld := ⟨0x70004C, 31, 0, 0x0, 0x0⟩
def MCA_ADDR_LO_ADDR : Fld := ⟨0x70004C, 31, 6, 0x0, 0x0⟩
/-- MCA_ADDR_HI (R541). -/
def MCA_ADDR_HI : Fld := ⟨0x700050, 31, 0, 0x0, 0x0⟩
def MCA_ADDR_HI_ADDR : Fld := ⟨0x700050, 31, 0, 0x0, 0x0⟩
/-- MCA_OP_LEN (R541). -/
def MCA_OP_LEN : Fld := ⟨0x700054, 31, 0, 0x0, 0x0⟩
def MCA_OP_LEN_LINES : Fld := ⟨0x700054, 12, 0, 0x0, 0x0⟩
/-- MCA_CNT_HIT (R541). -/
def MCA_CNT_HIT : Fld := ⟨0x700060, 31, 0, 0x0, 0x0⟩
def MCA_CNT_HIT_HITS : Fld := ⟨0x700060, 31, 0, 0x0, 0x0⟩
/-- MCA_CNT_MISS (R541). -/
def MCA_CNT_MISS : Fld := ⟨0x700064, 31, 0, 0x0, 0x0⟩
def MCA_CNT_MISS_MISSES : Fld := ⟨0x700064, 31, 0, 0x0, 0x0⟩
/-- MCA_CNT_PF (R541). -/
def MCA_CNT_PF : Fld := ⟨0x700068, 31, 0, 0x0, 0x0⟩
def MCA_CNT_PF_PF_USED : Fld := ⟨0x700068, 31, 16, 0x0, 0x0⟩
def MCA_CNT_PF_PF_ISSUED : Fld := ⟨0x700068, 15, 0, 0x0, 0x0⟩
/-- MCA_CNT_MISC (R541). -/
def MCA_CNT_MISC : Fld := ⟨0x70006C, 31, 0, 0x0, 0x0⟩
def MCA_CNT_MISC_EVICT_SERVED : Fld := ⟨0x70006C, 31, 16, 0x0, 0x0⟩
def MCA_CNT_MISC_LOCKED_INVALIDATED : Fld := ⟨0x70006C, 15, 0, 0x0, 0x0⟩
/-- MCA_CNT_ECC (R541). -/
def MCA_CNT_ECC : Fld := ⟨0x700070, 31, 0, 0x0, 0x0⟩
def MCA_CNT_ECC_CORRECTED : Fld := ⟨0x700070, 31, 16, 0x0, 0x0⟩
def MCA_CNT_ECC_UNCORR : Fld := ⟨0x700070, 15, 8, 0x0, 0x0⟩
def MCA_CNT_ECC_WAYS_DISABLED : Fld := ⟨0x700070, 7, 0, 0x0, 0x0⟩
/-- STR_CTL (R579). -/
def STR_CTL : Fld := ⟨0x800040, 31, 0, 0x0, 0x0⟩
def STR_CTL_DEG_MAX : Fld := ⟨0x800040, 3, 2, 0x0, 0x0⟩
def STR_CTL_CNT_CLEAR : Fld := ⟨0x800040, 0, 0, 0x0, 0x0⟩
/-- STR_STAT (R579). -/
def STR_STAT : Fld := ⟨0x800044, 31, 0, 0x0, 0x0⟩
def STR_STAT_WELT_PCT : Fld := ⟨0x800044, 31, 24, 0x0, 0x0⟩
def STR_STAT_UNRESOLVED : Fld := ⟨0x800044, 23, 16, 0x0, 0x0⟩
def STR_STAT_EXC_FULL : Fld := ⟨0x800044, 3, 3, 0x0, 0x0⟩
def STR_STAT_WELT_WAIT : Fld := ⟨0x800044, 2, 2, 0x0, 0x0⟩
def STR_STAT_REB_PAUSED : Fld := ⟨0x800044, 1, 1, 0x0, 0x0⟩
def STR_STAT_REB_RUN : Fld := ⟨0x800044, 0, 0, 0x0, 0x0⟩
/-- STR_REB_POS (R579). -/
def STR_REB_POS : Fld := ⟨0x800048, 31, 0, 0x0, 0x0⟩
def STR_REB_POS_TILE : Fld := ⟨0x800048, 31, 16, 0x0, 0x0⟩
def STR_REB_POS_MEMBER : Fld := ⟨0x800048, 10, 8, 0x0, 0x0⟩
def STR_REB_POS_ZONE : Fld := ⟨0x800048, 6, 4, 0x0, 0x0⟩
def STR_REB_POS_LAYER : Fld := ⟨0x800048, 3, 0, 0x0, 0x0⟩
/-- STR_REB_SET_LO (R579). -/
def STR_REB_SET_LO : Fld := ⟨0x80004C, 31, 0, 0x0, 0x0⟩
def STR_REB_SET_LO_SET : Fld := ⟨0x80004C, 31, 0, 0x0, 0x0⟩
/-- STR_REB_SET_HI (R579). -/
def STR_REB_SET_HI : Fld := ⟨0x800050, 31, 0, 0x0, 0x0⟩
def STR_REB_SET_HI_SET : Fld := ⟨0x800050, 31, 0, 0x0, 0x0⟩
/-- STR_BUF_USED (R579). -/
def STR_BUF_USED : Fld := ⟨0x800054, 31, 0, 0x0, 0x0⟩
def STR_BUF_USED_BLOCKS : Fld := ⟨0x800054, 31, 0, 0x0, 0x0⟩
/-- STR_LOST (R579). -/
def STR_LOST : Fld := ⟨0x800058, 31, 0, 0x0, 0x0⟩
def STR_LOST_ENTRIES : Fld := ⟨0x800058, 16, 0, 0x0, 0x0⟩
/-- STR_CNT_CLOSED (R579). -/
def STR_CNT_CLOSED : Fld := ⟨0x800060, 31, 0, 0x0, 0x0⟩
def STR_CNT_CLOSED_CLOSED : Fld := ⟨0x800060, 31, 0, 0x0, 0x0⟩
/-- STR_CNT_MISC (R579). -/
def STR_CNT_MISC : Fld := ⟨0x800064, 31, 0, 0x0, 0x0⟩
def STR_CNT_MISC_EARLY_CLOSE : Fld := ⟨0x800064, 31, 16, 0x0, 0x0⟩
def STR_CNT_MISC_REPLACED : Fld := ⟨0x800064, 15, 8, 0x0, 0x0⟩
def STR_CNT_MISC_ABANDONED : Fld := ⟨0x800064, 7, 0, 0x0, 0x0⟩
/-- STR_CNT_RECON (R579). -/
def STR_CNT_RECON : Fld := ⟨0x800068, 31, 0, 0x0, 0x0⟩
def STR_CNT_RECON_RECON_OK : Fld := ⟨0x800068, 31, 16, 0x0, 0x0⟩
def STR_CNT_RECON_RECON_FAIL : Fld := ⟨0x800068, 15, 0, 0x0, 0x0⟩
/-- STR_CNT_MEMBER (R579). -/
def STR_CNT_MEMBER : Fld := ⟨0x80006C, 31, 0, 0x0, 0x0⟩
def STR_CNT_MEMBER_SLOW : Fld := ⟨0x80006C, 31, 16, 0x0, 0x0⟩
def STR_CNT_MEMBER_SILENT : Fld := ⟨0x80006C, 15, 0, 0x0, 0x0⟩
/-- STR_CNT_RECOV (R579). -/
def STR_CNT_RECOV : Fld := ⟨0x800070, 31, 0, 0x0, 0x0⟩
def STR_CNT_RECOV_ROLLED_FWD : Fld := ⟨0x800070, 31, 16, 0x0, 0x0⟩
def STR_CNT_RECOV_VOTED : Fld := ⟨0x800070, 15, 8, 0x0, 0x0⟩
def STR_CNT_RECOV_REWRITE_DROP : Fld := ⟨0x800070, 7, 0, 0x0, 0x0⟩
/-- STR_BUF_LO (R580). -/
def STR_BUF_LO : Fld := ⟨0x800800, 31, 0, 0x0, 0x0⟩
def STR_BUF_LO_BASE : Fld := ⟨0x800800, 31, 20, 0x0, 0x0⟩
/-- STR_BUF_HI (R580). -/
def STR_BUF_HI : Fld := ⟨0x800804, 31, 0, 0x0, 0x0⟩
def STR_BUF_HI_BASE : Fld := ⟨0x800804, 31, 0, 0x0, 0x0⟩
/-- STR_BUF_CFG (R580). -/
def STR_BUF_CFG : Fld := ⟨0x800808, 31, 0, 0x0, 0x0⟩
def STR_BUF_CFG_SIZE_MIB : Fld := ⟨0x800808, 15, 0, 0x0, 0x0⟩
/-- STR_LOST_LO (R580). -/
def STR_LOST_LO : Fld := ⟨0x80080C, 31, 0, 0x0, 0x0⟩
def STR_LOST_LO_BASE : Fld := ⟨0x80080C, 31, 21, 0x0, 0x0⟩
/-- STR_LOST_HI (R580). -/
def STR_LOST_HI : Fld := ⟨0x800810, 31, 0, 0x0, 0x0⟩
def STR_LOST_HI_BASE : Fld := ⟨0x800810, 31, 0, 0x0, 0x0⟩
/-- SEA_CTL (R582). -/
def SEA_CTL : Fld := ⟨0x900040, 31, 0, 0x0, 0x0⟩
def SEA_CTL_CNT_CLEAR : Fld := ⟨0x900040, 0, 0, 0x0, 0x0⟩
/-- SEA_LAST (R582). -/
def SEA_LAST : Fld := ⟨0x900044, 31, 0, 0x0, 0x0⟩
def SEA_LAST_NSID : Fld := ⟨0x900044, 31, 16, 0x0, 0x0⟩
def SEA_LAST_POINT : Fld := ⟨0x900044, 2, 0, 0x0, 0x0⟩
/-- SEA_CNTp (R582). -/
def SEA_CNTp : Fld := ⟨0x900080, 31, 0, 0x4, 0x0⟩
def SEA_CNTp_MISMATCHES : Fld := ⟨0x900080, 31, 0, 0x4, 0x0⟩
/-- SEA_INJ (R582). -/
def SEA_INJ : Fld := ⟨0x900800, 31, 0, 0x0, 0x0⟩
def SEA_INJ_ARM : Fld := ⟨0x900800, 31, 31, 0x0, 0x0⟩
def SEA_INJ_POINT : Fld := ⟨0x900800, 2, 0, 0x0, 0x0⟩
/-- MEM_CTL (R610). -/
def MEM_CTL : Fld := ⟨0xA00040, 31, 0, 0x0, 0x0⟩
def MEM_CTL_CNT_CLEAR : Fld := ⟨0xA00040, 2, 2, 0x0, 0x0⟩
def MEM_CTL_AUTO_REMAP : Fld := ⟨0xA00040, 1, 1, 0x0, 0x0⟩
def MEM_CTL_SCRUB_EN : Fld := ⟨0xA00040, 0, 0, 0x0, 0x0⟩
/-- MEM_STAT (R610). -/
def MEM_STAT : Fld := ⟨0xA00044, 31, 0, 0x0, 0x0⟩
def MEM_STAT_SIZE_GIB : Fld := ⟨0xA00044, 31, 24, 0x0, 0x0⟩
def MEM_STAT_RATE : Fld := ⟨0xA00044, 23, 22, 0x0, 0x0⟩
def MEM_STAT_TRAIN_FAIL : Fld := ⟨0xA00044, 21, 20, 0x0, 0x0⟩
def MEM_STAT_FILL_DONE : Fld := ⟨0xA00044, 19, 19, 0x0, 0x0⟩
def MEM_STAT_COPY_BUSY : Fld := ⟨0xA00044, 18, 18, 0x0, 0x0⟩
def MEM_STAT_SRAM_REP : Fld := ⟨0xA00044, 17, 17, 0x0, 0x0⟩
def MEM_STAT_SCRUB_LATE : Fld := ⟨0xA00044, 16, 16, 0x0, 0x0⟩
/-- MEM_SCRUB (R610). -/
def MEM_SCRUB : Fld := ⟨0xA00048, 31, 0, 0x0, 0x0⟩
def MEM_SCRUB_PASS_HOURS : Fld := ⟨0xA00048, 9, 0, 0x0, 0x0⟩
/-- MEM_SCRUB_POS (R610). -/
def MEM_SCRUB_POS : Fld := ⟨0xA0004C, 31, 0, 0x0, 0x0⟩
def MEM_SCRUB_POS_POS : Fld := ⟨0xA0004C, 31, 0, 0x0, 0x0⟩
/-- MEM_CNT_CE (R610). -/
def MEM_CNT_CE : Fld := ⟨0xA00050, 31, 0, 0x0, 0x0⟩
def MEM_CNT_CE_CE : Fld := ⟨0xA00050, 31, 0, 0x0, 0x0⟩
/-- MEM_CNT_MISC (R610). -/
def MEM_CNT_MISC : Fld := ⟨0xA00054, 31, 0, 0x0, 0x0⟩
def MEM_CNT_MISC_UE : Fld := ⟨0xA00054, 31, 24, 0x0, 0x0⟩
def MEM_CNT_MISC_ADDR_ERR : Fld := ⟨0xA00054, 23, 16, 0x0, 0x0⟩
def MEM_CNT_MISC_PASSES : Fld := ⟨0xA00054, 15, 8, 0x0, 0x0⟩
def MEM_CNT_MISC_RMW : Fld := ⟨0xA00054, 7, 0, 0x0, 0x0⟩
/-- MEM_LAST_UE (R610). -/
def MEM_LAST_UE : Fld := ⟨0xA00058, 31, 0, 0x0, 0x0⟩
def MEM_LAST_UE_LINE : Fld := ⟨0xA00058, 28, 0, 0x0, 0x0⟩
/-- MEM_CNT_SRAM (R610). -/
def MEM_CNT_SRAM : Fld := ⟨0xA0005C, 31, 0, 0x0, 0x0⟩
def MEM_CNT_SRAM_CORRECTED : Fld := ⟨0xA0005C, 31, 16, 0x0, 0x0⟩
def MEM_CNT_SRAM_UNCORR : Fld := ⟨0xA0005C, 15, 8, 0x0, 0x0⟩
def MEM_CNT_SRAM_REPAIRS : Fld := ⟨0xA0005C, 7, 0, 0x0, 0x0⟩
/-- MEM_CE_TRACKk (R610). -/
def MEM_CE_TRACKk : Fld := ⟨0xA00060, 31, 0, 0x4, 0x0⟩
def MEM_CE_TRACKk_REMAPPED : Fld := ⟨0xA00060, 31, 31, 0x4, 0x0⟩
def MEM_CE_TRACKk_COUNT : Fld := ⟨0xA00060, 28, 24, 0x4, 0x0⟩
/-- MEM_MARK (R612). -/
def MEM_MARK : Fld := ⟨0xA00800, 31, 0, 0x0, 0x0⟩
def MEM_MARK_MARK : Fld := ⟨0xA00800, 11, 0, 0x0, 0x0⟩
/-- MEM_REPAIR (R612). -/
def MEM_REPAIR : Fld := ⟨0xA00804, 31, 0, 0x0, 0x0⟩
def MEM_REPAIR_SRAM_SEAL : Fld := ⟨0xA00804, 8, 8, 0x0, 0x0⟩
def MEM_REPAIR_REMAP_THR : Fld := ⟨0xA00804, 7, 0, 0x0, 0x0⟩
/-- MEM_REMAPk (R612). -/
def MEM_REMAPk : Fld := ⟨0xA00840, 31, 0, 0x4, 0x0⟩
def MEM_REMAPk_VALID : Fld := ⟨0xA00840, 31, 31, 0x4, 0x0⟩
def MEM_REMAPk_LINE : Fld := ⟨0xA00840, 28, 0, 0x4, 0x0⟩
/-- MEM_SRAM_MODE_LO (R612). -/
def MEM_SRAM_MODE_LO : Fld := ⟨0xA00880, 31, 0, 0x0, 0x0⟩
def MEM_SRAM_MODE_LO_MODE : Fld := ⟨0xA00880, 31, 0, 0x0, 0x0⟩
/-- MEM_SRAM_MODE_HI (R612). -/
def MEM_SRAM_MODE_HI : Fld := ⟨0xA00884, 31, 0, 0x0, 0x0⟩
def MEM_SRAM_MODE_HI_MODE : Fld := ⟨0xA00884, 11, 0, 0x0, 0x0⟩
/-- MEM_SRAM_SEL (R612). -/
def MEM_SRAM_SEL : Fld := ⟨0xA00888, 31, 0, 0x0, 0x0⟩
def MEM_SRAM_SEL_ARRAY : Fld := ⟨0xA00888, 5, 0, 0x0, 0x0⟩
/-- MEM_SRAM_INFO (R612). -/
def MEM_SRAM_INFO : Fld := ⟨0xA0088C, 31, 0, 0x0, 0x0⟩
def MEM_SRAM_INFO_WORDS : Fld := ⟨0xA0088C, 31, 31, 0x0, 0x0⟩
def MEM_SRAM_INFO_USED : Fld := ⟨0xA0088C, 18, 16, 0x0, 0x0⟩
def MEM_SRAM_INFO_FUSE_ROWS : Fld := ⟨0xA0088C, 15, 8, 0x0, 0x0⟩
def MEM_SRAM_INFO_CORR : Fld := ⟨0xA0088C, 7, 0, 0x0, 0x0⟩
/-- MEM_SRAM_INJ (R612). -/
def MEM_SRAM_INJ : Fld := ⟨0xA008A0, 31, 0, 0x0, 0x0⟩
def MEM_SRAM_INJ_ARM : Fld := ⟨0xA008A0, 31, 31, 0x0, 0x0⟩
def MEM_SRAM_INJ_ARRAY : Fld := ⟨0xA008A0, 21, 16, 0x0, 0x0⟩
def MEM_SRAM_INJ_BITS_B : Fld := ⟨0xA008A0, 14, 8, 0x0, 0x0⟩
def MEM_SRAM_INJ_BITS_A : Fld := ⟨0xA008A0, 6, 0, 0x0, 0x0⟩
/-- MEM_TCMD (R613). -/
def MEM_TCMD : Fld := ⟨0xA00900, 31, 0, 0x0, 0x0⟩
def MEM_TCMD_TEST_EN : Fld := ⟨0xA00900, 2, 2, 0x0, 0x0⟩
def MEM_TCMD_CMD : Fld := ⟨0xA00900, 1, 0, 0x0, 0x0⟩
/-- MEM_TADDR (R613). -/
def MEM_TADDR : Fld := ⟨0xA00904, 31, 0, 0x0, 0x0⟩
def MEM_TADDR_LINE : Fld := ⟨0xA00904, 28, 0, 0x0, 0x0⟩
/-- MEM_TSTAT (R613). -/
def MEM_TSTAT : Fld := ⟨0xA00908, 31, 0, 0x0, 0x0⟩
def MEM_TSTAT_DONE : Fld := ⟨0xA00908, 3, 3, 0x0, 0x0⟩
def MEM_TSTAT_OUTCOME : Fld := ⟨0xA00908, 1, 0, 0x0, 0x0⟩
/-- FLS_CTL (R646). -/
def FLS_CTL : Fld := ⟨0xB00040, 31, 0, 0x0, 0x0⟩
def FLS_CTL_CNT_CLEAR : Fld := ⟨0xB00040, 0, 0, 0x0, 0x0⟩
/-- FLS_STAT (R646). -/
def FLS_STAT : Fld := ⟨0xB00044, 31, 0, 0x0, 0x0⟩
def FLS_STAT_UNFIN_CNT : Fld := ⟨0xB00044, 31, 24, 0x0, 0x0⟩
def FLS_STAT_FW_NONE : Fld := ⟨0xB00044, 21, 21, 0x0, 0x0⟩
def FLS_STAT_FALLBACK : Fld := ⟨0xB00044, 20, 20, 0x0, 0x0⟩
def FLS_STAT_SCAN_DONE : Fld := ⟨0xB00044, 19, 19, 0x0, 0x0⟩
def FLS_STAT_DIVERTED : Fld := ⟨0xB00044, 18, 18, 0x0, 0x0⟩
def FLS_STAT_RUN_IMAGE : Fld := ⟨0xB00044, 17, 17, 0x0, 0x0⟩
def FLS_STAT_FETCH_BANK : Fld := ⟨0xB00044, 16, 16, 0x0, 0x0⟩
def FLS_STAT_PWRFAIL_HOLD : Fld := ⟨0xB00044, 1, 1, 0x0, 0x0⟩
def FLS_STAT_READ_WHILE_BUSY : Fld := ⟨0xB00044, 0, 0, 0x0, 0x0⟩
/-- FLS_IMGx (R646). -/
def FLS_IMGx : Fld := ⟨0xB00048, 31, 0, 0x4, 0x0⟩
def FLS_IMGx_VERSION : Fld := ⟨0xB00048, 31, 0, 0x4, 0x0⟩
/-- FLS_IMGSTAT (R646). -/
def FLS_IMGSTAT : Fld := ⟨0xB000B8, 31, 0, 0x0, 0x0⟩
def FLS_IMGSTAT_CHECK_B : Fld := ⟨0xB000B8, 3, 2, 0x0, 0x0⟩
def FLS_IMGSTAT_CHECK_A : Fld := ⟨0xB000B8, 1, 0, 0x0, 0x0⟩
/-- FLS_CMDb (R647). -/
def FLS_CMDb : Fld := ⟨0xB00050, 31, 0, 0x20, 0x0⟩
def FLS_CMDb_CMD : Fld := ⟨0xB00050, 3, 0, 0x20, 0x0⟩
/-- FLS_ADDRb (R647). -/
def FLS_ADDRb : Fld := ⟨0xB00054, 31, 0, 0x20, 0x0⟩
def FLS_ADDRb_ADDR : Fld := ⟨0xB00054, 23, 4, 0x20, 0x0⟩
/-- FLS_RESb (R647). -/
def FLS_RESb : Fld := ⟨0xB00058, 31, 0, 0x20, 0x0⟩
def FLS_RESb_STATE : Fld := ⟨0xB00058, 23, 20, 0x20, 0x0⟩
def FLS_RESb_SUSP_PEND : Fld := ⟨0xB00058, 19, 19, 0x20, 0x0⟩
def FLS_RESb_STATUS : Fld := ⟨0xB00058, 7, 0, 0x20, 0x0⟩
/-- FLS_DATAb_n (R647). -/
def FLS_DATAb_n : Fld := ⟨0xB00060, 31, 0, 0x20, 0x4⟩
def FLS_DATAb_n_DATA : Fld := ⟨0xB00060, 31, 0, 0x20, 0x4⟩
/-- FLS_CNT_OPS (R648). -/
def FLS_CNT_OPS : Fld := ⟨0xB000A0, 31, 0, 0x0, 0x0⟩
def FLS_CNT_OPS_ERASES : Fld := ⟨0xB000A0, 31, 16, 0x0, 0x0⟩
def FLS_CNT_OPS_PROGRAMS : Fld := ⟨0xB000A0, 15, 0, 0x0, 0x0⟩
/-- FLS_CNT_REF (R648). -/
def FLS_CNT_REF : Fld := ⟨0xB000A4, 31, 0, 0x0, 0x0⟩
def FLS_CNT_REF_PROG_TWICE : Fld := ⟨0xB000A4, 31, 24, 0x0, 0x0⟩
def FLS_CNT_REF_BANK_IN_USE : Fld := ⟨0xB000A4, 23, 16, 0x0, 0x0⟩
def FLS_CNT_REF_READ_WHILE_BUSY : Fld := ⟨0xB000A4, 15, 0, 0x0, 0x0⟩
/-- FLS_CNT_ECC (R648). -/
def FLS_CNT_ECC : Fld := ⟨0xB000A8, 31, 0, 0x0, 0x0⟩
def FLS_CNT_ECC_CORRECTED : Fld := ⟨0xB000A8, 31, 16, 0x0, 0x0⟩
def FLS_CNT_ECC_UE : Fld := ⟨0xB000A8, 15, 8, 0x0, 0x0⟩
def FLS_CNT_ECC_VERIFY_FAIL : Fld := ⟨0xB000A8, 7, 0, 0x0, 0x0⟩
/-- FLS_CNT_SUSP (R648). -/
def FLS_CNT_SUSP : Fld := ⟨0xB000AC, 31, 0, 0x0, 0x0⟩
def FLS_CNT_SUSP_SUSPENDS : Fld := ⟨0xB000AC, 31, 16, 0x0, 0x0⟩
def FLS_CNT_SUSP_SUSP_WAITS : Fld := ⟨0xB000AC, 15, 0, 0x0, 0x0⟩
/-- FLS_UNFINk (R648). -/
def FLS_UNFINk : Fld := ⟨0xB000C0, 31, 0, 0x4, 0x0⟩
def FLS_UNFINk_VALID : Fld := ⟨0xB000C0, 31, 31, 0x4, 0x0⟩
def FLS_UNFINk_SECTOR : Fld := ⟨0xB000C0, 8, 0, 0x4, 0x0⟩
/-- FLS_DIVERT (R649). -/
def FLS_DIVERT : Fld := ⟨0xB00800, 31, 0, 0x0, 0x0⟩
def FLS_DIVERT_FETCH_DIVERT : Fld := ⟨0xB00800, 0, 0, 0x0, 0x0⟩
/-- FLS_SECMIN (R649). -/
def FLS_SECMIN : Fld := ⟨0xB00804, 31, 0, 0x0, 0x0⟩
def FLS_SECMIN_SEC_MIN : Fld := ⟨0xB00804, 15, 0, 0x0, 0x0⟩
/-- CAL_CTL (R687). -/
def CAL_CTL : Fld := ⟨0xC00040, 31, 0, 0x0, 0x0⟩
def CAL_CTL_CNT_CLEAR : Fld := ⟨0xC00040, 2, 2, 0x0, 0x0⟩
def CAL_CTL_APPLY_EN : Fld := ⟨0xC00040, 1, 1, 0x0, 0x0⟩
def CAL_CTL_SCHED_EN : Fld := ⟨0xC00040, 0, 0, 0x0, 0x0⟩
/-- CAL_STAT (R687). -/
def CAL_STAT : Fld := ⟨0xC00044, 31, 0, 0x0, 0x0⟩
def CAL_STAT_REF_OK : Fld := ⟨0xC00044, 15, 15, 0x0, 0x0⟩
def CAL_STAT_CAL_LOST : Fld := ⟨0xC00044, 14, 14, 0x0, 0x0⟩
def CAL_STAT_LAST_VALID : Fld := ⟨0xC00044, 13, 8, 0x0, 0x0⟩
def CAL_STAT_REF_RUN : Fld := ⟨0xC00044, 7, 7, 0x0, 0x0⟩
def CAL_STAT_RUNNING : Fld := ⟨0xC00044, 5, 0, 0x0, 0x0⟩
/-- CAL_REFV (R687). -/
def CAL_REFV : Fld := ⟨0xC00048, 31, 0, 0x0, 0x0⟩
def CAL_REFV_IREF : Fld := ⟨0xC00048, 31, 16, 0x0, 0x0⟩
def CAL_REFV_VREF : Fld := ⟨0xC00048, 15, 0, 0x0, 0x0⟩
/-- CAL_SCHED (R687). -/
def CAL_SCHED : Fld := ⟨0xC0004C, 31, 0, 0x0, 0x0⟩
def CAL_SCHED_AGE_HOURS : Fld := ⟨0xC0004C, 31, 16, 0x0, 0x0⟩
def CAL_SCHED_IDLE_SEC : Fld := ⟨0xC0004C, 15, 0, 0x0, 0x0⟩
/-- CAL_CNT (R687). -/
def CAL_CNT : Fld := ⟨0xC00050, 31, 0, 0x0, 0x0⟩
def CAL_CNT_RUNS : Fld := ⟨0xC00050, 31, 16, 0x0, 0x0⟩
def CAL_CNT_REJECTED : Fld := ⟨0xC00050, 15, 8, 0x0, 0x0⟩
def CAL_CNT_REPLANS : Fld := ⟨0xC00050, 7, 0, 0x0, 0x0⟩
/-- CAL_LAST_REJ (R687). -/
def CAL_LAST_REJ : Fld := ⟨0xC00054, 31, 0, 0x0, 0x0⟩
def CAL_LAST_REJ_CHANNEL : Fld := ⟨0xC00054, 31, 28, 0x0, 0x0⟩
def CAL_LAST_REJ_MEASURE : Fld := ⟨0xC00054, 27, 20, 0x0, 0x0⟩
def CAL_LAST_REJ_REASON : Fld := ⟨0xC00054, 19, 16, 0x0, 0x0⟩
/-- CAL_AGE_LIM (R687). -/
def CAL_AGE_LIM : Fld := ⟨0xC00800, 31, 0, 0x0, 0x0⟩
def CAL_AGE_LIM_F_SPRINT : Fld := ⟨0xC00800, 31, 24, 0x0, 0x0⟩
def CAL_AGE_LIM_F_BAL : Fld := ⟨0xC00800, 23, 16, 0x0, 0x0⟩
def CAL_AGE_LIM_W_SPRINT : Fld := ⟨0xC00800, 15, 8, 0x0, 0x0⟩
def CAL_AGE_LIM_W_BAL : Fld := ⟨0xC00800, 7, 0, 0x0, 0x0⟩
/-- CAL_AGE_LIM2 (R687). -/
def CAL_AGE_LIM2 : Fld := ⟨0xC00804, 31, 0, 0x0, 0x0⟩
def CAL_AGE_LIM2_B_SPRINT : Fld := ⟨0xC00804, 31, 24, 0x0, 0x0⟩
def CAL_AGE_LIM2_B_BAL : Fld := ⟨0xC00804, 23, 16, 0x0, 0x0⟩
def CAL_AGE_LIM2_BER_LIM : Fld := ⟨0xC00804, 15, 0, 0x0, 0x0⟩
/-- CAL_CH_STAT (R688). -/
def CAL_CH_STAT : Fld := ⟨0xC01000, 31, 0, 0x1000, 0x0⟩
def CAL_CH_STAT_RUNNING : Fld := ⟨0xC01000, 31, 31, 0x1000, 0x0⟩
def CAL_CH_STAT_MEASURE : Fld := ⟨0xC01000, 30, 24, 0x1000, 0x0⟩
def CAL_CH_STAT_LAST_VALID : Fld := ⟨0xC01000, 19, 19, 0x1000, 0x0⟩
def CAL_CH_STAT_TRIM_PEND : Fld := ⟨0xC01000, 18, 18, 0x1000, 0x0⟩
/-- CAL_DECEL (R688). -/
def CAL_DECEL : Fld := ⟨0xC01004, 31, 0, 0x1000, 0x0⟩
def CAL_DECEL_DECEL_L : Fld := ⟨0xC01004, 31, 16, 0x1000, 0x0⟩
def CAL_DECEL_DECEL : Fld := ⟨0xC01004, 15, 0, 0x1000, 0x0⟩
/-- CAL_WIN (R688). -/
def CAL_WIN : Fld := ⟨0xC01008, 31, 0, 0x1000, 0x0⟩
def CAL_WIN_TWIN : Fld := ⟨0xC01008, 31, 16, 0x1000, 0x0⟩
def CAL_WIN_FWIN : Fld := ⟨0xC01008, 15, 0, 0x1000, 0x0⟩
/-- CAL_BER (R688). -/
def CAL_BER : Fld := ⟨0xC0100C, 31, 0, 0x1000, 0x0⟩
def CAL_BER_BER0 : Fld := ⟨0xC0100C, 31, 0, 0x1000, 0x0⟩
/-- CAL_LASb (R688). -/
def CAL_LASb : Fld := ⟨0xC01010, 31, 0, 0x1000, 0x4⟩
def CAL_LASb_ETA : Fld := ⟨0xC01010, 31, 16, 0x1000, 0x4⟩
def CAL_LASb_ITH : Fld := ⟨0xC01010, 15, 0, 0x1000, 0x4⟩
/-- CAL_RESPb (R688). -/
def CAL_RESPb : Fld := ⟨0xC01030, 31, 0, 0x1000, 0x4⟩
def CAL_RESPb_RHO : Fld := ⟨0xC01030, 15, 0, 0x1000, 0x4⟩
/-- CAL_SENS_FT (R688). -/
def CAL_SENS_FT : Fld := ⟨0xC01050, 31, 0, 0x1000, 0x0⟩
def CAL_SENS_FT_S_TRACK : Fld := ⟨0xC01050, 31, 16, 0x1000, 0x0⟩
def CAL_SENS_FT_S_FOCUS : Fld := ⟨0xC01050, 15, 0, 0x1000, 0x0⟩
/-- CAL_SENS_T (R688). -/
def CAL_SENS_T : Fld := ⟨0xC01054, 31, 0, 0x1000, 0x0⟩
def CAL_SENS_T_S_TILT : Fld := ⟨0xC01054, 15, 0, 0x1000, 0x0⟩
/-- CAL_RFGAINg (R688). -/
def CAL_RFGAINg : Fld := ⟨0xC01800, 31, 0, 0x1000, 0x4⟩
def CAL_RFGAINg_RF_GAIN : Fld := ⟨0xC01800, 7, 0, 0x1000, 0x4⟩
/-- CAL_SDOFSk (R688). -/
def CAL_SDOFSk : Fld := ⟨0xC01840, 31, 0, 0x1000, 0x4⟩
def CAL_SDOFSk_SD_OFS : Fld := ⟨0xC01840, 7, 0, 0x1000, 0x4⟩
/-- CAL_MON (R688). -/
def CAL_MON : Fld := ⟨0xC01870, 31, 0, 0x1000, 0x0⟩
def CAL_MON_LMON_GAIN : Fld := ⟨0xC01870, 15, 8, 0x1000, 0x0⟩
def CAL_MON_RMON_GAIN : Fld := ⟨0xC01870, 7, 0, 0x1000, 0x0⟩
/-- CAL_SCALE_FT (R688). -/
def CAL_SCALE_FT : Fld := ⟨0xC01880, 31, 0, 0x1000, 0x0⟩
def CAL_SCALE_FT_SC_TRACK : Fld := ⟨0xC01880, 31, 16, 0x1000, 0x0⟩
def CAL_SCALE_FT_SC_FOCUS : Fld := ⟨0xC01880, 15, 0, 0x1000, 0x0⟩
/-- CAL_SCALE_T (R688). -/
def CAL_SCALE_T : Fld := ⟨0xC01884, 31, 0, 0x1000, 0x0⟩
def CAL_SCALE_T_SC_TILT : Fld := ⟨0xC01884, 15, 0, 0x1000, 0x0⟩
/-- HLT_LOG_REST (R752). -/
def HLT_LOG_REST : Fld := ⟨0x200070, 31, 0, 0x4, 0x0⟩
def HLT_LOG_REST_RESTORED : Fld := ⟨0x200070, 16, 0, 0x4, 0x0⟩
/-- HLT_CTL (R717). -/
def HLT_CTL : Fld := ⟨0x200040, 31, 0, 0x0, 0x0⟩
def HLT_CTL_CNT_CLEAR : Fld := ⟨0x200040, 1, 1, 0x0, 0x0⟩
def HLT_CTL_LOG_EN : Fld := ⟨0x200040, 0, 0, 0x0, 0x0⟩
/-- HLT_STAT (R717). -/
def HLT_STAT : Fld := ⟨0x200044, 31, 0, 0x0, 0x0⟩
def HLT_STAT_FAULT_OVERRUN : Fld := ⟨0x200044, 7, 7, 0x0, 0x0⟩
def HLT_STAT_HANDLING : Fld := ⟨0x200044, 6, 6, 0x0, 0x0⟩
def HLT_STAT_FIFO_DEPTH : Fld := ⟨0x200044, 5, 0, 0x0, 0x0⟩
/-- HLT_CLR (R717). -/
def HLT_CLR : Fld := ⟨0x200048, 31, 0, 0x0, 0x0⟩
def HLT_CLR_INSTANCE : Fld := ⟨0x200048, 11, 8, 0x0, 0x0⟩
def HLT_CLR_CLASS : Fld := ⟨0x200048, 5, 0, 0x0, 0x0⟩
/-- HLT_SEL (R717). -/
def HLT_SEL : Fld := ⟨0x20004C, 31, 0, 0x0, 0x0⟩
def HLT_SEL_INSTANCE : Fld := ⟨0x20004C, 3, 0, 0x0, 0x0⟩
/-- HLT_CNT (R717). -/
def HLT_CNT : Fld := ⟨0x200050, 31, 0, 0x0, 0x0⟩
def HLT_CNT_FIFO_LOST : Fld := ⟨0x200050, 31, 16, 0x0, 0x0⟩
def HLT_CNT_PERSIST_SKIPPED : Fld := ⟨0x200050, 15, 0, 0x0, 0x0⟩
/-- HLT_SB (R717). -/
def HLT_SB : Fld := ⟨0x200060, 31, 0, 0x0, 0x0⟩
def HLT_SB_STOPPED : Fld := ⟨0x200060, 21, 16, 0x0, 0x0⟩
def HLT_SB_FAULT_OVERRUN : Fld := ⟨0x200060, 10, 10, 0x0, 0x0⟩
def HLT_SB_LASTING_ANY : Fld := ⟨0x200060, 9, 9, 0x0, 0x0⟩
def HLT_SB_LINK_UP : Fld := ⟨0x200060, 8, 7, 0x0, 0x0⟩
def HLT_SB_CFG_READY : Fld := ⟨0x200060, 6, 5, 0x0, 0x0⟩
def HLT_SB_TRAIN_FAIL : Fld := ⟨0x200060, 4, 3, 0x0, 0x0⟩
def HLT_SB_FILL_DONE : Fld := ⟨0x200060, 2, 2, 0x0, 0x0⟩
def HLT_SB_FW_NONE : Fld := ⟨0x200060, 1, 1, 0x0, 0x0⟩
def HLT_SB_CORES_RUN : Fld := ⟨0x200060, 0, 0, 0x0, 0x0⟩
/-- HLT_TEMP (R717). -/
def HLT_TEMP : Fld := ⟨0x200064, 31, 0, 0x0, 0x0⟩
def HLT_TEMP_TEMP_LIM : Fld := ⟨0x200064, 23, 16, 0x0, 0x0⟩
def HLT_TEMP_TEMP : Fld := ⟨0x200064, 15, 0, 0x0, 0x0⟩
/-- HLT_LASTING_LO (R717). -/
def HLT_LASTING_LO : Fld := ⟨0x200068, 31, 0, 0x0, 0x0⟩
def HLT_LASTING_LO_LASTING : Fld := ⟨0x200068, 31, 0, 0x0, 0x0⟩
/-- HLT_LASTING_HI (R717). -/
def HLT_LASTING_HI : Fld := ⟨0x20006C, 31, 0, 0x0, 0x0⟩
def HLT_LASTING_HI_LASTING : Fld := ⟨0x20006C, 31, 0, 0x0, 0x0⟩
/-- HLT_CLASSc (R717). -/
def HLT_CLASSc : Fld := ⟨0x200100, 31, 0, 0x4, 0x0⟩
def HLT_CLASSc_LASTING : Fld := ⟨0x200100, 31, 31, 0x4, 0x0⟩
def HLT_CLASSc_FIXED : Fld := ⟨0x200100, 30, 30, 0x4, 0x0⟩
def HLT_CLASSc_WINDOW_MS : Fld := ⟨0x200100, 29, 8, 0x4, 0x0⟩
def HLT_CLASSc_THRESH : Fld := ⟨0x200100, 7, 0, 0x4, 0x0⟩
/-- HLT_CNTc (R717). -/
def HLT_CNTc : Fld := ⟨0x200200, 31, 0, 0x4, 0x0⟩
def HLT_CNTc_TOTAL : Fld := ⟨0x200200, 31, 16, 0x4, 0x0⟩
def HLT_CNTc_LASTING : Fld := ⟨0x200200, 8, 8, 0x4, 0x0⟩
def HLT_CNTc_COUNT : Fld := ⟨0x200200, 7, 0, 0x4, 0x0⟩
/-- HLT_LOG_LO (R717). -/
def HLT_LOG_LO : Fld := ⟨0x200800, 31, 0, 0x0, 0x0⟩
def HLT_LOG_LO_BASE : Fld := ⟨0x200800, 31, 22, 0x0, 0x0⟩
/-- HLT_LOG_HI (R717). -/
def HLT_LOG_HI : Fld := ⟨0x200804, 31, 0, 0x0, 0x0⟩
def HLT_LOG_HI_BASE : Fld := ⟨0x200804, 31, 0, 0x0, 0x0⟩
/-- TMB_REC_STAT (R718). -/
def TMB_REC_STAT : Fld := ⟨0x100060, 31, 0, 0x0, 0x0⟩
def TMB_REC_STAT_RUN : Fld := ⟨0x100060, 31, 31, 0x0, 0x0⟩
def TMB_REC_STAT_TRIGGERED : Fld := ⟨0x100060, 30, 30, 0x0, 0x0⟩
def TMB_REC_STAT_ACTIVE : Fld := ⟨0x100060, 29, 24, 0x0, 0x0⟩
def TMB_REC_STAT_STOP_CAUSE : Fld := ⟨0x100060, 23, 20, 0x0, 0x0⟩
def TMB_REC_STAT_RECORD_OVERFLOW : Fld := ⟨0x100060, 13, 8, 0x0, 0x0⟩
/-- TMB_TRIG (R718). -/
def TMB_TRIG : Fld := ⟨0x100064, 31, 0, 0x0, 0x0⟩
def TMB_TRIG_TRIG : Fld := ⟨0x100064, 0, 0, 0x0, 0x0⟩
/-- TMB_REPLAY (R718). -/
def TMB_REPLAY : Fld := ⟨0x100068, 31, 0, 0x0, 0x0⟩
def TMB_REPLAY_PREP : Fld := ⟨0x100068, 31, 31, 0x0, 0x0⟩
def TMB_REPLAY_READY : Fld := ⟨0x100068, 30, 30, 0x0, 0x0⟩
def TMB_REPLAY_CHECK_FAIL : Fld := ⟨0x100068, 29, 29, 0x0, 0x0⟩
def TMB_REPLAY_SRC : Fld := ⟨0x100068, 10, 8, 0x0, 0x0⟩
def TMB_REPLAY_CHANNEL : Fld := ⟨0x100068, 2, 0, 0x0, 0x0⟩
/-- TMB_REPLAY_STAT (R718). -/
def TMB_REPLAY_STAT : Fld := ⟨0x10006C, 31, 0, 0x0, 0x0⟩
def TMB_REPLAY_STAT_MISMATCHES : Fld := ⟨0x10006C, 31, 16, 0x0, 0x0⟩
def TMB_REPLAY_STAT_FIELD : Fld := ⟨0x10006C, 15, 12, 0x0, 0x0⟩
/-- TMB_REPLAY_FIRST (R718). -/
def TMB_REPLAY_FIRST : Fld := ⟨0x100070, 31, 0, 0x0, 0x0⟩
def TMB_REPLAY_FIRST_TICK : Fld := ⟨0x100070, 31, 0, 0x0, 0x0⟩
/-- TMB_REPLAY_CNT (R718). -/
def TMB_REPLAY_CNT : Fld := ⟨0x100074, 31, 0, 0x0, 0x0⟩
def TMB_REPLAY_CNT_STALLS : Fld := ⟨0x100074, 31, 16, 0x0, 0x0⟩
def TMB_REPLAY_CNT_FRAMES : Fld := ⟨0x100074, 15, 0, 0x0, 0x0⟩
/-- TMB_AREA_LO (R718). -/
def TMB_AREA_LO : Fld := ⟨0x100800, 31, 0, 0x0, 0x0⟩
def TMB_AREA_LO_BASE : Fld := ⟨0x100800, 31, 20, 0x0, 0x0⟩
/-- TMB_AREA_HI (R718). -/
def TMB_AREA_HI : Fld := ⟨0x100804, 31, 0, 0x0, 0x0⟩
def TMB_AREA_HI_BASE : Fld := ⟨0x100804, 31, 0, 0x0, 0x0⟩
/-- TMB_AREA_SIZE (R718). -/
def TMB_AREA_SIZE : Fld := ⟨0x100808, 31, 0, 0x0, 0x0⟩
def TMB_AREA_SIZE_SIZE_MIB : Fld := ⟨0x100808, 10, 0, 0x0, 0x0⟩
/-- SYS_STRAP (R730). -/
def SYS_STRAP : Fld := ⟨0x100, 31, 0, 0x0, 0x0⟩
def SYS_STRAP_SRAM_REP : Fld := ⟨0x100, 8, 8, 0x0, 0x0⟩
def SYS_STRAP_SBA : Fld := ⟨0x100, 7, 5, 0x0, 0x0⟩
def SYS_STRAP_DRAM_D : Fld := ⟨0x100, 4, 3, 0x0, 0x0⟩
def SYS_STRAP_DRAM_R : Fld := ⟨0x100, 2, 2, 0x0, 0x0⟩
def SYS_STRAP_DRAM_W : Fld := ⟨0x100, 1, 1, 0x0, 0x0⟩
def SYS_STRAP_AF_SEL : Fld := ⟨0x100, 0, 0, 0x0, 0x0⟩
/-- WRC_LEAD_LO (R228). -/
def WRC_LEAD_LO : Fld := ⟨0x60808, 31, 0, 0x20, 0x0⟩
def WRC_LEAD_LO_ENTRIES : Fld := ⟨0x60808, 23, 0, 0x20, 0x0⟩
/-- WRC_LEAD_HI (R228). -/
def WRC_LEAD_HI : Fld := ⟨0x6080C, 31, 0, 0x20, 0x0⟩
def WRC_LEAD_HI_ENTRIES : Fld := ⟨0x6080C, 23, 0, 0x20, 0x0⟩
/-- WRC_TRAIL_LO (R228). -/
def WRC_TRAIL_LO : Fld := ⟨0x60810, 31, 0, 0x20, 0x0⟩
def WRC_TRAIL_LO_ENTRIES : Fld := ⟨0x60810, 23, 0, 0x20, 0x0⟩
/-- WRC_TRAIL_HI (R228). -/
def WRC_TRAIL_HI : Fld := ⟨0x60814, 31, 0, 0x20, 0x0⟩
def WRC_TRAIL_HI_ENTRIES : Fld := ⟨0x60814, 23, 0, 0x20, 0x0⟩
/-- WRC_SHAPE (R229). -/
def WRC_SHAPE : Fld := ⟨0x60900, 31, 0, 0x4, 0x0⟩
def WRC_SHAPE_SHAPE : Fld := ⟨0x60900, 31, 0, 0x4, 0x0⟩
/-- WRC_RLASER (R229). -/
def WRC_RLASER : Fld := ⟨0x60980, 31, 0, 0x0, 0x0⟩
def WRC_RLASER_RREAD_BASE : Fld := ⟨0x60980, 15, 0, 0x0, 0x0⟩
/-- BK_S0 (R285). -/
def BK_S0 : Fld := ⟨0x81820, 31, 0, 0x1000, 0x10⟩
def BK_S0_B1 : Fld := ⟨0x81820, 31, 16, 0x1000, 0x10⟩
def BK_S0_B0 : Fld := ⟨0x81820, 15, 0, 0x1000, 0x10⟩
/-- BK_S1 (R285). -/
def BK_S1 : Fld := ⟨0x81824, 31, 0, 0x1000, 0x10⟩
def BK_S1_A1 : Fld := ⟨0x81824, 31, 16, 0x1000, 0x10⟩
def BK_S1_B2 : Fld := ⟨0x81824, 15, 0, 0x1000, 0x10⟩
/-- BK_S2 (R285). -/
def BK_S2 : Fld := ⟨0x81828, 31, 0, 0x1000, 0x10⟩
def BK_S2_SHIFT : Fld := ⟨0x81828, 17, 16, 0x1000, 0x10⟩
def BK_S2_A2 : Fld := ⟨0x81828, 15, 0, 0x1000, 0x10⟩
/-- BA_S0 (R285). -/
def BA_S0 : Fld := ⟨0x81920, 31, 0, 0x1000, 0x10⟩
def BA_S0_B1 : Fld := ⟨0x81920, 31, 16, 0x1000, 0x10⟩
def BA_S0_B0 : Fld := ⟨0x81920, 15, 0, 0x1000, 0x10⟩
/-- BA_S1 (R285). -/
def BA_S1 : Fld := ⟨0x81924, 31, 0, 0x1000, 0x10⟩
def BA_S1_A1 : Fld := ⟨0x81924, 31, 16, 0x1000, 0x10⟩
def BA_S1_B2 : Fld := ⟨0x81924, 15, 0, 0x1000, 0x10⟩
/-- BA_S2 (R285). -/
def BA_S2 : Fld := ⟨0x81928, 31, 0, 0x1000, 0x10⟩
def BA_S2_SHIFT : Fld := ⟨0x81928, 17, 16, 0x1000, 0x10⟩
def BA_S2_A2 : Fld := ⟨0x81928, 15, 0, 0x1000, 0x10⟩
/-- AX_LIM_V (R318). -/
def AX_LIM_V : Fld := ⟨0xA1018, 31, 0, 0x1000, 0xC⟩
def AX_LIM_V_VMAX : Fld := ⟨0xA1018, 31, 0, 0x1000, 0xC⟩
/-- AX_LIM_A (R318). -/
def AX_LIM_A : Fld := ⟨0xA101C, 31, 0, 0x1000, 0xC⟩
def AX_LIM_A_AMAX : Fld := ⟨0xA101C, 31, 0, 0x1000, 0xC⟩
/-- AX_LIM_J (R318). -/
def AX_LIM_J : Fld := ⟨0xA1020, 31, 0, 0x1000, 0xC⟩
def AX_LIM_J_JMAX : Fld := ⟨0xA1020, 31, 0, 0x1000, 0xC⟩
/-- MEM_CE_LINEk (R611). -/
def MEM_CE_LINEk : Fld := ⟨0xA00080, 31, 0, 0x4, 0x0⟩
def MEM_CE_LINEk_LINE : Fld := ⟨0xA00080, 28, 0, 0x4, 0x0⟩
/-- MEM_TDATAn (R613). -/
def MEM_TDATAn : Fld := ⟨0xA00940, 31, 0, 0x4, 0x0⟩
def MEM_TDATAn_DATA : Fld := ⟨0xA00940, 31, 0, 0x4, 0x0⟩
/-- MEM_TCHKn (R613). -/
def MEM_TCHKn : Fld := ⟨0xA00980, 31, 0, 0x4, 0x0⟩
def MEM_TCHKn_DATA : Fld := ⟨0xA00980, 31, 0, 0x4, 0x0⟩
/-- SYS_UNMAPPED_CNT (R43). -/
def SYS_UNMAPPED_CNT : Fld := ⟨0x40, 31, 0, 0x0, 0x0⟩
def SYS_UNMAPPED_CNT_COUNT : Fld := ⟨0x40, 31, 0, 0x0, 0x0⟩

end Reg

/-- The registers of TMB from offset 0x040 on. -/
def rowsTMB : List RegRow :=
  [⟨0x100040, 1, 0x100000, 1, 0x4, 0x0, 0x0, 0x0, 0x0, 0x0, fun _ _ => 0x0⟩,
   ⟨0x100044, 1, 0x100000, 1, 0x4, 0x0, 0x0, 0x0, 0x0, 0x0, fun _ _ => 0x0⟩,
   ⟨0x100048, 1, 0x100000, 1, 0x4, 0x0, 0x0, 0x0, 0x0, 0x0, fun _ _ => 0x0⟩,
   ⟨0x10004C, 1, 0x100000, 1, 0x4, 0x0, 0x0, 0x0, 0x0, 0x0, fun _ _ => 0x0⟩,
   ⟨0x100050, 1, 0x100000, 1, 0x4, 0xFFFFFFFF, 0x0, 0x0, 0x0, 0x0, fun _ _ => 0x0⟩,
   ⟨0x100054, 1, 0x100000, 1, 0x4, 0xFFFFFFFF, 0x0, 0x0, 0x0, 0x0, fun _ _ => 0x0⟩,
   ⟨0x100058, 1, 0x100000, 1, 0x4, 0x0, 0x0, 0x0, 0x0, 0x2, fun _ _ => 0x0⟩,
   ⟨0x100060, 1, 0x100000, 1, 0x4, 0x0, 0x0, 0x0, 0x0, 0x0, fun _ _ => 0x0⟩,
   ⟨0x100064, 1, 0x100000, 1, 0x4, 0x0, 0x0, 0x0, 0x1, 0x0, fun _ _ => 0x0⟩,
   ⟨0x100068, 1, 0x100000, 1, 0x4, 0x707, 0x0, 0x0, 0x80000000, 0x0, fun _ _ => 0x0⟩,
   ⟨0x10006C, 1, 0x100000, 1, 0x4, 0x0, 0x0, 0x0, 0x0, 0x0, fun _ _ => 0x0⟩,
   ⟨0x100070, 1, 0x100000, 1, 0x4, 0x0, 0x0, 0x0, 0x0, 0x0, fun _ _ => 0x0⟩,
   ⟨0x100074, 1, 0x100000, 1, 0x4, 0x0, 0x0, 0x0, 0x0, 0x0, fun _ _ => 0x0⟩,
   ⟨0x100800, 1, 0x100000, 1, 0x4, 0x0, 0xFFF00000, 0x0, 0x0, 0x0, fun _ _ => 0x0⟩,
   ⟨0x100804, 1, 0x100000, 1, 0x4, 0x0, 0xFFFFFFFF, 0x0, 0x0, 0x0, fun _ _ => 0x0⟩,
   ⟨0x100808, 1, 0x100000, 1, 0x4, 0x0, 0x7FF, 0x0, 0x0, 0x0, fun _ _ => 0x0⟩]

/-- The registers of RDC from offset 0x040 on. -/
def rowsRDC : List RegRow :=
  [⟨0x20040, 1, 0x100000, 1, 0x4, 0xF000, 0x0, 0x0, 0x1, 0x0, fun _ _ => 0xB000⟩,
   ⟨0x21000, 10, 0x1000, 1, 0x4, 0x81FFC07F, 0x0, 0x0, 0x0, 0x0, fun _ _ => 0x47C028⟩,
   ⟨0x21004, 10, 0x1000, 1, 0x4, 0x0, 0x0, 0x0, 0x0, 0x0, fun _ _ => 0x5000⟩,
   ⟨0x21008, 10, 0x1000, 1, 0x4, 0x7F, 0x0, 0x0, 0x80, 0x0, fun _ _ => 0x35⟩,
   ⟨0x2100C, 10, 0x1000, 1, 0x4, 0x1FF, 0x0, 0x0, 0x0, 0x0, fun _ _ => 0x163⟩,
   ⟨0x21010, 10, 0x1000, 1, 0x4, 0x0, 0x0, 0x0, 0x0, 0x0, fun _ _ => 0x0⟩,
   ⟨0x21014, 10, 0x1000, 1, 0x4, 0x800007FF, 0x0, 0x0, 0x0, 0x0, fun _ _ => 0x82000200⟩,
   ⟨0x21018, 10, 0x1000, 1, 0x4, 0x0, 0x0, 0x0, 0x0, 0x0, fun _ _ => 0x0⟩,
   ⟨0x2101C, 10, 0x1000, 1, 0x4, 0x0, 0x0, 0x0, 0x0, 0x0, fun _ _ => 0x0⟩,
   ⟨0x21040, 10, 0x1000, 15, 0x4, 0xFFF, 0x0, 0x0, 0x0, 0x0, resetTap⟩,
   ⟨0x21800, 10, 0x1000, 1, 0x4, 0x0, 0xFFFF, 0x0, 0x0, 0x0, fun _ _ => 0x0⟩]

/-- The registers of DET from offset 0x040 on. -/
def rowsDET : List RegRow :=
  [⟨0x40040, 1, 0x100000, 1, 0x4, 0xFFFFFF, 0x0, 0x0, 0x0, 0x0, fun _ _ => 0x401221⟩,
   ⟨0x40044, 1, 0x100000, 1, 0x4, 0xF3F3, 0x0, 0x0, 0x0, 0x0, fun _ _ => 0xC3C1⟩,
   ⟨0x40048, 1, 0x100000, 1, 0x4, 0xFF1, 0x0, 0x0, 0x0, 0x0, fun _ _ => 0x681⟩,
   ⟨0x4004C, 1, 0x100000, 1, 0x4, 0xFFFFF77, 0x0, 0x0, 0x0, 0x0, fun _ _ => 0x4031044⟩,
   ⟨0x40050, 1, 0x100000, 1, 0x4, 0xFFFFF07, 0x0, 0x0, 0x0, 0x0, fun _ _ => 0x20A0F05⟩,
   ⟨0x40080, 1, 0x100000, 1, 0x4, 0x0, 0x0, 0x0, 0x0, 0x0, fun _ _ => 0x0⟩,
   ⟨0x40084, 1, 0x100000, 1, 0x4, 0x0, 0x0, 0x0, 0x0, 0x0, fun _ _ => 0x0⟩,
   ⟨0x40088, 1, 0x100000, 1, 0x4, 0x0, 0x0, 0x0, 0x0, 0x0, fun _ _ => 0x0⟩,
   ⟨0x4008C, 1, 0x100000, 1, 0x4, 0x0, 0x0, 0x0, 0x0, 0x0, fun _ _ => 0x0⟩,
   ⟨0x400C0, 5, 0x4, 1, 0x4, 0x0, 0x0, 0x0, 0x0, 0x0, fun _ _ => 0x0⟩,
   ⟨0x400D4, 1, 0x100000, 1, 0x4, 0x0, 0x0, 0x0, 0x0, 0x0, fun _ _ => 0x0⟩,
   ⟨0x400D8, 1, 0x100000, 1, 0x4, 0x0, 0x0, 0x0, 0x0, 0x0, fun _ _ => 0x0⟩,
   ⟨0x400DC, 1, 0x100000, 1, 0x4, 0x0, 0x0, 0x0, 0x0, 0x0, fun _ _ => 0x0⟩,
   ⟨0x400E0, 1, 0x100000, 1, 0x4, 0x0, 0x0, 0x0, 0x0, 0x0, fun _ _ => 0x0⟩,
   ⟨0x400E4, 1, 0x100000, 1, 0x4, 0x0, 0x0, 0x0, 0x0, 0x0, fun _ _ => 0x0⟩,
   ⟨0x40100, 8, 0x8, 2, 0x4, 0x0, 0x0, 0x0, 0x0, 0x0, fun _ _ => 0x0⟩]

/-- The registers of WRC from offset 0x040 on. -/
def rowsWRC : List RegRow :=
  [⟨0x60040, 1, 0x100000, 1, 0x4, 0x3F, 0x0, 0x0, 0xC0, 0x0, fun _ _ => 0x3E⟩,
   ⟨0x60044, 1, 0x100000, 1, 0x4, 0x0, 0x0, 0x0, 0x0, 0x0, fun _ _ => 0x200⟩,
   ⟨0x60048, 1, 0x100000, 1, 0x4, 0xFFFFFF, 0x0, 0x0, 0x0, 0x0, fun _ _ => 0x1412C6⟩,
   ⟨0x6004C, 1, 0x100000, 1, 0x4, 0x1FFFFFFF, 0x0, 0x0, 0x0, 0x0, fun _ _ => 0x1A08140A⟩,
   ⟨0x60050, 1, 0x100000, 1, 0x4, 0xFFFF, 0x0, 0x0, 0x0, 0x0, fun _ _ => 0x1010⟩,
   ⟨0x60054, 1, 0x100000, 1, 0x4, 0x0, 0x0, 0x0, 0x0, 0x0, fun _ _ => 0x40004000⟩,
   ⟨0x60058, 1, 0x100000, 1, 0x4, 0xFF, 0x0, 0x0, 0x0, 0x0, fun _ _ => 0x4⟩,
   ⟨0x60060, 1, 0x100000, 1, 0x4, 0xFFFFF00F, 0x0, 0x0, 0x0, 0x0, fun _ _ => 0xF⟩,
   ⟨0x60064, 1, 0x100000, 1, 0x4, 0xFFFFFFFF, 0x0, 0x0, 0x0, 0x0, fun _ _ => 0x0⟩,
   ⟨0x60068, 1, 0x100000, 1, 0x4, 0x0, 0x0, 0x0, 0x0, 0x0, fun _ _ => 0x0⟩,
   ⟨0x60080, 1, 0x100000, 1, 0x4, 0x0, 0x0, 0x0, 0x0, 0x0, fun _ _ => 0x0⟩,
   ⟨0x60084, 1, 0x100000, 1, 0x4, 0x0, 0x0, 0x0, 0x0, 0x0, fun _ _ => 0x0⟩,
   ⟨0x60088, 1, 0x100000, 1, 0x4, 0x0, 0x0, 0x0, 0x0, 0x0, fun _ _ => 0x0⟩,
   ⟨0x6008C, 1, 0x100000, 1, 0x4, 0x0, 0x0, 0x0, 0x0, 0x0, fun _ _ => 0x0⟩,
   ⟨0x60100, 8, 0x10, 1, 0x4, 0x7FFF, 0x0, 0x0, 0x0, 0x0, fun _ _ => 0x0⟩,
   ⟨0x60104, 8, 0x10, 1, 0x4, 0x0, 0x0, 0x0, 0x0, 0x0, fun _ _ => 0x0⟩,
   ⟨0x60800, 8, 0x20, 1, 0x4, 0x0, 0xFFFFFFFF, 0x0, 0x0, 0x0, fun _ _ => 0x0⟩,
   ⟨0x60804, 8, 0x20, 1, 0x4, 0x0, 0xFFFF, 0x0, 0x0, 0x0, fun _ _ => 0x0⟩,
   ⟨0x60808, 8, 0x20, 1, 0x4, 0x0, 0xFFFFFF, 0x0, 0x0, 0x0, fun _ _ => 0x0⟩,
   ⟨0x6080C, 8, 0x20, 1, 0x4, 0x0, 0xFFFFFF, 0x0, 0x0, 0x0, fun _ _ => 0x0⟩,
   ⟨0x60810, 8, 0x20, 1, 0x4, 0x0, 0xFFFFFF, 0x0, 0x0, 0x0, fun _ _ => 0x0⟩,
   ⟨0x60814, 8, 0x20, 1, 0x4, 0x0, 0xFFFFFF, 0x0, 0x0, 0x0, fun _ _ => 0x0⟩,
   ⟨0x60900, 32, 0x4, 1, 0x4, 0x0, 0xFFFFFFFF, 0x0, 0x0, 0x0, fun _ _ => 0x0⟩,
   ⟨0x60980, 1, 0x100000, 1, 0x4, 0x0, 0xFFFF, 0x0, 0x0, 0x0, fun _ _ => 0x0⟩]

/-- The registers of SRV from offset 0x040 on. -/
def rowsSRV : List RegRow :=
  [⟨0x80040, 1, 0x100000, 1, 0x4, 0x0, 0x0, 0x0, 0x3, 0x0, fun _ _ => 0x0⟩,
   ⟨0x80044, 1, 0x100000, 1, 0x4, 0x0, 0x0, 0x0, 0x0, 0x0, fun _ _ => 0x0⟩,
   ⟨0x80048, 1, 0x100000, 1, 0x4, 0xFFFF, 0x0, 0x0, 0x0, 0x0, fun _ _ => 0x0⟩,
   ⟨0x8004C, 1, 0x100000, 1, 0x4, 0x0, 0x0, 0x0, 0x0, 0x0, fun _ _ => 0x0⟩,
   ⟨0x80050, 1, 0x100000, 1, 0x4, 0xFFFFFFFF, 0x0, 0x0, 0x0, 0x0, fun _ _ => 0x60106810⟩,
   ⟨0x80054, 1, 0x100000, 1, 0x4, 0xFFFFFFFF, 0x0, 0x0, 0x0, 0x0, fun _ _ => 0x50082810⟩,
   ⟨0x80058, 1, 0x100000, 1, 0x4, 0xF0FF, 0x0, 0x0, 0x0, 0x0, fun _ _ => 0x5020⟩,
   ⟨0x8005C, 1, 0x100000, 1, 0x4, 0xFFFF0003, 0x0, 0x0, 0x0, 0x0, fun _ _ => 0x1F400003⟩,
   ⟨0x80060, 1, 0x100000, 1, 0x4, 0xFFFFFFFF, 0x0, 0x0, 0x0, 0x0, fun _ _ => 0x400800⟩,
   ⟨0x80064, 1, 0x100000, 1, 0x4, 0xFFFFFFFF, 0x0, 0x0, 0x0, 0x0, fun _ _ => 0x3C009600⟩,
   ⟨0x80068, 1, 0x100000, 1, 0x4, 0xFFFF, 0x0, 0x0, 0x0, 0x0, fun _ _ => 0x3000⟩,
   ⟨0x80080, 1, 0x100000, 1, 0x4, 0xC7000000, 0x0, 0x0, 0x0, 0x0, fun _ _ => 0x0⟩,
   ⟨0x80084, 1, 0x100000, 1, 0x4, 0xFFFFFFFF, 0x0, 0x0, 0x0, 0x0, fun _ _ => 0x0⟩,
   ⟨0x80070, 1, 0x100000, 1, 0x4, 0x0, 0x0, 0x0, 0x0, 0x0, fun _ _ => 0x0⟩,
   ⟨0x80074, 1, 0x100000, 1, 0x4, 0x0, 0x0, 0x0, 0x0, 0x0, fun _ _ => 0x0⟩,
   ⟨0x80078, 1, 0x100000, 1, 0x4, 0x0, 0x0, 0x0, 0x0, 0x0, fun _ _ => 0x0⟩,
   ⟨0x800A0, 5, 0x4, 1, 0x4, 0x0, 0x0, 0x0, 0x0, 0x0, fun _ _ => 0x0⟩,
   ⟨0x80800, 1, 0x100000, 1, 0x4, 0x0, 0xFFFF, 0x0, 0x0, 0x0, fun _ _ => 0x2000⟩,
   ⟨0x80804, 1, 0x100000, 1, 0x4, 0x0, 0xFFFFFFFF, 0x0, 0x0, 0x0, fun _ _ => 0x8000800⟩,
   ⟨0x80808, 1, 0x100000, 1, 0x4, 0x0, 0xFFFFFFFF, 0x0, 0x0, 0x0, fun _ _ => 0x6000A000⟩,
   ⟨0x80840, 16, 0x4, 1, 0x4, 0x0, 0xFFFFFFFF, 0x0, 0x0, 0x0, fun _ _ => 0x0⟩,
   ⟨0x81000, 7, 0x1000, 1, 0x4, 0xF00000, 0x0, 0x0, 0x100, 0x7, fun _ _ => 0xF00000⟩,
   ⟨0x81004, 7, 0x1000, 1, 0x4, 0x0, 0x0, 0x0, 0x0, 0x0, fun _ _ => 0x0⟩,
   ⟨0x81008, 7, 0x1000, 1, 0x4, 0xFFFF, 0x0, 0x0, 0x0, 0x0, fun _ _ => 0x0⟩,
   ⟨0x8100C, 7, 0x1000, 1, 0x4, 0x0, 0x0, 0x0, 0x0, 0x0, fun _ _ => 0x0⟩,
   ⟨0x81010, 7, 0x1000, 1, 0x4, 0x0, 0x0, 0x0, 0x0, 0x0, fun _ _ => 0x0⟩,
   ⟨0x81014, 7, 0x1000, 1, 0x4, 0xFFFF, 0x0, 0x0, 0x0, 0x0, fun _ _ => 0x0⟩,
   ⟨0x81018, 7, 0x1000, 1, 0x4, 0xFFFF, 0x0, 0x0, 0x0, 0x0, fun _ _ => 0x40⟩,
   ⟨0x8101C, 7, 0x1000, 1, 0x4, 0x0, 0x0, 0x0, 0x0, 0x0, fun _ _ => 0x0⟩,
   ⟨0x81800, 7, 0x1000, 1, 0x4, 0x0, 0x3FFFF, 0x0, 0x0, 0x0, fun _ _ => 0x0⟩,
   ⟨0x81900, 7, 0x1000, 1, 0x4, 0x0, 0x0, 0x0, 0x0, 0x0, fun _ _ => 0x0⟩,
   ⟨0x81804, 7, 0x1000, 1, 0x4, 0x0, 0xFFFFF, 0x0, 0x0, 0x0, fun _ _ => 0x0⟩,
   ⟨0x81904, 7, 0x1000, 1, 0x4, 0x0, 0x0, 0x0, 0x0, 0x0, fun _ _ => 0x0⟩,
   ⟨0x81808, 7, 0x1000, 1, 0x4, 0x0, 0x7FFF, 0x0, 0x0, 0x0, fun _ _ => 0x0⟩,
   ⟨0x81908, 7, 0x1000, 1, 0x4, 0x0, 0x0, 0x0, 0x0, 0x0, fun _ _ => 0x0⟩,
   ⟨0x8180C, 7, 0x1000, 1, 0x4, 0x0, 0xFFFFFFFF, 0x0, 0x0, 0x0, fun _ _ => 0x0⟩,
   ⟨0x8190C, 7, 0x1000, 1, 0x4, 0x0, 0x0, 0x0, 0x0, 0x0, fun _ _ => 0x0⟩,
   ⟨0x81810, 7, 0x1000, 1, 0x4, 0x0, 0x77, 0x0, 0x0, 0x0, fun _ _ => 0x0⟩,
   ⟨0x81910, 7, 0x1000, 1, 0x4, 0x0, 0x0, 0x0, 0x0, 0x0, fun _ _ => 0x0⟩,
   ⟨0x88000, 32, 0x8, 1, 0x4, 0x0, 0x0, 0x0, 0x0, 0x0, fun _ _ => 0x0⟩] ++
  [⟨0x88800, 32, 0x8, 1, 0x4, 0x0, 0x7FF07FF, 0x0, 0x0, 0x0, fun _ _ => 0x0⟩,
   ⟨0x88004, 32, 0x8, 1, 0x4, 0x0, 0x0, 0x0, 0x0, 0x0, fun _ _ => 0x0⟩,
   ⟨0x88804, 32, 0x8, 1, 0x4, 0x0, 0x803F037F, 0x0, 0x0, 0x0, fun _ _ => 0x0⟩,
   ⟨0x81820, 7, 0x1000, 10, 0x10, 0x0, 0xFFFFFFFF, 0x0, 0x0, 0x0, fun _ _ => 0x0⟩,
   ⟨0x81824, 7, 0x1000, 10, 0x10, 0x0, 0xFFFFFFFF, 0x0, 0x0, 0x0, fun _ _ => 0x0⟩,
   ⟨0x81828, 7, 0x1000, 10, 0x10, 0x0, 0x3FFFF, 0x0, 0x0, 0x0, fun _ _ => 0x0⟩,
   ⟨0x81920, 7, 0x1000, 10, 0x10, 0x0, 0x0, 0x0, 0x0, 0x0, fun _ _ => 0x0⟩,
   ⟨0x81924, 7, 0x1000, 10, 0x10, 0x0, 0x0, 0x0, 0x0, 0x0, fun _ _ => 0x0⟩,
   ⟨0x81928, 7, 0x1000, 10, 0x10, 0x0, 0x0, 0x0, 0x0, 0x0, fun _ _ => 0x0⟩]

/-- The registers of MOT from offset 0x040 on. -/
def rowsMOT : List RegRow :=
  [⟨0xA0040, 1, 0x100000, 1, 0x4, 0x0, 0x0, 0x0, 0x1, 0x0, fun _ _ => 0x0⟩,
   ⟨0xA0044, 1, 0x100000, 1, 0x4, 0xFFFF, 0x0, 0x0, 0x80000000, 0x0, fun _ _ => 0x0⟩,
   ⟨0xA0048, 1, 0x100000, 1, 0x4, 0xFFFFFFFF, 0x0, 0x0, 0x0, 0x0, fun _ _ => 0x20000000⟩,
   ⟨0xA004C, 1, 0x100000, 1, 0x4, 0xFFFFFFFF, 0x0, 0x0, 0x0, 0x0, fun _ _ => 0x10000000⟩,
   ⟨0xA0050, 1, 0x100000, 1, 0x4, 0xFFFFFFFF, 0x0, 0x0, 0x0, 0x0, fun _ _ => 0x40000000⟩,
   ⟨0xA0054, 1, 0x100000, 1, 0x4, 0x0, 0x0, 0x0, 0x0, 0x0, fun _ _ => 0x0⟩,
   ⟨0xA0800, 1, 0x100000, 1, 0x4, 0x0, 0xFFFF, 0x0, 0x0, 0x0, fun _ _ => 0x258⟩,
   ⟨0xA1000, 2, 0x1000, 1, 0x4, 0x10007, 0x0, 0x0, 0x100, 0x0, fun _ _ => 0x0⟩,
   ⟨0xA1004, 2, 0x1000, 1, 0x4, 0x0, 0x0, 0x0, 0x0, 0x0, fun _ _ => 0x0⟩,
   ⟨0xA1008, 2, 0x1000, 1, 0x4, 0x0, 0x0, 0x0, 0x0, 0x0, fun _ _ => 0x0⟩,
   ⟨0xA100C, 2, 0x1000, 1, 0x4, 0x0, 0x0, 0x0, 0x0, 0x0, fun _ _ => 0x0⟩,
   ⟨0xA1010, 2, 0x1000, 1, 0x4, 0xFFFFFFFF, 0x0, 0x0, 0x0, 0x0, fun _ _ => 0x0⟩,
   ⟨0xA1014, 2, 0x1000, 1, 0x4, 0x0, 0x0, 0x0, 0x0, 0x17, fun _ _ => 0x0⟩,
   ⟨0xA1030, 2, 0x1000, 1, 0x4, 0xFFFFFFFF, 0x0, 0x0, 0x0, 0x0, fun _ _ => 0x0⟩,
   ⟨0xA1034, 2, 0x1000, 1, 0x4, 0xF01FFFF, 0x0, 0x0, 0x0, 0x0, fun _ _ => 0x2010FA0⟩,
   ⟨0xA1038, 2, 0x1000, 1, 0x4, 0xFFFFFFFF, 0x0, 0x0, 0x0, 0x0, fun _ _ => 0x40000400⟩,
   ⟨0xA103C, 2, 0x1000, 1, 0x4, 0xFFFFFFFF, 0x0, 0x0, 0x0, 0x0, fun _ _ => 0x0⟩,
   ⟨0xA1040, 2, 0x1000, 1, 0x4, 0xFFFF, 0x0, 0x0, 0x0, 0x0, fun _ _ => 0x100⟩,
   ⟨0xA1044, 2, 0x1000, 1, 0x4, 0xFFFFFFFF, 0x0, 0x0, 0x0, 0x0, fun _ _ => 0x10000⟩,
   ⟨0xA1048, 2, 0x1000, 1, 0x4, 0xFFFFFFFF, 0x0, 0x0, 0x0, 0x0, fun _ _ => 0x0⟩,
   ⟨0xA104C, 2, 0x1000, 1, 0x4, 0xFFFFFFFF, 0x0, 0x0, 0x0, 0x0, fun _ _ => 0x0⟩,
   ⟨0xA1050, 2, 0x1000, 1, 0x4, 0xFFFFFFFF, 0x0, 0x0, 0x0, 0x0, fun _ _ => 0x600000⟩,
   ⟨0xA1054, 2, 0x1000, 1, 0x4, 0x0, 0x0, 0x0, 0x0, 0x0, fun _ _ => 0x0⟩,
   ⟨0xA1058, 2, 0x1000, 1, 0x4, 0x0, 0x0, 0x0, 0x0, 0x0, fun _ _ => 0x0⟩,
   ⟨0xA105C, 2, 0x1000, 1, 0x4, 0x0, 0x0, 0x0, 0x0, 0x0, fun _ _ => 0x0⟩,
   ⟨0xA1B00, 2, 0x1000, 257, 0x4, 0x0, 0xFFFF, 0x0, 0x0, 0x0, resetWave⟩,
   ⟨0xA1018, 2, 0x1000, 2, 0xC, 0xFFFFFFFF, 0x0, 0x0, 0x0, 0x0, resetLimV⟩,
   ⟨0xA101C, 2, 0x1000, 2, 0xC, 0xFFFFFFFF, 0x0, 0x0, 0x0, 0x0, resetLimA⟩,
   ⟨0xA1020, 2, 0x1000, 2, 0xC, 0xFFFFFFFF, 0x0, 0x0, 0x0, 0x0, resetLimJ⟩]

/-- The registers of SPN from offset 0x040 on. -/
def rowsSPN : List RegRow :=
  [⟨0xC0040, 1, 0x100000, 1, 0x4, 0x30, 0x0, 0x0, 0x80, 0x7, fun _ _ => 0x20⟩,
   ⟨0xC0044, 1, 0x100000, 1, 0x4, 0x0, 0x0, 0x0, 0x0, 0x0, fun _ _ => 0x0⟩,
   ⟨0xC0048, 1, 0x100000, 1, 0x4, 0x0, 0x0, 0x0, 0x0, 0x0, fun _ _ => 0x0⟩,
   ⟨0xC004C, 1, 0x100000, 1, 0x4, 0xFFFF, 0x0, 0x0, 0x0, 0x0, fun _ _ => 0x1020⟩,
   ⟨0xC0050, 1, 0x100000, 1, 0x4, 0xFF07FF, 0x0, 0x0, 0x0, 0x0, fun _ _ => 0x400190⟩,
   ⟨0xC0054, 1, 0x100000, 1, 0x4, 0xFFFFF0FF, 0x0, 0x0, 0x0, 0x0, fun _ _ => 0x2000400C⟩,
   ⟨0xC0058, 1, 0x100000, 1, 0x4, 0xFFFFFFFF, 0x0, 0x0, 0x0, 0x0, fun _ _ => 0x61A0C35⟩,
   ⟨0xC005C, 1, 0x100000, 1, 0x4, 0xFFFFFFFF, 0x0, 0x0, 0x0, 0x0, fun _ _ => 0x40000258⟩,
   ⟨0xC0060, 1, 0x100000, 1, 0x4, 0xFFFFFFFF, 0x0, 0x0, 0x0, 0x0, fun _ _ => 0x1E012C⟩,
   ⟨0xC0064, 1, 0x100000, 1, 0x4, 0xFFFFFFFF, 0x0, 0x0, 0x0, 0x0, fun _ _ => 0x3E80044⟩,
   ⟨0xC0068, 1, 0x100000, 1, 0x4, 0x0, 0x0, 0x0, 0x0, 0x0, fun _ _ => 0x0⟩,
   ⟨0xC006C, 1, 0x100000, 1, 0x4, 0x0, 0x0, 0x0, 0x0, 0x0, fun _ _ => 0x0⟩,
   ⟨0xC0080, 1, 0x100000, 1, 0x4, 0x0, 0x0, 0x0, 0x0, 0x0, fun _ _ => 0x0⟩,
   ⟨0xC0084, 1, 0x100000, 1, 0x4, 0x0, 0x0, 0x0, 0x0, 0x0, fun _ _ => 0x0⟩,
   ⟨0xC0088, 1, 0x100000, 1, 0x4, 0x0, 0x0, 0x0, 0x0, 0x0, fun _ _ => 0x0⟩,
   ⟨0xC008C, 1, 0x100000, 1, 0x4, 0x0, 0x0, 0x0, 0x0, 0x0, fun _ _ => 0x0⟩,
   ⟨0xC0090, 1, 0x100000, 1, 0x4, 0x0, 0x0, 0x0, 0x0, 0x0, fun _ _ => 0x0⟩,
   ⟨0xC0800, 1, 0x100000, 1, 0x4, 0x0, 0xF00FFFF, 0x0, 0x0, 0x0, fun _ _ => 0x4000000⟩,
   ⟨0xC0804, 1, 0x100000, 1, 0x4, 0x0, 0xFFFFFFFF, 0x0, 0x0, 0x0, fun _ _ => 0x0⟩,
   ⟨0xC0808, 1, 0x100000, 1, 0x4, 0x0, 0xFFFFFFFF, 0x0, 0x0, 0x0, fun _ _ => 0x400000⟩,
   ⟨0xC080C, 1, 0x100000, 1, 0x4, 0x0, 0xFFFFFFFF, 0x0, 0x0, 0x0, fun _ _ => 0x1000⟩,
   ⟨0xC0810, 1, 0x100000, 1, 0x4, 0x0, 0xFFFFFFFF, 0x0, 0x0, 0x0, fun _ _ => 0xBB80800⟩,
   ⟨0xC0814, 1, 0x100000, 1, 0x4, 0x0, 0xFFFF, 0x0, 0x0, 0x0, fun _ _ => 0x1000⟩,
   ⟨0xC0818, 1, 0x100000, 1, 0x4, 0x0, 0xFFFF, 0x0, 0x0, 0x0, fun _ _ => 0x0⟩,
   ⟨0xC081C, 1, 0x100000, 1, 0x4, 0x0, 0xFFFF, 0x0, 0x0, 0x0, fun _ _ => 0x1413⟩]

/-- The registers of VMB from offset 0x040 on. -/
def rowsVMB : List RegRow :=
  [⟨0xD00040, 2, 0x10, 1, 0x4, 0x0, 0x0, 0x0, 0x3, 0x0, fun _ _ => 0x0⟩,
   ⟨0xD00044, 2, 0x10, 1, 0x4, 0x0, 0x0, 0x0, 0x0, 0x0, fun _ _ => 0x0⟩,
   ⟨0xD00048, 2, 0x10, 1, 0x4, 0x0, 0x0, 0x0, 0x0, 0x0, fun _ _ => 0x0⟩,
   ⟨0xD0004C, 2, 0x10, 1, 0x4, 0xFFFF, 0x0, 0x0, 0x0, 0x0, fun _ _ => 0x2328⟩]

/-- The registers of DCM from offset 0x040 on. -/
def rowsDCM : List RegRow :=
  [⟨0x40, 1, 0x100000, 1, 0x4, 0x331F, 0x0, 0x0, 0xC0000000, 0x0, fun _ _ => 0x3100⟩,
   ⟨0x44, 1, 0x100000, 1, 0x4, 0xFFFFF, 0x0, 0x0, 0x0, 0x0, fun _ _ => 0x0⟩,
   ⟨0x48, 1, 0x100000, 1, 0x4, 0x0, 0x0, 0x0, 0x0, 0x0, fun _ _ => 0x400000⟩,
   ⟨0x4C, 1, 0x100000, 1, 0x4, 0x0, 0x0, 0x0, 0x0, 0x0, fun _ _ => 0x0⟩,
   ⟨0x50, 1, 0x100000, 1, 0x4, 0xFFFFFFFF, 0x0, 0x0, 0x0, 0x0, fun _ _ => 0x50649664⟩,
   ⟨0x54, 1, 0x100000, 1, 0x4, 0x0, 0x0, 0x0, 0x0, 0x0, fun _ _ => 0x0⟩,
   ⟨0x58, 1, 0x100000, 1, 0x4, 0x0, 0x0, 0x0, 0x0, 0x0, fun _ _ => 0x0⟩,
   ⟨0x60, 1, 0x100000, 1, 0x4, 0xFFFFFFFF, 0x0, 0x0, 0x0, 0x0, fun _ _ => 0x0⟩,
   ⟨0x64, 1, 0x100000, 1, 0x4, 0xFFFFFFFF, 0x0, 0x0, 0x0, 0x0, fun _ _ => 0x0⟩,
   ⟨0x800, 1, 0x100000, 1, 0x4, 0x0, 0x3, 0x0, 0x0, 0x0, fun _ _ => 0xF⟩,
   ⟨0x840, 4, 0x10, 4, 0x4, 0x0, 0xFFFFFFFF, 0x0, 0x0, 0x0, resetRpm⟩,
   ⟨0x880, 4, 0x4, 1, 0x4, 0x0, 0xF3FFF, 0x0, 0x0, 0x0, resetCfg⟩]

/-- The registers of HLK from offset 0x040 on. -/
def rowsHLK : List RegRow :=
  [⟨0x300040, 1, 0x100000, 1, 0x4, 0x0, 0x0, 0x0, 0x7, 0x0, fun _ _ => 0x0⟩,
   ⟨0x300044, 1, 0x100000, 1, 0x4, 0x0, 0x0, 0x0, 0x0, 0x0, fun _ _ => 0x0⟩,
   ⟨0x300048, 1, 0x100000, 1, 0x4, 0xFFFFFFFF, 0x0, 0x0, 0x0, 0x0, fun _ _ => 0x0⟩,
   ⟨0x300050, 2, 0x10, 1, 0x4, 0x0, 0x0, 0x0, 0x0, 0x0, fun _ _ => 0x0⟩,
   ⟨0x300054, 2, 0x10, 1, 0x4, 0x0, 0x0, 0x0, 0x0, 0x0, fun _ _ => 0x0⟩,
   ⟨0x300058, 2, 0x10, 1, 0x4, 0x0, 0x0, 0x0, 0x0, 0x0, fun _ _ => 0x0⟩,
   ⟨0x30005C, 2, 0x10, 1, 0x4, 0x0, 0x0, 0x0, 0x0, 0x0, fun _ _ => 0x0⟩]

/-- The registers of HQE from offset 0x040 on. -/
def rowsHQE : List RegRow :=
  [⟨0x400040, 1, 0x100000, 1, 0x4, 0x0, 0x0, 0x0, 0x1, 0x0, fun _ _ => 0x0⟩,
   ⟨0x400044, 1, 0x100000, 1, 0x4, 0x0, 0x0, 0x0, 0x0, 0x0, fun _ _ => 0x0⟩,
   ⟨0x400048, 1, 0x100000, 1, 0x4, 0x0, 0x0, 0x0, 0x0, 0x0, fun _ _ => 0x0⟩,
   ⟨0x40004C, 1, 0x100000, 1, 0x4, 0xFFFF, 0x0, 0x0, 0x0, 0x0, fun _ _ => 0x3E8⟩,
   ⟨0x400050, 1, 0x100000, 1, 0x4, 0x0, 0x0, 0x0, 0x0, 0x0, fun _ _ => 0x0⟩,
   ⟨0x400100, 64, 0x4, 1, 0x4, 0x7FF3FFF, 0x0, 0x0, 0x0, 0x0, resetFring⟩]

/-- The registers of the ring control pages from offset 0x040 on. -/
def rowsRC : List RegRow :=
  [⟨0x2000000, 16384, 0x40, 1, 0x4, 0xFFFFF000, 0x0, 0x0, 0x0, 0x0, fun _ _ => 0x0⟩,
   ⟨0x2000004, 16384, 0x40, 1, 0x4, 0xFFFFFFFF, 0x0, 0x0, 0x0, 0x0, fun _ _ => 0x0⟩,
   ⟨0x2000008, 16384, 0x40, 1, 0x4, 0x3F7FFF0F, 0x0, 0x0, 0x0, 0x0, fun _ _ => 0x80104⟩,
   ⟨0x200000C, 16384, 0x40, 1, 0x4, 0x0, 0x0, 0x0, 0x3, 0x0, fun _ _ => 0x0⟩,
   ⟨0x2000010, 16384, 0x40, 1, 0x4, 0x0, 0x0, 0x0, 0x0, 0x0, fun _ _ => 0x0⟩,
   ⟨0x2000014, 16384, 0x40, 1, 0x4, 0x0, 0x0, 0x0, 0x0, 0x0, fun _ _ => 0x0⟩,
   ⟨0x2000018, 16384, 0x40, 1, 0x4, 0x0, 0x0, 0x0, 0x0, 0x0, fun _ _ => 0x0⟩,
   ⟨0x2000020, 16384, 0x40, 1, 0x4, 0xFFFFFC01, 0x0, 0x0, 0x0, 0x0, fun _ _ => 0x0⟩,
   ⟨0x2000024, 16384, 0x40, 1, 0x4, 0xFFFFFFFF, 0x0, 0x0, 0x0, 0x0, fun _ _ => 0x0⟩,
   ⟨0x2000028, 16384, 0x40, 1, 0x4, 0x3F, 0x0, 0x0, 0x0, 0x0, fun _ _ => 0x0⟩]

/-- The registers of MAP from offset 0x040 on. -/
def rowsMAP : List RegRow :=
  [⟨0x600040, 1, 0x100000, 1, 0x4, 0x1, 0x0, 0x0, 0x2, 0x0, fun _ _ => 0x0⟩,
   ⟨0x600044, 1, 0x100000, 1, 0x4, 0x0, 0x0, 0x0, 0x0, 0x0, fun _ _ => 0x0⟩,
   ⟨0x600048, 1, 0x100000, 1, 0x4, 0xFF0000, 0x0, 0x0, 0x0, 0x0, fun _ _ => 0x320000⟩,
   ⟨0x60004C, 1, 0x100000, 1, 0x4, 0x0, 0x0, 0x0, 0x0, 0x0, fun _ _ => 0x0⟩,
   ⟨0x600050, 1, 0x100000, 1, 0x4, 0x0, 0x0, 0x0, 0x0, 0x0, fun _ _ => 0x0⟩,
   ⟨0x600054, 1, 0x100000, 1, 0x4, 0x0, 0x0, 0x0, 0x0, 0x0, fun _ _ => 0x0⟩,
   ⟨0x600800, 1, 0x100000, 1, 0x4, 0x0, 0xF0000000, 0x0, 0x0, 0x0, fun _ _ => 0x0⟩,
   ⟨0x600804, 1, 0x100000, 1, 0x4, 0x0, 0xFFFFFFFF, 0x0, 0x0, 0x0, fun _ _ => 0x0⟩,
   ⟨0x600808, 1, 0x100000, 1, 0x4, 0x0, 0xFFFF8000, 0x0, 0x0, 0x0, fun _ _ => 0x0⟩,
   ⟨0x60080C, 1, 0x100000, 1, 0x4, 0x0, 0xFFFFFFFF, 0x0, 0x0, 0x0, fun _ _ => 0x0⟩,
   ⟨0x600810, 1, 0x100000, 1, 0x4, 0x0, 0x1FFFF, 0x0, 0x0, 0x0, fun _ _ => 0x0⟩]

/-- The registers of MCA from offset 0x040 on. -/
def rowsMCA : List RegRow :=
  [⟨0x700040, 1, 0x100000, 1, 0x4, 0x71, 0x0, 0x0, 0x80, 0x0, fun _ _ => 0x21⟩,
   ⟨0x700044, 1, 0x100000, 1, 0x4, 0xFFFF, 0x0, 0x0, 0x0, 0x0, fun _ _ => 0x0⟩,
   ⟨0x700048, 1, 0x100000, 1, 0x4, 0x3F000000, 0x0, 0x0, 0x80000000, 0x0, fun _ _ => 0x0⟩,
   ⟨0x70004C, 1, 0x100000, 1, 0x4, 0xFFFFFFC0, 0x0, 0x0, 0x0, 0x0, fun _ _ => 0x0⟩,
   ⟨0x700050, 1, 0x100000, 1, 0x4, 0xFFFFFFFF, 0x0, 0x0, 0x0, 0x0, fun _ _ => 0x0⟩,
   ⟨0x700054, 1, 0x100000, 1, 0x4, 0x1FFF, 0x0, 0x0, 0x0, 0x0, fun _ _ => 0x1⟩,
   ⟨0x700060, 1, 0x100000, 1, 0x4, 0x0, 0x0, 0x0, 0x0, 0x0, fun _ _ => 0x0⟩,
   ⟨0x700064, 1, 0x100000, 1, 0x4, 0x0, 0x0, 0x0, 0x0, 0x0, fun _ _ => 0x0⟩,
   ⟨0x700068, 1, 0x100000, 1, 0x4, 0x0, 0x0, 0x0, 0x0, 0x0, fun _ _ => 0x0⟩,
   ⟨0x70006C, 1, 0x100000, 1, 0x4, 0x0, 0x0, 0x0, 0x0, 0x0, fun _ _ => 0x0⟩,
   ⟨0x700070, 1, 0x100000, 1, 0x4, 0x0, 0x0, 0x0, 0x0, 0x0, fun _ _ => 0x0⟩]

/-- The registers of STR from offset 0x040 on. -/
def rowsSTR : List RegRow :=
  [⟨0x800040, 1, 0x100000, 1, 0x4, 0xC, 0x0, 0x0, 0x1, 0x0, fun _ _ => 0x0⟩,
   ⟨0x800044, 1, 0x100000, 1, 0x4, 0x0, 0x0, 0x0, 0x0, 0x0, fun _ _ => 0x0⟩,
   ⟨0x800048, 1, 0x100000, 1, 0x4, 0x0, 0x0, 0x0, 0x0, 0x0, fun _ _ => 0x0⟩,
   ⟨0x80004C, 1, 0x100000, 1, 0x4, 0x0, 0x0, 0x0, 0x0, 0x0, fun _ _ => 0x0⟩,
   ⟨0x800050, 1, 0x100000, 1, 0x4, 0x0, 0x0, 0x0, 0x0, 0x0, fun _ _ => 0x0⟩,
   ⟨0x800054, 1, 0x100000, 1, 0x4, 0x0, 0x0, 0x0, 0x0, 0x0, fun _ _ => 0x0⟩,
   ⟨0x800058, 1, 0x100000, 1, 0x4, 0x0, 0x0, 0x0, 0x0, 0x0, fun _ _ => 0x0⟩,
   ⟨0x800060, 1, 0x100000, 1, 0x4, 0x0, 0x0, 0x0, 0x0, 0x0, fun _ _ => 0x0⟩,
   ⟨0x800064, 1, 0x100000, 1, 0x4, 0x0, 0x0, 0x0, 0x0, 0x0, fun _ _ => 0x0⟩,
   ⟨0x800068, 1, 0x100000, 1, 0x4, 0x0, 0x0, 0x0, 0x0, 0x0, fun _ _ => 0x0⟩,
   ⟨0x80006C, 1, 0x100000, 1, 0x4, 0x0, 0x0, 0x0, 0x0, 0x0, fun _ _ => 0x0⟩,
   ⟨0x800070, 1, 0x100000, 1, 0x4, 0x0, 0x0, 0x0, 0x0, 0x0, fun _ _ => 0x0⟩,
   ⟨0x800800, 1, 0x100000, 1, 0x4, 0x0, 0xFFF00000, 0x0, 0x0, 0x0, fun _ _ => 0x0⟩,
   ⟨0x800804, 1, 0x100000, 1, 0x4, 0x0, 0xFFFFFFFF, 0x0, 0x0, 0x0, fun _ _ => 0x0⟩,
   ⟨0x800808, 1, 0x100000, 1, 0x4, 0x0, 0xFFFF, 0x0, 0x0, 0x0, fun _ _ => 0x100⟩,
   ⟨0x80080C, 1, 0x100000, 1, 0x4, 0x0, 0xFFE00000, 0x0, 0x0, 0x0, fun _ _ => 0x0⟩,
   ⟨0x800810, 1, 0x100000, 1, 0x4, 0x0, 0xFFFFFFFF, 0x0, 0x0, 0x0, fun _ _ => 0x0⟩]

/-- The registers of SEA from offset 0x040 on. -/
def rowsSEA : List RegRow :=
  [⟨0x900040, 1, 0x100000, 1, 0x4, 0x0, 0x0, 0x0, 0x1, 0x0, fun _ _ => 0x0⟩,
   ⟨0x900044, 1, 0x100000, 1, 0x4, 0x0, 0x0, 0x0, 0x0, 0x0, fun _ _ => 0x0⟩,
   ⟨0x900080, 7, 0x4, 1, 0x4, 0x0, 0x0, 0x0, 0x0, 0x0, fun _ _ => 0x0⟩,
   ⟨0x900800, 1, 0x100000, 1, 0x4, 0x0, 0x80000007, 0x0, 0x0, 0x0, fun _ _ => 0x0⟩]

/-- The registers of MEM from offset 0x040 on. -/
def rowsMEM : List RegRow :=
  [⟨0xA00040, 1, 0x100000, 1, 0x4, 0x3, 0x0, 0x0, 0x4, 0x0, fun _ _ => 0x3⟩,
   ⟨0xA00044, 1, 0x100000, 1, 0x4, 0x0, 0x0, 0x0, 0x0, 0x0, fun _ _ => 0x0⟩,
   ⟨0xA00048, 1, 0x100000, 1, 0x4, 0x3FF, 0x0, 0x0, 0x0, 0x0, fun _ _ => 0x18⟩,
   ⟨0xA0004C, 1, 0x100000, 1, 0x4, 0x0, 0x0, 0x0, 0x0, 0x0, fun _ _ => 0x0⟩,
   ⟨0xA00050, 1, 0x100000, 1, 0x4, 0x0, 0x0, 0x0, 0x0, 0x0, fun _ _ => 0x0⟩,
   ⟨0xA00054, 1, 0x100000, 1, 0x4, 0x0, 0x0, 0x0, 0x0, 0x0, fun _ _ => 0x0⟩,
   ⟨0xA00058, 1, 0x100000, 1, 0x4, 0x0, 0x0, 0x0, 0x0, 0x0, fun _ _ => 0x0⟩,
   ⟨0xA0005C, 1, 0x100000, 1, 0x4, 0x0, 0x0, 0x0, 0x0, 0x0, fun _ _ => 0x0⟩,
   ⟨0xA00060, 8, 0x4, 1, 0x4, 0x0, 0x0, 0x0, 0x0, 0x0, fun _ _ => 0x0⟩,
   ⟨0xA00800, 1, 0x100000, 1, 0x4, 0x0, 0xFFF, 0x0, 0x0, 0x0, fun _ _ => 0xFFF⟩,
   ⟨0xA00804, 1, 0x100000, 1, 0x4, 0x0, 0xFF, 0x0, 0x100, 0x0, fun _ _ => 0x4⟩,
   ⟨0xA00840, 16, 0x4, 1, 0x4, 0x0, 0x9FFFFFFF, 0x0, 0x0, 0x0, fun _ _ => 0x0⟩,
   ⟨0xA00880, 1, 0x100000, 1, 0x4, 0x0, 0xFFFFFFFF, 0x0, 0x0, 0x0, fun _ _ => 0x0⟩,
   ⟨0xA00884, 1, 0x100000, 1, 0x4, 0x0, 0xFFF, 0x0, 0x0, 0x0, fun _ _ => 0x0⟩,
   ⟨0xA00888, 1, 0x100000, 1, 0x4, 0x3F, 0x0, 0x0, 0x0, 0x0, fun _ _ => 0x0⟩,
   ⟨0xA0088C, 1, 0x100000, 1, 0x4, 0x0, 0x0, 0x0, 0x0, 0x0, fun _ _ => 0x0⟩,
   ⟨0xA008A0, 1, 0x100000, 1, 0x4, 0x0, 0x803F7F7F, 0x0, 0x0, 0x0, fun _ _ => 0x7F00⟩,
   ⟨0xA00900, 1, 0x100000, 1, 0x4, 0x0, 0x4, 0x0, 0x0, 0x3, fun _ _ => 0x0⟩,
   ⟨0xA00904, 1, 0x100000, 1, 0x4, 0x0, 0x1FFFFFFF, 0x0, 0x0, 0x0, fun _ _ => 0x0⟩,
   ⟨0xA00908, 1, 0x100000, 1, 0x4, 0x0, 0x0, 0x0, 0x0, 0x0, fun _ _ => 0x0⟩,
   ⟨0xA00080, 8, 0x4, 1, 0x4, 0x0, 0x0, 0x0, 0x0, 0x0, fun _ _ => 0x0⟩,
   ⟨0xA00940, 16, 0x4, 1, 0x4, 0x0, 0xFFFFFFFF, 0x0, 0x0, 0x0, fun _ _ => 0x0⟩,
   ⟨0xA00980, 4, 0x4, 1, 0x4, 0x0, 0xFFFFFFFF, 0x0, 0x0, 0x0, fun _ _ => 0x0⟩]

/-- The registers of FLS from offset 0x040 on. -/
def rowsFLS : List RegRow :=
  [⟨0xB00040, 1, 0x100000, 1, 0x4, 0x0, 0x0, 0x0, 0x1, 0x0, fun _ _ => 0x0⟩,
   ⟨0xB00044, 1, 0x100000, 1, 0x4, 0x0, 0x0, 0x1, 0x0, 0x0, fun _ _ => 0x0⟩,
   ⟨0xB00048, 2, 0x4, 1, 0x4, 0x0, 0x0, 0x0, 0x0, 0x0, fun _ _ => 0x0⟩,
   ⟨0xB000B8, 1, 0x100000, 1, 0x4, 0x0, 0x0, 0x0, 0x0, 0x0, fun _ _ => 0x0⟩,
   ⟨0xB00050, 2, 0x20, 1, 0x4, 0x0, 0x0, 0x0, 0x0, 0xF, fun _ _ => 0x0⟩,
   ⟨0xB00054, 2, 0x20, 1, 0x4, 0xFFFFF0, 0x0, 0x0, 0x0, 0x0, fun _ _ => 0x0⟩,
   ⟨0xB00058, 2, 0x20, 1, 0x4, 0x0, 0x0, 0x0, 0x0, 0x0, fun _ _ => 0x0⟩,
   ⟨0xB00060, 2, 0x20, 4, 0x4, 0xFFFFFFFF, 0x0, 0x0, 0x0, 0x0, fun _ _ => 0x0⟩,
   ⟨0xB000A0, 1, 0x100000, 1, 0x4, 0x0, 0x0, 0x0, 0x0, 0x0, fun _ _ => 0x0⟩,
   ⟨0xB000A4, 1, 0x100000, 1, 0x4, 0x0, 0x0, 0x0, 0x0, 0x0, fun _ _ => 0x0⟩,
   ⟨0xB000A8, 1, 0x100000, 1, 0x4, 0x0, 0x0, 0x0, 0x0, 0x0, fun _ _ => 0x0⟩,
   ⟨0xB000AC, 1, 0x100000, 1, 0x4, 0x0, 0x0, 0x0, 0x0, 0x0, fun _ _ => 0x0⟩,
   ⟨0xB000C0, 16, 0x4, 1, 0x4, 0x0, 0x0, 0x0, 0x0, 0x0, fun _ _ => 0x0⟩,
   ⟨0xB00800, 1, 0x100000, 1, 0x4, 0x0, 0x1, 0x0, 0x0, 0x0, fun _ _ => 0x0⟩,
   ⟨0xB00804, 1, 0x100000, 1, 0x4, 0x0, 0x0, 0x0, 0x0, 0x0, resetSecMin⟩]

/-- The registers of CAL from offset 0x040 on. -/
def rowsCAL : List RegRow :=
  [⟨0xC00040, 1, 0x100000, 1, 0x4, 0x3, 0x0, 0x0, 0x4, 0x0, fun _ _ => 0x3⟩,
   ⟨0xC00044, 1, 0x100000, 1, 0x4, 0x0, 0x0, 0x0, 0x0, 0x0, fun _ _ => 0x0⟩,
   ⟨0xC00048, 1, 0x100000, 1, 0x4, 0x0, 0x0, 0x0, 0x0, 0x0, fun _ _ => 0x0⟩,
   ⟨0xC0004C, 1, 0x100000, 1, 0x4, 0xFFFFFFFF, 0x0, 0x0, 0x0, 0x0, fun _ _ => 0x2D0003C⟩,
   ⟨0xC00050, 1, 0x100000, 1, 0x4, 0x0, 0x0, 0x0, 0x0, 0x0, fun _ _ => 0x0⟩,
   ⟨0xC00054, 1, 0x100000, 1, 0x4, 0x0, 0x0, 0x0, 0x0, 0x0, fun _ _ => 0x0⟩,
   ⟨0xC00800, 1, 0x100000, 1, 0x4, 0x0, 0xFFFFFFFF, 0x0, 0x0, 0x0, fun _ _ => 0x1828C080⟩,
   ⟨0xC00804, 1, 0x100000, 1, 0x4, 0x0, 0xFFFFFFFF, 0x0, 0x0, 0x0, fun _ _ => 0x41007D0⟩,
   ⟨0xC01000, 6, 0x1000, 1, 0x4, 0x0, 0x0, 0x0, 0x0, 0x0, fun _ _ => 0x0⟩,
   ⟨0xC01004, 6, 0x1000, 1, 0x4, 0x0, 0x0, 0x0, 0x0, 0x0, fun _ _ => 0x0⟩,
   ⟨0xC01008, 6, 0x1000, 1, 0x4, 0x0, 0x0, 0x0, 0x0, 0x0, fun _ _ => 0x0⟩,
   ⟨0xC0100C, 6, 0x1000, 1, 0x4, 0x0, 0x0, 0x0, 0x0, 0x0, fun _ _ => 0x0⟩,
   ⟨0xC01010, 6, 0x1000, 8, 0x4, 0x0, 0x0, 0x0, 0x0, 0x0, fun _ _ => 0x0⟩,
   ⟨0xC01030, 6, 0x1000, 8, 0x4, 0x0, 0x0, 0x0, 0x0, 0x0, fun _ _ => 0x0⟩,
   ⟨0xC01050, 6, 0x1000, 1, 0x4, 0x0, 0x0, 0x0, 0x0, 0x0, fun _ _ => 0x0⟩,
   ⟨0xC01054, 6, 0x1000, 1, 0x4, 0x0, 0x0, 0x0, 0x0, 0x0, fun _ _ => 0x0⟩,
   ⟨0xC01800, 6, 0x1000, 10, 0x4, 0x0, 0xFF, 0x0, 0x0, 0x0, fun _ _ => 0x0⟩,
   ⟨0xC01840, 6, 0x1000, 9, 0x4, 0x0, 0xFF, 0x0, 0x0, 0x0, fun _ _ => 0x0⟩,
   ⟨0xC01870, 6, 0x1000, 1, 0x4, 0x0, 0xFFFF, 0x0, 0x0, 0x0, fun _ _ => 0x0⟩,
   ⟨0xC01880, 6, 0x1000, 1, 0x4, 0x0, 0xFFFFFFFF, 0x0, 0x0, 0x0, fun _ _ => 0x40004000⟩,
   ⟨0xC01884, 6, 0x1000, 1, 0x4, 0x0, 0xFFFF, 0x0, 0x0, 0x0, fun _ _ => 0x4000⟩]

/-- The registers of HLT from offset 0x040 on. -/
def rowsHLT : List RegRow :=
  [⟨0x200070, 4, 0x4, 1, 0x4, 0x1FFFF, 0x0, 0x0, 0x0, 0x0, fun _ _ => 0x0⟩,
   ⟨0x200040, 1, 0x100000, 1, 0x4, 0x1, 0x0, 0x0, 0x2, 0x0, fun _ _ => 0x0⟩,
   ⟨0x200044, 1, 0x100000, 1, 0x4, 0x0, 0x0, 0x80, 0x0, 0x0, fun _ _ => 0x0⟩,
   ⟨0x200048, 1, 0x100000, 1, 0x4, 0x0, 0x0, 0x0, 0x0, 0xF3F, fun _ _ => 0x0⟩,
   ⟨0x20004C, 1, 0x100000, 1, 0x4, 0xF, 0x0, 0x0, 0x0, 0x0, fun _ _ => 0x0⟩,
   ⟨0x200050, 1, 0x100000, 1, 0x4, 0x0, 0x0, 0x0, 0x0, 0x0, fun _ _ => 0x0⟩,
   ⟨0x200060, 1, 0x100000, 1, 0x4, 0x0, 0x0, 0x0, 0x0, 0x0, fun _ _ => 0x0⟩,
   ⟨0x200064, 1, 0x100000, 1, 0x4, 0xFF0000, 0x0, 0x0, 0x0, 0x0, fun _ _ => 0x730000⟩,
   ⟨0x200068, 1, 0x100000, 1, 0x4, 0x0, 0x0, 0x0, 0x0, 0x0, fun _ _ => 0x0⟩,
   ⟨0x20006C, 1, 0x100000, 1, 0x4, 0x0, 0x0, 0x0, 0x0, 0x0, fun _ _ => 0x0⟩,
   ⟨0x200100, 64, 0x4, 1, 0x4, 0x3FFFFFFF, 0x0, 0x0, 0x0, 0x0, resetClass⟩,
   ⟨0x200200, 64, 0x4, 1, 0x4, 0x0, 0x0, 0x0, 0x0, 0x0, fun _ _ => 0x0⟩,
   ⟨0x200800, 1, 0x100000, 1, 0x4, 0x0, 0xFFC00000, 0x0, 0x0, 0x0, fun _ _ => 0x0⟩,
   ⟨0x200804, 1, 0x100000, 1, 0x4, 0x0, 0xFFFFFFFF, 0x0, 0x0, 0x0, fun _ _ => 0x0⟩]

/-- The registers of SYS from offset 0x040 on. -/
def rowsSYS : List RegRow :=
  [⟨0x100, 1, 0x100000, 1, 0x4, 0x0, 0x0, 0x0, 0x0, 0x0, fun _ _ => 0x0⟩,
   ⟨0x40, 1, 0x100000, 1, 0x4, 0x0, 0x0, 0x0, 0x0, 0x0, fun _ _ => 0x0⟩]

end Sys2Proof.Machine
end

