-- ==== Sys2Proof/Machine/Blocks.lean ====
section
/-! DEFINITION. The blocks of the register space: bases, type codes, capabilities and the decoding of an address to
a register (R41–R50). -/

namespace Sys2Proof.Machine

/-- Base address of drive channel `c` (R46). -/
def chBase (c : Ch) : Nat := 0x01000000 + c.val * 0x00100000

/-- Is the block copied once per drive channel (R11)? -/
def blkIsChannel : BlkT → Bool
  | .dcm | .rdc | .det | .wrc | .srv | .mot | .spn => true
  | .sys | .tmb | .hlt | .hlk | .hqe | .cmd | .map | .mca | .str | .sea | .mem | .fls | .cal | .vmb => false

/-- Base of a chip-wide block (R45), or offset of a channel block within its channel (R46). -/
def blkOffset : BlkT → Nat
  | .sys => 0x000000 | .tmb => 0x100000 | .hlt => 0x200000 | .hlk => 0x300000 | .hqe => 0x400000
  | .cmd => 0x500000 | .map => 0x600000 | .mca => 0x700000 | .str => 0x800000 | .sea => 0x900000
  | .mem => 0xA00000 | .fls => 0xB00000 | .cal => 0xC00000 | .vmb => 0xD00000
  | .dcm => 0x00000 | .rdc => 0x20000 | .det => 0x40000 | .wrc => 0x60000
  | .srv => 0x80000 | .mot => 0xA0000 | .spn => 0xC0000

/-- Type code of a block (R45, R46). -/
def blkType : BlkT → Nat
  | .sys => 0x0001 | .tmb => 0x0002 | .hlt => 0x0003 | .hlk => 0x0004 | .hqe => 0x0005
  | .cmd => 0x0006 | .map => 0x0007 | .mca => 0x0008 | .str => 0x0009 | .sea => 0x000A
  | .mem => 0x000B | .fls => 0x000C | .cal => 0x000D | .vmb => 0x000E
  | .dcm => 0x0101 | .rdc => 0x0102 | .det => 0x0103 | .wrc => 0x0104
  | .srv => 0x0105 | .mot => 0x0106 | .spn => 0x0107

/-- Base address of a block's first page. -/
def blkBase (b : Blk) : Nat := if blkIsChannel b.ty then chBase b.ch + blkOffset b.ty else blkOffset b.ty

/-- BLK_CAP: BLK_SPECIFIC, HAS_EXPERT and PAGES of each block type (R180, R185, R224, R280 and the like).
DESIGN CHOICE (log 6): the chapters give none for SYS, CMD and TMB; their BLK_SPECIFIC and PAGES read 0, and HAS_EXPERT
reads 1 for TMB, which has RWL registers (R718). -/
def blkCap : BlkT → Nat
  | .rdc => 0x000A010A | .det => 0x00020000 | .wrc => 0x00080100 | .srv => 0x07200108
  | .mot => 0x02080102 | .spn => 0x00030100 | .vmb => 0x00020000 | .dcm => 0x0C040100
  | .hlk => 0x02400000 | .hqe => 0x10000000 | .map => 0x04000100 | .mca => 0x10100000
  | .str => 0x07060100 | .sea => 0x00070100 | .mem => 0x10020100 | .fls => 0x02200100
  | .cal => 0x06000106 | .hlt => 0x00400100 | .tmb => 0x00000100 | .sys => 0 | .cmd => 0

/-- BLK_ID of a block (R49). -/
def blkId (b : Blk) : Nat :=
  blkType b.ty * 0x10000 + (if blkIsChannel b.ty then b.ch.val else 0) * 0x100 + Config.blkRev

/-- The registers of a block from offset 0x040 on. -/
def blkRows : BlkT → List RegRow
  | .sys => rowsSYS | .tmb => rowsTMB | .hlt => rowsHLT | .hlk => rowsHLK | .hqe => rowsHQE
  | .cmd => [] | .map => rowsMAP | .mca => rowsMCA | .str => rowsSTR | .sea => rowsSEA
  | .mem => rowsMEM | .fls => rowsFLS | .cal => rowsCAL | .vmb => rowsVMB
  | .dcm => rowsDCM | .rdc => rowsRDC | .det => rowsDET | .wrc => rowsWRC
  | .srv => rowsSRV | .mot => rowsMOT | .spn => rowsSPN

/-- The chip-wide block whose 1 MiB holds an address (R45). -/
def chipBlk : Nat → Option BlkT
  | 0 => some .sys | 1 => some .tmb | 2 => some .hlt | 3 => some .hlk | 4 => some .hqe
  | 5 => some .cmd | 6 => some .map | 7 => some .mca | 8 => some .str | 9 => some .sea
  | 10 => some .mem | 11 => some .fls | 12 => some .cal | 13 => some .vmb
  | _ => none

/-- The channel block whose 128 KiB holds an offset within a channel (R46). -/
def chanBlk : Nat → Option BlkT
  | 0 => some .dcm | 1 => some .rdc | 2 => some .det | 3 => some .wrc | 4 => some .srv | 5 => some .mot
  | 6 => some .spn
  | _ => none

/-- The block an address lies in, if any (R41). -/
def blkOf (a : Nat) : Option Blk :=
  if a < 0x00E00000 then (chipBlk (a / 0x100000)).map (fun t => ⟨t, 0⟩)
  else if h : 0x01000000 ≤ a ∧ a < 0x01600000 then
    (chanBlk (a % 0x100000 / 0x20000)).map (fun t => ⟨t, ⟨(a - 0x01000000) / 0x100000, by omega⟩⟩)
  else none

/-- The index pair at which a row holds the register at `a`. -/
def rowHit (r : RegRow) (a : Nat) : Option (Nat × Nat) :=
  if a < r.base then none
  else
    let d := a - r.base
    let i := d / r.s1
    let j := d % r.s1 / r.s2
    if i < r.n1 ∧ j < r.n2 ∧ d % r.s1 % r.s2 = 0 then some (i, j) else none

/-- The first row of a list that holds the register at `a`. -/
def findRow (a : Nat) : List RegRow → Option (RegRow × Nat × Nat)
  | [] => none
  | r :: rs => match rowHit r a with
    | some (i, j) => some (r, i, j)
    | none => findRow a rs

/-- A row of the common first page (R48): BLK_CTL, BLK_IRQ_STAT, BLK_IRQ_EN, and the RO words. -/
def firstPageRow : Nat → Option RegRow
  | 0x00 => some ⟨0x00, 1, 4, 1, 4, 0, 0, 0, 0, 0, fun _ _ => 0⟩
  | 0x04 => some ⟨0x04, 1, 4, 1, 4, 0, 0, 0, 0, 0, fun _ _ => 0⟩
  | 0x08 => some ⟨0x08, 1, 4, 1, 4, 3, 0, 0, 0, 0, fun _ _ => 1⟩
  | 0x0C => some ⟨0x0C, 1, 4, 1, 4, 0, 0, 0, 0, 0, fun _ _ => 0⟩
  | 0x10 => some ⟨0x10, 1, 4, 1, 4, 0, 0, 0xFFFFFFFF, 0, 0, fun _ _ => 0⟩
  | 0x14 => some ⟨0x14, 1, 4, 1, 4, 0xFFFFFFFF, 0, 0, 0, 0, fun _ _ => 0⟩
  | 0x18 => some ⟨0x18, 1, 4, 1, 4, 0, 0, 0, 0, 0, fun _ _ => 0⟩
  | 0x1C => some ⟨0x1C, 1, 4, 1, 4, 0, 0, 0, 0, 0xFFFFFFFF, fun _ _ => 0⟩
  | _ => none

/-- Highest event bit the block's chapter defines in BLK_IRQ_STAT; bits above it are reserved (R54). -/
def blkEvents : BlkT → Nat
  | .rdc | .sys | .cmd | .tmb => 0 | .det => 4 | .wrc => 6 | .srv => 7 | .mot => 5 | .spn => 7 | .vmb => 3
  | .dcm => 4 | .hlk => 4 | .hqe => 4 | .map => 3 | .mca => 3 | .str => 5 | .sea => 1 | .mem => 5
  | .fls => 5 | .cal => 5 | .hlt => 4

/-- The register at an address, if one occupies it, with its index pair. The masks of BLK_IRQ_STAT and BLK_IRQ_EN
are cut to the events the block's chapter defines (R9, R54). -/
def regRow (a : Nat) : Option (RegRow × Nat × Nat) :=
  if 0x02000000 ≤ a ∧ a < 0x02100000 then findRow a rowsRC
  else match blkOf a with
    | none => none
    | some b =>
      let off := a - blkBase b
      if off < 0x40 then (firstPageRow off).map (fun r =>
        let m := 2 ^ (blkEvents b.ty + 1) - 1
        if off = 0x10 then ({ r with w1c := m }, 0, 0)
        else if off = 0x14 then ({ r with rw := m }, 0, 0)
        else (r, 0, 0))
      else findRow (if blkIsChannel b.ty then a - chBase b.ch else a) (blkRows b.ty)

/-- Reset value of the register at an address; 0 where no register is (R43). -/
def resetValue (a : Nat) : W32 :=
  match regRow a with
  | some (r, i, j) => BitVec.ofNat 32 (r.reset i j)
  | none => 0

/-- The field of drive channel `c`. -/
def Fld.at (f : Fld) (c : Ch) : Fld := { f with base := chBase c + f.base }

/-- The field of element `k` of a register array. -/
def Fld.i (f : Fld) (k : Nat) : Fld := { f with base := f.base + k * f.s1 }

/-- The field of element `k`, `m` of a two-index register array. -/
def Fld.ij (f : Fld) (k m : Nat) : Fld := { f with base := f.base + k * f.s1 + m * f.s2 }

/-- Width of a field in bits. -/
def Fld.width (f : Fld) : Nat := f.hi + 1 - f.lo

end Sys2Proof.Machine
end

