-- ==== Sys2Proof/Machine/Operands.lean ====
section
/-! DEFINITION. The number formats of the part: rounding, saturation, fixed point and the sections of a servo loop
(R128, R234–R239), integer square roots, and the read channel's filters. -/

namespace Sys2Proof.Machine

/-- `n / d` rounded to the nearest integer, ties away from zero (R128, R236). -/
def rnd (n : Int) (d : Nat) : Int :=
  if n < 0 then -(((2 * n.natAbs + d) / (2 * d) : Nat) : Int) else (((2 * n.natAbs + d) / (2 * d) : Nat) : Int)

/-- A rational number rounded to the nearest integer, ties away from zero. -/
def rndQ (q : Rat) : Int := rnd q.num q.den

/-- `n / d` rounded down (towards minus infinity). -/
def fdiv (n : Int) (d : Nat) : Int := n / (d : Int)

/-- Limits to the 16-bit two's-complement range (R236). -/
def sat16 (z : Int) : Int := clamp (-32768) 32767 z

/-- The 16-bit code `n` read as two's complement. -/
def s16 (n : Nat) : Int := toSigned 16 n

/-- A store of the accumulator with shift `s` (R236): times 2^s, divided by 2^15, rounded, limited. -/
def store (acc : Int) (s : Nat) : Int := sat16 (rnd (acc * 2 ^ s) 32768)

/-- Bits of the square root computed by `isqrt`. -/
def isqrtStep : Nat → Nat → Nat → Nat
  | 0, _, r => r
  | k + 1, n, r => if (r + 2 ^ k) * (r + 2 ^ k) ≤ n then isqrtStep k n (r + 2 ^ k) else isqrtStep k n r

/-- Square root rounded down. -/
def isqrt (n : Nat) : Nat := isqrtStep (n.log2 / 2 + 1) n 0

/-- One section's history (R239). -/
structure SecState where
  x1 : Int := 0
  x2 : Int := 0
  y1 : Int := 0
  y2 : Int := 0
deriving DecidableEq, Repr

/-- One section's coefficients (R239, R285). -/
structure SecCoef where
  b0 : Int := 0
  b1 : Int := 0
  b2 : Int := 0
  a1 : Int := 0
  a2 : Int := 0
  shift : Nat := 0
deriving DecidableEq, Repr

/-- One section applied to `x`: the stored output and the new history (R239). -/
def section1 (k : SecCoef) (h : SecState) (x : Int) : Int × SecState :=
  let y := store (k.b0 * x + k.b1 * h.x1 + k.b2 * h.x2 - k.a1 * h.y1 - k.a2 * h.y2) k.shift
  (y, ⟨x, h.x1, y, h.y1⟩)

/-- A cascade of sections: output and new histories (R238). -/
def sections : List SecCoef → List SecState → Int → Int × List SecState
  | k :: ks, h :: hs, x =>
    let (y, h') := section1 k h x
    let (z, hs') := sections ks hs y
    (z, h' :: hs')
  | _, hs, x => (x, hs)

/-- One coefficient bank of a loop (R285). -/
structure Bank where
  gain : Int := 0
  gshift : Nat := 0
  ki : Int := 0
  kiShift : Nat := 0
  iclamp : Nat := 0
  hi : Int := 0
  lo : Int := 0
  nn : Nat := 0
  nb : Nat := 0
  notch : List SecCoef := []
  biquad : List SecCoef := []
deriving DecidableEq, Repr

/-- The proportional path of a bank: result and new section histories, biquads 0–5 first, notches after (R238). -/
def propPath (b : Bank) (bq nt : List SecState) (e : Int) : Int × List SecState × List SecState :=
  let x := store (e * b.gain) b.gshift
  let (x1, nt') := sections (b.notch.take b.nn) nt x
  let (x2, bq') := sections (b.biquad.take b.nb) bq x1
  (x2, bq', nt')

/-- The integrator's contribution to the sum (R237). -/
def uiOf (i : Int) : Int := rnd i 65536

/-- The output limiter (R238, R244). -/
def limitOut (b : Bank) (v : Int) : Int := min (max v b.lo) b.hi

/-- The integrator's update before the clamp (R241). -/
def integStep (b : Bank) (i e : Int) : Int :=
  if b.kiShift = 0 then i + b.ki * e * 2 else i + rnd (b.ki * e) (2 ^ (b.kiShift - 1))

/-- The integrator clamp (R241). -/
def clampI (b : Bank) (i : Int) : Int :=
  clamp (-(b.iclamp * 65536 : Nat)) ((b.iclamp * 65536 : Nat) : Int) i

/-- Sign of a number as −1, 0 or +1. -/
def sgn (z : Int) : Int := if z < 0 then -1 else if z = 0 then 0 else 1

/-- Sign of a loop's gain: +1 when GAIN is 0 (R243). -/
def gainSign (b : Bank) : Int := if b.gain < 0 then -1 else 1

/-- Terms of the sine series from the power `p` of order `k` on, in units of 10⁻⁴⁰; `x2` is the square of the angle. -/
def sineTerms (x2 : Int) : Nat → Int → Nat → Int
  | 0, _, _ => 0
  | f + 1, p, k => p + sineTerms x2 f (-(p * x2 / 10 ^ 40) / (((2 * k + 2) * (2 * k + 3) : Nat) : Int)) (k + 1)

/-- sin(2π × n / 65,536) for `n` up to a quarter of a turn, in units of 10⁻⁴⁰. -/
def sineQuarter (n : Nat) : Int :=
  let x : Int := (62831853071795864769252867665590057683943 * n : Nat) / 65536
  sineTerms (x * x / 10 ^ 40) 20 x 0

/-- sin(2π × n / 65,536) in units of 10⁻⁴⁰. -/
def sineTurn (n : Nat) : Int :=
  let k := n % 65536
  if k ≤ 16384 then sineQuarter k else if k ≤ 32768 then sineQuarter (32768 - k)
  else if k ≤ 49152 then -sineQuarter (k - 32768) else -sineQuarter (65536 - k)

/-- The injected sample of tick `k` (R278), rounded to the nearest code as a store is (R236); log 11. -/
def injectSine (amp : Int) (freq k : Nat) : Int := rnd (amp * sineTurn (k * freq)) (10 ^ 40)

/-- Limits an equaliser output to −512 to +511 (R128). -/
def sat10 (z : Int) : Int := clamp (-512) 511 z

/-- Limits a tap to 12 bits (R130). -/
def sat12 (z : Int) : Int := clamp (-2048) 2047 z

/-- Limits a coupling coefficient to −128 to +127 (R154). -/
def sat8 (z : Int) : Int := clamp (-128) 127 z

/-- Sum of products of two lists. -/
def dot : List Int → List Int → Int
  | a :: as, b :: bs => a * b + dot as bs
  | _, _ => 0

/-- Is tap `k` active under SPAN (R129)? -/
def tapActive (span k : Nat) : Bool :=
  match span with
  | 0 => decide (4 ≤ k ∧ k ≤ 10)
  | 1 => decide (2 ≤ k ∧ k ≤ 12)
  | _ => decide (k < 15)

/-- The taps with the inactive ones acting as 0 (R129); `k` is the number of the first tap of the list. -/
def activeTaps (span : Nat) : Nat → List Int → List Int
  | _, [] => []
  | k, h :: hs => (if tapActive span k then h else 0) :: activeTaps span (k + 1) hs

/-- The equaliser's output for the window x[n+7], x[n+6], …, x[n−7] (R128, R129). -/
def eqOut (span : Nat) (taps window : List Int) : Int :=
  sat10 (rnd (dot (activeTaps span 0 taps) window) 512)

/-- The wanted output d[n] for the decisions a[n], a[n−1], a[n−2], a[n−3], as a numerator over 4 (R130). -/
def targetX4 (amp : Nat) (g : List Int) (a : List Int) : Int := amp * dot g a

/-- The changes of the taps by one update (R129, R130): e is d − y over 4, the window as in `eqOut`; inactive taps keep
still. -/
def tapSteps (span mu : Nat) (ex4 : Int) : Nat → List Int → List Int
  | _, [] => []
  | k, x :: xs =>
    (if tapActive span k then rnd (ex4 * x) (4 * 2 ^ (mu + 10)) else 0) :: tapSteps span mu ex4 (k + 1) xs

/-- The changes of coupling coefficients by one update (R154): the expected values ā in units of 1/256 stand for x. -/
def couplingSteps (mu : Nat) (ex4 : Int) (soft : List Int) : List Int :=
  soft.map (fun a => rnd (ex4 * a) (4 * 256 * 2 ^ (mu + 10)))

/-- Applies changes under a limit. -/
def addSat (sat : Int → Int) (l d : List Int) : List Int := l.mapIdx (fun k h => sat (h + d.getD k 0))

/-- Peak-to-peak range of a list. -/
def spread (l : List Int) : Nat := match l with
  | [] => 0
  | x :: xs => (xs.foldl max x - xs.foldl min x).toNat

/-- Mean of a non-empty list, rounded down; 0 for an empty one. -/
def meanDown (l : List Int) : Int := if l.length = 0 then 0 else l.sum / (l.length : Int)

end Sys2Proof.Machine
end

