-- ==== Sys2Proof/Machine/Profile.lean ====
section
/-! DEFINITION. The jerk-limited profile generator (R295–R299). -/

namespace Sys2Proof.Machine

/-- The limits of a move, exact (R295). -/
structure Limits where
  v : Rat := 0
  a : Rat := 0
  j : Rat := 0
deriving DecidableEq, Repr

/-- A planned move over distance `d` (R296). -/
structure Plan where
  j : Rat := 0
  nj : Nat := 1
  na : Nat := 0
  tv : Rat := 0
  d : Rat := 0
deriving DecidableEq, Repr

/-- Smaller of two rationals. -/
def minQ (a b : Rat) : Rat := if a ≤ b then a else b

/-- Floor of a rational as a natural number (0 below 0). -/
def floorN (q : Rat) : Nat := q.floor.toNat

/-- Distance of a profile without cruise: j·nj·(nj+na)·(2nj+na). -/
def rampDist (j : Rat) (nj na : Nat) : Rat := j * (nj : Rat) * ((nj + na : Nat) : Rat) * ((2 * nj + na : Nat) : Rat)

/-- The shortening loop of R296, on fuel `nj + na`. -/
def planFit (d : Rat) : Nat → Rat → Nat → Nat → Rat × Nat × Nat
  | 0, j, nj, na => (if rampDist j nj na > d then d / 2 else j, nj, na)
  | f + 1, j, nj, na =>
    if rampDist j nj na > d then
      if na > 0 then planFit d f j nj (na - 1)
      else if nj > 1 then planFit d f j (nj - 1) 0
      else (d / 2, nj, na)
    else (j, nj, na)

/-- The plan of a move of distance `d > 0` (R296). A limit of 0 gives a plan that never moves; DEDUCED (log 10):
the spec states no plan for it. -/
def planMove (l : Limits) (d : Rat) : Plan :=
  if l.j ≤ 0 ∨ l.v ≤ 0 ∨ l.a ≤ 0 then ⟨0, 1, 0, 0, d⟩
  else
    let nj := max 1 (min (floorN (l.a / l.j)) (isqrt (floorN (l.v / l.j))))
    let n : Rat := nj
    let j := minQ l.j (minQ (l.a / n) (l.v / (n * n)))
    let na := floorN ((l.v - j * n * n) / (j * n))
    let (j, nj, na) := planFit d (nj + na) j nj na
    let vp := j * (nj : Rat) * ((nj + na : Nat) : Rat)
    let tv : Rat := ((((d - vp * ((2 * nj + na : Nat) : Rat)) / vp) * 65536).floor : Rat) / 65536
    ⟨j, nj, na, tv, d⟩

/-- Peak velocity of a plan (R296). -/
def planVp (p : Plan) : Rat := p.j * (p.nj : Rat) * ((p.nj + p.na : Nat) : Rat)

/-- Length of one ramp, ticks. -/
def planRamp (p : Plan) : Nat := 2 * p.nj + p.na

/-- End of a plan te, ticks (R296). -/
def planEnd (p : Plan) : Rat := 2 * (planRamp p : Rat) + p.tv

/-- Start of the fifth segment: the end of the cruise (R301). -/
def planFifth (p : Plan) : Rat := (planRamp p : Rat) + p.tv

/-- Distance, velocity, acceleration and jerk `t` ticks into the accelerating ramp. -/
def rampAt (p : Plan) (t : Rat) : Rat × Rat × Rat × Rat :=
  let nj : Rat := p.nj
  let r : Rat := planRamp p
  if t < nj then (p.j * t * t * t / 6, p.j * t * t / 2, p.j * t, p.j)
  else if t < ((p.nj + p.na : Nat) : Rat) then
    let u := t - nj
    let v0 := p.j * nj * nj / 2
    (p.j * nj * nj * nj / 6 + v0 * u + p.j * nj * u * u / 2, v0 + p.j * nj * u, p.j * nj, 0)
  else
    let w := r - t
    let vp := planVp p
    (vp * r / 2 - vp * w + p.j * w * w * w / 6, vp - p.j * w * w / 2, p.j * w, -p.j)

/-- Distance, velocity, acceleration and jerk of a plan after `t` ticks (R296, R297). -/
def planAt (p : Plan) (t : Rat) : Rat × Rat × Rat × Rat :=
  let r : Rat := planRamp p
  let vp := planVp p
  if t < r then rampAt p t
  else if t < planFifth p then (vp * r / 2 + vp * (t - r), vp, 0, 0)
  else if t < planEnd p then
    let (x, v, a, jk) := rampAt p (planEnd p - t)
    (vp * r + vp * p.tv - x, v, -a, jk)
  else (p.d, 0, 0, 0)

/-- A profile being run: start tick, start position, direction and plan; positions in the user's units. -/
structure Run where
  start : Nat := 0
  p0 : Rat := 0
  neg : Bool := false
  plan : Plan := {}
deriving DecidableEq, Repr

/-- A run from `p0` to `target` taken at tick `t`. -/
def Run.mk' (t : Nat) (l : Limits) (p0 target : Rat) : Run :=
  ⟨t, p0, decide (target < p0), planMove l (if target < p0 then p0 - target else target - p0)⟩

/-- Ticks into the run. -/
def Run.age (r : Run) (now : Nat) : Rat := ((now - r.start : Nat) : Rat)

/-- Has the run ended at tick `now` (R297, R298)? -/
def Run.ended (r : Run) (now : Nat) : Bool := decide (r.plan.d = 0) || decide (planEnd r.plan ≤ r.age now)

/-- Target of a run. -/
def Run.target (r : Run) : Rat := if r.neg then r.p0 - r.plan.d else r.p0 + r.plan.d

/-- Signed displacement, velocity and acceleration of a run at tick `now`. -/
def Run.at (r : Run) (now : Nat) : Rat × Rat × Rat :=
  let (x, v, a, _) := planAt r.plan (r.age now)
  if r.neg then (-x, -v, -a) else (x, v, a)

/-- Position of a run at tick `now`: exact at its end (R297). -/
def Run.pos (r : Run) (now : Nat) : Rat := if r.ended now then r.target else r.p0 + (r.at now).1

/-- Do two plans, the second starting `off` ticks into the first, stay within the limits at every tick of the
overlap (R301)? Judged on `n` ticks from the start of the overlap. -/
def blendOk (l : Limits) (a b : Plan) (off : Nat) : Nat → Bool
  | 0 => true
  | n + 1 =>
    let (_, va, aa, ja) := planAt a ((off + n : Nat) : Rat)
    let (_, vb, ab, jb) := planAt b ((n : Nat) : Rat)
    let v := va + vb
    let ac := aa + ab
    let jk := ja + jb
    decide (v ≤ l.v) && decide (-l.v ≤ v) && decide (ac ≤ l.a) && decide (-l.a ≤ ac) && decide (jk ≤ l.j)
      && decide (-l.j ≤ jk) && blendOk l a b off n

end Sys2Proof.Machine
end

