-- ==== Sys2Proof/Machine/State.lean ====
section
/-! DEFINITION. The state of the part as plain data, and the state right after reset. -/

namespace Sys2Proof.Machine

/-- A register write waiting in a latch (R18): address, value and origin. -/
structure Staged where
  addr : Nat
  val : W32
  org : Origin
deriving DecidableEq, Repr

/-- An open block (R60): its opener and the tick of the last accepted write to one of its RWL registers. -/
structure OpenLock where
  blk : Blk
  opener : Origin
  last : Nat
deriving DecidableEq, Repr

/-- One log ring (R699, R700): INDEX of the next entry and the entries held, oldest first. -/
structure LogRing (α : Type) where
  next : Nat := 0
  held : List (Nat × α) := []
  /-- Ring position of the next entry (R699, R751), counted on past the ring's end. -/
  pos : Nat := 0
deriving DecidableEq, Repr

/-- A log entry stored in the persisted log region (R703). -/
inductive Persisted where
  | change (index : Nat) (e : ChangeEntry)
  | event (index : Nat) (e : EventEntry)
  | viol (index : Nat) (e : ViolEntry)
deriving DecidableEq, Repr

/-- What the health manager counts for one class instance (R691), and the blocks whose faults it counted (R694). -/
structure ClassInst where
  cls : Nat
  inst : Nat
  start : Nat := 0
  count : Nat := 0
  total : Nat := 0
  lasting : Bool := false
  raisers : List Blk := []
deriving DecidableEq, Repr

/-- The health manager and the logs. -/
structure Health where
  /-- Faults detected and not yet arrived (R696). -/
  incoming : List FaultRec := []
  /-- The record being handled (R696). -/
  handling : Option FaultRec := none
  /-- The fault FIFO, oldest first (R696). -/
  fifo : List FaultRec := []
  /-- Faults lost since the last FIFO_OVERRUN entry (R698). -/
  lostSince : Nat := 0
  /-- Instances of the fault classes that have counted (R691, R693). -/
  classes : List ClassInst := []
  /-- The change log (R67) and the event log (R702). -/
  changeLog : LogRing ChangeEntry := {}
  eventLog : LogRing EventEntry := {}
  /-- The violation log of each port; both share one INDEX count, kept in `violNext` (R700). -/
  viol0 : LogRing ViolEntry := {}
  viol1 : LogRing ViolEntry := {}
  violNext : Nat := 0
  /-- The persisted log region (R703), oldest first, and the sector of the region, 0 to 31, that its oldest record begins. -/
  persisted : List Persisted := []
  logFirst : Nat := 0
  /-- Log records and sector erases not yet counted in the flash counters. -/
  owed : Nat := 0
  owedErases : Nat := 0
  /-- Event entries stored in the present minute, the minute, and the next INDEX to store (R703). -/
  persistMinute : Nat := 0
  persistCount : Nat := 0
  eventStored : Nat := 0
  violStored : Nat := 0
  /-- TEMP stood at or below the limit since JUNCTION_HOT was last raised (R690). -/
  hotArmed : Bool := true
  /-- LOG_EN has been 1: the logs stand in their DRAM rings (R699, R751). -/
  joined : Bool := false
  /-- Entries stored in flash since chip reset before LOG_EN was set, which R751 renumbers. -/
  early : Nat := 0
deriving DecidableEq, Repr

/-- The timebase: tick counter, time of day, the staged time of day (R26) and the read captures (R28, R29). -/
structure TimeBase where
  tick : Nat := 0
  tod : Nat := 0
  todStaged : Option Nat := none
  tickCap : List (Origin × Nat) := []
  todCap : List (Origin × Nat) := []
  /-- The timebase PLL has lost lock (R33); only chip reset clears it. -/
  lost : Bool := false
deriving DecidableEq, Repr

/-- A defect span or dropout flagged on a signal, in slot positions; `stop` is absent while it lasts (R165, R166). -/
structure Span where
  start : Nat
  stop : Option Nat
deriving DecidableEq, Repr

/-- What the read channel keeps of one signal besides its registers. -/
structure Sig where
  /-- Wedge reference of the flywheel as an offset from the SA-timed wedge start, samples (R143). -/
  wref : Int := 0
  /-- The next wedge sync is searched in the wide window (R143). -/
  wide : Bool := true
  /-- A wedge sync has been found since transfer was last held (R378). -/
  synced : Bool := false
  /-- The measured delay itself, of which RDC_ALIGN.MEAS shows the range 0 to 1,024 (R140). -/
  meas : Int := 512
  /-- Consecutive inserted sector syncs (R149). -/
  inserted : Nat := 0
  /-- Preamble envelopes of the last 8 found wedge fields, newest first (R164). -/
  envs : List Nat := []
  /-- The flagged spans of the signal, in slot positions (R165, R166). -/
  spans : List Span := []
  /-- Where the flywheel was lost, and where the signal was out of alignment range, in slot positions (R131, R156). -/
  lost : List Span := []
  out : List Span := []
  /-- Updates that wait for 64 samples: due position, changes of the taps, and of the inner and outer coupling coefficients
  (R130, R154). -/
  late : List (Nat × List Int × List Int × List Int) := []
  /-- Phase integrator and phase of the digital PLL, in T/64 (R135). -/
  pllInt : Rat := 0
  pllPhase : Rat := 0
  /-- Phase errors of the last 256 samples, newest first (R135). -/
  errs : List Int := []
deriving DecidableEq, Repr

/-- How a slot stands in its tile (R161, R169). -/
inductive SlotSt where
  | waiting
  | decoding
  | accepted
  | failed
  | erased (reason : Nat)
deriving DecidableEq, Repr

/-- One slot of the tile being read: state, content once its codeword has converged, the decision and distance of its
sector sync (0 accepted, 1 suspect, 2 inserted), the wedge reference that predicted it (R145), its iterations and corrected bits, the verify reason (R215), and the
rung at which it became available. -/
structure Slot where
  st : SlotSt := .waiting
  content : List Byte := []
  sync : Nat := 0
  syncD : Int := 0
  base : Int := 0
  iters : Nat := 0
  corrected : Nat := 0
  reason : Option Nat := none
  rung : Nat := 0
deriving DecidableEq, Repr

/-- A sector row in the sample store (R162): the equalised samples of the ten signals from 64 before the sector's first bit to 64
after its last, and the slot positions that are flagged on each data beam and whose bits are not known on each signal (R156,
R167). -/
structure RowBuf where
  q : Nat
  y : List (List Int)
  flag : List (List (Nat × Nat))
  unk : List (List (Nat × Nat))
deriving DecidableEq, Repr

/-- The tile slot being read or verified (R138, R170, R174, R215). -/
structure TileRead where
  pos : TilePos
  /-- Armed: the read begins at the next wedge boundary (R138). Its slot lies under the pickup; wedge boundaries since it came
  there, the one at its start included. -/
  arm : Bool := false
  reading : Bool := false
  wedges : Nat := 0
  /-- The 64 slots (R102). -/
  slots : List Slot := List.replicate 64 {}
  /-- Rows in the decoder queue, oldest first, and rows holding a row buffer of the sample store (R160, R162). -/
  queue : List Nat := []
  buffers : List Nat := []
  /-- Rows decoded in line only (R163). -/
  lineOnly : List Nat := []
  /-- The completed rows' samples: those in row buffers, and those decoded in line only until they are decoded. -/
  rows : List RowBuf := []
  /-- Rows already completed, and rows that end under the pickup, eight unless the reading stopped (R137, R273). -/
  rowsDone : Nat := 0
  rowsEnd : Nat := 8
  /-- A wedge sync was found, and an envelope reached its limit (R151). -/
  wsyncSeen : Bool := false
  modulated : Bool := false
  /-- What the tile status shows (R179). -/
  suspect : Bool := false
  insertedAny : Bool := false
  flyLost : Bool := false
  reloc : Bool := false
  /-- Attempt within the rung; the rung itself; 0 in line (R174). A re-read of rungs 2 to 4 is under way (R175). -/
  rereading : Bool := false
  rung : Nat := 0
  attempt : Nat := 0
  /-- Data indices a read needs (R174). -/
  needed : List Nat := []
  /-- Written by this channel now and read for its verify (R173). -/
  verify : Bool := false
  decoded : Bool := false
  stopped : Bool := false
  /-- Mean CUR taps of signals 0 to 7 at its end, when no defect span lay in it (R669). -/
  endTaps : Option (List Int) := none
deriving DecidableEq, Repr

/-- A tile in the output buffer (R14): position and its delivered slots (data index and content). -/
structure OutTile where
  pos : TilePos
  blocks : List (Nat × List Byte)
  failed : List Nat
  blank : Bool
  /-- The tile failed its outer decode and its ladder still runs: more may come (R171). -/
  partly : Bool := false
deriving DecidableEq, Repr

/-- The read channel and joint detector of a channel besides their registers. -/
structure Rdc where
  sigs : Vector Sig 10 := Vector.replicate 10 {}
  /-- Writes released from the latch and waiting for the wedge boundary (R124). -/
  pend : List Staged := []
  /-- EQ_RESTART bits waiting for the wedge boundary, by signal (R132). -/
  restart : List (Fin 10) := []
  /-- The tile slot read or written now, or armed (R138). -/
  tile : Option TileRead := none
  /-- The tile read before it, whose rows are complete and whose decodes or ladder still run. -/
  prev : Option TileRead := none
  /-- The output buffer of two tiles, oldest first (R14). -/
  outBuf : List OutTile := []
  /-- Tile slots and data indices commands want read, oldest first (R174). -/
  wanted : List (TilePos × List Nat) := []
  /-- Slot position at which the wedge under the spots began, counted on from the slot read last. -/
  wedgePos : Nat := 0
  /-- A ladder's jump back waits for the end of the slot under the pickup (R175). -/
  jumpDue : Bool := false
deriving DecidableEq, Repr

/-- A block in the relocation buffer (R219): layer and zone, home tile, slot, region and content, data with seal,
number of relocations, from a failed verify (else from R177), and data tile slots written since it came. -/
structure RelocBlk where
  layer : Nat
  zone : Nat
  homeRegion : Nat
  homeTile : Nat
  homeSlot : Nat
  homeContent : Nat
  data : List Byte
  tries : Nat
  fromVerify : Bool
  waited : Nat
deriving DecidableEq, Repr

/-- A tile in a tile buffer of the write channel (R13): position, contents of its 64 slots, wholly buffered. -/
structure WTile where
  pos : TilePos
  slots : List (List Byte)
  /-- CONTENT of each data slot by data index, as the frame header carries it (R100). -/
  kinds : List Nat
  whole : Bool
  /-- The largest |PERR| seen while it was written (R216), and the blocks a spare tile holds, by data index. -/
  perr : Nat := 0
  blocks : List RelocBlk := []
  /-- Slots that read an uncorrectable word of the tile buffer (R603): their verify fails. -/
  bad : List Nat := []
deriving DecidableEq, Repr

/-- A 32-bit frame on the driver control port (R203). -/
structure DrvFrame where
  write : Bool
  addr : Nat
  data : Nat
  /-- Failed attempts so far (R204). -/
  tries : Nat := 0
deriving DecidableEq, Repr

/-- What a judged or abandoned tile write reports to the stripe engine and the map (R196, R216): position, outcome
(0 verified, 1 with relocation, 2 rewrite, 3 abandoned), failed data indices, last sector row written in full. -/
structure TileReport where
  pos : TilePos
  outcome : Nat
  relocated : List Nat
  lastRow : Nat
deriving DecidableEq, Repr

/-- A verify log record (R218). -/
structure VRecord where
  tick : Nat
  discTag : Nat
  pos : TilePos
  maxIter : Nat
  failed : Nat
  outcome : Nat
  failMap : Nat
  entries : List Nat
deriving DecidableEq, Repr

/-- The write channel of a channel besides its registers. -/
structure Wrc where
  /-- The tile buffers (R13), oldest first; the head is the next to write. -/
  bufs : List WTile := []
  /-- The tile slot being written, and its wedges written so far in sector rows (R196). -/
  writing : Option WTile := none
  rowsWritten : Nat := 0
  /-- Lanes carry READ (R195, R197); read laser on; write emitters powered (R206). -/
  lanesRead : Bool := true
  emittersOff : Bool := false
  /-- The STATUS read in flight, the last frame sent, whose answer comes with the next response, and the frames due
  (R203, R204). -/
  frame : Option DrvFrame := none
  prevFrame : Option DrvFrame := none
  due : List DrvFrame := []
  lastFrameTick : Nat := 0
  /-- Levels of the driver's active and inactive bank, 24 each in the order PEAK, BIAS, READ; levels of the inactive
  bank echo-checked (R208, R209). -/
  active : List Nat := List.replicate 24 0
  inactive : List Nat := List.replicate 24 0
  checked : List Bool := List.replicate 24 false
  /-- A swap's status is awaited (R209); the active bank was filled and swapped in since the driver was enabled (R193). -/
  bankOk : Bool := false
  swapCheck : Bool := false
  /-- Last RLEVEL sent (R212). -/
  rlevel : Nat := 0
  /-- Layer and zone whose SHAPE table the driver holds (R207). -/
  shapeOf : Option (Nat × Nat) := none
  /-- ADV changes waiting for the next BANK code (R217). -/
  advPend : List Int := List.replicate 8 0
  /-- Low-count runs of each emitter (R213). -/
  lowRuns : List Nat := List.replicate 8 0
  /-- The largest |PERR| seen in the tile being written (R216). -/
  perrMax : Nat := 0
  /-- Rewrites in a row, and writing stopped by them (R217). -/
  rewrites : Nat := 0
  stopped : Bool := false
  /-- The relocation buffer (R219, R220). -/
  reloc : List RelocBlk := []
  /-- Tiles written and not yet judged, oldest first. -/
  judging : List WTile := []
  /-- Relocations that ended: verified in the spare ring, or handed back (R216, R219). -/
  relocDone : List (RelocBlk × Bool) := []
  /-- Every tile of a mount's end or UNMOUNT writes the waiting blocks (R219). -/
  flushing : Bool := false
  /-- Spare rings of the mounted disc reported full: layer, zone (R221). -/
  fullSpares : List (Nat × Nat) := []
  /-- The verify log, oldest first (R218). -/
  vlog : List VRecord := []
  /-- Records on their way to DRAM, with the byte address of each (R218). -/
  vlogDue : List (Nat × VRecord) := []
  /-- The lanes have sent BANK since the last tick boundary (R208). -/
  bankSent : Bool := false
  /-- Reports waiting for the stripe engine. -/
  reports : List TileReport := []
  /-- An abort waits for its tick boundary: cause (R195). -/
  abortPend : Option Nat := none
  /-- The abandon report of R222 waits for the tick boundary. -/
  abandonPend : Bool := false
  /-- Relocations not yet in a SPARE_LIST record (R221), as its 8-byte entries (R115). -/
  spareList : List Nat := []
deriving DecidableEq, Repr

/-- What a servo loop keeps besides its registers (R239, R265, R267, R271, R272). -/
structure LoopHid where
  bq : List SecState := [{}, {}, {}, {}, {}, {}]
  nt : List SecState := [{}, {}, {}, {}]
  /-- The error of the last run. -/
  err : Int := 0
  /-- STATE before a hold, and whether a hold command (rather than the monitor or a recovery) holds the loop. -/
  heldFrom : Nat := 0
  heldByCmd : Bool := false
  /-- A close has taken effect and the closing run is still to come (R265). -/
  closing : Bool := false
  /-- Consecutive runs inside the lock window (R267) and beyond the loss limit (R272). -/
  lockRuns : Nat := 0
  lossRuns : Nat := 0
  /-- The move of the open value, and the value held instead of OPENVAL (R244, R269). -/
  openRun : Option Run := none
  openHeld : Option Rat := none
  /-- The step that made the move holds its end (R269 step 4, R274); otherwise OPENVAL follows the move (R244). -/
  openKeep : Bool := false
  /-- Feed-forward and injected error of the next run (R238, R278). -/
  ff : Int := 0
  injE : Int := 0
deriving DecidableEq, Repr

/-- The running step of ACQUIRE, of a layer jump or of a recovery (R268, R269, R274–R276). -/
inductive SrvStep where
  | idle
  | sweep (recovery : Bool) | focusClose | trackWait | trackClose | addrWait
  | jumpOpen | jumpCorr | jumpProfile | jumpCapture
  | recOpen | recMove | slipWait | slipSeek | settled
deriving DecidableEq, Repr

/-- A valid SA address (R85). -/
structure SaAddr where
  track : Nat
  wedge : Nat
  layer : Nat
deriving DecidableEq, Repr

/-- The servo engine of a channel besides its registers. -/
structure Srv where
  /-- Derived signals of the tick (R231). -/
  s : Int := 0
  fe : Int := 0
  te : Int := 0
  ske : Int := 0
  se : Int := 0
  tl : Int := 0
  /-- Normaliser gain, Q3.13 (R231). -/
  g : Int := 8192
  /-- Present /16 period, sum of S and number of INPUT runs in it, and the same of the period before (R231). -/
  period : Nat := 0
  accS : Int := 0
  accN : Nat := 0
  prevS : Int := 0
  prevN : Nat := 0
  /-- Values of TL, SKE, SE (15 each) and of the TRK output (63) in the ticks before, newest first (R253). -/
  histTl : List Int := []
  histSke : List Int := []
  histSe : List Int := []
  histTrk : List Int := []
  /-- The seven loops (R238). -/
  loops : Vector LoopHid 7 := Vector.replicate 7 {}
  /-- Outputs computed in this tick and those now at the DACs: FOC, TRK, TLT, SKW (R21, R232). -/
  out : List Int := [0, 0, 0, 0]
  dac : List Int := [0, 0, 0, 0]
  /-- Torque reference for the spindle controller, corrector target offset and sled command code (R232, R255). -/
  torque : Int := 0
  sacY : Int := 0
  sledY : Int := 0
  /-- Routines cut in their slots and not yet reported: slot numbers (R250). -/
  cuts : List Nat := []
  /-- Monitor counts: ticks of the running hold, ticks S has stood at the threshold, ticks each sum was low, and
  ticks both sums stood normal (R271, R272, R276). -/
  holdTicks : Nat := 0
  holding : Bool := false
  goodTicks : Nat := 0
  saLow : Nat := 0
  sbLow : Nat := 0
  bothOk : Nat := 0
  /-- The step of the running sequence and the tick it began, sweeps made, wedges waited (R268). -/
  step : SrvStep := .idle
  stepTick : Nat := 0
  sweeps : Nat := 0
  wedges : Nat := 0
  /-- Sweep direction and position of the focus search (R268, R274). -/
  sweepPos : Rat := 0
  sweepLeg : Nat := 0
  /-- Sign of the last non-zero FE and TE, and whether each crossed zero in this tick; tick of the last TE crossing and
  the time between the last two crossings (R268). -/
  feSign : Int := 0
  teSign : Int := 0
  feCross : Bool := false
  teCross : Bool := false
  teCrossTick : Nat := 0
  teGap : Nat := 0
  /-- An excursion of TE beyond the limit since the last crossing, the count C and the move's direction (R270). -/
  excursion : Bool := false
  count : Int := 0
  /-- Layer from and to of the running jump, and whether ACQUIRE or a recovery asked for it (R269). -/
  jumpTo : Option Nat := none
  jumpFrom : Nat := 0
  /-- The tick the present recovery attempt, and the recovery as a whole, began (R277). -/
  recTick : Nat := 0
  /-- One-beam mode: the SA beam or the SB beam is lost (R276). -/
  oneBeam : Option Bool := none
  oneBeamTick : Nat := 0
  /-- Expected servo track and layer (R272). -/
  expTrack : Nat := 0
  expLayer : Nat := 0
  /-- An arming check failed, or a valid address named an unexpected layer or track (R272). -/
  slipSeen : Bool := false
  /-- ACQUIRE has failed (R268); the last recovery attempt has failed (R277): the mode sequencer answers both. -/
  acqFailed : Bool := false
  recFailed : Bool := false
  /-- The wobble PLL: locked, frequency in 1/16 Hz, the last valid address and whether the last one was valid,
  consecutive invalid addresses, wedges of holdover left (R134, R137). -/
  pllLocked : Bool := false
  pllFreq : Nat := 0
  /-- The wedge number that follows the last one, counted through invalid addresses, and whether a valid address since the
  start or the last read stop fixes it (R134). -/
  wedgeNext : Nat := 0
  wedgeKnown : Bool := false
  /-- Whether the last address unit of SB agreed with SA's, where the two can be compared (R86). -/
  sbAgrees : Option Bool := none
  /-- The last address, whether it was valid, consecutive invalid ones, wedges of holdover left (R134, R137). -/
  addr : Option SaAddr := none
  addrValid : Bool := false
  invalidRun : Nat := 0
  holdover : Option Nat := none
deriving DecidableEq, Repr

/-- A queued move of an axis (R300). -/
structure Move where
  target : Int
  set : Nat
  noblend : Bool
  /-- The move of a long seek, whose velocity limit R312 lowers. -/
  seek : Bool := false
  /-- The current level of the move, fixed when it is taken (R298). -/
  cur : Nat := 0
deriving DecidableEq, Repr

/-- A stepper axis besides its registers (R291–R310). -/
structure Axis where
  /-- Position in units of 2⁻⁴⁰ microstep (R295). -/
  p : Int := 0
  vel : Rat := 0
  acc : Rat := 0
  /-- Phase offset φ (R291). -/
  phi : Int := 0
  /-- The moves that wait (R300). -/
  queue : List Move := []
  /-- Moves in motion, the head first, each with its flags (R302). -/
  runs : List (Run × Move) := []
  /-- A MODE written while moving (R289), and a stop without jerk limit in progress (R303). -/
  modePend : Option Nat := none
  aborting : Bool := false
  /-- Tick at which the velocity last became 0 and whether the current is at IHOLD (R293). -/
  restTick : Nat := 0
  holdCur : Bool := true
  /-- Homing: microsteps travelled in the phase from this position, and the release point of phase 2 (R307). -/
  phaseP0 : Int := 0
  releaseP : Option Int := none
  /-- Filtered home input: candidate level, equal samples, microstep driven at the first of them (R308). -/
  homeCand : Bool := false
  homeRun : Nat := 0
  homeAt : Int := 0
  /-- The input of the running homing phase has come and the axis stops (R307). -/
  homeStop : Bool := false
  /-- The limit that AT_LIMIT shows: +1 MAX_POS, −1 MIN_POS (R306). -/
  limitDir : Int := 0
  /-- Microstep whose DAC codes were driven in this tick. -/
  driven : Int := 0
  dacA : Int := 0
  dacB : Int := 0
deriving DecidableEq, Repr

/-- The motion generator of a channel besides its registers. -/
structure Mot where
  axes : Vector Axis 2 := Vector.replicate 2 {}
  /-- The fine-seek profile in fine units and the focus jump profile in DAC codes (R299). -/
  fine : Option Run := none
  /-- Fine-seek position that PROFILE last read (R299). -/
  finePos : Rat := 0
  /-- The seek: its move in bands, TRACK waiting for its end, tick at which the profile ended (R311–R315). -/
  seekDelta : Int := 0
  seekP0 : Int := 0
  seekTarget : Int := 0
  profEnd : Option Nat := none
  /-- TRACK has returned to following (R313). -/
  returned : Bool := false
  /-- Corrector target set by a layer jump (R269). -/
  jumpTarget : Option Int := none
  /-- A seek of so many bands that waits until the cores resume (R40, R311). -/
  seekWait : Option Int := none
deriving DecidableEq, Repr

/-- An accepted back-EMF crossing: its time in servo-clock cycles since reset and the angle it marks in units of 60°
(R338). -/
structure Crossing where
  time : Nat
  angle : Nat
deriving DecidableEq, Repr

/-- What a spindle does once zero-vector braking has brought it to rest (R352, R353, R357). -/
inductive AfterBrake where
  | idle | restart | halt
deriving DecidableEq, Repr

/-- What the bridge does in one tick (R321, R323, R346): all-off, a vector 0 to 7 with the cycles of its active part, or
the pattern of a six-step step with the cycles its H leg is high. -/
structure Pattern where
  off : Bool := true
  six : Bool := false
  vec : Nat := 0
  ta : Nat := 0
deriving DecidableEq, Repr

/-- The spindle controller of a channel besides its registers. -/
structure Spn where
  /-- The observer (R330, R331): flux in 2⁻¹⁶ nWb, current in µA, speed and angle in 2⁻³² turn, torque in nN·m. -/
  psisX : Int := 0
  psisY : Int := 0
  psirX : Int := 0
  psirY : Int := 0
  iX : Int := 0
  iY : Int := 0
  omega : Int := 0
  theta : Nat := 0
  torque : Int := 0
  /-- Comparator outputs and the torque reference (R333, R334). -/
  dpsi : Int := 1
  dT : Int := 0
  tref : Int := 0
  /-- The pattern of the tick before, as applied, of the present tick, and of the next (R323, R327). -/
  past : Pattern := {}
  pat : Pattern := {}
  /-- The pattern applied two ticks before, which dead time can reach back to (R322). -/
  past2 : Pattern := {}
  next : Pattern := {}
  /-- Planned widths of the last vectors selected, newest first (R329). -/
  widths : List Nat := []
  /-- Cycle at which the current limit ended the present tick's vector; consecutive such ticks (R327, R351). -/
  cut : Option Nat := none
  ilimRun : Nat := 0
  /-- Accepted crossings, newest first, at most seven (R339); crossings of the running collection (R340, R351); tick of
  the last accepted crossing. -/
  cross : List Crossing := []
  collect : List Crossing := []
  lastCross : Nat := 0
  /-- Tick at which the present state began (R340–R343). -/
  stateTick : Nat := 0
  /-- Net travel since the seed (R342); magnitudes of the probe's samples, µA, in probe order (R341). -/
  travel : Int := 0
  probe : List Nat := []
  /-- Catch: detection tick, collecting (step 3), SPIN_CATCH has become lasting (R353), a start continues (R359). -/
  catchTick : Nat := 0
  collecting : Bool := false
  lasting : Bool := false
  contStart : Bool := false
  /-- A command held while PWRFAIL_N is low or the bus is stopped (R325, R364): 1 start, 2 brake. -/
  held : Option Nat := none
  /-- State before a bus stop (R359). -/
  before : Nat := 0
  /-- What follows standstill. -/
  afterBrake : AfterBrake := .idle
  /-- Six-step (R345–R349): twice P, the sum of the last two crossing intervals in cycles, boundary tick of the due commutation, tick of the last one,
  time of the last crossing, leaving asked for by a brake command, last current of the conducting pair, µA. -/
  sixP2 : Nat := 0
  commDue : Option Nat := none
  commTick : Nat := 0
  sixCross : Option Nat := none
  brakePend : Bool := false
  pairI : Int := 0
  /-- SHORT: V0 is applied, ticks below STILL_RPM (R356, R357). -/
  v0 : Bool := false
  still : Nat := 0
  /-- The comparators are in RAW (R337). -/
  raw : Bool := true
deriving DecidableEq, Repr

/-- A motor supply bus besides its registers (R358–R363). -/
structure Bus where
  /-- Samples since BRK turned on and the sample at turn-on, mV (R360). -/
  onSamples : Nat := 0
  onVm : Nat := 0
  /-- VM did not fall by 0.2 V within 20 samples of the turn-on (R360). -/
  noFall : Bool := false
  /-- Consecutive samples at or below 13.8 V, below UV_MV, and at or above UV_MV + 500 (R358, R359, R363). -/
  lowRun : Nat := 0
  uvRun : Nat := 0
  okRun : Nat := 0
deriving DecidableEq, Repr

/-- A metadata record due on a disc (R117, R118, R748): type, sequence number when numbered, payload. -/
structure MetaRec where
  rtype : Nat
  seq : Nat
  payload : List Byte
deriving DecidableEq, Repr

/-- A running mount: its command's context, and whether it named a blank disc (R381). -/
structure Mount where
  ctx : Nat
  blank : Bool := false
deriving DecidableEq, Repr

/-- A metadata tile on its way to a disc: position and the data of its blocks by data index (R116, R748). -/
structure MetaTile where
  pos : TilePos
  blocks : List (List Byte)
deriving DecidableEq, Repr

/-- The mode sequencer of a channel besides its registers, and what the part keeps of the mounted disc. -/
structure Dcm where
  /-- Tick of entry into the mode, and of the first tick of a running spindle in SPIN_UP (R378 cause 3). -/
  modeTick : Nat := 0
  runTick : Option Nat := none
  /-- ACQUIRE attempts made (R375). -/
  acqTries : Nat := 0
  /-- ACQUIRE has been repeated for cause 6 or 7 since the mode was last reached (R378). -/
  retried : Bool := false
  /-- A fall-back or stop is under way: its cause, and the destination is OFF (R378). -/
  falling : Option (Nat × Bool) := none
  /-- Fall-backs and stops so far (R493). -/
  falls : Nat := 0
  /-- Cause of the stop that set STOPPED, with its fault class and instance when it has one (R379). -/
  stopClass : Option (Nat × Nat) := none
  stopCause : Nat := 0
  /-- Tick at which the bus stopped (R378 cause 11). -/
  busTick : Option Nat := none
  /-- Band under the spots, in recording order, and the wedge under them. -/
  band : Nat := 0
  wedge : Nat := 0
  /-- The effective profile waiting for the end of the tile slot (R387), and the profile in use for the speeds. -/
  profPend : Bool := false
  /-- The spindle speed now demanded, rpm (R254, R375). -/
  rpmSet : Nat := 0
  /-- Tiles waiting at rung 4 (R388). -/
  atRung4 : Nat := 0
  /-- MODE_REQ at the last transition; the restart after PWRFAIL_N is awaited (R380). -/
  powerWait : Bool := false
  /-- The channel must pass through SEEK: a change of profile (R375, R387). -/
  seekNeeded : Bool := false
  /-- ACQUIRE waits until the open values of FOCUS and TRACK have run to 0 (R375). -/
  acqWait : Bool := false
  /-- Layer and zone at which the equalisers were last restarted; none since the spin-up (R133). -/
  eqLZ : Option (Nat × Nat) := none
  /-- SPN_TRIM and CAL_MON writes waiting for IDLE_TRACK or PARKED (R369, R655). -/
  trimPend : List Staged := []
  /-- Lock losses, catches and bus stops since the running ageing measurement began (R664). -/
  calHits : Nat := 0
  /-- Tick at which a command last needed the channel (R678). -/
  usedTick : Nat := 0
  /-- Mean CUR taps at the end of the last tile read in line without a defect span, by layer and zone, since the mount
  (R669). -/
  taps : List (Nat × List Int) := []
  mount : Option Mount := none
  /-- Next blank tile slot of each region: (region, layer, zone) and number (R382); absent 0. -/
  alloc : List ((Nat × Nat × Nat) × Nat) := []
  /-- Relocations of the mounted disc, as entries of R115. -/
  spares : List Nat := []
  /-- Next record sequence number of the disc (R119). -/
  metaSeq : Nat := 1
  /-- Records held because the disc cannot be written (R750). -/
  heldRecs : List MetaRec := []
  /-- Metadata tiles waiting for a write buffer, and those handed to the write channel and not yet judged (R748). -/
  metaWait : List MetaTile := []
  metaOut : List MetaTile := []
  /-- The MAP_CHECKPOINT being written: its JSEQ and extents (R524). -/
  ckPend : Option (Nat × List Nat) := none
  /-- Step of a running UNMOUNT (R383): 0 none, 1 the slot in progress, 2 the records, 3 BRAKE; writing was not possible. -/
  unmountStep : Nat := 0
  unmountDark : Bool := false
  /-- INIT_TOD and the writer of the mounted disc's identity (R120). -/
  initTod : Nat := 0
  discWriter : Nat := 0
deriving DecidableEq, Repr

/-- A drive channel besides its registers. -/
structure Chan where
  /-- The staged-register latch, in order of arrival (R18). -/
  stage : List Staged := []
  /-- The units of the channel. -/
  rdc : Rdc := {}
  wrc : Wrc := {}
  srv : Srv := {}
  mot : Mot := {}
  spn : Spn := {}
  dcm : Dcm := {}
deriving DecidableEq, Repr

/-- The pins the sequencers watch: PWRFAIL_N (R222), its confirmation, and the tick since which it has been high. -/
structure Power where
  pwrfailLow : Bool := false
  confirmed : Bool := false
  /-- The boundary actions of R22 are still to come. -/
  boundaryDue : Bool := false
  highSince : Nat := 0
  /-- The restart of R380 is awaited after a rise. -/
  restartDue : Bool := false
deriving DecidableEq, Repr

/-- What the configuration space of a function shows besides its control fields (R394, R395, R397, R398, R401, R404, R405,
R411): vendor, device, class code, revision, subsystem word, D3hot; link limits in codes of HLK_PORT; TotalVFs, InitialVFs,
First VF Offset and VF Stride of a physical function; No_Soft_Reset, MSI-X Table Size, Interrupt Pin, the sizes of BAR0 and
BAR2, and Transactions Pending. -/
structure CfgView where
  vendor : Nat := 0x1F5D
  device : Nat
  cls : Nat := 0x018000
  rev : Nat
  subsys : Nat
  d3 : Bool
  maxSpeed : Nat := 5
  maxWidth : Nat := 4
  totalVfs : Nat := 0
  initialVfs : Nat := 0
  vfOffset : Nat := 0
  vfStride : Nat := 0
  noSoftReset : Bool := false
  msixSize : Nat := 63
  intPin : Nat := 0
  bar0 : Nat
  bar2 : Nat := 16384
  pending : Bool
deriving DecidableEq, Repr

/-- What the part sends: on a port, on the sideband or at the boundary-scan port. -/
inductive Msg where
  /-- Request Retry Status to a configuration request (R396). -/
  | retryStatus (p : Two)
  /-- The configuration space of a function (R394, R398). -/
  | identity (f : Nat) (v : CfgView)
  /-- A configuration write done, or refused (R399). -/
  | cfgDone (f : Nat) (refused : Bool)
  /-- A read completed with these bytes. -/
  | complete (f : Nat) (bytes : List Byte)
  /-- Unsupported Request (R402, R415). -/
  | unsupported (p : Two)
  /-- A write into host memory, with Relaxed Ordering or not (R407). -/
  | write (f addr : Nat) (bytes : List Byte) (relaxed : Bool)
  /-- A read of host memory (R408). -/
  | read (f addr len : Nat)
  /-- An MSI-X message: address and data of the vector (R405). -/
  | msix (f addr data : Nat)
  /-- An error message of a function: 0 correctable, 1 non-fatal, 2 fatal (R414). -/
  | error (f severity : Nat)
  /-- Registers read through the sideband (R715). -/
  | sideband (words : List W32)
  /-- A data register shifted out at the boundary-scan port (R745, R746). -/
  | jtag (bits value : Nat)
deriving DecidableEq, Repr

/-- An MSI-X table entry (R401, R404). -/
structure Vect where
  addr : Nat := 0
  data : Nat := 0
  masked : Bool := true
deriving DecidableEq, Repr

/-- The configuration and MSI-X state of a host function (R394–R413), its violation window and its event queue
(R419, R456). -/
structure HFn where
  d3hot : Bool := false
  mps : Nat := 128
  mrrs : Nat := 512
  relaxed : Bool := false
  ctoValue : Nat := 0
  ctoOff : Bool := false
  msixEn : Bool := false
  msixMask : Bool := false
  vects : List (Nat × Vect) := []
  pba : List Nat := []
  /-- Tick of the last VIOLATION event formed, and violations suppressed since (R419). -/
  lastEvent : Option Nat := none
  supp : Nat := 0
  /-- SEQ and PHASE of the event queue (R456). -/
  evSeq : Nat := 1
  evPhase : Bool := true
  /-- Errors reported and their headers (R414). -/
  aer : List AerErr := []
  aerHdr : List Nat := []
deriving DecidableEq, Repr

/-- A read request of the part that has no completion yet (R408, R409): function, command context, address, length, and the
tick in which it was sent. -/
structure Req where
  fn : Nat
  ctx : Nat
  addr : Nat
  len : Nat
  sent : Nat := 0
deriving DecidableEq, Repr

/-- A port besides its registers: the read requests outstanding, those that wait for room, requests whose completion
would now be unexpected, and the subsystem word its configuration space took (R422). -/
structure Port where
  reqs : List Req := []
  queue : List Req := []
  late : List Req := []
  subsys : W32 := 0
  /-- Link training has begun (R396), and the tick of the later of chip reset release and PERST_N release. -/
  training : Bool := false
deriving DecidableEq, Repr

/-- A record due in a ring that is draining: entry index, pass parity, bytes transferred, HOST_TAG (R453). -/
structure DrainRec where
  index : Nat
  phase : Bool
  count : Nat
  tag : Nat
deriving DecidableEq, Repr

/-- A ring besides its control page: its credit, whether its present stay at a busy entry was counted (R437), the
drops due as records, and staging doorbells recorded during a firmware activation with what the reads of their entries
find (R503). -/
structure RingX where
  credit : Nat := 0
  waiting : Bool := false
  /-- The ring has waited in the present walk: it takes part again from the next (R437). -/
  skip : Bool := false
  /-- Dropped commands whose final records a drain will write (R453). -/
  drops : List DrainRec := []
  /-- Doorbell values that an activation holds back, each with the entry of a staging doorbell (R503). -/
  stagedLater : List (Nat × FetchEnd) := []
deriving DecidableEq, Repr

/-- An I/O grant in progress: ring and entries left (R439, R441); whether its stop for want of a context was counted. -/
structure Grant where
  ring : Nat
  left : Nat
  stalled : Bool := false
deriving DecidableEq, Repr

/-- How a piece of a write stands (R495, R496). -/
inductive PieceSt where
  | waiting | placed | ready | programming | committed | failed (status detail : Nat)
deriving DecidableEq, Repr

/-- A piece of a write: first block, blocks, state, and blocks not yet in a completed stripe. -/
structure Piece where
  lba : Nat
  n : Nat
  st : PieceSt := .waiting
  left : Nat
deriving DecidableEq, Repr

/-- A command context: the command from its fetch to its final record (R441). -/
structure Ctx where
  /-- Its place in fetch order (R483). -/
  id : Nat
  /-- Its ring, function, index and PHASE there, its entry and its segments (R432, R441). -/
  ring : Nat
  fn : Nat
  index : Nat
  phase : Bool
  entry : List Byte
  segs : List (Nat × Nat) := []
  /-- Stage of the last record written (R443). -/
  stage : Nat := 0
  /-- Blocks reserved in the stripe buffer (R448), once reserved. -/
  reserved : Option Nat := none
  /-- Tick of the XFER_READY record whose grant is pending (R450). -/
  granted : Option Nat := none
  /-- Its data are being received (R450). -/
  receiving : Bool := false
  /-- Blocks received from the host, 4,112 bytes each, in LBA order, and those handed to stripes. -/
  blocks : List (List Byte) := []
  placed : Bool := false
  /-- The pieces of a write (R495). -/
  pieces : List Piece := []
  /-- Blocks a read has obtained: index in the command, bytes with seal. -/
  got : List (Nat × List Byte) := []
  /-- Blocks a read failed to obtain: index, status, and the absent disc (0x20) or the DETAIL (0x16, 0x26, 0x30). -/
  lost : List (Nat × Nat × Nat) := []
  /-- Blocks that go through rung 5 (R493, R558, R561, R572). -/
  rung5 : List Nat := []
  /-- Fall-backs and stops of each channel when it was fetched or left the Siding (R493). -/
  falls : List Nat := []
  /-- The start of the member reads of a read (R561). -/
  since : Option Nat := none
  /-- Tick at which the command was parked in the Siding (R493). -/
  parked : Option Nat := none
  /-- An admin command past its commit point (R498). -/
  begun : Bool := false
  /-- No record is written for it any more (R411, R499). -/
  silent : Bool := false
  /-- The final record the command will receive: status, detail. -/
  result : Option (Nat × Nat) := none
deriving DecidableEq, Repr

/-- A firmware activation in progress (R502): its context, image, the tick at which fetching stopped, and whether the
settling of step 4 is done. -/
structure Activation where
  ctx : Nat
  image : Nat
  since : Nat
  settled : Bool := false
  /-- The image that ran before (R643). -/
  old : Nat := 0
deriving DecidableEq, Repr

/-- The ring engine and the command processor besides their registers. -/
structure Hqe where
  fns : Vector HFn 64 := Vector.replicate 64 {}
  ports : Vector Port 2 := Vector.replicate 2 {}
  rings : List (Nat × RingX) := []
  ctxs : List Ctx := []
  nextId : Nat := 0
  /-- Admin ring granted its one entry (R438); I/O grant in progress; function last served; position of the walk and
  whether a round runs (R439). -/
  admin : Option Nat := none
  grant : Option Grant := none
  lastAdmin : Nat := 63
  walk : Nat := 0
  inRound : Bool := false
  /-- The activation in progress (R504). -/
  act : Option Activation := none
  /-- What the part has sent, oldest first. -/
  sent : List Msg := []
deriving DecidableEq, Repr


/-- A namespace (R505). -/
structure Ns where
  nsid : Nat
  size : Nat
  layout : Nat
  siding : Nat
  owners : Nat
  extBase : Nat
  createSeq : Nat
  coalesce : Nat := 100
  sidingTmo : Nat := 0
  /-- The import is open, and the import table: JSEQ by extent (R529). -/
  importOpen : Bool := false
  imported : Bool := false
  table : List (Nat × Nat) := []
  /-- Discs known to hold a checkpoint item of it (R508). -/
  marks : List Nat := []
  /-- NS_DELETE has been fetched for it (R487), by context. -/
  deleting : Option Nat := none
deriving DecidableEq, Repr

/-- An extent map entry (R510); an unlisted extent is UNMAPPED. -/
inductive Ext where
  | linear (disc layer zone band tile start fill : Nat)
  | patched (disc page : Nat)
  | absent (disc : Nat)
deriving DecidableEq, Repr

/-- A patch entry that is on disc (R513). -/
structure Patch where
  idx : Nat
  layer : Nat
  zone : Nat
  tile : Nat
  data : Nat
deriving DecidableEq, Repr

/-- A change of the map (R520). -/
inductive Change where
  | extentSet (e : Nat) (x : Option Ext)
  | patchSet (e n : Nat) (p : Patch) (disc : Nat)
  | nsCreate (base nsid layout siding size owners : Nat)
  | nsDelete (nsid : Nat)
  | checkpointed (jseq disc : Nat)
  | featureSet (nsid feature value : Nat)
  | discEntry (index disc : Nat)
  | nsImport (nsid : Nat) (isOpen : Bool) (srcCseq : Nat)
  | resume (seq : Nat)
deriving DecidableEq, Repr

/-- A journal record in flash (R519): sequence number, tick, changes, LAST, sector 0 to 95 of the region, readable. -/
structure JRec where
  seq : Nat
  tick : Nat
  changes : List Change
  last : Bool
  sector : Nat
  ok : Bool := true
deriving DecidableEq, Repr

/-- The map base in flash (R522): namespaces, disc table, home runs (extent and home disc), waiting tombstones and the
SEQ of the last record its content reflects. -/
structure MapBase where
  ns : List Ns := []
  discs : List (Nat × Nat) := []
  homes : List (Nat × Nat) := []
  tombs : List (Nat × Nat × Nat × Nat) := []
  seq : Nat := 0
deriving DecidableEq, Repr

/-- Where a block lies: disc, layer, zone, tile slot of the data region, data index. -/
structure Place where
  disc : Nat
  layer : Nat
  zone : Nat
  tile : Nat
  data : Nat
deriving DecidableEq, Repr

/-- A block in a completed stripe, on its way to the map: namespace, LBA, its piece (context and first block; none for a
rewrite), where it lies, and the place a rewrite replaces (R518, R562). -/
structure PBlk where
  nsid : Nat
  lba : Nat
  piece : Option (Nat × Nat) := none
  place : Place
  old : Option Place := none
deriving DecidableEq, Repr

/-- A commit group (R518): the blocks it maps, its changes (formed when it is staged, or given for a one-change group),
and the command it answers with SUCCESS and a DETAIL. -/
structure Group where
  blocks : List PBlk := []
  changes : List Change := []
  answer : Option (Nat × Nat) := none
deriving DecidableEq, Repr

/-- A checkpoint item read from a disc (R525): extent, its entry, its page with disc IDs, JSEQ of its record. -/
structure CkItem where
  nsid : Nat
  ext : Nat
  createSeq : Nat
  entry : Option Ext
  page : List (Nat × Patch × Nat) := []
  jseq : Nat
deriving DecidableEq, Repr

/-- The map manager besides its registers (R505–R529). `dirty` holds each change to an extent that is not yet in a
checkpoint, as extent and SEQ; `tombs` the tombstones that wait: disc, NSID, CREATE_SEQ, time of day. -/
structure MapM where
  ns : List Ns := []
  exts : List (Nat × Ext) := []
  pages : List (Nat × List (Nat × Patch)) := []
  discs : List (Nat × Nat) := []
  jrnl : List JRec := []
  nextSeq : Nat := 1
  base : MapBase := {}
  dirty : List (Nat × Nat) := []
  /-- Changes held for ABSENT extents (R521), oldest first, with their SEQ. -/
  held : List (Nat × Change) := []
  tombs : List (Nat × Nat × Nat × Nat) := []
  /-- Groups ready, oldest first, and the group being programmed. -/
  ready : List Group := []
  busy : Option Group := none
  /-- The RESUME group of this start is programmed (R521); SEQ of the last record applied. -/
  resumed : Bool := false
  applied : Nat := 0
deriving DecidableEq, Repr

/-- A line of the map cache (R530): DRAM line number, way, dirty, age (0 the most recent), filled by a prefetch and not
yet hit. -/
structure CLine where
  line : Nat
  way : Nat
  dirty : Bool := false
  age : Nat := 0
  pf : Bool := false
deriving DecidableEq, Repr

/-- A request of the map cache that waits: stream, line, write. -/
structure CReq where
  stream : Stream
  line : Nat
  write : Bool
deriving DecidableEq, Repr

/-- A stride tracker (R536): stream, last lines requested newest first, and lines ahead already prefetched. -/
structure Tracker where
  stream : Stream
  lines : List Nat := []
  ahead : List Nat := []
deriving DecidableEq, Repr

/-- The map cache besides its registers. -/
structure Mca where
  lines : List CLine := []
  /-- The data of the fill have come and wait for the eviction buffer (R533). -/
  filled : Bool := false
  /-- The line fill outstanding, whether it is a prefetch, and the requests that joined it. -/
  fill : Option (Nat × Bool × List CReq) := none
  /-- Requests that wait, and lines to be prefetched (R531, R536). -/
  waiting : List CReq := []
  prefetch : List Nat := []
  /-- The eviction buffer, and writes that wait for it (R533). -/
  evict : Option Nat := none
  evictWrites : List CReq := []
  /-- Streams followed for the prefetch (R536). -/
  trackers : List Tracker := []
  /-- Ways with a PRELOAD completed since last unlocked (R535); way and tick of each correction counted (R537). -/
  loaded : List Nat := []
  ecc : List (Nat × Nat) := []
deriving DecidableEq, Repr


/-- A block on its way to disc: namespace, LBA, its 4,112 bytes, the context and first block of its piece (none for a
rewrite), and the place a rewrite replaces (R562). -/
structure SBlk where
  nsid : Nat
  lba : Nat
  bytes : List Byte
  piece : Option (Nat × Nat) := none
  old : Option Place := none
deriving DecidableEq, Repr

/-- A stripe set (R543–R547): state 0 OPEN, 1 FULL, 2 REBUILDING; `owned` when its ID carries this part's writer. -/
structure SSet where
  id : Nat
  layout : Nat
  members : List Nat
  state : Nat := 0
  current : Bool := false
  replaced : Nat := 0
  /-- Members whose FULL record is still to be written (R547). -/
  fullDue : List Nat := []
deriving DecidableEq, Repr

/-- The open stripe of a set (R552): blocks waiting per data member, tick of the first, and whether it must close. -/
structure OpenStripe where
  set : Nat
  queues : List (List SBlk)
  first : Option Nat := none
  /-- Namespace of the first block, whose COALESCE applies (R476). -/
  firstNs : Nat := 0
  closeNow : Bool := false
deriving DecidableEq, Repr

/-- A closed stripe (R553–R556): WSEQ of its OPEN record, set, position, the blocks of each member's tile by data
index, members whose tile was verified, members missing, members whose tile failed, times placed again. -/
structure Stripe where
  wseq : Nat
  set : Nat
  layer : Nat
  zone : Nat
  tile : Nat
  tiles : List (List (Nat × SBlk))
  parity : List (List (List Byte)) := []
  verified : List Nat := []
  missing : List Nat := []
  failed : List Nat := []
  /-- Members whose tile has been handed to their write channel. -/
  handed : List Nat := []
  /-- Relocations of a verified tile that are still awaited (R216): member, data index. -/
  awaits : List (Nat × Nat) := []
  /-- Times it was placed again (R549). -/
  tries : Nat := 0
deriving DecidableEq, Repr

/-- A Welt record (R563); `readable` when its RCRC checks. -/
structure Welt where
  wseq : Nat
  kind : Nat
  layout : Nat
  missing : Nat := 0
  set : Nat
  layer : Nat
  zone : Nat
  tile : Nat
  link : Nat
  repl : Nat := 0
  rstate : Nat := 0
  sector : Nat := 0
  readable : Bool := true
deriving DecidableEq, Repr

/-- A lost-stripe list entry (R575). -/
structure LostE where
  set : Nat
  layer : Nat
  zone : Nat
  tile : Nat
  members : Nat
  cause : Nat
  slots : Nat
  tick : Nat
deriving DecidableEq, Repr

/-- A running rebuild (R570–R577): set, member index, channel, failed disc, replacement, entries added, positions
handled since the last record, the frontier as the number of its position, and whether the tile there has been
handed to the write channel. -/
structure Rebuild where
  set : Nat
  member : Nat
  chan : Nat
  failed : Nat
  repl : Nat
  added : Nat := 0
  since : Nat := 0
  pos : Nat := 0
  out : Bool := false
  /-- The changes of the last map group, once it is formed (R577). -/
  group : Option (List Change) := none
deriving DecidableEq, Repr

/-- The stripe engine besides its registers (R542–R582). -/
structure Str where
  sets : List SSet := []
  opens : List OpenStripe := []
  closed : List Stripe := []
  /-- Bindings: set, extent, data member (R552). -/
  binds : List (Nat × Nat × Nat) := []
  welt : List Welt := []
  nextW : Nat := 1
  /-- Counts in flash behind disc and set IDs (R122, R544). -/
  discCount : Nat := 0
  setCount : Nat := 0
  /-- Exception table (R569): DONE records with MISSING set and ABANDONED records, in the order they were entered. -/
  exc : List Welt := []
  /-- Copies of unresolved Welt records found on mounted discs: disc and copy (R568). -/
  votes : List (Nat × Welt) := []
  /-- The lost-stripe list (R575). -/
  lost : List LostE := []
  /-- Blocks that wait to be written anew (R562). -/
  rewrite : List SBlk := []
  /-- The rebuild in progress (R570). -/
  rebuild : Option Rebuild := none
  /-- Welt copies waiting: disc and record (R566). -/
  copies : List (Nat × Welt) := []
  /-- Blocks in completed stripes whose piece is not yet complete (R518). -/
  done : List PBlk := []
deriving DecidableEq, Repr


/-- The on-chip memories of one array besides its registers (R603–R606). -/
structure Arr where
  used : Nat := 0
  corr : Nat := 0
deriving DecidableEq, Repr

/-- A request to the DRAM controller: a read or a read-modify-write of a requester, a read of the scrubber, or a test command
(R35, R589, R594, R596, R607); with the bits that arrive wrong. -/
inductive DramReq where
  | read (u : DramUser) (line : Nat) (err : List (Nat × Byte))
  | rmw (u : DramUser) (line : Nat) (new : List (Nat × Byte)) (err : List (Nat × Byte))
  | scrub (line : Nat) (err : List (Nat × Byte))
  | test (line cmd : Nat)
  /-- Bytes that a drive channel writes into a line, from byte `off` of it on (R218, R594). -/
  | store (chan line off : Nat) (bytes : List Byte)
deriving DecidableEq, Repr

/-- DRAM and on-chip memories besides their registers. An unlisted line holds what the fill left (R592). -/
structure Mem where
  /-- Lines that hold another codeword than the fill's: line and its 80 bytes (R587), rising. -/
  lines : List (Nat × List Byte) := []
  filled : Bool := false
  /-- Entries of the CE tracker, least recently counted first, and those that hold a line (R602); the entries stand in their
  registers. -/
  order : List Nat := [0, 1, 2, 3, 4, 5, 6, 7]
  tracked : List Nat := []
  /-- Entry whose copy runs (R600). -/
  copying : Option Nat := none
  /-- Requests to a line whose copy runs, in order of arrival (R600), and the requester last served in each class (R35). -/
  waiting : List DramReq := []
  served : List Nat := [0, 0, 0, 0]
  /-- The scrubber has fallen more than 1 % of the pass time behind schedule and is not yet back on it (R36). -/
  scrubUp : Bool := false
  /-- Tick at which the scrubber's pass began (R597). -/
  passStart : Nat := 0
  /-- The on-chip arrays (R605, R612). -/
  arrs : List Arr := List.replicate 44 {}
deriving DecidableEq, Repr


/-- A flash bank besides its registers: the sector being erased, its tick of start or resume and its run time before
(R626), the word being programmed with its data, and the address that failed. -/
structure FBank where
  erasing : Option Nat := none
  runSince : Nat := 0
  runBefore : Nat := 0
  prog : Option (Nat × Nat) := none
  resumeHeld : Bool := false
  accepted : Bool := false
deriving DecidableEq, Repr

/-- An image download (R641): bytes of the slot programmed since its OFFSET 0 piece, as (offset, length). -/
structure Download where
  started : Bool := false
  pieces : List (Nat × Nat) := []
deriving DecidableEq, Repr

/-- The flash besides its registers: words that are not erased, by word address (byte address over 16) with 128 data
bits, rising; flag cells that read 0; the state of the banks. -/
structure Fls where
  words : List (Nat × Nat) := []
  flags : List Nat := []
  banks : Vector FBank 2 := Vector.replicate 2 {}
  down : Download := {}
  /-- The images are checked, and the one to start (R638). -/
  checked : Bool := false
  start : Option Nat := none
  /-- A core waits for a flash fetch since a tick, and whether FETCH_STALL was raised for it (R629), by core. -/
  stall : List (Option (Nat × Bool)) := [none, none]
  /-- The word each core's last data read returned (R620). -/
  got : List Nat := [0, 0]
  /-- The subsystem word, writer ID and remap list kept in the system records (R422, R482, R601, R632). -/
  subsys : W32 := 0
  writer : Option Nat := none
  remaps : List Nat := []
  /-- The cores have left their image and not resumed: a restart (R603, R616), or step 5 of an activation (R40, R502). -/
  coreGap : Bool := false
deriving DecidableEq, Repr


/-- A set of ageing results (R667). -/
structure Ageing where
  tod : Nat := 0
  ith : List Nat := List.replicate 8 0
  eta : List Nat := List.replicate 8 0
  amp : List Nat := List.replicate 8 0
  rmean : Nat := 0
  sens : List Nat := [0, 0, 0]
  decel : Nat := 0
  ber0 : Nat := 0
  berw : Nat := 0
  fwin : Nat := 0
  twin : Nat := 0
  valid : List Bool := [false, false, false, false, false]
deriving DecidableEq, Repr

/-- What the resident firmware holds of a channel's calibration, read from the records in flash at chip start (R666, R668,
R671): the latest results, the Last with its bases, SA_POS and FF_FOC of the 16 layers, and by layer and zone (8 × layer +
zone) the fifteen START taps and the lead and trail tables. -/
structure CalCh where
  latest : Ageing := {}
  last : Ageing := {}
  lastBases : List (Nat × Nat × Nat) := []
  lastRead : Nat := 0
  lastValid : Bool := false
  layers : List W32 := []
  tables : List (Nat × List Nat) := []
  /-- AGEING has been due since this tick (R678). -/
  due : Option Nat := none
  /-- MODE_REQ before an ageing run (R659). -/
  reqBefore : Nat := 0
deriving DecidableEq, Repr

/-- A calibration run waiting or running: context (none when scheduled), channel (6 for REF), MEASURE, begun, fall-backs of
the channel when it began, the reference checked, measurements ended, those rejected, and the results gathered. -/
structure CalRun where
  ctx : Option Nat
  chan : Nat
  measure : Nat
  begun : Bool := false
  falls : Nat := 0
  refDone : Bool := false
  done : List Nat := []
  rejected : List Nat := []
  res : Ageing := {}
deriving DecidableEq, Repr

/-- Calibration besides its registers. -/
structure Cal where
  chans : Vector CalCh 6 := Vector.replicate 6 {}
  runs : List CalRun := []
  vref : Nat := 0
  iref : Nat := 0
deriving DecidableEq, Repr


/-- A frame of the recorder (R707); `edges` holds, by phase, the new level and the cycle of an accepted edge. -/
structure RFrame where
  tick : Nat := 0
  sample : Bool := false
  ilim : Bool := false
  trig : Bool := false
  negClamp : Bool := false
  busStop : Bool := false
  servo : List Int := []
  shunt : Int := 0
  vm : Nat := 0
  edges : List (Option (Bool × Int)) := [none, none, none]
  vec : Nat := 0
  off : Bool := true
  ta : Nat := 0
  theta : Nat := 0
  omega : Int := 0
  out : List Int := [0, 0, 0, 0]
  speed : Int := 0
  sled : Int := 0
  pll : Bool := false
  readStop : Bool := false
  armFail : Bool := false
  unexpected : Bool := false
  freq : Nat := 0
  /-- Change records: address, new and old value. -/
  changes : List (Nat × W32 × W32) := []
deriving DecidableEq, Repr

/-- A state image (R708): the registers of SRV, MOT and SPN by offset from the channel's base, and the internal state
items. -/
structure Image where
  regs : List (Nat × W32) := []
  srv : Srv := {}
  mot : Mot := {}
  spn : Spn := {}
deriving DecidableEq, Repr

/-- What the part gathers of a channel during a tick for its frame: inputs latched, VM, edges, change records and the
events of the tick. -/
structure RecAcc where
  servo : List Int := []
  shunt : Option Int := none
  vm : Nat := 0
  /-- The wobble frequency as the SPEED loop used it. -/
  freq : Nat := 0
  /-- What the frame of the present tick gathers (R707). -/
  edges : List (Option (Bool × Int)) := [none, none, none]
  trig : Bool := false
  readStop : Bool := false
  armFail : Bool := false
  unexpected : Bool := false
  changes : List (Nat × W32 × W32) := []
deriving DecidableEq, Repr

/-- The contents of the recording area (R706): the recorded channels in increasing order, first tick, time of day at
it, trigger tick, trigger class, snippet channel, stop cause and writer once the header is written, and for each
channel its image and its frames, oldest first. -/
structure Recording where
  chans : List Nat := []
  first : Nat := 0
  tod : Nat := 0
  trigTick : Nat := 0
  trigClass : Nat := 0xFF
  snipCh : Nat := 0xFF
  cause : Nat := 0
  writer : Nat := 0
  header : Bool := false
  images : List Image := []
  frames : List (List RFrame) := []
  snip : List Byte := []
deriving DecidableEq, Repr

/-- The recorder and the replay (R704–R714). -/
structure Recorder where
  area : Recording := {}
  /-- What stood in the area before the present recording, as pieces by offset, and those written since by RECORD_START
  with LOAD, in order. -/
  under : List (Nat × List Byte) := []
  loaded : List (Nat × List Byte) := []
  /-- A recording waits for its 64-tick boundary: the channels, SNIP, POST and the class. -/
  waiting : Option (Nat × Bool × Nat × Nat) := none
  snipOn : Bool := false
  post : Nat := 0
  /-- A RECORD_START or RECORD_STOP command awaits its completion: its context. -/
  startCtx : Option Nat := none
  acc : Vector RecAcc 6 := Vector.replicate 6 {}
  /-- Frames of each channel in its on-chip store, which DRAM has not taken yet (R37). -/
  onChip : List Nat := [0, 0, 0, 0, 0, 0]
  /-- Bytes of the frame region written so far. -/
  frameBytes : Nat := 0
  /-- Frames still to be replayed (R712). -/
  replay : List RFrame := []
  /-- A replayed tick is being computed (R712). -/
  live : Bool := false
deriving DecidableEq, Repr


/-- Chip reset, the sideband and the boundary-scan port (R715, R739–R746). -/
structure Pins where
  /-- Chip reset is asserted. -/
  inReset : Bool := false
  /-- PORST_N has been low for 10 µs and has not yet been high for 1.0 ms (R739). -/
  porst : Bool := false
  /-- A supply is below its monitor's level, or not yet 5 ms back (R740). -/
  low : Bool := false
  /-- The sideband answers (R742), and its register pointer (R715). -/
  sbReady : Bool := false
  sbPtr : Nat := 0
  /-- The value read for the pointer (R715). -/
  sbVal : W32 := 0
  /-- REGACC: data and status of the last access (R746); EXTEST in effect; boundary cells. -/
  jtagData : W32 := 0
  jtagStat : Nat := 0
  extest : Bool := false
  cells : List Bool := []
deriving DecidableEq, Repr


/-- The state of the part. -/
structure State where
  /-- Every register whose value differs from its reset value, by address, rising (R48, R58). -/
  regs : List (Nat × W32)
  /-- Tick counter and time of day (R23–R30). -/
  tb : TimeBase
  /-- The open blocks (R60). -/
  locks : List OpenLock
  /-- The frozen read views (R51, R52). -/
  frozen : List (Blk × List (Nat × W32))
  /-- Health manager and logs (R689–R703). -/
  hlt : Health
  /-- The strap values (R730). -/
  straps : Straps
  /-- Writer ID in bits 11:0 and writer generation in bits 15:12 (R98, R482). -/
  writer : Nat
  /-- The six drive channels (R11). -/
  chans : Vector Chan 6
  /-- VM_A and VM_B (R34, R358). -/
  buses : Vector Bus 2
  /-- PWRFAIL_N as the part sees it (R222, R380, R744). -/
  pwr : Power
  /-- Host functions, ports, rings and command contexts, and what the part has sent (R394–R504). -/
  host : Hqe
  /-- The map manager with the map journal and base in flash (R505–R529). -/
  map : MapM
  /-- The map cache (R530–R537). -/
  mca : Mca
  /-- The stripe engine with the Welt journal and the lost-stripe list (R542–R582). -/
  str : Str
  /-- DRAM and the on-chip memories (R583–R613). -/
  mem : Mem
  /-- The flash (R614–R649). -/
  fls : Fls
  /-- Calibration (R650–R688). -/
  cal : Cal
  /-- Chip reset, sideband and boundary scan (R715, R739–R746). -/
  pins : Pins
  /-- MEMBER_TIMEOUT, ms (R481). -/
  memberTmo : Nat
  /-- The recorder and the replay (R704–R714). -/
  rcd : Recorder
  /-- The commands that wait, first in, first out. -/
  pending : List Instr
deriving DecidableEq, Repr

/-- The faults a step can stop with. -/
inductive Fault where
  /-- A term whose lists have not the lengths `Instr.WellFormed` asks for. No meaning of this model raises it; it is
  kept so that a reader sees that ordinary data never stops the machine. Safe. -/
  | illFormed
deriving DecidableEq, Repr

/-- The refusals a step can answer with. -/
inductive Refusal where
  /-- Raised by an arm of the dispatch whose command has no meaning yet. Safe. -/
  | notModelled (mnemonic : String)
deriving DecidableEq, Repr

/-- What a command's meaning answers. -/
abbrev Out := Host.Outcome State Fault Refusal

/-- The part right after reset (R66, R739, R742): every register at its reset value, no command waiting. The values
the spec does not give are named in the assumption log. -/
def State.reset : State where
  regs := []
  tb := {}
  locks := []
  frozen := []
  hlt := {}
  straps := {}
  writer := 0
  chans := Vector.replicate 6 {}
  buses := Vector.replicate 2 {}
  pwr := {}
  host := {}
  map := {}
  mca := {}
  str := {}
  mem := {}
  fls := {}
  cal := {}
  pins := {}
  memberTmo := 8000
  rcd := {}
  pending := []

end Sys2Proof.Machine
end

