-- ==== Sys2Proof/Machine/Ops.lean ====
section
/-! DEFINITION. The named operations over registers and channels: every read and write of a register goes through
`State.rd` and `State.wr`, and every field through `State.get` and `State.put`. -/

namespace Sys2Proof.Machine

/-! ### The register file -/

/-- The value listed for an address, if any. -/
def regFind (a : Nat) : List (Nat × W32) → Option W32
  | [] => none
  | (k, v) :: r => if k = a then some v else regFind a r

/-- The list without an entry for an address. -/
def regErase (a : Nat) : List (Nat × W32) → List (Nat × W32)
  | [] => []
  | (k, v) :: r => if k = a then r else (k, v) :: regErase a r

/-- The list with an entry for an address, addresses rising. -/
def regInsert (a : Nat) (w : W32) : List (Nat × W32) → List (Nat × W32)
  | [] => [(a, w)]
  | (k, v) :: r => if a < k then (a, w) :: (k, v) :: r else if a = k then (a, w) :: r else (k, v) :: regInsert a w r

/-- Writes a register: an entry equal to the reset value is not listed. -/
def regWrite (a : Nat) (w : W32) (l : List (Nat × W32)) : List (Nat × W32) :=
  if w = resetValue a then regErase a l else regInsert a w l

/-- The canonical form of a register list: addresses strictly rising, no entry equal to its reset value. -/
def regsWf : List (Nat × W32) → Bool
  | [] => true
  | [(k, v)] => decide (v ≠ resetValue k)
  | (k, v) :: (k', v') :: r => decide (v ≠ resetValue k) && decide (k < k') && regsWf ((k', v') :: r)

/-- The value held at a register address. -/
def State.rd (s : State) (a : Nat) : W32 := (regFind a s.regs).getD (resetValue a)

/-- Stores a value at a register address. -/
def State.wr (s : State) (a : Nat) (w : W32) : State := { s with regs := regWrite a w s.regs }

/-- A field's value. -/
def State.get (s : State) (f : Fld) : Nat := bitsOf f.hi f.lo (s.rd f.base).toNat

/-- A field's value read as two's complement. -/
def State.geti (s : State) (f : Fld) : Int := toSigned f.width (s.get f)

/-- A one-bit field as a truth value. -/
def State.getb (s : State) (f : Fld) : Bool := s.get f != 0

/-- Stores a field. -/
def State.put (s : State) (f : Fld) (v : Nat) : State :=
  s.wr f.base (BitVec.ofNat 32 (setBits f.hi f.lo (s.rd f.base).toNat v))

/-- Stores a signed number in a field. -/
def State.puti (s : State) (f : Fld) (z : Int) : State := s.put f (ofSigned f.width z)

/-- Stores a truth value in a one-bit field. -/
def State.putb (s : State) (f : Fld) (b : Bool) : State := s.put f (b2n b)

/-- Adds to a counter field, which saturates at its largest value (R190, R226, R282, R320). -/
def State.bump (s : State) (f : Fld) (n : Nat) : State := s.put f (min (s.get f + n) (2 ^ f.width - 1))

/-- Clears the fields of a list. -/
def State.clearAll (s : State) : List Fld → State
  | [] => s
  | f :: fs => (s.put f 0).clearAll fs

/-! ### Channels -/

/-- A drive channel. -/
def State.chan (s : State) (c : Ch) : Chan := s.chans[c]

/-- Changes a drive channel. -/
def State.onChan (s : State) (c : Ch) (f : Chan → Chan) : State := { s with chans := s.chans.set c (f (s.chan c)) }

/-- Changes the servo engine of a channel. -/
def State.onSrv (s : State) (c : Ch) (f : Srv → Srv) : State := s.onChan c (fun k => { k with srv := f k.srv })
/-- Changes the read channel and detector of a channel. -/
def State.onRdc (s : State) (c : Ch) (f : Rdc → Rdc) : State := s.onChan c (fun k => { k with rdc := f k.rdc })
/-- Changes the write channel of a channel. -/
def State.onWrc (s : State) (c : Ch) (f : Wrc → Wrc) : State := s.onChan c (fun k => { k with wrc := f k.wrc })
/-- Changes the motion generator of a channel. -/
def State.onMot (s : State) (c : Ch) (f : Mot → Mot) : State := s.onChan c (fun k => { k with mot := f k.mot })
/-- Changes the spindle controller of a channel. -/
def State.onSpn (s : State) (c : Ch) (f : Spn → Spn) : State := s.onChan c (fun k => { k with spn := f k.spn })
/-- Changes the mode sequencer of a channel. -/
def State.onDcm (s : State) (c : Ch) (f : Dcm → Dcm) : State := s.onChan c (fun k => { k with dcm := f k.dcm })
/-- Changes a loop of a channel. -/
def State.onLoop (s : State) (c : Ch) (l : Fin 7) (f : LoopHid → LoopHid) : State :=
  s.onSrv c (fun v => { v with loops := v.loops.set l (f v.loops[l]) })
/-- Changes a signal of a channel. -/
def State.onSig (s : State) (c : Ch) (g : Fin 10) (f : Sig → Sig) : State :=
  s.onRdc c (fun v => { v with sigs := v.sigs.set g (f v.sigs[g]) })
/-- Changes an axis of a channel. -/
def State.onAxis (s : State) (c : Ch) (x : Two) (f : Axis → Axis) : State :=
  s.onMot c (fun v => { v with axes := v.axes.set x (f v.axes[x]) })
/-- Is the tile slot under the pickup that of `prev`: a re-read of the ladder, or a slot that has not ended while the next one is
armed? -/
def Rdc.onPrev (r : Rdc) : Bool :=
  (match r.tile with
    | some t => t.arm || !t.reading
    | none => true) &&
  (match r.prev with
    | some t => t.reading
    | none => false)

/-- The tile slot under the pickup, or read last. -/
def Rdc.under (r : Rdc) : Option TileRead := if r.onPrev then r.prev else r.tile.filter (fun t => !t.arm)

/-- Changes the tile slot under the pickup of a channel. -/
def State.onTile (s : State) (c : Ch) (f : TileRead → TileRead) : State :=
  s.onRdc c (fun v => if v.onPrev then { v with prev := v.prev.map f }
    else { v with tile := v.tile.map (fun t => if t.arm then t else f t) })
/-- Changes a VM bus. -/
def State.onBus (s : State) (b : Two) (f : Bus → Bus) : State := { s with buses := s.buses.set b (f s.buses[b]) }
/-- Changes the health manager. -/
def State.onHlt (s : State) (f : Health → Health) : State := { s with hlt := f s.hlt }

/-- A loop's hidden state. -/
def State.loop (s : State) (c : Ch) (l : Fin 7) : LoopHid := (s.chan c).srv.loops[l]
/-- A signal's hidden state. -/
def State.sig (s : State) (c : Ch) (g : Fin 10) : Sig := (s.chan c).rdc.sigs[g]
/-- An axis' hidden state. -/
def State.axis (s : State) (c : Ch) (x : Two) : Axis := (s.chan c).mot.axes[x]

/-- The six channels. -/
def allCh : List Ch := [0, 1, 2, 3, 4, 5]

/-- The VM bus that supplies a channel (R34). -/
def busOf (c : Ch) : Two := if c.val < 3 then 0 else 1

/-- The channels of a VM bus (R34). -/
def busChans (b : Two) : List Ch := if b = 0 then [0, 1, 2] else [3, 4, 5]

/-- Applies a change for every element of a list, in order. -/
def State.each {α : Type} (s : State) (l : List α) (f : State → α → State) : State := l.foldl f s

/-- Ticks of a time in 10 ms and 100 ms units (one tick is 2.5 µs, R15). -/
def ticks10ms (n : Nat) : Nat := n * 4000

/-- The number of the present tick. -/
def State.now (s : State) : Nat := s.tb.tick

/-- Do the channels stand still for the loss of the timebase (R33) or for EXTEST (R746)? -/
def State.halted (s : State) : Bool := s.tb.lost || s.pins.extest

/-! ### Chip reset and replay -/

/-- During chip reset nothing but the reset pins, the supplies and the boundary-scan port acts (R739–R742). -/
def gate (s : State) (o : Out) : Out := if s.pins.inReset then .next s else o

/-- An event of an engine of a channel. In REPLAY the engines take their events from the recording, within TICK (R279,
R365, R712), so that the event itself has no effect there. -/
def gateEngine (c : Ch) (s : State) (o : Out) : Out :=
  if s.pins.inReset || (s.get (Reg.DCM_STAT_MODE.at c) == 11 && !s.rcd.live) then .next s else o

/-- The state an outcome leaves, `s` when it stops. -/
def stateOf (s : State) : Out → State
  | .next t => t
  | .fault _ => s
  | .refused _ => s

/-! ### Access codes of the common first page -/

/-- Address of a register of the common first page (R48). -/
def pageReg (b : Blk) (off : Nat) : Nat := blkBase b + off

/-- Sets an event bit of a block's BLK_IRQ_STAT (R54). -/
def State.raise (s : State) (b : Blk) (bit : Nat) : State :=
  s.wr (pageReg b 0x10) (s.rd (pageReg b 0x10) ||| BitVec.ofNat 32 (2 ^ bit))

/-- Does an enabled pending event of the block interrupt the management cores (R54)? -/
def State.irqOut (s : State) (b : Blk) : Bool :=
  (s.rd (pageReg b 0x10) &&& s.rd (pageReg b 0x14) != 0) && bitOf 0 (s.rd (pageReg b 0x08)).toNat

/-! ### Origins and logs -/

/-- The origin field of a change-log entry (R69). -/
def originCode (o : Origin) (refused : Bool) : Nat :=
  b2n refused * 0x1000 +
  match o with
  | .fn f => f.val
  | .core i => 0x2000 + i.val
  | .seqr (some c) t => 0x4000 + c.val * 0x100 + t % 256
  | .seqr none t => 0x4F00 + t % 256
  | .i2c => 0x6000
  | .jtag => 0x8000

/-- Low 48 bits of the tick counter (R23, R700). -/
def State.stamp (s : State) : Nat := s.tb.tick % 2 ^ 48

/-- Adds an entry to a log ring that holds the latest `cap` entries (R699). -/
def logPush {α : Type} (cap : Nat) (r : LogRing α) (e : α) : LogRing α :=
  let l := r.held ++ [(r.next, e)]
  ⟨r.next + 1, l.drop (l.length - cap), r.pos + 1⟩

/-- Entries a log holds: the latest 512 on chip until LOG_EN has been 1, its DRAM ring afterwards (R699). -/
def State.logCap (s : State) (ring : Nat) : Nat := if s.hlt.joined then ring else 512

/-- Stores an entry in the persisted log region: 32 sectors of 682 records, the oldest sector's records giving way
(R703). -/
def State.persist (s : State) (p : Persisted) : State :=
  s.onHlt (fun h =>
    { h with
      persisted := (if h.persisted.length < 32 * 682 then h.persisted else h.persisted.drop 682) ++ [p]
      logFirst := if h.persisted.length < 32 * 682 then h.logFirst else (h.logFirst + 1) % 32
      owed := h.owed + 1
      owedErases := if h.persisted.length < 32 * 682 then h.owedErases else h.owedErases + 1
      early := if h.joined then h.early else h.early + 1 })

/-- Makes an event log entry (R702). -/
def State.logEvent (s : State) (d : EventData) : State :=
  s.onHlt (fun h => { h with eventLog := logPush (s.logCap 16384) h.eventLog ⟨s.stamp, d⟩ })

/-- Makes a change-log entry stamped with tick `t`; entries of accepted RWL writes are also persisted (R67–R70). -/
def State.logChange (s : State) (t addr : Nat) (old new : W32) (o : Origin) (refused rwl : Bool) : State :=
  let e : ChangeEntry := ⟨t % 2 ^ 48, addr, old, new, originCode o refused⟩
  let i := s.hlt.changeLog.next
  let s := s.onHlt (fun h => { h with changeLog := logPush (s.logCap 65536) h.changeLog e })
  if rwl && !refused then s.persist (.change i e) else s

/-- The value the mask of a row keeps of a register and the value written (R58): RW and RWL bits take the written
value, W1C bits clear, W1S bits set, WO and RO bits keep 0 or their value. -/
def mergeWrite (r : RegRow) (old v : Nat) : Nat :=
  let old := BitVec.ofNat 32 old
  let v := BitVec.ofNat 32 v
  let rw := BitVec.ofNat 32 (r.rw ||| r.rwl)
  let w1c := BitVec.ofNat 32 r.w1c
  let w1s := BitVec.ofNat 32 r.w1s
  (((old &&& ~~~rw) ||| (v &&& rw)) &&& ~~~(v &&& w1c) ||| (v &&& w1s)).toNat

/-- The new value a change-log entry shows (R68): the stored value, with the written bits of WO, W1S and W1C fields. -/
def loggedValue (r : RegRow) (stored v : Nat) : W32 :=
  let m := BitVec.ofNat 32 (r.wo ||| r.w1s ||| r.w1c)
  (BitVec.ofNat 32 stored &&& ~~~m) ||| (BitVec.ofNat 32 v &&& m)

/-! ### The lock of a block (R57, R60) -/

/-- Is a block open (R60)? -/
def blkOpen (b : Blk) (s : State) : Bool := s.locks.any (fun k => k.blk == b && decide (s.now < k.last + 400000))

/-- BLK_LOCK as it reads (R57). -/
def lockView (b : Blk) (s : State) : W32 :=
  BitVec.ofNat 32 (setBits 0 0 (s.rd (pageReg b 0x1C)).toNat (b2n (blkOpen b s)))

/-- An accepted write to an RWL register keeps its block open (R60): the time runs from its effect. -/
def touchLock (b : Blk) (t : Nat) (s : State) : State :=
  { s with locks := s.locks.map (fun k => if k.blk = b then { k with last := max k.last t } else k) }

/-- A write to BLK_LOCK (R57, R60, R62): it acts when the register bus accepts it (R18). Written with its BLK_ID once more,
an open block has the writer as its opener, and its time starts again (log 141). -/
def lockWrite (o : Origin) (b : Blk) (v : W32) (s : State) : State :=
  let shown := lockView b s
  let rest := s.locks.filter (fun k => k.blk != b)
  let s := { s with locks := if v.toNat = blkId b then rest ++ [(⟨b, o, s.now⟩ : OpenLock)] else rest }
  s.logChange s.now (pageReg b 0x1C) shown v o false false

/-- Writes of a sequencer or core to RWL registers of a block: it opens the block with EXPERT_UNLOCK before writing, and
closes it afterwards only if it opened it (R60, R67, R684, R692; log 120). -/
def State.expert (s : State) (o : Origin) (b : Blk) (f : State → State) : State :=
  if blkOpen b s then f s else lockWrite o b 0 (f (lockWrite o b (BitVec.ofNat 32 (blkId b)) s))

/-- The same for one register, if it has RWL bits; the time of the lock runs from tick `t`. -/
def State.expertAt (s : State) (o : Origin) (a t : Nat) (rwl : Bool) (f : State → State) : State :=
  match rwl, blkOf a with
  | true, some b => s.expert o b (fun s => touchLock b t (f s))
  | _, _ => f s

/-- A register write of an internal sequencer that takes effect at once: stored by the access codes and entered in the
change log (R67, R69). -/
def State.seqWrite (s : State) (o : Origin) (a : Nat) (v : Nat) : State :=
  match regRow a with
  | none => s
  | some (r, _, _) =>
    s.expertAt o a s.now (r.rwl != 0) (fun s =>
      let old := s.rd a
      let new := mergeWrite r old.toNat v
      (s.wr a (BitVec.ofNat 32 new)).logChange s.tb.tick a old (loggedValue r new v) o false (r.rwl != 0))

/-- `seqWrite` of one field, the other bits rewritten with what they hold and no action bit set. -/
def State.seqPut (s : State) (o : Origin) (f : Fld) (v : Nat) : State :=
  match regRow f.base with
  | none => s
  | some (r, _, _) =>
    let held := (s.rd f.base &&& BitVec.ofNat 32 (r.rw ||| r.rwl)).toNat
    s.seqWrite o f.base (setBits f.hi f.lo held v)

/-- Puts a write into a channel's latch (R18). -/
def stageWrite (c : Ch) (w : Staged) (s : State) : State := s.onChan c (fun k => { k with stage := k.stage ++ [w] })

/-- Puts a register write of an internal sequencer or core into a channel's latch (R18, R69). -/
def State.stageReg (s : State) (c : Ch) (w : Staged) : State :=
  match regRow w.addr with
  | none => s
  | some (r, _, _) => s.expertAt w.org w.addr (s.now + 1) (r.rwl != 0) (stageWrite c w)

/-- `stageReg` of one field, the other bits rewritten with what they hold and no action bit set. -/
def State.stageSeq (s : State) (c : Ch) (f : Fld) (v : Nat) (o : Origin) : State :=
  let held := match regRow f.base with
    | some (r, _, _) => (s.rd f.base &&& BitVec.ofNat 32 (r.rw ||| r.rwl)).toNat
    | none => 0
  s.stageReg c ⟨f.base, BitVec.ofNat 32 (setBits f.hi f.lo held v), o⟩

/-! ### The recorder's gathering (R707, R710) -/

/-- Changes the recorder. -/
def State.onRcd (s : State) (f : Recorder → Recorder) : State := { s with rcd := f s.rcd }

/-- Changes what is gathered of a channel for its frame. -/
def State.onAcc (s : State) (c : Ch) (f : RecAcc → RecAcc) : State :=
  s.onRcd (fun r => { r with acc := r.acc.set c (f r.acc[c]) })

/-- Is channel `c` still recording? -/
def recActive (c : Ch) (s : State) : Bool := bitOf c.val (s.get Reg.TMB_REC_STAT_ACTIVE)

/-- The first trigger of a recording (R710). -/
def recTrigger (c : Nat) (snip : List Byte) (s : State) : State :=
  if s.getb Reg.TMB_REC_STAT_RUN && !s.getb Reg.TMB_REC_STAT_TRIGGERED then
    let s := s.putb Reg.TMB_REC_STAT_TRIGGERED true
    let s := s.each allCh (fun s c => s.onAcc c (fun a => { a with trig := true }))
    s.onRcd (fun r => { r with area := { r.area with
      trigTick := s.now
      snipCh := if r.snipOn then c else 0xFF
      snip := if r.snipOn then snip else [] } })
  else s

/-! ### Faults -/

/-- Detects a fault: its record leaves for the health manager (R696). No rule defines its detail word (log 17). -/
def State.fault (s : State) (cls inst : Nat) (b : Blk) (zone : Option (Nat × Nat) := none) (replay : Bool := false) :
    State :=
  s.onHlt (fun h => { h with incoming := h.incoming ++
    [{ tick := s.tb.tick, cls, inst, blk := b, detail := Config.openDetail cls s.tb.tick, zone, replay }] })

/-- A fault of a channel, marked when the channel is in REPLAY (R695). On a recorded channel it is the trigger when its
class is TRIG_CLASS (R710); the snippet's bytes are what the signals show then (log 27). -/
def State.faultCh (s : State) (cls : Nat) (c : Ch) (t : BlkT) (zone : Option (Nat × Nat) := none) : State :=
  let s := s.fault cls c.val ⟨t, c⟩ zone (s.get (Reg.DCM_STAT_MODE.at c) == 11)
  if s.rcd.area.trigClass = cls ∧ recActive c s then
    recTrigger c.val ((List.range 40960).map (fun k => BitVec.ofNat 8 (Config.snippet s.tb.tick k))) s
  else s

end Sys2Proof.Machine
end

