-- ==== Sys2Proof/Machine/Transfer.lean ====
section
/-! DEFINITION. What several blocks of a drive channel share: the modes, the format's geometry, the hold of transfer,
the abort of a write and the stop of a read (R78, R195, R196, R273, R372, R378). -/

namespace Sys2Proof.Machine

/-! ### Modes (R372) -/

/-- Code of the mode OFF. -/
def mOFF : Nat := 0
/-- Code of the mode PARKED. -/
def mPARKED : Nat := 1
/-- Code of the mode SPIN_UP. -/
def mSPINUP : Nat := 2
/-- Code of the mode ACQUIRE. -/
def mACQUIRE : Nat := 3
/-- Code of the mode IDLE_TRACK. -/
def mIDLE : Nat := 4
/-- Code of the mode SEEK. -/
def mSEEK : Nat := 5
/-- Code of the mode READ. -/
def mREAD : Nat := 6
/-- Code of the mode WRITE. -/
def mWRITE : Nat := 7
/-- Code of the mode CALIBRATE. -/
def mCAL : Nat := 8
/-- Code of the mode SCAN. -/
def mSCAN : Nat := 9
/-- Code of the mode BRAKE. -/
def mBRAKE : Nat := 10
/-- Code of the mode REPLAY. -/
def mREPLAY : Nat := 11

/-- The mode of a channel. -/
def State.mode (s : State) (c : Ch) : Nat := s.get (Reg.DCM_STAT_MODE.at c)

/-- The working modes (R372). -/
def isWorking (m : Nat) : Bool := m == 4 || m == 6 || m == 7 || m == 8 || m == 9

/-- The effective profile of a channel (R389). -/
def State.profile (s : State) (c : Ch) : Nat := s.get (Reg.DCM_STAT_PROFILE.at c)

/-! ### Geometry of the format (R78) -/

/-- Nw of the zones: channel bits per wedge. -/
def nwTable : List Nat := [31360, 36928, 42496, 48064, 53632, 59200, 64768, 70336]
/-- T of the zones: wedges per tile slot. -/
def tTable : List Nat := [11, 9, 8, 7, 6, 6, 5, 5]
/-- Wobbles per wedge of the zones. -/
def wobTable : List Nat := [490, 577, 664, 751, 838, 925, 1012, 1099]
/-- Data tile slots per layer of the zones. -/
def dataSlots : List Nat := [20002, 24789, 27888, 31872, 37184, 37184, 44620, 44620]
/-- Spare tile slots per layer of the zones. -/
def spareSlots : List Nat := [314, 384, 432, 493, 576, 576, 691, 691]

/-- Zone of a radial band (R78). -/
def zoneOfRadial (r : Nat) : Nat := r / 2360

/-- Radial band of band `b` on a layer, and back: odd layers run from the outside in (R75). -/
def radialOf (layer b : Nat) : Nat := if layer % 2 = 0 then b else 18879 - b

/-- Zone of a band of a layer. -/
def zoneOfBand (layer b : Nat) : Nat := zoneOfRadial (radialOf layer b)

/-- First band, in recording order, of the zone on the layer (R75, R78). -/
def zoneFirst (layer z : Nat) : Nat := if layer % 2 = 0 then 2360 * z else 18880 - 2360 * (z + 1)

/-- First band of a region (R80): 0 data, 1 spare ring, 2 metadata. -/
def regionFirst (p : TilePos) : Nat :=
  let f := zoneFirst p.layer p.zone
  if p.zone = 0 then
    if p.layer % 2 = 0 then
      (if p.region = 2 then f else if p.region = 0 then f + 32 else f + 32 + 2292)
    else (if p.region = 0 then f else if p.region = 1 then f + 2292 else f + 2328)
  else (if p.region = 1 then f + 2324 else f)

/-- T of the region of a tile slot (R81). -/
def tileT (p : TilePos) : Nat := if p.region = 2 then 11 else tTable.getD p.zone 5

/-- Band of the first wedge of a tile slot (R82). -/
def tileBand (p : TilePos) : Nat := regionFirst p + p.tile * tileT p / 96

/-- First wedge of a tile slot (R82). -/
def tileWedge (p : TilePos) : Nat := p.tile * tileT p % 96

/-- Tile slots of a region on one layer (R78, R116). -/
def regionSlots (region zone : Nat) : Nat :=
  if region = 0 then dataSlots.getD zone 0 else if region = 1 then spareSlots.getD zone 0
  else if region = 2 ∧ zone = 0 then 279 else 0

/-- Band and wedge of the wedge before the first wedge of a tile slot, in recording order (R75, R138). -/
def wedgeBefore (p : TilePos) : Nat × Nat :=
  if tileWedge p = 0 then (tileBand p - 1, 95) else (tileBand p, tileWedge p - 1)

/-- The SA address expected at the wedge before a tile slot: SA follows servo track ρ in radial band ρ (R74, R138). -/
def expectedAddr (p : TilePos) : SaAddr :=
  let (b, w) := wedgeBefore p
  ⟨radialOf p.layer b, w, p.layer⟩

/-! ### Blocks and origins of a channel -/

/-- The DCM sequencer of a channel as an origin (R69). -/
def dcmOrigin (c : Ch) : Origin := .seqr (some c) 0x0101

/-- Do the management cores run (R40)? They are released, have not left their image, and neither waits for a flash fetch
(R629). While they do not, mode changes, new seeks and tile transfers wait. -/
def coresRun (s : State) : Bool :=
  s.getb Reg.HLT_SB_CORES_RUN && !s.fls.coreGap && s.fls.stall.all (·.isNone)

/-! ### Transfer -/

/-- Holds transfer: TRANSFER_WAIT reads 1, and every wedge sync must be found anew (R378). -/
def holdTransfer (c : Ch) (s : State) : State :=
  (s.putb (Reg.DCM_STAT_TRANSFER_WAIT.at c) true).onRdc c (fun r =>
    { r with sigs := r.sigs.map (fun g => { g with wide := true, synced := false }) })

/-- Puts a write frame for the laser driver into the queue of frames due (R203, R206). -/
def driverDue (c : Ch) (addr data : Nat) (s : State) : State :=
  s.onWrc c (fun w => { w with due := w.due ++ [{ write := true, addr, data }] })

/-- Erases the slots of a tile whose rows do not end under the pickup (R137, R273): reason 6. The first `rows` rows have ended
there. -/
def eraseUnread (rows : Nat) (t : TileRead) : TileRead :=
  { t with
    slots := t.slots.mapIdx (fun i k =>
      if k.st = .waiting ∧ rows ≤ i / 8 then { k with st := .erased 6, reason := some 6 } else k)
    stopped := true, reading := false, rowsEnd := min t.rowsEnd rows }

/-- Sets the ladder's offsets (R176, R257). -/
def setLadder (c : Ch) (ft : Int × Int) (s : State) : State :=
  (s.puti (Reg.SRV_LADDER_LADDER_F.at c) ft.1).puti (Reg.SRV_LADDER_LADDER_T.at c) ft.2

/-- What a stop makes of a tile: a tile all of whose rows are complete goes on to be decoded; a re-read of the ladder is made again
on a later pass; an armed read goes; a verify read of a tile being written is dropped, since no result of an abandoned slot counts
as a pass (R196); of any other the unread slots are erased (R273). `done`: sector rows that have ended under the pickup. -/
def stopTile (done : TileRead → Nat) (t : TileRead) : Option TileRead :=
  if !t.arm && (!t.reading || decide (t.rowsEnd ≤ t.rowsDone)) then some { t with reading := false }
  else if t.rereading then some { t with rereading := false, arm := false, reading := false }
  else if t.arm || t.verify then none
  else some (eraseUnread (max t.rowsDone (done t)) t)

/-- Stops the read of the tile slot under the pickup and of an armed one (R273); the ladder's offsets end with it (R176). A tile slot
whose read was only armed is wanted still. -/
def stopReadAt (c : Ch) (done : TileRead → Nat) (s : State) : State :=
  let s := if (s.chan c).rdc.prev.any (·.rereading) then setLadder c (0, 0) s else s
  s.onRdc c (fun r => { r with
    tile := r.tile.bind (stopTile done), prev := r.prev.bind (stopTile done)
    wanted := (r.tile.toList.filter (fun t => t.arm && !t.verify)).map (fun t => (t.pos, t.needed)) ++ r.wanted })

/-- `stopReadAt` where the rows that are complete are those that have ended. -/
def stopRead (c : Ch) (s : State) : State := stopReadAt c (fun _ => 0) s

/-- Adds a record to the verify log (R218): SIZE 0 to 8 turns it on; the ring keeps its latest records, and each is on its
way to its place in DRAM. -/
def vlogAdd (c : Ch) (r : VRecord) (s : State) : State :=
  let n := s.get (Reg.WRC_VLOG_LO_SIZE.at c)
  if 8 < n then s
  else
    let cap := 256 * 2 ^ n
    let i := s.get (Reg.WRC_VLOG_IDX_NEXT.at c) + 1
    let base := s.get (Reg.WRC_VLOG_LO_VLOG_ADDR.at c) * 4096 + s.get (Reg.WRC_VLOG_HI_VLOG_ADDR.at c) * 2 ^ 32
    let s := s.onWrc c (fun w => { w with
      vlog := (w.vlog ++ [r]).drop (w.vlog.length + 1 - cap), vlogDue := w.vlogDue ++ [(base + 288 * (i - 1), r)] })
    if cap ≤ i then (s.put (Reg.WRC_VLOG_IDX_NEXT.at c) 0).put (Reg.WRC_VLOG_IDX_WRAPS.at c)
      (s.get (Reg.WRC_VLOG_IDX_WRAPS.at c) + 1)
    else s.put (Reg.WRC_VLOG_IDX_NEXT.at c) i

/-- Shows the number of waiting blocks (R225). -/
def showReloc (c : Ch) (s : State) : State := s.put (Reg.WRC_RELOC_PENDING.at c) (s.chan c).wrc.reloc.length

/-- Reports the tile slot being written to the stripe engine as abandoned, with its last full sector row (R196), and
enters it in the verify log with outcome 3 (R218); log 33. -/
def reportAbandoned (c : Ch) (s : State) : State :=
  match (s.chan c).wrc.writing with
  | none => s
  | some t =>
    let s := s.onWrc c (fun w => { w with
      writing := none, reports := w.reports ++ [⟨t.pos, 3, [], w.rowsWritten⟩], rowsWritten := 0
      -- the blocks of an abandoned spare tile wait again
      reloc := t.blocks ++ w.reloc })
    let s := showReloc c s
    vlogAdd c { tick := s.stamp, discTag := s.get (Reg.DCM_DISC_LO_DISC.at c) % 65536, pos := t.pos, maxIter := 0
                failed := 64, outcome := 3, failMap := 2 ^ 64 - 1, entries := List.replicate 64 0x60000 } s

/-- Stores the abort cause, counts the abort and raises ABORT (R195). -/
def noteAbort (c : Ch) (cause : Nat) (s : State) : State :=
  ((s.put (Reg.WRC_STAT_ABORT_CAUSE.at c) cause).bump (Reg.WRC_CNT_MISC_ABORTS.at c) 1).raise ⟨.wrc, c⟩ 1

/-- Aborts the write in progress, if any, by a cause of R195. Causes 1 and 7 to 9 put the lanes at READ at once; the
others at the tick boundary after detection, until which STATE reads 3. The report of cause 1 waits for that boundary
(R22, R222). A later cause is no further abort; one that acts at once still ends the codes at once (log 134). -/
def abortWrite (c : Ch) (cause : Nat) (s : State) : State :=
  match (s.chan c).wrc.writing with
  | none =>
    if (s.chan c).wrc.abortPend.isSome && (cause == 1 || decide (7 ≤ cause)) then
      (s.onWrc c (fun w => { w with abortPend := none, lanesRead := true })).put (Reg.WRC_STAT_STATE.at c) 0
    else s
  | some _ =>
    if (s.chan c).wrc.abandonPend then s
    else
    let s := noteAbort c cause s
    let s := stopRead c s
    if cause = 1 then
      (s.onWrc c (fun w => { w with lanesRead := true, abandonPend := true })).put (Reg.WRC_STAT_STATE.at c) 0
    else if 7 ≤ cause then
      (reportAbandoned c (s.onWrc c (fun w => { w with lanesRead := true }))).put (Reg.WRC_STAT_STATE.at c) 0
    else
      (reportAbandoned c (s.onWrc c (fun w => { w with abortPend := some cause }))).put (Reg.WRC_STAT_STATE.at c) 3

/-- Stops transfer: a write aborts by `cause`, the read of the tile slot stops, and transfer is held (R273, R351). -/
def stopTransfer (c : Ch) (cause : Nat) (s : State) : State := holdTransfer c (stopRead c (abortWrite c cause s))

/-- The part of a tick boundary that concerns a pending abort (R22, R195, R222). -/
def abortBoundary (c : Ch) (s : State) : State :=
  let w := (s.chan c).wrc
  let s := if w.abandonPend then reportAbandoned c (s.onWrc c (fun w => { w with abandonPend := false })) else s
  if w.abortPend.isSome then
    (s.onWrc c (fun w => { w with abortPend := none, lanesRead := true })).put (Reg.WRC_STAT_STATE.at c) 0
  else s

end Sys2Proof.Machine
end

