-- ==== Sys2Proof/Machine/Format.lean ====
section
/-! DEFINITION. The PS16 recording format: checks and codes, wedge fields, the placing of sectors, modulation, the
LDPC and Reed-Solomon codes, slot contents and metadata blocks (R71–R122). -/

namespace Sys2Proof.Machine

/-! ### Bytes and check codes -/

/-- A number as `k` bytes, least significant first. -/
def leBytes : Nat → Nat → List Byte
  | 0, _ => []
  | k + 1, n => BitVec.ofNat 8 n :: leBytes k (n / 256)

/-- The number bytes spell, least significant first. -/
def leNat : List Byte → Nat
  | [] => 0
  | b :: bs => b.toNat + 256 * leNat bs

/-- Bytes `off` to `off + n − 1` of a list as a number, least significant first. -/
def field (l : List Byte) (off n : Nat) : Nat := leNat ((l.drop off).take n)

/-- `n` zero bytes. -/
def zeros (n : Nat) : List Byte := List.replicate n 0

/-- One bit step of CRC-32C, reflected. -/
def crc32cBit (x : Nat) : Nat := if x % 2 = 1 then (x / 2) ^^^ 0x82F63B78 else x / 2

/-- Applies a step eight times. -/
def eight (f : Nat → Nat) (x : Nat) : Nat := f (f (f (f (f (f (f (f x)))))))

/-- CRC-32C: reflected, initial value and final XOR 0xFFFF_FFFF (R98). -/
def crc32c (l : List Byte) : Nat := l.foldl (fun x b => eight crc32cBit (x ^^^ b.toNat)) 0xFFFFFFFF ^^^ 0xFFFFFFFF

/-- One bit step of a non-reflected CRC of width `w`. -/
def crcBit (w poly x : Nat) : Nat := if bitOf (w - 1) x then (2 * x) % 2 ^ w ^^^ poly else (2 * x) % 2 ^ w

/-- CRC-16 with polynomial 0x1021, initial value 0xFFFF, not reflected (R100). -/
def crc16 (l : List Byte) : Nat := l.foldl (fun x b => eight (crcBit 16 0x1021) (x ^^^ b.toNat * 256)) 0xFFFF

/-- CRC-8 with polynomial x⁸ + x² + x + 1, initial value 0 (R203). -/
def crc8 (l : List Byte) : Nat := l.foldl (fun x b => eight (crcBit 8 0x07) (x ^^^ b.toNat)) 0

/-- Number of ones among the low `w` bits. -/
def ones : Nat → Nat → Nat
  | 0, _ => 0
  | w + 1, n => n % 2 + ones w (n / 2)

/-- A 7-bit value with bit 7 making the number of ones even (R89). -/
def evenByte (n : Nat) : Nat := n % 128 + 128 * (ones 7 n % 2)

/-- The WN byte of a wedge (R89). -/
def wnByte (wedge : Nat) : Nat := evenByte wedge

/-- The LZ byte of a layer and zone (R89). -/
def lzByte (layer zone : Nat) : Nat := evenByte (layer % 16 + 16 * (zone % 8))

/-! ### Channel bits of a wedge field (R87–R90) -/

/-- The `w` bits of a pattern, first channel bit first (R88). -/
def patBits (w n : Nat) : List Bool := (List.range w).map (fun k => bitOf (w - 1 - k) n)

/-- A byte as biphase (R88). -/
def biphase (b : Nat) : List Bool := (patBits 8 b).flatMap (fun x => [x, !x])

/-- One clock of the scrambler: output bit and next register (R96). -/
def scrStep (x : Nat) : Bool × Nat :=
  let f := bitOf 15 x ^^ bitOf 13 x ^^ bitOf 12 x ^^ bitOf 10 x
  (bitOf 15 x, (2 * x) % 65536 + b2n f)

/-- The first `n` output bits of the scrambler from a state. -/
def scrBits : Nat → Nat → List Bool
  | 0, _ => []
  | n + 1, x => let (b, y) := scrStep x; b :: scrBits n y

/-- The calibration pattern (R90). -/
def calPattern : List Bool :=
  (List.replicate 32 (patBits 4 0b1100)).flatten ++ (List.replicate 8 (patBits 16 0xFF00)).flatten ++ scrBits 256 1

/-- F(w): length of the wedge field of wedge `w` (R90). -/
def fieldLen (w : Nat) : Nat := if w % 8 = 0 then 656 else 144

/-- The channel bits of the wedge field of wedge `w` (R87). -/
def wedgeField (w layer zone : Nat) : List Bool :=
  patBits 64 0xF0F0F0F0F0F0F0F0 ++ patBits 48 0xFFFC0003FFF0 ++ biphase (wnByte w) ++ biphase (lzByte layer zone) ++
    (if w % 8 = 0 then calPattern else [])

/-! ### The split rule (R108–R110) -/

/-- Places the rest of a sector from `pos`, on fuel. -/
def placeRest (nw w0 : Nat) : Nat → Nat → Nat → Nat
  | 0, pos, _ => pos
  | f + 1, pos, left =>
    if left = 0 then pos
    else
      let piece := min left (nw - pos % nw)
      let pos := pos + piece
      let left := left - piece
      placeRest nw w0 f (if left > 0 then pos + fieldLen ((w0 + pos / nw) % 96) else pos) left

/-- start and stop of sector `q` beginning the search at `pos` (R108). -/
def placeSector (nw w0 pos : Nat) : Nat × Nat :=
  let pos := if pos % nw = 0 then pos + fieldLen ((w0 + pos / nw) % 96) else pos
  let pos := if nw - pos % nw < 48 then pos + (nw - pos % nw) + fieldLen ((w0 + pos / nw + 1) % 96) else pos
  (pos, placeRest nw w0 8 pos 39522)

/-- start and stop of the eight sectors of a tile slot whose first wedge is `w0` (R108). -/
def placeAll (nw w0 : Nat) : Nat → Nat → List (Nat × Nat)
  | 0, _ => []
  | k + 1, pos => let p := placeSector nw w0 pos; p :: placeAll nw w0 k p.2

/-- start and stop of the sectors of a tile slot. -/
def sectorSpans (p : TilePos) : List (Nat × Nat) := placeAll (nwTable.getD p.zone 31360) (tileWedge p) 8 0

/-- Length of a tile slot in channel bits. -/
def tileBits (p : TilePos) : Nat := tileT p * nwTable.getD p.zone 31360

/-! ### Scrambling and modulation (R94–R96) -/

/-- Region, slot and tile start the scrambler (R96). -/
def scrSeed (region slot tile : Nat) : Nat :=
  let x := ((region * 64 + slot) * 256 + tile % 256) % 65536 ^^^ 0x5A5A
  if x = 0 then 1 else x

/-- Sum of ±1 over channel bits. -/
def digSum (l : List Bool) : Int := l.foldl (fun n b => if b then n + 1 else n - 1) 0

/-- Modulates words of 16 bits with their scrambler words, tracking the running digital sum (R94, R95). -/
def modulate : List (List Bool) → List (List Bool) → Int → List Bool
  | u :: us, s :: ss, rds =>
    let v0 := List.zipWith (· ^^ ·) u s
    let c0 := false :: v0
    let c1 := true :: v0.map (!·)
    let d0 := rds + digSum c0
    let d1 := rds + digSum c1
    if d1.natAbs < d0.natAbs then c1 ++ modulate us ss d1 else c0 ++ modulate us ss d0
  | _, _, _ => []

/-- Cuts a list into words of 16. -/
def words16 : Nat → List Bool → List (List Bool)
  | 0, _ => []
  | n + 1, l => l.take 16 :: words16 n (l.drop 16)

/-- The 39,522 channel bits of a sector that carries codeword `c` (R91, R94). -/
def sectorBits (region slot tile c : Nat) : List Bool :=
  let u := words16 2322 ((List.range 37152).map (Nat.testBit c))
  let s := words16 2322 (scrBits 37152 (scrSeed region slot tile))
  patBits 48 0x0003FFF0003F ++ modulate u s 0

/-- Recovers the 16 bits of a modulation codeword (R95). -/
def demodWord (p : Bool) (v s : List Bool) : List Bool := List.zipWith (fun a b => a ^^ b ^^ p) v s

/-! ### The LDPC code (R92, R93) -/

/-- A block of 516 bits cyclically shifted: bit r of the result is bit r + s of `x`. -/
def rot516 (x s : Nat) : Nat := (x >>> s) ||| ((x <<< (516 - s)) % 2 ^ 516)

/-- Column block `j` of a codeword. -/
def colBlock (c j : Nat) : Nat := (c >>> (516 * j)) % 2 ^ 516

/-- Shift of row block `i` and information column block `j`. -/
def infoShift (i j : Nat) : Nat := (i + 1) * (3 * j + 7) * (j + 11) % 516

/-- Is the information block of row block `i` and column block `j` non-zero? -/
def infoHit (i j : Nat) : Bool := i == j % 8 || i == (j + 3) % 8 || i == (j + 5) % 8

/-- Syndrome of row block `i` over the information blocks. -/
def infoSyn (c i : Nat) : Nat :=
  (List.range 64).foldl (fun a j => if infoHit i j then a ^^^ rot516 (colBlock c j) (infoShift i j) else a) 0

/-- The parity column blocks of a codeword's information bits, solved in order (R93). -/
def ldpcParity (c : Nat) : List Nat :=
  let s := (List.range 8).map (infoSyn c)
  let g := fun i => s.getD i 0
  let p0 := s.foldl (· ^^^ ·) 0
  let p1 := rot516 p0 1 ^^^ g 0
  let p2 := p1 ^^^ g 1
  let p3 := p2 ^^^ g 2
  let p4 := p3 ^^^ g 3
  let p5 := p0 ^^^ p4 ^^^ g 4
  let p6 := p5 ^^^ g 5
  [p0, p1, p2, p3, p4, p5, p6, p6 ^^^ g 6]

/-- The codeword of 4,128 bytes (R92): c[n] is bit n mod 8 of byte n div 8. -/
def ldpcEncode (l : List Byte) : Nat :=
  let info := leNat l % 2 ^ 33024
  info + ((ldpcParity info).zipIdx.foldl (fun a (p, k) => a + p <<< (516 * k)) 0) <<< 33024

/-- Does H × c = 0 hold (R92)? -/
def ldpcOk (c : Nat) : Bool :=
  let pr := fun m => colBlock c (64 + m)
  (List.range 8).all (fun i =>
    (infoSyn c i ^^^ (if i = 0 then rot516 (pr 0) 1 ^^^ pr 1 else if i = 4 then pr 0 ^^^ pr 4 ^^^ pr 5
      else if i = 7 then rot516 (pr 0) 1 ^^^ pr 7 else pr i ^^^ pr (i + 1))) == 0)

/-- The 4,128 bytes of a codeword. -/
def ldpcBytes (c : Nat) : List Byte := leBytes 4128 c

/-! ### The outer code (R102–R105) -/

/-- Product in GF(2⁸) by x⁸ + x⁴ + x³ + x² + 1 (R104). -/
def gmulLoop : Nat → Nat → Nat → Nat
  | 0, _, _ => 0
  | k + 1, a, b => (if b % 2 = 1 then a else 0) ^^^ gmulLoop k (crcBit 8 0x1D a) (b / 2)

/-- Product in GF(2⁸). -/
def gmul (a b : Nat) : Nat := gmulLoop 8 a b

/-- From aᵐ to a²ᵐ⁺¹ in GF(2⁸). -/
def gstep (a b : Nat) : Nat := gmul a (gmul b b)

/-- Inverse in GF(2⁸): a²⁵⁴, through a¹²⁷. -/
def ginv (a : Nat) : Nat :=
  let b := gstep a (gstep a (gstep a (gstep a (gstep a (gstep a a)))))
  gmul b b

/-- α to a power below 255: α is x. -/
def alphaLoop : Nat → Nat
  | 0 => 1
  | n + 1 => crcBit 8 0x1D (alphaLoop n)

/-- α to a power. -/
def alpha (n : Nat) : Nat := alphaLoop (n % 255)

/-- Value of a polynomial, lowest coefficient first. -/
def peval (p : List Nat) (x : Nat) : Nat := p.foldr (fun c a => c ^^^ gmul x a) 0

/-- Sum of two polynomials. -/
def padd : List Nat → List Nat → List Nat
  | a :: as, b :: bs => (a ^^^ b) :: padd as bs
  | [], bs => bs
  | as, [] => as

/-- A polynomial times a constant. -/
def pscale (k : Nat) (p : List Nat) : List Nat := p.map (gmul k)

/-- Product of two polynomials. -/
def pmul : List Nat → List Nat → List Nat
  | [], _ => []
  | a :: as, q => padd (pscale a q) (0 :: pmul as q)

/-- Degree of a polynomial (0 for zero). -/
def pdeg (p : List Nat) : Nat := (p.zipIdx.filter (fun (c, _) => c != 0)).foldl (fun m (_, k) => max m k) 0

/-- The generator polynomial, lowest coefficient first (R104). -/
def rsGen : List Nat := (List.range 8).foldl (fun g k => pmul g [alpha k, 1]) [1]

/-- One step of the division by the generator: the remainder, highest coefficient first, takes a data byte. -/
def rsStep (g : List Nat) (r : List Nat) (d : Nat) : List Nat :=
  let f := d ^^^ r.headD 0
  List.zipWith (· ^^^ ·) (r.drop 1 ++ [0]) (pscale f g)

/-- The eight parity bytes of 56 data bytes, for rows 0 to 7 (R104). -/
def rsParity (data : List Nat) : List Nat := data.foldl (rsStep (rsGen.take 8).reverse) (List.replicate 8 0)

/-- Syndromes of a received word of 64 bytes, coefficient of x⁶³ first. -/
def rsSyn (r : List Nat) : List Nat := (List.range 8).map (fun k => peval r.reverse (alpha k))

/-- Berlekamp–Massey with erasures, from step `e + 1` to 8 (fuel 8 − e): locator, auxiliary polynomial, length. -/
def rsBm (syn : List Nat) (e : Nat) : Nat → List Nat → List Nat → Nat → List Nat
  | 0, l, _, _ => l
  | f + 1, l, b, n =>
    let r := 8 - f
    let d := (l.zipIdx).foldl (fun a (c, i) => if i < r then a ^^^ gmul c (syn.getD (r - 1 - i) 0) else a) 0
    let xb := 0 :: b
    if d = 0 then rsBm syn e f l xb n
    else if 2 * n ≤ r + e - 1 then rsBm syn e f (padd l (pscale d xb)) (pscale (ginv d) l) (r + e - n)
    else rsBm syn e f (padd l (pscale d xb)) xb n

/-- Decodes a received word of 64 bytes with erased positions (0 the coefficient of x⁶³): the codeword within
e + 2u ≤ 8 of it, if there is one (R105). -/
def rsDecode (er : List Nat) (r : List Nat) : Option (List Nat) :=
  let e := er.length
  if 8 < e then none
  else
    let syn := rsSyn r
    if syn.all (· == 0) then some r
    else
      let gam := er.foldl (fun p k => pmul p [1, alpha (63 - k)]) [1]
      let lam := rsBm syn e (8 - e) gam gam e
      let om := (pmul syn lam).take 8
      let dl := lam.zipIdx.map (fun (c, i) => if i % 2 = 1 then c else 0) |>.drop 1
      let fix := r.zipIdx.map (fun (c, k) =>
        let x := alpha (63 - k)
        let xi := ginv x
        if peval lam xi = 0 then c ^^^ gmul (gmul x (peval om xi)) (ginv (peval dl xi)) else c)
      let roots := ((List.range 64).filter (fun k => peval lam (ginv (alpha (63 - k))) == 0)).length
      if roots = pdeg lam ∧ (rsSyn fix).all (· == 0) ∧ 2 * pdeg lam ≤ 8 + e then some fix else none

/-- Is slot `s` a parity slot (R102)? -/
def isParity (s : Nat) : Bool := s % 9 == 0

/-- Data index of data slot `s` (R103). -/
def dataIdx (s : Nat) : Nat := s - s / 9 - 1

/-- Slot of data index `i` (R103): eight data slots stand between two parity slots. -/
def slotOfIdx (i : Nat) : Nat := i / 8 * 9 + i % 8 + 1

/-- Position of slot `s` in an outer codeword, 0 the coefficient of x⁶³ (R104). -/
def rsPos (s : Nat) : Nat := if isParity s then 56 + s / 9 else dataIdx s

/-- Slot at a position of an outer codeword. -/
def rsSlot (k : Nat) : Nat := if 56 ≤ k then (k - 56) * 9 else slotOfIdx k

/-- Byte `j` of a slot's content. -/
def byteAt (l : List Byte) (j : Nat) : Nat := (l.getD j 0).toNat

/-- Columns to rows: the byte `j` of each of 64 decoded words. -/
def rsDecodeAll (er : List Nat) (slots : List (List Byte)) : Nat → Option (List (List Nat))
  | 0 => some []
  | j + 1 =>
    match rsDecodeAll er slots j, rsDecode er ((List.range 64).map (fun k => byteAt (slots.getD (rsSlot k) []) j)) with
    | some ws, some w => some (ws ++ [w])
    | _, _ => none

/-- The outer decode of a tile: contents of the 64 slots, or none when a codeword exceeds R105. -/
def outerDecode (erased : List Nat) (slots : List (List Byte)) : Option (List (List Byte)) :=
  (rsDecodeAll (erased.map rsPos) slots 4128).map (fun ws =>
    (List.range 64).map (fun s => ws.map (fun w => BitVec.ofNat 8 (w.getD (rsPos s) 0))))

/-- The eight parity slots of the 56 data slots of a tile (R104), row 0 first. -/
def outerParity (data : List (List Byte)) : List (List Byte) :=
  let cols := (List.range 4128).map (fun j => rsParity (data.map (fun l => byteAt l j)))
  (List.range 8).map (fun q => cols.map (fun c => BitVec.ofNat 8 (c.getD q 0)))

/-! ### Slot contents (R97–R101) -/

/-- A block seal (R98). -/
structure Seal where
  ref : Nat
  ns : Nat
  writer : Nat
  appTag : Nat
deriving DecidableEq, Repr

/-- The 16 bytes of a seal over 4,096 data bytes (R98). -/
def sealBytes (data : List Byte) (k : Seal) : List Byte :=
  leBytes 4 (crc32c data) ++ leBytes 6 k.ref ++ leBytes 2 k.ns ++ leBytes 2 k.writer ++ leBytes 2 k.appTag

/-- The 16 bytes of a frame header (R100). -/
def headerBytes (p : TilePos) (slot content homeTile homeSlot homeContent tag : Nat) : List Byte :=
  let h := leBytes 1 1 ++ leBytes 1 content ++ leBytes 1 (p.layer % 16 + 16 * p.zone) ++
    leBytes 1 (slot + 64 * p.region) ++ leBytes 2 p.tile ++ leBytes 2 homeTile ++ leBytes 1 homeSlot ++
    leBytes 1 homeContent ++ leBytes 2 tag ++ leBytes 2 0
  h ++ leBytes 2 (crc16 h)

/-- Does the frame header of a slot's 4,128 bytes name the position it was read from (R101)? -/
def headerOk (p : TilePos) (slot tag : Nat) (l : List Byte) : Bool :=
  let h := (l.drop 4112).take 16
  field h 14 2 == crc16 (h.take 14) && field h 2 1 == p.layer % 16 + 16 * p.zone &&
    field h 3 1 == slot + 64 * p.region && field h 4 2 == p.tile && field h 10 2 == tag

/-- Does the guard of a block match its data (R98)? -/
def guardOk (l : List Byte) : Bool := field l 4096 4 == crc32c (l.take 4096)

/-- CONTENT of a slot. -/
def slotKind (l : List Byte) : Nat := field l 4113 1

/-- The seal of a slot's bytes. -/
def sealOf (l : List Byte) : Seal := ⟨field l 4100 6, field l 4106 2, field l 4108 2, field l 4110 2⟩

/-- The seal of a fill block (R99). -/
def fillSeal (writer : Nat) : Seal := ⟨0, 0xFFFD, writer, 0⟩

/-- Block data and seal of a fill block (R99). -/
def fillBlock (writer : Nat) : List Byte := zeros 4096 ++ sealBytes (zeros 4096) (fillSeal writer)

/-- The Writer field: writer ID and generation of the part (R98, R482). -/
def writerOf (id gen : Nat) : Nat := id % 4096 + 4096 * (gen % 16)

/-! ### Metadata blocks (R116–R122) -/

/-- The 4,096 data bytes of block `part` of a record (R117). -/
def metaBlock (rtype part parts seq tod rcrc : Nat) (share : List Byte) : List Byte :=
  [0x50, 0x53, 0x4D, 0x44] ++ leBytes 1 rtype ++ leBytes 1 1 ++ leBytes 2 part ++ leBytes 2 parts ++ leBytes 2 0 ++
    leBytes 4 seq ++ leBytes 8 tod ++ leBytes 2 share.length ++ leBytes 2 0 ++ leBytes 4 rcrc ++
    share ++ zeros (4064 - share.length)

/-- Number of blocks of a payload (R117). -/
def metaParts (payload : List Byte) : Nat := max 1 ((payload.length + 4063) / 4064)

/-- The blocks of a record (R117). -/
def metaBlocks (rtype seq tod : Nat) (payload : List Byte) : List (List Byte) :=
  let n := metaParts payload
  (List.range n).map (fun k =>
    metaBlock rtype k n seq tod (crc32c payload) ((payload.drop (4064 * k)).take 4064))

/-- The seal reference of the metadata block in a slot (R99). -/
def metaRef (layer tile slot : Nat) : Nat := layer % 16 + 16 * tile + 2 ^ 20 * slot

/-- What a metadata block names: (SEQ, PART, PARTS, RTYPE, payload share, RCRC), when its magic is right (R117). -/
def metaParse (l : List Byte) : Option (Nat × Nat × Nat × Nat × List Byte × Nat) :=
  if l.take 4 = [0x50, 0x53, 0x4D, 0x44] then
    some (field l 12 4, field l 6 2, field l 8 2, field l 4 1, (l.drop 32).take (min 4064 (field l 24 2)), field l 28 4)
  else none

/-- The record with sequence number `seq` gathered from parsed blocks, accepted only when complete (R119). -/
def metaGather (found : List (Nat × Nat × Nat × Nat × List Byte × Nat)) (seq : Nat) : Option (Nat × List Byte) :=
  match found.find? (fun f => f.1 == seq) with
  | none => none
  | some (_, _, parts, rtype, _, rcrc) =>
    let share := fun k => found.find? (fun f => f.1 == seq && f.2.1 == k)
    if (List.range parts).all (fun k => (share k).isSome) then
      let pay := (List.range parts).flatMap (fun k => match share k with
        | some f => f.2.2.2.2.1
        | none => [])
      if crc32c pay = rcrc then some (rtype, pay) else none
    else none

/-- The DISC_IDENTITY payload (R120). -/
def identityPayload (discId writer tod : Nat) : List Byte :=
  leBytes 8 discId ++ leBytes 2 writer ++ [1, 16, 8, 96, 32, 36] ++ leBytes 8 tod ++ nwTable.flatMap (leBytes 4)

/-- Do bytes 10 to 55 of an identity hold the values of this chapter (R121)? INIT_TOD, bytes 16 to 23, has no value of
its own there. -/
def identityOk (l : List Byte) : Bool :=
  (l.drop 10).take 6 == [1, 16, 8, 96, 32, 36] && (l.drop 24).take 32 == nwTable.flatMap (leBytes 4)

/-- A disc ID (R122). -/
def discIdOf (writer count : Nat) : Nat := writer % 4096 * 2 ^ 52 + writer / 4096 % 16 * 2 ^ 48 + count % 2 ^ 48

/-- An entry of SPARE_LIST (R115). -/
def spareEntry (layer zone homeTile homeSlot homeRegion spareTile spareSlot : Nat) : Nat :=
  layer % 16 + 16 * (zone % 8) + 256 * (homeTile % 65536) + 2 ^ 24 * (homeSlot % 64) + 2 ^ 30 * (homeRegion % 4) +
    2 ^ 32 * (spareTile % 65536) + 2 ^ 48 * (spareSlot % 64)

end Sys2Proof.Machine
end

