-- ==== Sys2Proof/Machine/Host.lean ====
section
/-! DEFINITION. Host functions as the part sees them (R394–R423): which exist, MSI-X, writes and reads of host memory,
completion records, event records and violations. -/

namespace Sys2Proof.Machine

open Reg

/-! ### Lists of keys and values -/

/-- The value listed for a key. -/
def keyFind {α : Type} (k : Nat) (l : List (Nat × α)) : Option α := (l.find? (fun p => p.1 == k)).map (·.2)

/-- The list without a key. -/
def keyErase {α : Type} (k : Nat) (l : List (Nat × α)) : List (Nat × α) := l.filter (fun p => p.1 != k)

/-- The list with a key's value replaced, keys rising. -/
def keySet {α : Type} (k : Nat) (v : α) : List (Nat × α) → List (Nat × α)
  | [] => [(k, v)]
  | (a, w) :: r => if k < a then (k, v) :: (a, w) :: r else if k = a then (k, v) :: r else (a, w) :: keySet k v r

/-! ### Functions and rings -/

/-- Changes the host side. -/
def State.onHost (s : State) (f : Hqe → Hqe) : State := { s with host := f s.host }

/-- The part sends a message. -/
def State.send (s : State) (m : Msg) : State := s.onHost (fun h => { h with sent := h.sent ++ [m] })

/-- A function's state; function numbers above 63 name none. -/
def State.hfn (s : State) (f : Nat) : HFn := if h : f < 64 then s.host.fns[f] else {}

/-- Changes a function's state. -/
def State.onFn (s : State) (f : Nat) (g : HFn → HFn) : State :=
  if h : f < 64 then s.onHost (fun k => { k with fns := k.fns.set f (g k.fns[f]) }) else s

/-- Changes a port's state. -/
def State.onPort (s : State) (p : Two) (g : Port → Port) : State :=
  s.onHost (fun k => { k with ports := k.ports.set p (g k.ports[p]) })

/-- The administrative function (R400). -/
def afFunc (s : State) : Nat := if s.straps.afSel then 32 else 0

/-- The port of a function (R42). -/
def fnPort (f : Nat) : Two := if f < 32 then 0 else 1

/-- Does function `f` exist (R398)? -/
def fnExists (f : Nat) (s : State) : Bool :=
  let p := (fnPort f).val
  decide (f < 64) && (f % 32 == 0 || (s.getb (HLK_PORTp_VF_EN.i p) && decide (f % 32 ≤ s.get (HLK_PORTp_NUM_VFS.i p))))

/-- Does a reset of function `f` run (R411)? -/
def fnResetting (f : Nat) (s : State) : Bool := bitOf (f % 32) (s.get (HLK_RSTp.i (fnPort f).val))

/-- First global ring of a function (R424). -/
def ringFirst (f : Nat) (s : State) : Nat := s.get (HQE_FRINGf_BASE.i f)

/-- Rings a function owns (R424, R458). -/
def ringTotal (f : Nat) (s : State) : Nat := min 1024 (s.get (HQE_FRINGf_COUNT.i f))

/-- The owner of a global ring (R424). -/
def ringOwner (g : Nat) (s : State) : Option Nat :=
  (List.range 64).find? (fun f => decide (ringFirst f s ≤ g ∧ g < ringFirst f s + ringTotal f s))

/-- Global ring of a function's local ring, when it has it (R424, R426). -/
def ringOf (f r : Nat) (s : State) : Option Nat := if r < ringTotal f s then some (ringFirst f s + r) else none

/-- Is a global ring its owner's admin ring? -/
def isAdminRing (g : Nat) (s : State) : Bool := match ringOwner g s with
  | some f => ringFirst f s == g
  | none => false

/-- State code of a ring (R427). -/
def ringState (g : Nat) (s : State) : Nat := s.get (RC_STAT_STATE.i g)

/-- Entries of a ring (R429, R459). -/
def ringDepth (g : Nat) (s : State) : Nat := 2 ^ clampN 4 12 (s.get (RC_CFG_LOG_DEPTH.i g))

/-- A ring besides its control page. -/
def State.ringX (s : State) (g : Nat) : RingX := (keyFind g s.host.rings).getD {}

/-- Changes a ring besides its control page. -/
def State.onRing (s : State) (g : Nat) (f : RingX → RingX) : State :=
  s.onHost (fun h => { h with rings := keySet g (f (s.ringX g)) h.rings })

/-- Host address of an entry (R429). -/
def entryAddr (g index : Nat) (s : State) : Nat :=
  s.get (RC_BASE_HI_BASE.i g) * 2 ^ 32 + s.get (RC_BASE_LO_BASE.i g) * 4096 + 64 * index

/-! ### MSI-X (R404, R405) -/

/-- An MSI-X table entry of a function. -/
def State.vect (s : State) (f v : Nat) : Vect := (keyFind v (s.hfn f).vects).getD {}

/-- An interrupt of vector `v` of function `f` falls due (R405). -/
def interrupt (f v : Nat) (s : State) : State :=
  let k := s.hfn f
  let e := s.vect f v
  if !k.msixEn || fnResetting f s then s
  else if k.msixMask || e.masked then
    s.onFn f (fun k => if k.pba.contains v then k else { k with pba := k.pba ++ [v] })
  else s.send (.msix f e.addr e.data)

/-- After a mask has cleared: each pending vector that is no longer masked sends one message (R405). -/
def unmaskAll (f : Nat) (s : State) : State :=
  s.each (s.hfn f).pba (fun s v =>
    let k := s.hfn f
    let e := s.vect f v
    if !k.msixEn || k.msixMask || e.masked then s
    else (s.onFn f (fun k => { k with pba := k.pba.filter (· != v) })).send (.msix f e.addr e.data))

/-! ### Host memory (R406–R408) -/

/-- The function whose Device Control fields govern requests of `f` (R408). -/
def govFn (f : Nat) : Nat := f / 32 * 32

/-- Cuts a run of addresses into requests of at most `most` bytes that cross no 4 KiB boundary (R408); on fuel. -/
def cutRun (most : Nat) : Nat → Nat → Nat → List (Nat × Nat)
  | 0, _, _ => []
  | f + 1, addr, len =>
    if len = 0 then []
    else
      let n := min (min len most) (4096 - addr % 4096)
      (addr, n) :: cutRun most f (addr + n) (len - n)

/-- Requests of a run. -/
def cutAll (most addr len : Nat) : List (Nat × Nat) := cutRun (max 1 most) (len / max 1 most + len / 4096 + 3) addr len

/-- Writes data for function `f` at a run of host memory (R407, R408). -/
def writeRun (f addr : Nat) (data : List Byte) (s : State) : State :=
  let k := s.hfn (govFn f)
  (cutAll (min 512 k.mps) addr data.length).foldl (fun s (a, n) =>
    s.send (.write f a ((data.drop (a - addr)).take n) (s.hfn (govFn f)).relaxed)) s

/-- Segments that a data buffer spans (R430, R432): its own, or the list's. -/
def segsOf (e : List Byte) (segs : List (Nat × Nat)) : List (Nat × Nat) :=
  if field e 44 1 = 0 then [(field e 32 8, field e 40 4)] else segs

/-- Writes data into a command's buffer from byte `off` on. -/
def writeBuf (f : Nat) : List (Nat × Nat) → Nat → List Byte → State → State
  | [], _, _, s => s
  | (a, n) :: r, off, data, s =>
    if data.length = 0 then s
    else if n ≤ off then writeBuf f r (off - n) data s
    else
      let k := min (n - off) data.length
      writeBuf f r 0 (data.drop k) (writeRun f (a + off) (data.take k) s)

/-- Reads that a command's buffer of `len` bytes takes (R408). -/
def readRuns (most : Nat) : List (Nat × Nat) → Nat → List (Nat × Nat)
  | [], _ => []
  | (a, n) :: r, len => if len = 0 then [] else cutAll most a (min n len) ++ readRuns most r (len - min n len)

/-! ### Records (R443–R447) -/

/-- Bytes 1 to 15 of a completion record (R443). -/
def recordTail (status detail count tag : Nat) : List Byte :=
  leBytes 1 status ++ leBytes 2 detail ++ leBytes 4 count ++ leBytes 8 tag

/-- Writes a completion record over an entry: bytes 1 to 15, then byte 0 (R443, R444). Nothing is written for a function
whose reset runs (R411). -/
def writeRecord (f addr : Nat) (phase : Bool) (stage status detail count tag : Nat) (s : State) : State :=
  if fnResetting f s then s
  else (s.send (.write f (addr + 1) (recordTail status detail count tag) false)).send
    (.write f addr (leBytes 1 (b2n phase + 2 * stage)) false)

/-- An event record for the admin ring of function `f` (R454–R456): written, or dropped and counted as LOST. -/
def postEvent (f kind code supp localRing : Nat) (s : State) : State :=
  match ringOf f 0 s with
  | none => s
  | some g =>
    let k := s.hfn f
    let t := s.get (RC_EVQ_PTR_EVQ_TAIL.i g)
    let seq := k.evSeq
    let s := s.onFn f (fun k => { k with evSeq := (k.evSeq + 1) % 65536 })
    if !s.getb (RC_EVQ_LO_EVQ_EN.i g) || ringState g s != 1 || (t + 1) % 64 == s.get (RC_EVQ_PTR_EVQ_HEAD.i g) then
      s.bump (RC_EVQ_PTR_LOST.i g) 1
    else
      let addr := s.get (RC_EVQ_HI_EVQ_BASE.i g) * 2 ^ 32 + s.get (RC_EVQ_LO_EVQ_BASE.i g) * 1024 + 16 * t
      let tail := leBytes 1 kind ++ leBytes 1 code ++ leBytes 1 (min 255 supp) ++ leBytes 2 localRing ++ leBytes 2 0 ++
        leBytes 6 s.stamp ++ leBytes 2 seq
      let s := (s.send (.write f (addr + 1) tail false)).send (.write f addr (leBytes 1 (b2n k.evPhase)) false)
      let s := interrupt f 0 s
      let s := s.put (RC_EVQ_PTR_EVQ_TAIL.i g) ((t + 1) % 64)
      if t = 63 then s.onFn f (fun k => { k with evPhase := !k.evPhase }) else s

/-! ### Violations (R416–R420) -/

/-- The HLK block. -/
def hlkBlk : Blk := ⟨.hlk, 0⟩

/-- Enters a violation in its port's log (R417, R700). -/
def logViolation (f code localRing detail : Nat) (s : State) : State :=
  let cap := s.logCap 1024
  let e : ViolEntry := ⟨s.stamp, code, ⟨f % 64, Nat.mod_lt _ (by decide)⟩, localRing, detail⟩
  let n := s.hlt.violNext
  let full := fun (r : LogRing ViolEntry) => decide (cap ≤ r.held.length)
  let wraps := if f < 32 then full s.hlt.viol0 else full s.hlt.viol1
  let push := fun (r : LogRing ViolEntry) => logPush cap { r with next := n } e
  let s := s.onHlt (fun h => if f < 32 then { h with viol0 := push h.viol0, violNext := n + 1 }
    else { h with viol1 := push h.viol1, violNext := n + 1 })
  let s := s.bump (HLK_VCNTp_VIOL.i (fnPort f).val) 1
  let s := if wraps then s.bump (HLK_VCNTp_WRAPS.i (fnPort f).val) 1 else s
  s.raise hlkBlk 3

/-- A violation of function `f` (R416–R420): logged, and formed as an event of its admin ring. -/
def violation (f code localRing detail : Nat) (s : State) : State :=
  let s := logViolation f code localRing detail s
  let s := if 8 ≤ code ∧ code ≤ 11 then (s.bump (HLK_DCNTp_DMA_FAULT.i (fnPort f).val) 1).raise hlkBlk 4 else s
  let running := match ringOf f 0 s with
    | some g => ringState g s == 1
    | none => false
  let k := s.hfn f
  if fnResetting f s || !running then s
  else
    let within := match k.lastEvent with
      | some t => decide (s.now < t + 4000)
      | none => false
    if within then
      (s.onFn f (fun k => { k with supp := k.supp + 1 })).bump (HLK_VCNTp_SUPPRESSED.i (fnPort f).val) 1
    else
      let s := s.onFn f (fun k => { k with lastEvent := some s.now, supp := 0 })
      postEvent f 1 code k.supp localRing s

end Sys2Proof.Machine
end

