-- ==== Sys2Proof/Machine/Regions.lean ====
section
/-! DEFINITION. The flash regions whose records the model keeps as lists, as the words of flash they are (R632, log 42): the
map journal (R519, R520), the Welt journal (R563), the lost-stripe list (R575) and the persisted logs (R703). -/

namespace Sys2Proof.Machine

open Reg

/-! ### Extent map entries, changes and journal records (R510, R513, R519, R520) -/

/-- The 16 bytes of an extent map entry (R510). -/
def extBytes : Option Ext → List Byte
  | none => zeros 16
  | some (.linear d l z b t st fill) =>
    leBytes 8 d ++ leBytes 8 (1 + l * 4 + z * 2 ^ 6 + b * 2 ^ 9 + t * 2 ^ 24 + st * 2 ^ 40 + fill * 2 ^ 46)
  | some (.patched d p) => leBytes 8 d ++ leBytes 8 (2 + p * 4)
  | some (.absent d) => leBytes 8 d ++ leBytes 8 3

/-- A patch entry as a 64-bit word (R513). -/
def patchWord (p : Patch) : Nat :=
  1 + p.idx * 4 + p.layer * 2 ^ 18 + p.zone * 2 ^ 22 + p.tile * 2 ^ 25 + p.data * 2 ^ 41

/-- A change (R520). -/
def chgBytes (c : Change) : List Byte :=
  let row := fun (t b4 b8 : Nat) (b16 : List Byte) => leBytes 4 t ++ leBytes 4 b4 ++ leBytes 8 b8 ++ b16
  match c with
  | .extentSet e x => row 1 e 0 (extBytes x)
  | .patchSet e n p d => row 2 e n (leBytes 8 (patchWord p) ++ leBytes 8 d)
  | .nsCreate b n l sd size ow => row 3 b (n + l * 2 ^ 16 + sd * 2 ^ 24) (leBytes 8 size ++ leBytes 8 ow)
  | .nsDelete n => row 4 0 n (zeros 16)
  | .checkpointed j d => row 5 0 0 (leBytes 8 j ++ leBytes 8 d)
  | .featureSet n f v => row 6 0 (n + f * 2 ^ 16) (leBytes 8 v ++ zeros 8)
  | .discEntry k d => row 7 k 0 (zeros 8 ++ leBytes 8 d)
  | .nsImport n o q => row 8 0 (n + b2n o * 2 ^ 16) (leBytes 8 q ++ zeros 8)
  | .resume q => row 9 0 0 (leBytes 8 q ++ zeros 8)

/-- A journal record (R519). -/
def jrecBytes (r : JRec) : List Byte :=
  let head := [0x4D, 0x4A, 0x52, 0x4E] ++ leBytes 8 r.seq ++ leBytes 6 r.tick ++ leBytes 2 r.changes.length ++
    leBytes 1 (b2n r.last) ++ zeros 7
  let body := r.changes.flatMap chgBytes
  head ++ leBytes 4 (crc32c (head ++ body)) ++ body

/-! ### Welt records and lost-stripe entries (R563, R575) -/

/-- A Welt record as 64 bytes (R563). -/
def weltBytes (w : Welt) : List Byte :=
  let b := [0x57, 0x4C, 0x54, 0x4A] ++ leBytes 8 w.wseq ++ leBytes 1 w.kind ++ leBytes 1 w.layout ++ leBytes 1 w.missing ++
    [0] ++ leBytes 8 w.set ++ leBytes 1 w.layer ++ leBytes 1 w.zone ++ leBytes 2 w.tile ++ leBytes 8 w.link ++
    leBytes 8 w.repl ++ leBytes 1 w.rstate ++ zeros 15
  b ++ leBytes 4 (crc32c b)

/-- An entry of any log: tick, bytes 6 and 7, INDEX and bytes 16 to 31. -/
def logBytes (tick b6 index : Nat) (data : List Byte) : List Byte :=
  leBytes 6 tick ++ leBytes 2 b6 ++ leBytes 8 index ++ (data ++ zeros (16 - data.length)).take 16

/-- KIND and DATA of an event log entry (R702). -/
def eventData : EventData → Nat × List Byte
  | .fault c i t d cnt las rep => (0x01, leBytes 1 c ++ leBytes 1 i ++ leBytes 2 t ++ leBytes 4 d ++
      leBytes 1 (b2n cnt + 2 * b2n las + 4 * b2n rep))
  | .cleared c i o => (0x02, leBytes 1 c ++ leBytes 1 i ++ leBytes 2 o)
  | .fifoOverrun n => (0x03, leBytes 4 n)
  | .timeSet o n => (0x04, leBytes 8 o ++ leBytes 8 n)
  | .commandDropped f r i t => (0x05, leBytes 1 2 ++ leBytes 1 f.val ++ leBytes 2 r ++ leBytes 2 i ++ zeros 2 ++ leBytes 8 t)
  | .flashUnfinished n => (0x06, leBytes 2 n)
  | .dramUe n => (0x07, leBytes 4 n)
  | .journalHolder d => (0x08, zeros 8 ++ leBytes 8 d)
  | .fwStart k f v => (0x09, leBytes 1 k ++ leBytes 1 (b2n f) ++ zeros 2 ++ leBytes 4 v)
  | .dramTrain f => (0x0A, leBytes 1 f)
  | .memberFailed c d => (0x0B, leBytes 1 c ++ zeros 7 ++ leBytes 8 d)
  | .recordEnd k c => (0x0C, leBytes 1 k ++ leBytes 1 c)

/-- Bytes of an event log entry. -/
def eventBytes (p : Nat × EventEntry) : List Byte :=
  let (k, d) := eventData p.2.data
  logBytes p.2.tick k p.1 d

/-- Bytes of a change-log entry (R701). -/
def changeBytes (p : Nat × ChangeEntry) : List Byte :=
  logBytes p.2.tick p.2.origin p.1 (leBytes 4 p.2.addr ++ leBytes 4 p.2.old.toNat ++ leBytes 4 p.2.new.toNat)

/-- Bytes of a violation log entry (R701). -/
def violBytes (p : Nat × ViolEntry) : List Byte :=
  logBytes p.2.tick (p.2.code + 256 * p.2.fn.val) p.1 (leBytes 2 p.2.localRing ++ zeros 2 ++ leBytes 4 p.2.detail)

/-- Bytes of a lost-stripe list entry (R575). -/
def lostBytes (e : LostE) : List Byte :=
  leBytes 8 e.set ++ leBytes 1 e.layer ++ leBytes 1 e.zone ++ leBytes 2 e.tile ++ leBytes 1 e.members ++ leBytes 1 e.cause ++
    zeros 2 ++ leBytes 8 e.slots ++ leBytes 6 e.tick ++ zeros 2

/-- A persisted log record of 48 bytes (R703). -/
def persistBytes (p : Persisted) : List Byte :=
  let l := match p with
    | .event i e => eventBytes (i, e) ++ [1]
    | .change i e => changeBytes (i, e) ++ [2]
    | .viol i e => violBytes (i, e) ++ [3]
  let b := l ++ zeros 11
  b ++ leBytes 4 (crc32c b)

/-! ### The regions (R632) -/

/-- An erased word (R615). -/
def erasedWord : Nat := 2 ^ 128 - 1

/-- The bytes from the start of a sector on that the lists give it; both banks' sectors count on. -/
def viewBytes (n : Nat) (s : State) : List Byte :=
  let k := n % 256
  let b := n / 256
  if 64 ≤ k ∧ k < 112 then (s.map.jrnl.filter (fun r => r.sector == 48 * b + (k - 64))).flatMap jrecBytes
  else if 144 ≤ k ∧ k < 160 then (s.str.welt.filter (fun r => r.sector == 16 * b + (k - 144))).flatMap weltBytes
  else if 160 ≤ k ∧ k < 192 then ((s.str.lost.drop (32768 * b + 1024 * (k - 160))).take 1024).flatMap lostBytes
  else if 192 ≤ k ∧ k < 208 then
    ((s.hlt.persisted.drop (682 * ((16 * b + (k - 192) + 32 - s.hlt.logFirst % 32) % 32))).take 682).flatMap persistBytes
  else []

/-- The word that the lists give an address. -/
def viewWord (w : Nat) (s : State) : Nat :=
  let l := ((viewBytes (w / 2048 % 512) s).drop (16 * (w % 2048))).take 16
  if l = [] then erasedWord else leNat (l ++ List.replicate (16 - l.length) 0xFF)

end Sys2Proof.Machine
end

