-- ==== Sys2Proof/Machine/Flash.lean ====
section
/-! DEFINITION. The flash (R614–R649): words and check bits, the command interface of a bank, flag cells, the fetch
guard, images and the boot selector. -/

namespace Sys2Proof.Machine

open Reg

/-- The FLS block. -/
def flsBlk : Blk := ⟨.fls, 0⟩

/-- Changes the flash. -/
def State.onFls (s : State) (f : Fls → Fls) : State := { s with fls := f s.fls }

/-- A flash bank besides its registers. -/
def State.fbank (s : State) (b : Two) : FBank := s.fls.banks[b]

/-- Changes a flash bank. -/
def State.onBank (s : State) (b : Two) (f : FBank → FBank) : State :=
  s.onFls (fun k => { k with banks := k.banks.set b (f k.banks[b]) })

/-! ### Words (R614–R617, R621) -/

/-- The 128 data bits of a word; addresses are byte addresses over 16 (R614). -/
def flashWord (w : Nat) (s : State) : Nat := (keyFind w s.fls.words).getD (viewWord w s)

/-- Stores a word; an erased word is not listed, unless the records kept beside the words give it another content. -/
def flashPut (w d : Nat) (s : State) : State :=
  let erased := d = erasedWord ∧ viewWord w s = erasedWord
  s.onFls (fun k => { k with words := if erased then keyErase w k.words else keySet w d k.words })

/-- Bank of a word (R614). -/
def wordBank (w : Nat) : Two := if w / 2 ^ 19 % 2 = 0 then 0 else 1

/-- Sector of a word, 0 to 511 (R614). -/
def wordSector (w : Nat) : Nat := w / 2048 % 512

/-- Byte offset of a word in its bank. -/
def bankOffset (w : Nat) : Nat := w % 2 ^ 19 * 16

/-- Does the word lie in a raw region (R617, R632)? -/
def rawWord (w : Nat) : Bool := decide (0x6C0000 ≤ bankOffset w ∧ bankOffset w < 0x6D0000)

/-- State code of a bank (R623, R647). -/
def bankState (b : Two) (s : State) : Nat := s.get (FLS_RESb_STATE.i b.val)

/-- Does a data read of the word find the status word instead (R620)? -/
def readBusy (w : Nat) (s : State) : Bool :=
  match bankState (wordBank w) s with
  | 1 | 2 | 4 => true
  | 3 => (s.fbank (wordBank w)).erasing == some (wordSector w)
  | _ => false

/-- The word of four status words (R620). -/
def busyWord : Nat := 0xFA57B5B5 * (1 + 2 ^ 32 + 2 ^ 64 + 2 ^ 96)

/-- Notes a read of a busy bank (R620). -/
def readWhileBusy (s : State) : State :=
  ((s.putb FLS_STAT_READ_WHILE_BUSY true).bump FLS_CNT_REF_READ_WHILE_BUSY 1).raise flsBlk 3

/-- Reads a word with some of its 137 bits wrong (R616, R617): STATUS, data, state. -/
def readWord (w : Nat) (err : List Nat) (s : State) : Nat × Nat × State :=
  let bad := (List.range 137).filter err.contains
  let d := flashWord w s
  let flipped := (bad.filter (· < 128)).foldl (fun d k => d ^^^ 2 ^ k) d
  if rawWord w then (0, flipped, s)
  else match bad.length with
    | 0 => (0, d, s)
    | 1 => (0x0D, d, s.bump FLS_CNT_ECC_CORRECTED 1)
    | _ => (0x0B, flipped, ((s.bump FLS_CNT_ECC_UE 1).raise flsBlk 5).fault 26 0 flsBlk)

/-! ### Commands (R619–R631) -/

/-- A command of a bank ends, or is refused, with a status (R619). -/
def opEnd (b : Two) (status : Nat) (s : State) : State :=
  (s.put (FLS_RESb_STATUS.i b.val) status).raise flsBlk (1 + b.val)

/-- Is an origin of class ADMIN (R63)? -/
def isAdmin (o : Origin) (s : State) : Bool := match o with
  | .fn f => f.val == afFunc s
  | .i2c | .jtag => true
  | .core _ | .seqr _ _ => false

/-- May the origin read the word by command (R631)? -/
def mayReadFlash (o : Origin) (w : Nat) (s : State) : Bool :=
  let a := bankOffset w
  !isAdmin o s || decide (a < 0x200000 ∨ (0x680000 ≤ a ∧ a < 0x6C0000) ∨ 0x780000 ≤ a)

/-- May the origin program or erase the word (R631, R632)? -/
def mayWriteFlash (o : Origin) (w : Nat) (s : State) : Bool := !isAdmin o s || decide (0x780000 ≤ bankOffset w)

/-- Does the fetch guard hold the bank (R628)? -/
def fetchGuard (b : Two) (s : State) : Bool := s.get FLS_STAT_FETCH_BANK == b.val && !s.getb FLS_DIVERT_FETCH_DIVERT

/-- Is R627 in effect? -/
def powerHold (s : State) : Bool := s.pwr.pwrfailLow && s.pwr.confirmed

/-- A refusal for BANK_IN_USE, counted (R628). -/
def bankInUse (b : Two) (s : State) : State := opEnd b 3 (s.bump FLS_CNT_REF_BANK_IN_USE 1)

/-- Word address in FLS_ADDRb. -/
def cmdWord (b : Two) (s : State) : Nat := s.get (FLS_ADDRb_ADDR.i b.val)

/-- The word in the data registers of a bank. -/
def cmdData (b : Two) (s : State) : Nat :=
  (List.range 4).foldl (fun n k => n + s.get (FLS_DATAb_n_DATA.ij b.val k) * 2 ^ (32 * k)) 0

/-- Loads the data registers of a bank. -/
def loadData (b : Two) (d : Nat) (s : State) : State :=
  s.each (List.range 4) (fun s k => s.put (FLS_DATAb_n_DATA.ij b.val k) (d / 2 ^ (32 * k) % 2 ^ 32))

/-- Would the program leave a bit 0 where the stored word allows it (R621)? -/
def programOk (w d : Nat) (s : State) : Bool :=
  if rawWord w then flashWord w s &&& d == d else flashWord w s == erasedWord

/-- READ of a bank (R619, R620, R631). -/
def cmdRead (o : Origin) (b : Two) (err : List Nat) (s : State) : State :=
  let w := cmdWord b s
  if wordBank w ≠ b then opEnd b 9 s
  else if !mayReadFlash o w s then opEnd b 4 s
  else if readBusy w s then opEnd b 0x0A (readWhileBusy (loadData b busyWord s))
  else
    let (st, d, s) := readWord w err s
    opEnd b st (loadData b d s)

/-- PROGRAM of a bank (R621, R623, R628, R631). -/
def cmdProgram (o : Origin) (b : Two) (s : State) : State :=
  let w := cmdWord b s
  let d := cmdData b s
  let st := bankState b s
  if st ≠ 0 ∧ st ≠ 3 then opEnd b 1 s
  else if wordBank w ≠ b then opEnd b 9 s
  else if !mayWriteFlash o w s then opEnd b 4 s
  else if fetchGuard b s then bankInUse b s
  else if st = 3 ∧ (s.fbank b).erasing = some (wordSector w) then opEnd b 7 s
  else if !programOk w d s then opEnd b 2 (s.bump FLS_CNT_REF_PROG_TWICE 1)
  else (s.onBank b (fun k => { k with prog := some (w, d) })).put (FLS_RESb_STATE.i b.val) (if st = 3 then 4 else 1)

/-- ERASE of a bank (R623, R624, R627, R628, R631): the flag cell is programmed and the erase begins. -/
def cmdErase (o : Origin) (b : Two) (s : State) : State :=
  let w := cmdWord b s
  let st := bankState b s
  if st = 1 ∨ st = 2 then opEnd b 1 s
  else if st ≠ 0 then opEnd b 8 s
  else if wordBank w ≠ b then opEnd b 9 s
  else if !mayWriteFlash o w s then opEnd b 4 s
  else if fetchGuard b s then bankInUse b s
  else if powerHold s then opEnd b 0x0C s
  else
    let n := wordSector w
    let s := s.onFls (fun k => { k with flags := n :: k.flags })
    (s.onBank b (fun k => { k with erasing := some n, runSince := s.now, runBefore := 0, accepted := false })).put
      (FLS_RESb_STATE.i b.val) 2

/-- Has the erase of a bank run 1 ms since it started or was resumed (R626)? -/
def suspendDue (b : Two) (s : State) : Bool := decide ((s.fbank b).runSince + 400 ≤ s.now)

/-- A suspend is accepted (R626). -/
def suspendAccept (b : Two) (s : State) : State :=
  (s.onBank b (fun k => { k with
    accepted := true
    runBefore := k.runBefore + (s.now - k.runSince) })).bump FLS_CNT_SUSP_SUSPENDS 1

/-- SUSPEND of a bank (R623, R626). -/
def cmdSuspend (b : Two) (s : State) : State :=
  let st := bankState b s
  if st = 1 ∨ st = 4 then opEnd b 6 s
  else if st ≠ 2 ∨ (s.fbank b).accepted then s
  else if suspendDue b s then suspendAccept b s
  else (s.putb (FLS_RESb_SUSP_PEND.i b.val) true).bump FLS_CNT_SUSP_SUSP_WAITS 1

/-- The suspended erase of a bank goes on (R626). -/
def resumeErase (b : Two) (s : State) : State :=
  (s.onBank b (fun k => { k with runSince := s.now, resumeHeld := false, accepted := false })).put
    (FLS_RESb_STATE.i b.val) 2

/-- RESUME of a bank (R623, R626–R628). -/
def cmdResume (b : Two) (s : State) : State :=
  let st := bankState b s
  if st = 2 then s.putb (FLS_RESb_SUSP_PEND.i b.val) false
  else if st ≠ 3 ∧ st ≠ 4 then s
  else if fetchGuard b s then bankInUse b s
  else if powerHold s then opEnd b 0x0C s
  else if st = 3 then opEnd b 0 (resumeErase b s)
  else s.onBank b (fun k => { k with resumeHeld := true })

/-- The effect of a write of `cmd` to FLS_CMDb (R619, R623, R625); `err`: bits a read finds wrong. -/
def flashCmd (o : Origin) (b : Two) (cmd : Nat) (err : List Nat) (s : State) : State :=
  if cmd = 0 ∨ 5 < cmd then s
  else if !s.getb FLS_STAT_SCAN_DONE then opEnd b 1 s
  else match cmd with
    | 1 => cmdRead o b err s
    | 2 => cmdProgram o b s
    | 3 => cmdErase o b s
    | 4 => cmdSuspend b s
    | _ => cmdResume b s

/-! ### Ends of operations (R622, R624–R626) -/

/-- Structured journal records in an erased sector go with it (log 42): sectors of the map journal (R519) and of the
Welt journal (R563) numbered over both banks. -/
def eraseRecords (n : Nat) (s : State) : State :=
  let k := n % 256
  let b := n / 256
  if 64 ≤ k ∧ k < 112 then
    { s with map := { s.map with jrnl := s.map.jrnl.filter (fun r => r.sector != 48 * b + (k - 64)) } }
  else if 144 ≤ k ∧ k < 160 then
    { s with str := { s.str with welt := s.str.welt.filter (fun r => r.sector != 16 * b + (k - 144)) } }
  else s

/-- The words of a sector are erased; when the verify failed they hold what the free value says (R624, log 40). In the lost-stripe
list's and the logs' sectors the erased words are listed over the records kept beside them (log 42). -/
def eraseSector (n : Nat) (bad : Bool) (s : State) : State :=
  let s := eraseRecords n (s.onFls (fun k => { k with words := k.words.filter (fun p => wordSector p.1 != n) }))
  let s := if 160 ≤ n % 256 ∧ n % 256 < 208 then
      (List.range 2048).foldl (fun s k => flashPut (2048 * n + k) erasedWord s) s
    else s
  if bad then (List.range 2048).foldl (fun s k =>
    flashPut (2048 * n + k) (Config.flashBad (2048 * n + k) s.now % 2 ^ 128) s) s
  else s

/-- The program of a bank ends (R622). -/
def execFlashProgramDone (b : Two) (bad : Bool) (s : State) : Out := gate s <|
  .next (match (s.fbank b).prog with
    | none => s
    | some (w, d) =>
      let nested := bankState b s == 4
      let s := (s.onBank b (fun k => { k with prog := none })).bump FLS_CNT_OPS_PROGRAMS 1
      let s := s.put (FLS_RESb_STATE.i b.val) (if nested then 3 else 0)
      let s := flashPut w (if bad then Config.flashBad w s.now % 2 ^ 128 else d) s
      let s := if bad then opEnd b 5 ((s.bump FLS_CNT_ECC_VERIFY_FAIL 1).fault 27 0 flsBlk) else opEnd b 0 s
      if nested && (s.fbank b).resumeHeld then opEnd b 0 (resumeErase b s) else s)

/-- The erase of a bank ends (R624). -/
def execFlashEraseDone (b : Two) (bad : Bool) (s : State) : Out := gate s <|
  .next (match (s.fbank b).erasing with
    | none => s
    | some n =>
      if bankState b s ≠ 2 ∨ (s.fbank b).accepted then s
      else
        let s := (eraseSector n bad s).onFls (fun k => { k with flags := k.flags.filter (· != n) })
        let s := (s.onBank b (fun k => { k with erasing := none })).bump FLS_CNT_OPS_ERASES 1
        let s := (s.put (FLS_RESb_STATE.i b.val) 0).putb (FLS_RESb_SUSP_PEND.i b.val) false
        if bad then opEnd b 5 (s.bump FLS_CNT_ECC_VERIFY_FAIL 1) else opEnd b 0 s)

/-- The pending suspend of a bank is judged (R626). -/
def execFlashSuspendAccept (b : Two) (s : State) : Out := gate s <|
  .next (if s.getb (FLS_RESb_SUSP_PEND.i b.val) && bankState b s == 2 && suspendDue b s then
      suspendAccept b (s.putb (FLS_RESb_SUSP_PEND.i b.val) false)
    else s)

/-- An accepted suspend completes (R626). -/
def execFlashSuspended (b : Two) (s : State) : Out := gate s <|
  .next (if bankState b s = 2 ∧ (s.fbank b).accepted then
      opEnd b 0 ((s.onBank b (fun k => { k with accepted := false })).put (FLS_RESb_STATE.i b.val) 3)
    else s)

/-! ### Core reads and the fetch guard (R616, R620, R628–R630) -/

/-- The cores restart from the same image (R40, R603, R616, R690): they resume with CORE_RELEASE (DEDUCED, log 137). -/
def coreRestart (s : State) : State := (s.fault 37 0 ⟨.sys, 0⟩).onFls (fun k => { k with coreGap := true })

/-- A read of flash by a management core, or an instruction fetch. A fetch under diversion waits; an uncorrectable one
restarts the cores (R616, R629, R690). -/
def execFlashCoreRead (core : Two) (addr : Nat) (fetch : Bool) (err : List Nat) (s : State) : Out := gate s <|
  let w := addr / 16 % 2 ^ 20
  .next (if !s.getb FLS_STAT_SCAN_DONE then s
    else if fetch && s.getb FLS_STAT_DIVERTED then
      s.onFls (fun k => { k with stall := k.stall.modify core.val (fun o => some (o.getD (s.now, false))) })
    else if !fetch && readBusy w s then
      (readWhileBusy s).onFls (fun k => { k with got := k.got.set core.val busyWord })
    else
      let (st, d, s) := readWord w err s
      if fetch then (if st = 0x0B then coreRestart s else s)
      else s.onFls (fun k => { k with got := k.got.set core.val d }))

/-- Has FETCH_BANK no program or erase running or suspended (R630)? -/
def fetchBankIdle (s : State) : Bool :=
  let b : Two := if s.getb FLS_STAT_FETCH_BANK then 1 else 0
  bankState b s == 0

/-- Diversion ends: waiting fetches are served (R629, R630). -/
def divertEnd (s : State) : State :=
  (s.putb FLS_STAT_DIVERTED false).onFls (fun k => { k with stall := [none, none] })

/-- The effect of a write to FLS_DIVERT (R630). -/
def divertEffect (s : State) : State :=
  if s.getb FLS_DIVERT_FETCH_DIVERT then s.putb FLS_STAT_DIVERTED true
  else if fetchBankIdle s then divertEnd s else s

/-- The end of diversion is judged (R630). -/
def execFetchDivertEnd (s : State) : Out := gate s <|
  .next (if s.getb FLS_STAT_DIVERTED && !s.getb FLS_DIVERT_FETCH_DIVERT && fetchBankIdle s then divertEnd s else s)

/-- The wait of a core for its fetch is judged: 200 ms (R629). -/
def execFetchStall (core : Two) (s : State) : Out := gate s <|
  .next (match s.fls.stall.getD core.val none with
    | some (t, false) =>
      if t + 80000 ≤ s.now then
        (s.fault 28 0 flsBlk).onFls (fun k => { k with stall := k.stall.set core.val (some (t, true)) })
      else s
    | _ => s)

/-! ### The start (R625, R633–R640) -/

/-- The flag cells are read and the flagged sectors erased again (R625). -/
def execFlashFlagScan (s : State) : Out := gate s <|
  .next (if s.getb FLS_STAT_SCAN_DONE then s
    else
      let hit := (List.range 512).filter s.fls.flags.contains
      let s := s.each hit (fun s n => (eraseSector n false s).bump FLS_CNT_OPS_ERASES 1)
      let s := s.onFls (fun k => { k with flags := [] })
      let s := s.each (List.range 16) (fun s k => s.wr (FLS_UNFINk.i k).base (match hit[k]? with
        | some n => BitVec.ofNat 32 (2 ^ 31 + n)
        | none => 0))
      let s := (s.put (FLS_RESb_STATE.i 0) 0).put (FLS_RESb_STATE.i 1) 0
      let s := s.put FLS_STAT_UNFIN_CNT (min 255 hit.length)
      let s := if hit = [] then s else s.raise flsBlk 4
      s.putb FLS_STAT_SCAN_DONE true)

/-- Bytes of an image slot from a multiple of 16 on. -/
def slotBytes (x off len : Nat) (s : State) : List Byte :=
  (List.range (len / 16)).flatMap (fun k => leBytes 16 (flashWord (x * 2 ^ 19 + off / 16 + k) s))

/-- The check code of an image (R634). -/
def imageCode (x : Nat) (s : State) : Nat :=
  let h := slotBytes x 0 448 s
  let len := field h 8 4
  if field h 0 4 ≠ 0x57464459 ∨ field h 4 2 ≠ 1 ∨ len % 16 ≠ 0 ∨ len < 16 ∨ 2093056 < len then 1
  else
    let pub := (h.drop 256).take 96
    let slot := field h 18 1
    let q := (beNat (pub.take 48), beNat (pub.drop 48))
    let sig := h.drop 352
    if 3 < slot ∨ !Config.keyGood slot ∨ sha384 pub ≠ Config.keyHash slot then 2
    else if !ecdsaOk q (sha384 (h.take 256)) (beNat (sig.take 48)) (beNat ((sig.drop 48).take 48)) then 2
    else if beNat ((h.drop 32).take 48) ≠ sha384 (slotBytes x 4096 len s) then 3
    else if field h 16 2 < s.get FLS_SECMIN_SEC_MIN then 3
    else 0

/-- VERSION and SEC_VER of a slot's header (R633). -/
def imageVersion (x : Nat) (s : State) : Nat := field (slotBytes x 0 32 s) 12 4
/-- SEC_VER of a slot's header. -/
def imageSecVer (x : Nat) (s : State) : Nat := field (slotBytes x 0 32 s) 16 2

/-- SEQ and IMAGE of a selector word (R635). -/
def selectionOf (w : Nat) : Option (Nat × Nat) :=
  let lo := w % 2 ^ 64
  if bitsOf 63 48 w = 0x5E1C ∧ bitsOf 47 40 w + bitsOf 39 32 w = 255 ∧ bitsOf 39 32 w < 2 ∧
      w / 2 ^ 64 + lo = 2 ^ 64 - 1 then some (bitsOf 31 0 w, bitsOf 39 32 w)
  else none

/-- First selector word of a bank, and the selections in a bank with their word addresses. -/
def selectorBase (b : Two) : Nat := b.val * 2 ^ 19 + 0x6C000
/-- Selections of a bank: SEQ, IMAGE, word address. -/
def selectionsOf (b : Two) (s : State) : List (Nat × Nat × Nat) :=
  s.fls.words.filterMap (fun (w, d) =>
    if selectorBase b ≤ w ∧ w < selectorBase b + 4096 then (selectionOf d).map (fun (q, i) => (q, i, w)) else none)

/-- The selection with the highest SEQ in either bank (R637). -/
def bestSelection (s : State) : Option (Nat × Nat) :=
  (selectionsOf 0 s ++ selectionsOf 1 s).foldl (fun best (q, i, _) => match best with
    | some (p, _) => if p < q then some (q, i) else best
    | none => some (q, i)) none

/-- The 128 bits of a selection (R635). -/
def selectionWord (seq image : Nat) : Nat :=
  let lo := seq % 2 ^ 32 + image * 2 ^ 32 + (255 - image) * 2 ^ 40 + 0x5E1C * 2 ^ 48
  lo + (2 ^ 64 - 1 - lo) * 2 ^ 64

/-- The sector of a bank's selector that holds its lower SEQ values (R636). -/
def oldSelector (b : Two) (s : State) : Nat :=
  match (selectionsOf b s).foldl (fun best (q, _, w) => match best with
    | some (p, _) => if q < p then some (q, w) else best
    | none => some (q, w)) none with
  | some (_, w) => wordSector w
  | none => wordSector (selectorBase b)

/-- The next erased selector word of a bank after its highest selection: in the same sector order, the first word of the
sector after an erase (R636). -/
def nextSelector (b : Two) (s : State) : Option Nat :=
  let erased := (List.range 4096).filter (fun k => flashWord (selectorBase b + k) s == erasedWord)
  let last := (selectionsOf b s).foldl (fun m (q, _, w) => if m.1 ≤ q then (q, w - selectorBase b) else m) (0, 0)
  let after := erased.find? (fun k => decide (last.2 < k) && decide (0 < last.1))
  (after.or erased.head?).map (selectorBase b + ·)

/-- Programs a selection with the next SEQ in both banks (R636). When both selectors are full, only one is erased and
the other bank keeps its selections (log 43). The programs and the erase count (R648). -/
def selectImage (image : Nat) (s : State) : State :=
  let seq := ((bestSelection s).map (·.1)).getD 0 + 1
  let put := fun (b : Two) (s : State) => match nextSelector b s with
    | some w => (flashPut w (selectionWord seq image) s).bump FLS_CNT_OPS_PROGRAMS 1
    | none => s
  let full := fun (b : Two) => (nextSelector b s).isNone
  let s := if full 0 then (eraseSector (oldSelector 0 s) false s).bump FLS_CNT_OPS_ERASES 1
    else if full 1 then (eraseSector (oldSelector 1 s) false s).bump FLS_CNT_OPS_ERASES 1
    else s
  put 1 (put 0 s)

/-- Both images are checked and the one to start is chosen (R637–R639). -/
def execImageCheck (s : State) : Out := gate s <|
  .next (if !s.getb FLS_STAT_SCAN_DONE || s.fls.checked then s
    else
      let ca := imageCode 0 s
      let cb := imageCode 1 s
      let va := if ca = 0 then imageVersion 0 s else 0
      let vb := if cb = 0 then imageVersion 1 s else 0
      let valid := fun k => if k = 0 then ca = 0 else cb = 0
      let named := (bestSelection s).map (·.2)
      let sel := named.getD (if ca = 0 ∧ (cb ≠ 0 ∨ vb ≤ va) then 0 else if cb = 0 then 1 else 0)
      let start := if valid sel then some sel else if valid (1 - sel) then some (1 - sel) else none
      let s := (s.put FLS_IMGSTAT_CHECK_A ca).put FLS_IMGSTAT_CHECK_B cb
      let s := (s.put (FLS_IMGx_VERSION.i 0) va).put (FLS_IMGx_VERSION.i 1) vb
      let s := s.onFls (fun k => { k with checked := true, start })
      match start with
      | none => (s.putb FLS_STAT_FW_NONE true).putb HLT_SB_FW_NONE true
      | some x =>
        let s := (s.put FLS_STAT_FETCH_BANK x).put FLS_STAT_RUN_IMAGE x
        s.putb FLS_STAT_FALLBACK (decide (x ≠ sel)))

/-- Counters of FLS (R648). -/
def flsClear (s : State) : State :=
  s.clearAll [FLS_CNT_OPS_ERASES, FLS_CNT_OPS_PROGRAMS, FLS_CNT_REF_PROG_TWICE, FLS_CNT_REF_BANK_IN_USE,
    FLS_CNT_REF_READ_WHILE_BUSY, FLS_CNT_ECC_CORRECTED, FLS_CNT_ECC_UE, FLS_CNT_ECC_VERIFY_FAIL,
    FLS_CNT_SUSP_SUSPENDS, FLS_CNT_SUSP_SUSP_WAITS]

end Sys2Proof.Machine
end

