-- ==== Sys2Proof/Machine/CalStore.lean ====
section
/-! DEFINITION. The records of the calibration area (R665–R671): their bytes, the newest of each kind, and how they are
programmed in both copies. -/

namespace Sys2Proof.Machine

open Reg

/-! ### Record bytes (R665) -/

/-- One bit step of the IEEE 802.3 CRC-32, reflected. -/
def crc32Bit (x : Nat) : Nat := if x % 2 = 1 then (x / 2) ^^^ 0xEDB88320 else x / 2

/-- CRC-32 of IEEE 802.3: initial value and final XOR 0xFFFF_FFFF (R665). -/
def crc32 (l : List Byte) : Nat := l.foldl (fun x b => eight crc32Bit (x ^^^ b.toNat)) 0xFFFFFFFF ^^^ 0xFFFFFFFF

/-- MAGIC (R665). -/
def calMagic : List Byte := [0x43, 0x41, 0x4C, 0x42]

/-- Payload bytes of a KIND: MAIN (R666), TABLE (R668). -/
def calPayload (kind : Nat) : Nat := if kind = 1 then 2080 else 5440

/-- LEN of a KIND, header and RCRC included. -/
def calLen (kind : Nat) : Nat := 36 + calPayload kind

/-- Kinds of record with their CHANNEL: MAIN, and the TABLE of each channel (R670). -/
def calKinds : List (Nat × Nat) := (1, 255) :: (List.range 6).map (fun c => (2, c))

/-- A record laid out (R665). -/
def calRecord (kind chan seq tod : Nat) (payload : List Byte) : List Byte :=
  let body := calMagic ++ leBytes 1 kind ++ leBytes 1 chan ++ leBytes 2 (36 + payload.length) ++ leBytes 8 seq ++
    leBytes 8 tod ++ zeros 8 ++ payload
  body ++ leBytes 4 (crc32 body)

/-- The flash words of a record; the last is filled with 0xFF (log 42). -/
def calWords (l : List Byte) : List Nat :=
  (List.range ((l.length + 15) / 16)).map (fun k =>
    let w := (l.drop (16 * k)).take 16
    leNat (w ++ List.replicate (16 - w.length) 0xFF))

/-! ### Where records lie (R632, R665, R670) -/

/-- First word of a copy: bank offset 0x68_0000. -/
def calBase (b : Two) : Nat := b.val * 2 ^ 19 + 0x68000

/-- Sector of a bank's copy, 0 to 7, by its number over both banks. -/
def calSector (b : Two) (n : Nat) : Nat := 256 * b.val + 208 + n

/-- A record found in a copy: its sector there, KIND, CHANNEL, SEQ and bytes. -/
structure CalRec where
  sector : Nat
  kind : Nat
  chan : Nat
  seq : Nat
  bytes : List Byte
deriving DecidableEq, Repr

/-- Payload of a record. -/
def CalRec.payload (r : CalRec) : List Byte := (r.bytes.drop 32).take (calPayload r.kind)

/-- Bytes of `n` words from word `w` on, by a list of words with rising addresses; a word not listed is erased. -/
def wordsFrom : Nat → Nat → List (Nat × Nat) → List Byte
  | 0, _, _ => []
  | n + 1, w, [] => leBytes 16 erasedWord ++ wordsFrom n (w + 1) []
  | n + 1, w, p :: t => if p.1 = w then leBytes 16 p.2 ++ wordsFrom n (w + 1) t
      else leBytes 16 erasedWord ++ wordsFrom n (w + 1) (p :: t)

/-- The record that begins at word `k` of a copy, when its MAGIC, LEN and RCRC check (R671); `ws` lists the words from there
on. No record crosses a sector boundary (R670). -/
def calRecAt (b : Two) (k : Nat) (ws : List (Nat × Nat)) : Option CalRec :=
  let h := wordsFrom 1 (calBase b + k) ws
  let kind := field h 4 1
  let len := calLen kind
  let n := (len + 15) / 16
  if h.take 4 ≠ calMagic ∨ (kind ≠ 1 ∧ kind ≠ 2) ∨ field h 6 2 ≠ len ∨ 2048 < k % 2048 + n then none
  else
    let l := (wordsFrom n (calBase b + k) ws).take len
    if crc32 (l.take (len - 4)) = field l (len - 4) 4 then some ⟨k / 2048, kind, field h 5 1, field l 8 8, l⟩ else none

/-- The valid records of a copy among words with rising addresses. -/
def recsFrom (b : Two) : List (Nat × Nat) → List CalRec
  | [] => []
  | p :: t =>
    let l := recsFrom b t
    if calBase b ≤ p.1 ∧ p.1 < calBase b + 16384 then
      match calRecAt b (p.1 - calBase b) (p :: t) with
      | some r => r :: l
      | none => l
    else l

/-- The valid records of a copy. -/
def calRecs (b : Two) (s : State) : List CalRec := recsFrom b s.fls.words

/-- The record of a list with the highest SEQ. -/
def lastRec (l : List CalRec) : Option CalRec :=
  l.foldl (fun m r => match m with
    | some q => if q.seq < r.seq then some r else m
    | none => some r) none

/-- The newest valid record of a kind in either copy (R671). -/
def newestRec (k : Nat × Nat) (s : State) : Option CalRec :=
  lastRec ((calRecs 0 s ++ calRecs 1 s).filter (fun r => r.kind == k.1 && (k.1 == 1 || r.chan == k.2)))

/-- The next SEQ: from 1, never reused (R665). -/
def calSeq (s : State) : Nat := ((lastRec (calRecs 0 s ++ calRecs 1 s)).map (·.seq)).getD 0 + 1

/-- The sector in use: that of the record with the highest SEQ (R670). -/
def calCur (s : State) : Nat := ((lastRec (calRecs 0 s ++ calRecs 1 s)).map (·.sector)).getD 0

/-- Words of a sector in use in either copy: those up to the last word that is not erased. -/
def calUsed (n : Nat) (s : State) : Nat :=
  s.fls.words.foldl (fun m p =>
    if wordSector p.1 = calSector 0 n ∨ wordSector p.1 = calSector 1 n then max m (p.1 % 2048 + 1) else m) 0

/-- Do so many words fit in the rest of a sector (R670)? -/
def calFits (n len : Nat) (s : State) : Bool := decide (calUsed n s + len ≤ 2048)

/-- The records of a sector that are the newest of their kind (R670). -/
def newestIn (n : Nat) (s : State) : List CalRec :=
  let l := calRecs 0 s ++ calRecs 1 s
  (calKinds.filterMap (fun k => newestRec k s)).filter (fun r => l.any (fun q => q.sector == n && q.bytes == r.bytes))

/-! ### Programming (R628–R630, R670) -/

/-- Runs `f` with fetches diverted (R630, R670). -/
def underDivert (f : State → State) (s : State) : State :=
  if s.getb FLS_DIVERT_FETCH_DIVERT then f s
  else divertEffect ((f (divertEffect (s.putb FLS_DIVERT_FETCH_DIVERT true))).putb FLS_DIVERT_FETCH_DIVERT false)

/-- Runs `f` for the bank that is not FETCH_BANK, and then for the other under diversion (R670). -/
def bothCopies (f : Two → State → State) (s : State) : State :=
  let fetch : Two := if s.getb FLS_STAT_FETCH_BANK then 1 else 0
  underDivert (f fetch) (f (1 - fetch) s)

/-- Programs words from a word address on. -/
def programWords (w : Nat) (l : List Nat) (s : State) : State :=
  (l.zipIdx.foldl (fun s p => flashPut (w + p.2) p.1 s) s).bump FLS_CNT_OPS_PROGRAMS l.length

/-- Programs record bytes into a sector of some copies, after the words in use (R670). -/
def calPut (banks : List Two) (n : Nat) (l : List Byte) (s : State) : State :=
  let k := calUsed n s
  bothCopies (fun b s => if banks.contains b then programWords (calBase b + 2048 * n + k) (calWords l) s else s) s

/-- Erases a sector of both copies that is not erased. -/
def calErase (n : Nat) (s : State) : State :=
  if calUsed n s = 0 then s
  else bothCopies (fun b s => (eraseSector (calSector b n) false s).bump FLS_CNT_OPS_ERASES 1) s

/-- The next sector in circular order that holds no newest record of its kind; seven kinds in eight sectors leave one. -/
def calNext (n : Nat) (s : State) : Nat :=
  (((List.range 8).map (fun k => (n + 1 + k) % 8)).find? (fun m => (newestIn m s).isEmpty)).getD ((n + 1) % 8)

/-- Goes on to a sector: the sector after it is erased ahead, once its newest records are written again, with a new SEQ, in
the sector gone to (R670, log 42). -/
def calEnter (m : Nat) (s : State) : State :=
  let s := calErase m s
  let ahead := (m + 1) % 8
  let s := (newestIn ahead s).foldl (fun s r =>
    let l := calRecord r.kind r.chan (calSeq s) s.tb.tod r.payload
    if calFits m (calWords l).length s then calPut [0, 1] m l s else s) s
  if (newestIn ahead s).isEmpty then calErase ahead s else s

/-- Puts a record of some words into the sector in use, or into the next where it fits (R670). -/
def calPlace (banks : List Two) (len : Nat) (mk : State → List Byte) : Nat → Nat → State → State
  | 0, _, s => s
  | k + 1, n, s =>
    if calFits n len s then calPut banks n (mk s) s
    else
      let m := calNext n s
      calPlace banks len mk k m (calEnter m s)

/-- Stores a new record of a kind in both copies (R670). -/
def calStore (k : Nat × Nat) (payload : List Byte) (s : State) : State :=
  calPlace [0, 1] ((calLen k.1 + 15) / 16) (fun s => calRecord k.1 k.2 (calSeq s) s.tb.tod payload) 9 (calCur s) s

/-- At chip start the newest record of each kind is programmed in the copy that lacks it (R671). -/
def calRepair (s : State) : State :=
  (calKinds.foldl (fun (m : Nat × State) k => match newestRec k m.2 with
    | none => m
    | some r =>
      let lack := ([0, 1] : List Two).filter (fun b => !(calRecs b m.2).any (fun q => q.bytes == r.bytes))
      let s := if lack = [] then m.2 else calPlace lack (calWords r.bytes).length (fun _ => r.bytes) 9 m.1 m.2
      let at' := lack.filterMap (fun b => ((calRecs b s).find? (fun q => q.bytes == r.bytes)).map (·.sector))
      (at'.headD m.1, s)) (calCur s, s)).2

/-! ### Payloads (R666–R668) -/

/-- Two bytes of each value of a list, the first `n` of it. -/
def twoBytes (n : Nat) (l : List Nat) : List Byte := (List.range n).flatMap (fun b => leBytes 2 (l.getD b 0))

/-- A set of ageing results (R667). -/
def ageingBytes (a : Ageing) : List Byte :=
  leBytes 8 a.tod ++ twoBytes 8 a.ith ++ twoBytes 8 a.eta ++ twoBytes 8 a.amp ++ leBytes 2 a.rmean ++ twoBytes 3 a.sens ++
    leBytes 2 a.decel ++ leBytes 4 a.ber0 ++ leBytes 4 a.berw ++ leBytes 2 a.fwin ++ leBytes 2 a.twin ++
    leBytes 1 ((List.range 5).foldl (fun n k => n + b2n (a.valid.getD k false) * 2 ^ k) 0) ++ zeros 1

/-- Values of two bytes each. -/
def twoRead (l : List Byte) (off n : Nat) : List Nat := (List.range n).map (fun k => field l (off + 2 * k) 2)

/-- The set of ageing results that 80 bytes hold (R667). -/
def ageingOf (l : List Byte) : Ageing :=
  { tod := field l 0 8, ith := twoRead l 8 8, eta := twoRead l 24 8, amp := twoRead l 40 8, rmean := field l 56 2
    sens := twoRead l 58 3, decel := field l 64 2, ber0 := field l 66 4, berw := field l 70 4, fwin := field l 74 2
    twin := field l 76 2, valid := (List.range 5).map (fun k => bitOf k (field l 78 1)) }

/-- The register fields of a channel's section of MAIN, bytes 0 to 107, with the bytes of each (R666). -/
def sectionFields (c : Ch) : List (Nat × Fld) :=
  (List.range 10).map (fun g => (1, CAL_RFGAINg_RF_GAIN.ij c.val g)) ++
    (List.range 10).map (fun g => (1, (RDC_TRIM_OFS.at c).i g)) ++
    (List.range 10).map (fun g => (1, (RDC_TRIM_ADC_GAIN.at c).i g)) ++
    (List.range 9).map (fun k => (2, CAL_SDOFSk_SD_OFS.ij c.val k)) ++
    [(1, CAL_MON_LMON_GAIN.i c.val), (1, CAL_MON_RMON_GAIN.i c.val), (1, SPN_TRIM_SH_OFS.at c), (1, SPN_TRIM_SH_GAIN.at c)] ++
    (List.range 8).flatMap (fun b => [(2, (WRC_LEVEL_PEAK_BASE.at c).i b), (2, (WRC_LEVEL_BIAS_BASE.at c).i b),
      (2, (WRC_READLVL_READ_BASE.at c).i b)]) ++
    [(2, WRC_RLASER_RREAD_BASE.at c), (2, CAL_SCALE_FT_SC_FOCUS.i c.val), (2, CAL_SCALE_FT_SC_TRACK.i c.val),
      (2, CAL_SCALE_T_SC_TILT.i c.val)]

/-- A field's bytes: sign-extended where it is narrower (R666). -/
def fieldBytes (n : Nat) (f : Fld) (s : State) : List Byte :=
  leBytes n (if f.width < 8 * n then ofSigned (8 * n) (s.geti f) else s.get f)

/-- The section of a channel (R666). -/
def mainSection (c : Ch) (s : State) : List Byte :=
  let k := s.cal.chans[c]
  let base := fun (b : Nat) => k.lastBases.getD b (0, 0, 0)
  (sectionFields c).flatMap (fun p => fieldBytes p.1 p.2 s) ++ leBytes 1 (s.get (DCM_ALLOW.at c) % 4) ++
    leBytes 1 (b2n k.lastValid) ++ zeros 2 ++ ageingBytes k.latest ++ ageingBytes k.last ++
    (List.range 8).flatMap (fun b => twoBytes 3 [(base b).1, (base b).2.1, (base b).2.2]) ++ leBytes 2 k.lastRead ++ zeros 14

/-- The payload of a MAIN record (R666): the section of channel `c` with planned register values. -/
def mainPayload (c : Ch) (plan : List (Fld × Nat)) (s : State) : List Byte :=
  let s' := plan.foldl (fun s p => s.put p.1 p.2) s
  leBytes 4 s.cal.vref ++ leBytes 4 s.cal.iref ++ zeros 56 ++
    allCh.flatMap (fun k => mainSection k (if k = c then s' else s))

/-- Stores a MAIN record (R666, R670). -/
def storeMain (c : Ch) (plan : List (Fld × Nat)) (s : State) : State := calStore (1, 255) (mainPayload c plan s) s

/-- The section of a channel in a MAIN payload. -/
def sectionOf (c : Ch) (l : List Byte) : List Byte := (l.drop (64 + 336 * c.val)).take 336

/-- The register fields of a section with the values it holds. -/
def sectionValues (c : Ch) (l : List Byte) : List (Fld × Nat) :=
  ((sectionFields c).foldl (fun (m : Nat × List (Fld × Nat)) p =>
    (m.1 + p.1, (p.2, field l m.1 p.1 % 2 ^ p.2.width) :: m.2)) (0, [])).2.reverse

/-- The stored value of a trim, when the newest MAIN record holds one (R662). -/
def storedTrim (c : Ch) (f : Fld) (s : State) : Option Int :=
  ((newestRec (1, 255) s).bind (fun r => (sectionValues c (sectionOf c r.payload)).find? (fun p => p.1 == f))).map
    (fun p => toSigned f.width p.2)

/-- What a section keeps besides registers (R666). -/
def sectionKeep (l : List Byte) (k : CalCh) : CalCh :=
  { k with
    latest := ageingOf ((l.drop 112).take 80), last := ageingOf ((l.drop 192).take 80), lastValid := bitOf 0 (field l 109 1)
    lastBases := (List.range 8).map (fun b => (field l (272 + 6 * b) 2, field l (274 + 6 * b) 2, field l (276 + 6 * b) 2))
    lastRead := field l 320 2 }

/-- The bytes of an entry that a TABLE record does not hold (log 49). -/
def blankBytes (n : Nat) : List Byte := List.replicate n 0xFF

/-- The entry of one layer and zone, or the blank entry (R668): fifteen taps, four tables. -/
def tableEntry (o : Option (List Nat)) : List Byte := match o with
  | none => blankBytes 42
  | some ws => (List.range 15).flatMap (fun k => leBytes 2 (ofSigned 16 (toSigned 12 (ws.getD k 0)))) ++
      (List.range 4).flatMap (fun k => leBytes 3 (ws.getD (15 + k) 0))

/-- The payload of a channel's TABLE record (R668). -/
def tablePayload (c : Ch) (s : State) : List Byte :=
  let k := s.cal.chans[c]
  (List.range 16).flatMap (fun l => match k.layers[l]? with
    | none => blankBytes 4
    | some v => leBytes 2 (v.toNat / 2 ^ 16) ++ leBytes 2 v.toNat) ++
  (List.range 128).flatMap (fun e => tableEntry (keyFind e k.tables))

/-- Stores a channel's TABLE record (R668, R670). -/
def storeTable (c : Ch) (s : State) : State := calStore (2, c.val) (tablePayload c s) s

/-- The layer values of a TABLE payload, SA_POS above FF_FOC as in SRV_LAYERn; none when blank. -/
def layersOf (l : List Byte) : List W32 :=
  if l.take 64 = blankBytes 64 then []
  else (List.range 16).map (fun n => BitVec.ofNat 32 (field l (4 * n) 2 * 2 ^ 16 + field l (4 * n + 2) 2))

/-- The tables of a TABLE payload by layer and zone. -/
def tablesOf (l : List Byte) : List (Nat × List Nat) :=
  (List.range 128).filterMap (fun e =>
    let b := (l.drop (64 + 42 * e)).take 42
    if b = blankBytes 42 then none
    else some (e, (List.range 15).map (fun k => field b (2 * k) 2 % 4096) ++ (List.range 4).map (fun k => field b (30 + 3 * k) 3)))

end Sys2Proof.Machine
end

