-- ==== Sys2Proof/Machine/Context.lean ====
section
/-! DEFINITION. Command contexts (R441), their records (R446, R447), the Shunting yard (R483–R487), seals at the seven
points (R558, R582) and the checks at fetch (R460–R482). -/

namespace Sys2Proof.Machine

open Reg

/-! ### Fields of an entry (R430, R465) -/

/-- Opcode of a context's entry. -/
def Ctx.op (x : Ctx) : Nat := field x.entry 1 1
/-- IRQ byte. -/
def Ctx.irq (x : Ctx) : Nat := field x.entry 2 1
/-- FUA, DEFERRED_DATA and SEALED (R466). -/
def Ctx.fua (x : Ctx) : Bool := bitOf 0 (field x.entry 3 1)
/-- DEFERRED_DATA. -/
def Ctx.deferred (x : Ctx) : Bool := bitOf 1 (field x.entry 3 1)
/-- SEALED. -/
def Ctx.sealed (x : Ctx) : Bool := bitOf 2 (field x.entry 3 1)
/-- NSID. -/
def Ctx.nsid (x : Ctx) : Nat := field x.entry 4 2
/-- HOST_TAG. -/
def Ctx.tag (x : Ctx) : Nat := field x.entry 8 8
/-- SLBA. -/
def Ctx.slba (x : Ctx) : Nat := field x.entry 16 6
/-- NLB. -/
def Ctx.nlb (x : Ctx) : Nat := field x.entry 24 4
/-- DATA_LEN. -/
def Ctx.dataLen (x : Ctx) : Nat := field x.entry 40 4
/-- Bytes of a block on the host side (R468). -/
def Ctx.unit (x : Ctx) : Nat := if x.sealed then 4112 else 4096
/-- Is the command a WRITE? -/
def Ctx.isWrite (x : Ctx) : Bool := x.op == 2
/-- Is the command READ, VERIFY or QUERY_LOCATION? -/
def Ctx.isReader (x : Ctx) : Bool := x.op == 1 || x.op == 3 || x.op == 5
/-- The buffer's segments. -/
def Ctx.buf (x : Ctx) : List (Nat × Nat) := segsOf x.entry x.segs

/-! ### Contexts -/

/-- The context with a given place in fetch order. -/
def State.ctx (s : State) (id : Nat) : Option Ctx := s.host.ctxs.find? (fun x => x.id == id)

/-- Is the entry at the fetch position of a ring still held by a command (R437)? -/
def headBusy (g : Nat) (s : State) : Bool :=
  let h := s.get (RC_PTR_HEAD.i g)
  s.host.ctxs.any (fun x => x.ring == g && x.index == h && !x.silent)

/-- HEAD_WAIT of a ring (R437). -/
def headWait (g : Nat) (s : State) : State :=
  let w := ringState g s == 1 && s.get (RC_PTR_HEAD.i g) != s.get (RC_PTR_TAIL.i g) && headBusy g s
  if w == (s.ringX g).waiting then s
  else
    let s := (s.putb (RC_STAT_HEAD_WAIT.i g) w).onRing g (fun r => { r with waiting := w, skip := r.skip || w })
    if w then s.bump HQE_CNT_HEAD_WAITS 1 else s

/-- Stores the contexts and what HQE_STAT, RC_STAT and STR_BUF_USED show of them (R458, R459, R579). -/
def putCtxs (g : Nat) (l : List Ctx) (s : State) : State :=
  let s := s.onHost (fun h => { h with ctxs := l })
  let mine := l.filter (fun x => x.ring == g && !x.silent)
  let s := s.put HQE_STAT_CTX_BUSY l.length
  let s := s.put STR_BUF_USED_BLOCKS (l.foldl (fun n x => n + x.reserved.getD 0) 0)
  let s := (s.put (RC_STAT_INFLIGHT.i g) mine.length).put (RC_STAT_GRANTS.i g) (mine.filter (·.granted.isSome)).length
  headWait g s

/-- Changes a context. -/
def onCtx (id : Nat) (f : Ctx → Ctx) (s : State) : State :=
  match s.ctx id with
  | none => s
  | some x => putCtxs x.ring (s.host.ctxs.map (fun y => if y.id = id then f y else y)) s

/-- Removes a context: its blocks leave the open tiles and its reads of host memory are not continued (R499, R557). -/
def releaseCtx (x : Ctx) (s : State) : State :=
  let s := putCtxs x.ring (s.host.ctxs.filter (fun y => y.id != x.id)) s
  let s := { s with map := { s.map with ns := s.map.ns.map (fun (k : Ns) =>
    if k.deleting = some x.id then { k with deleting := none } else k) } }
  s.onPort (fnPort x.fn) (fun p => { p with queue := p.queue.filter (fun q => q.ctx != x.id) })

/-- Takes the blocks of a command, or of its pieces that `keep` does not name, out of the open tiles (R557). -/
def unplace (id : Nat) (keep : List Nat) (s : State) : State :=
  let out := fun (b : SBlk) => match b.piece with
    | some (i, l) => i == id && !keep.contains l
    | none => false
  { s with str := { s.str with opens := s.str.opens.map (fun o =>
      { o with queues := o.queues.map (fun q => q.filter (fun b => !out b)) }) } }

/-- Writes the record of a stage that is not the last (R446, R447). -/
def stageRecord (x : Ctx) (stage count : Nat) (s : State) : State :=
  let s := writeRecord x.fn (entryAddr x.ring x.index s) x.phase stage 0 0 count x.tag s
  let s := if bitOf (stage - 1) x.irq then interrupt x.fn (s.get (RC_CFG_VECTOR.i x.ring)) s else s
  onCtx x.id (fun x => { x with stage := stage }) s

/-- Writes the final record of a command and ends it (R446, R447). -/
def finish (x : Ctx) (status detail count : Nat) (s : State) : State :=
  let s := if status = 0x16 then s.bump MAP_CNT_MISC_NO_SPACE 1 else s
  let s := if x.silent then s
    else
      let s := writeRecord x.fn (entryAddr x.ring x.index s) x.phase 3 status detail count x.tag s
      if ringState x.ring s != 2 && (bitOf 2 x.irq || status != 0) then
        interrupt x.fn (s.get (RC_CFG_VECTOR.i x.ring)) s
      else s
  releaseCtx x (unplace x.id [] s)

/-- `finish` by place in fetch order. -/
def finishId (id status detail count : Nat) (s : State) : State :=
  match s.ctx id with
  | none => s
  | some x => finish x status detail count s

/-! ### The Shunting yard (R483–R487) -/

/-- Do two commands overlap (R484)? -/
def cmdOverlap (x y : Ctx) : Bool :=
  x.nsid == y.nsid && decide (x.slba < y.slba + y.nlb ∧ y.slba < x.slba + x.nlb)

/-- The earlier-fetched commands that overlap `x`. -/
def earlier (x : Ctx) (s : State) : List Ctx :=
  s.host.ctxs.filter (fun y => decide (y.id < x.id) && (y.isWrite || y.isReader) && cmdOverlap x y)

/-- A read may run: every earlier overlapping write has written ACCEPTED (R485). -/
def yardRead (x : Ctx) (s : State) : Bool := (earlier x s).all (fun y => !y.isWrite || decide (2 ≤ y.stage))

/-- A write may receive data: no earlier overlapping read is without its final record (R485). -/
def yardReceive (x : Ctx) (s : State) : Bool := (earlier x s).all (fun y => !y.isReader)

/-- A write may commit: no earlier overlapping write is without its final record (R485). -/
def yardCommit (x : Ctx) (s : State) : Bool := (earlier x s).all (fun y => !y.isWrite)

/-! ### Seals (R558, R582) -/

/-- The SEA block. -/
def seaBlk : Blk := ⟨.sea, 0⟩

/-- The guard the seal engine computes for the next block at a point; an armed injection inverts bit 0 and disarms
(R582). -/
def guardAt (p : Nat) (data : List Byte) (s : State) : Nat × State :=
  if s.getb SEA_INJ_ARM && s.get SEA_INJ_POINT == p then (crc32c data ^^^ 1, s.putb SEA_INJ_ARM false)
  else (crc32c data, s)

/-- Counts a mismatch at a point (R581, R582); points 2, 3 and 7 raise PATH_MISMATCH and SEAL_PATH (R558). -/
def sealMiss (p nsid : Nat) (s : State) : State :=
  let s := s.bump (SEA_CNTp_MISMATCHES.i (p - 1)) 1
  let s := (s.put SEA_LAST_NSID nsid).put SEA_LAST_POINT p
  if p = 2 ∨ p = 3 ∨ p = 7 then (s.raise seaBlk 1).fault 19 0 seaBlk else s

/-- Checks the guard of a block of 4,112 bytes at a point; `poison`: the stored bytes came back uncorrectable. -/
def guardCheck (p nsid : Nat) (poison : Bool) (b : List Byte) (s : State) : Bool × State :=
  let (g, s) := guardAt p (b.take 4096) s
  if g == field b 4096 4 && !poison then (true, s) else (false, sealMiss p nsid s)

/-! ### The checks at fetch (R460–R482) -/

/-- A namespace by its NSID, unless it is being deleted by an earlier command (R487). -/
def nsFind (n : Nat) (s : State) : Option Ns := s.map.ns.find? (fun k => k.nsid == n)

/-- Opcodes of the I/O rings (R460). -/
def isIoOp (op : Nat) : Bool := decide (1 ≤ op ∧ op ≤ 5)

/-- Opcodes of the admin rings (R460). -/
def isAdminOp (op : Nat) : Bool := decide (0x80 ≤ op ∧ op ≤ 0x8E)

/-- May any function issue the admin command (R460)? -/
def anyIssuer (op : Nat) : Bool := op == 0x82 || op == 0x85 || op == 0x8E

/-- Is a feature one of a namespace (R481)? -/
def nsFeature (f : Nat) : Bool := f == 1 || f == 2 || f == 3 || f == 6

/-- Does the command carry a namespace (R463)? -/
def carriesNs (e : List Byte) : Bool :=
  let op := field e 1 1
  isIoOp op || op == 0x81 || ((op == 0x8D || op == 0x8E) && nsFeature (field e 16 1))

/-- The bytes an opcode uses beyond CTRL, OPCODE, IRQ, FLAGS, HOST_TAG and STAGED, as (first, last, mask)
(R465, R478, R570, R656, R704). -/
def usedBytes (e : List Byte) : List (Nat × Nat × Nat) :=
  let buf := (32, 44, 255)
  let fl := field e 3 1
  match field e 1 1 with
  | 0x01 => [(4, 5, 255), (16, 21, 255), (24, 27, 255), buf]
  | 0x02 => [(4, 5, 255), (16, 21, 255), (24, 27, 255)] ++ (if bitOf 2 fl then [] else [(28, 29, 255)]) ++
      (if bitOf 1 fl then [(32, 47, 255)] else [buf])
  | 0x03 => [(4, 5, 255), (16, 21, 255), (24, 27, 255)]
  | 0x04 => [(4, 5, 255)]
  | 0x05 => [(4, 5, 255), (16, 21, 255), (24, 27, 255), buf]
  | 0x80 => [(4, 5, 255), (16, 21, 255), (24, 25, 255), (26, 26, 1), (48, 55, 255)] ++
      (if bitOf 0 (field e 26 1) then [(32, 39, 255)] else [])
  | 0x81 => [(4, 5, 255)]
  | 0x82 => [buf]
  | 0x83 => [(16, 16, 255), (24, 31, 255)]
  | 0x84 => [(16, 16, 255)]
  | 0x85 => [(16, 16, 255), (24, 31, 255), buf]
  | 0x86 => [(16, 23, 255)]
  | 0x87 => [(16, 19, 255), buf]
  | 0x88 => [(16, 16, 255)]
  | 0x89 => [(16, 16, 255), (24, 31, 255)]
  | 0x8A => [(16, 17, 255)]
  | 0x8B => if bitOf 1 (field e 18 1) then [(18, 18, 2), (24, 31, 255), buf]
      else [(16, 16, 0x3F), (17, 17, 255), (18, 18, 3), (20, 23, 255)]
  | 0x8C => if bitOf 1 (field e 18 1) then [(18, 18, 2), (24, 31, 255), buf] else [(18, 18, 2)]
  | 0x8D => [(16, 16, 255), (24, 31, 255)] ++ (if nsFeature (field e 16 1) then [(4, 5, 255)] else [])
  | 0x8E => [(16, 16, 255), buf] ++ (if nsFeature (field e 16 1) then [(4, 5, 255)] else [])
  | _ => []

/-- The bits of byte `b` of an entry that are not reserved (R430, R466). -/
def usedMask (e : List Byte) (b : Nat) : Nat :=
  if b ≤ 1 ∨ (8 ≤ b ∧ b ≤ 15) ∨ b = 63 then 255
  else if b = 2 then 7
  else if b = 3 then (match field e 1 1 with | 1 => 4 | 2 => 7 | _ => 0)
  else (usedBytes e).foldl (fun m (lo, hi, k) => if lo ≤ b ∧ b ≤ hi then k else m) 0

/-- The first byte of an entry with a reserved bit set. -/
def firstReserved (e : List Byte) : Option Nat :=
  (List.range 64).find? (fun b => field e b 1 &&& (255 - usedMask e b) != 0)

/-- Does the command move data by a buffer at fetch (R432)? -/
def hasBuffer (e : List Byte) : Bool :=
  match field e 1 1 with
  | 1 => true
  | 2 => !bitOf 1 (field e 3 1)
  | 5 | 0x82 | 0x85 | 0x87 | 0x8E => true
  | 0x8B | 0x8C => bitOf 1 (field e 18 1)
  | _ => false

/-- Are a list's segments good until `len` bytes are covered (R432)? -/
def segsOk : Nat → List (Nat × Nat) → Nat → Bool
  | _, _, 0 => true
  | 0, _, _ => false
  | _, [], _ => false
  | f + 1, (a, n) :: r, len => a % 4 == 0 && n % 4 == 0 && n != 0 && segsOk f r (len - n)

/-- The first failing byte of a buffer description (R430, R432). -/
def bufferFault (e : List Byte) (segs : List (Nat × Nat)) : Option Nat :=
  let a := field e 32 8
  let len := field e 40 4
  let kind := field e 44 1
  if kind = 0 ∧ a % 4 ≠ 0 then some 32
  else if kind = 1 ∧ (a % 16 ≠ 0 ∨ (len % 4 = 0 ∧ !segsOk 256 segs len)) then some 32
  else if len % 4 ≠ 0 then some 40
  else if 1 < kind then some 44
  else none

/-- Bytes of the stripe buffer (R554, R580). -/
def stripeBytes (s : State) : Nat := clampN 256 16384 (s.get STR_BUF_CFG_SIZE_MIB) * 2 ^ 20

/-- The first failing byte of an I/O command's block count (R467, R554). -/
def nlbFault (e : List Byte) (s : State) : Option Nat :=
  let n := field e 24 4
  let op := field e 1 1
  if n = 0 ∨ (op ≠ 5 ∧ 16384 < n) then some 24
  else if op = 2 ∧ stripeBytes s < n * 4112 then some 24
  else none

/-- Does DATA_LEN break the rule of the opcode (R468, R474, R478)? -/
def lenFault (e : List Byte) : Bool :=
  let len := field e 40 4
  match field e 1 1 with
  | 1 | 2 => len != field e 24 4 * (if bitOf 2 (field e 3 1) then 4112 else 4096)
  | 5 => len % 32 != 0 || len == 0
  | 0x87 => len % 4096 != 0 || decide (len < 4096 ∨ 1048576 < len)
  | 0x8B => len % 4096 != 0 || decide (len < 4096 ∨ 1048576 < len)
  | 0x8E => len != 8
  | _ => false

/-- The first failing byte of the fields an opcode gives a range (R478, R481). -/
def valueFault (f : Nat) (e : List Byte) (s : State) : Option Nat :=
  let b16 := field e 16 1
  let v := field e 24 8
  match field e 1 1 with
  | 1 | 2 | 3 | 5 => nlbFault e s
  | 0x80 => if 0xFFFC < field e 4 2 then some 4 else if 1 < field e 25 1 then some 25 else none
  | 0x83 | 0x84 | 0x89 => if 5 < b16 then some 16 else none
  | 0x85 => if b16 = 0 ∨ 4 < b16 ∨ (f ≠ afFunc s ∧ b16 ≠ 3) then some 16 else none
  | 0x87 => if field e 16 4 % 4096 ≠ 0 then some 16 else none
  | 0x88 => if 1 < b16 then some 16 else none
  | 0x8B | 0x8C => if bitOf 1 (field e 18 1) && v % 4096 != 0 then some 24 else none
  | 0x8D =>
    if b16 = 0 ∨ 6 < b16 then some 16
    else
      let bad := match b16 with
        | 1 => decide (1000 < v)
        | 2 => decide (1 < v)
        | 3 => decide (86400 < v)
        | 4 => decide (v < 500 ∨ 60000 < v)
        | 5 => decide (65535 < v)
        | _ => v != 0
      if bad then some 24 else none
  | 0x8E => if b16 = 0 ∨ 6 < b16 then some 16 else none
  | _ => none

/-- The first of two failing bytes. -/
def lower : Option Nat → Option Nat → Option Nat
  | some a, some b => some (min a b)
  | some a, none => some a
  | none, b => b

/-- What a check at fetch gives: status, detail and the violation code it makes (0 none). -/
def checkEntry (f localRing : Nat) (e : List Byte) (segs : List (Nat × Nat)) (s : State) : Option (Nat × Nat × Nat) :=
  let op := field e 1 1
  if !((localRing == 0 && isAdminOp op) || (localRing != 0 && isIoOp op)) then some (0x10, 0, 6)
  else if localRing = 0 ∧ !anyIssuer op ∧ f ≠ afFunc s then some (0x10, 1, 6)
  else if field e 0 1 / 8 ≠ 0 then some (0x11, 0, 0)
  else match firstReserved e with
  | some b => some (0x11, b, 7)
  | none =>
    let ns := nsFind (field e 4 2) s
    let nsOk := match ns with
      | some k => bitOf f k.owners && k.deleting.isNone
      | none => op == 4 && field e 4 2 == 0
    if carriesNs e && !nsOk then some (0x13, 0, 0)
    else
      let len := if hasBuffer e && lenFault e then some 40 else none
      let bad := lower (valueFault f e s) (lower (if hasBuffer e then bufferFault e segs else none) len)
      match bad, ns with
      | some b, _ => some (0x11, b, 0)
      | none, some k =>
        if (op == 1 || op == 2 || op == 3 || op == 5) && decide (k.size < field e 16 6 + field e 24 4) then
          some (0x12, 0, 0)
        else if op = 2 ∧ k.importOpen then some (0x20, 0, 0)
        else none
      | none, none => none

/-! ### Drops (R452, R499) -/

/-- Is a command past its commit point (R496, R498)? -/
def pastCommit (x : Ctx) : Bool :=
  if x.isWrite then x.pieces.any (fun p => p.st == .committed || p.st == .programming) else x.begun

/-- Bytes of a context's reads from host memory that have no completion yet (R408). -/
def bytesDue (x : Ctx) (s : State) : Nat :=
  (s.host.ports.toList.map (fun p =>
    (((p.reqs ++ p.queue).filter (fun q => q.ctx == x.id)).map (·.len)).sum)).sum

/-- Bytes a command has transferred so far (R443, R453): of a write, what the host's memory has given. -/
def transferred (x : Ctx) (s : State) : Nat :=
  if !x.isWrite then 0 else if x.receiving then x.nlb * x.unit - bytesDue x s else x.blocks.length * x.unit

/-- Pieces of a write (R495): from `lba` on, cut at multiples of 256 when longer than 256 blocks; on fuel. -/
def cutPieces (whole : Bool) : Nat → Nat → Nat → List Piece
  | 0, _, _ => []
  | f + 1, lba, n =>
    if n = 0 then []
    else
      let k := if whole then n else min n (256 - lba % 256)
      { lba, n := k, left := k } :: cutPieces whole f (lba + k) (n - k)

/-- A function as a function number. -/
def asFn (f : Nat) : Fn := ⟨f % 64, Nat.mod_lt _ (by decide)⟩

/-- Drops a command by a reset (R499): the event log receives ABORTED_RESET. -/
def dropReset (x : Ctx) (s : State) : State :=
  let s := s.logEvent (.commandDropped (asFn x.fn) (x.ring - ringFirst x.fn s) x.index x.tag)
  releaseCtx x (unplace x.id [] s)

/-- A reset reaches a command of a function being reset (R499): pieces and commands before their commit point are
dropped; the rest runs on without records. -/
def resetCtx (x : Ctx) (s : State) : State :=
  if !pastCommit x then dropReset x s
  else
    let keep := (x.pieces.filter (fun p => p.st == .committed || p.st == .programming)).map (·.lba)
    let s := unplace x.id keep s
    onCtx x.id (fun x => { x with
      silent := true
      granted := none
      pieces := x.pieces.filter (fun p => p.st == .committed || p.st == .programming) }) s

end Sys2Proof.Machine
end

