-- ==== Sys2Proof/Machine/HostLink.lean ====
section
/-! DEFINITION. The host ports (R394–R423): configuration, link events, resets, BAR2, MSI-X masks, errors and the
completions of the part's own requests. -/

namespace Sys2Proof.Machine

open Reg

/-- Does the port answer configuration requests (R396)? -/
def cfgReady (p : Two) (s : State) : Bool := if p = 0 then s.getb HLK_CTL_CFG_READY0 else s.getb HLK_CTL_CFG_READY1

/-- What the configuration space of a function shows (R394, R398, R401, R404, R411). -/
def cfgView (f : Nat) (s : State) : CfgView :=
  let p := s.host.ports[fnPort f]
  let common : CfgView := { device := 0x6848, rev := Config.blkRev, subsys := p.subsys.toNat, d3 := (s.hfn f).d3hot, bar0 := 2 ^ 26
                            pending := p.reqs.any (fun q => q.fn == f) }
  if f % 32 = 0 then { common with totalVfs := 31, initialVfs := 31, vfOffset := 1, vfStride := 1 }
  else { common with device := 0x6849, bar0 := 2 ^ 18 }

/-- A configuration request (R394, R396–R399, R405, R407–R409). -/
def execConfigRequest (f : Fn) (q : CfgReq) (s : State) : Out := gate s <|
  let p := fnPort f.val
  let vf := f.val % 32 != 0
  let done := fun (s : State) => s.send (.cfgDone f.val false)
  .next (
    if !cfgReady p s then s.send (.retryStatus p)
    else if !fnExists f.val s then s.send (.unsupported p)
    else match q with
    | .identity => s.send (.identity f.val (cfgView f.val s))
    | .devCtl mps mrrs ro => done (if vf then s else s.onFn f.val (fun k => { k with
        mps := min 512 mps, mrrs := min 4096 mrrs, relaxed := ro }))
    | .devCtl2 v off => done (if vf then s else s.onFn f.val (fun k => { k with ctoValue := v, ctoOff := off }))
    | .msixCtl en mask => done (unmaskAll f.val (s.onFn f.val (fun k => { k with msixEn := en, msixMask := mask })))
    | .powerD3 => done (s.onFn f.val (fun k => { k with d3hot := true }))
    | .vfEnable => done (if vf then s else s.putb (HLK_PORTp_VF_EN.i p.val) true))

/-- Link training begins once PERST_N is high (R396). -/
def execLinkTrainingStart (p : Two) (s : State) : Out := gate s <|
  .next (if s.pins.inReset then s
    else (s.putb (HLK_PORTp_PERST.i p.val) false).onPort p (fun k => { k with training := true }))

/-- Shows the links in HLT_SB (R717). -/
def showLinks (s : State) : State :=
  s.put HLT_SB_LINK_UP (s.get (HLK_PORTp_LINK_UP.i 0) + 2 * s.get (HLK_PORTp_LINK_UP.i 1))

/-- A width the part trains (R395). -/
def trainWidth (w : Nat) : Nat := if 4 ≤ w then 4 else if 2 ≤ w then 2 else 1

/-- The port is up at the highest speed and width that both partners allow (R395, R421). -/
def execLinkUp (p : Two) (speed width : Nat) (s : State) : Out := gate s <|
  .next (if !s.host.ports[p].training then s
    else
      let s := (s.put (HLK_PORTp_SPEED.i p.val) (clampN 1 5 speed)).put (HLK_PORTp_WIDTH.i p.val) (trainWidth width)
      showLinks ((s.putb (HLK_PORTp_LINK_UP.i p.val) true).raise hlkBlk 1))

/-! ### Function resets (R410–R413, R499) -/

/-- The ring control pages of a function's rings take their reset values (R66, R427). -/
def ringsToReset (f : Nat) (s : State) : State :=
  let lo := 0x2000000 + 0x40 * ringFirst f s
  let hi := lo + 0x40 * ringTotal f s
  let s := (s.regs.filter (fun (a, _) => decide (lo ≤ a ∧ a < hi))).foldl (fun s (a, _) => s.wr a (resetValue a)) s
  s.onHost (fun h =>
    let mine := fun g => decide (ringFirst f s ≤ g ∧ g < ringFirst f s + ringTotal f s)
    { h with
      rings := h.rings.filter (fun r => !mine r.1)
      admin := h.admin.filter (fun g => !mine g)
      grant := h.grant.filter (fun k => !mine k.ring) })

/-- The configuration of a function takes its defaults (R410); its violation window runs on. -/
def fnDefaults (k : HFn) : HFn := { lastEvent := k.lastEvent, supp := k.supp }

/-- One reset event over the functions of a list (R410, R411, R499). -/
def resetFns (fs : List Nat) (s : State) : State :=
  let s := s.raise hlkBlk 2
  let s := s.each fs (fun s f =>
    let r := HLK_RSTp.i (fnPort f).val
    s.put r (setBits (f % 32) (f % 32) (s.get r) 1))
  let s := s.each (s.host.ctxs.filter (fun x => fs.contains x.fn)) (fun s x => resetCtx x s)
  let s := s.each fs (fun s f =>
    let s := ringsToReset f s
    let s := s.onFn f fnDefaults
    s.onPort (fnPort f) (fun p => { p with queue := p.queue.filter (fun q => q.fn != f) }))
  { s with locks := s.locks.filter (fun k => match k.opener with
    | .fn f => !fs.contains f.val
    | _ => true) }

/-- The virtual functions of a port that exist. -/
def vfsOf (p : Two) (s : State) : List Nat :=
  ((List.range 31).map (fun i => 32 * p.val + i + 1)).filter (fun f => fnExists f s)

/-- Reset of one virtual function (R410). -/
def execFlrVf (f : Fn) (s : State) : Out := gate s <|
  .next (if f.val % 32 = 0 ∨ !fnExists f.val s ∨ !cfgReady (fnPort f.val) s then s else resetFns [f.val] s)

/-- Reset of every function of a port: the physical function's configuration takes its defaults, VF Enable and NumVFs 0
(R410). -/
def resetPort (p : Two) (s : State) : State :=
  ((resetFns (32 * p.val :: vfsOf p s) s).putb (HLK_PORTp_VF_EN.i p.val) false).put (HLK_PORTp_NUM_VFS.i p.val) 0

/-- Reset of a physical function (R410). -/
def execFlrPf (p : Two) (s : State) : Out := gate s <| .next (if cfgReady p s then resetPort p s else s)

/-- VF Enable goes from 1 to 0 (R399). -/
def execVfEnableClear (p : Two) (s : State) : Out := gate s <|
  .next (if !s.getb (HLK_PORTp_VF_EN.i p.val) || !cfgReady p s then s
    else (resetFns (vfsOf p s) s).putb (HLK_PORTp_VF_EN.i p.val) false)

/-- NumVFs is written; refused while VF Enable is 1 (R399). -/
def execNumvfsWrite (p : Two) (n : Nat) (s : State) : Out := gate s <|
  .next (if !cfgReady p s then s.send (.retryStatus p)
    else
      let no := s.getb (HLK_PORTp_VF_EN.i p.val) || decide (31 < n)
      let s := if no then s else s.put (HLK_PORTp_NUM_VFS.i p.val) n
      s.send (.cfgDone (32 * p.val) no))

/-- D3hot to D0 acts as the function's reset (R397). -/
def execD3hotToD0 (f : Fn) (s : State) : Out := gate s <|
  .next (if !(s.hfn f.val).d3hot then s
    else
      let s := s.onFn f.val (fun k => { k with d3hot := false })
      if f.val % 32 = 0 then resetPort (fnPort f.val) s else resetFns [f.val] s)

/-- The port takes HLK_SUBSYS (R422). -/
def takeSubsys (p : Two) (s : State) : State := s.onPort p (fun k => { k with subsys := s.rd HLK_SUBSYS.base })

/-- Hot reset, link-down or PERST_N (R410, R422). -/
def execLinkDown (p : Two) (k : LinkEnd) (s : State) : Out := gate s <|
  let up := s.getb (HLK_PORTp_LINK_UP.i p.val)
  let s := resetPort p s
  let s := s.wr (HLK_PORTp.i p.val).base 0
  let s := s.putb (HLK_PORTp_PERST.i p.val) (decide (k = .perst))
  let s := takeSubsys p (s.onPort p (fun q => { q with training := decide (k ≠ .perst) }))
  .next (showLinks (if up then s.raise hlkBlk 1 else s))

/-- Have the requests and commands of a function ended (R411, R412)? -/
def resetOver (f : Nat) (s : State) : Bool :=
  let p := s.host.ports[fnPort f]
  p.reqs.all (fun q => q.fn != f) && s.host.ctxs.all (fun x => x.fn != f)

/-- The end of a function reset (R412). -/
def execFunctionResetEnd (f : Fn) (s : State) : Out := gate s <|
  .next (if fnResetting f.val s && resetOver f.val s then
      let r := HLK_RSTp.i (fnPort f.val).val
      s.put r (setBits (f.val % 32) (f.val % 32) (s.get r) 0)
    else s)

/-! ### Errors (R414, R415) -/

/-- Class of an error: 0 correctable, 1 non-fatal, 2 fatal (R414). -/
def aerClass : AerErr → Nat
  | .receiver | .badTlp | .badDllp | .replayRollover | .replayTimeout | .advisory => 0
  | .poisoned | .completionTimeout | .completerAbort | .unexpected | .unsupported => 1
  | .dllProtocol | .receiverOverflow | .malformed | .flowControl => 2

/-- Is it an error of the link, which the physical function reports (R414)? -/
def aerLink : AerErr → Bool
  | .receiver | .badTlp | .badDllp | .replayRollover | .replayTimeout => true
  | .dllProtocol | .receiverOverflow | .malformed | .flowControl => true
  | .advisory | .poisoned | .completionTimeout | .completerAbort | .unexpected | .unsupported => false

/-- Reports an error (R414). -/
def reportError (f : Nat) (e : AerErr) (hdr : List Nat) (s : State) : State :=
  let f := if aerLink e then govFn f else f
  let s := s.onFn f (fun k => { k with
    aer := if k.aer.contains e then k.aer else k.aer ++ [e]
    aerHdr := if k.aer = [] then hdr else k.aerHdr })
  s.send (.error f (aerClass e))

/-! ### BAR2 and MSI-X (R401–R405) -/

/-- The 16 bytes of an MSI-X table entry. -/
def vectBytes (e : Vect) : List Byte := leBytes 8 e.addr ++ leBytes 4 e.data ++ leBytes 4 (b2n e.masked)

/-- A byte of BAR2 (R401). -/
def bar2Byte (f off : Nat) (s : State) : Byte :=
  if off < 1024 then (vectBytes (s.vect f (off / 16))).getD (off % 16) 0
  else if 0x2000 ≤ off ∧ off < 0x2008 then
    (leBytes 8 ((s.hfn f).pba.foldl (fun n v => n + 2 ^ v) 0)).getD (off - 0x2000) 0
  else 0

/-- Stores bytes in the MSI-X table (R401). -/
def tableWrite (f off : Nat) (bytes : List Byte) (s : State) : State :=
  if 1024 ≤ off then s
  else
    let v := off / 16
    let old := vectBytes (s.vect f v)
    let l := (List.range 16).map (fun k => if off % 16 ≤ k ∧ k < off % 16 + bytes.length
      then bytes.getD (k - off % 16) 0 else old.getD k 0)
    s.onFn f (fun k => { k with vects := keySet v ⟨field l 0 8, field l 8 4, bitOf 0 (field l 12 4)⟩ k.vects })

/-- A BAR2 request (R402, R405, R411, R415). -/
def execBar2Access (f : Fn) (off : Nat) (q : BarReq) (s : State) : Out := gate s <|
  let ok := fun n => (n == 4 || n == 8) && off % n == 0 && decide (off + n ≤ 16384)
  .next (if !fnExists f.val s then s
    else match q with
    | .read n => if !ok n then (reportError f.val .unsupported [] s).send (.unsupported (fnPort f.val))
      else s.send (.complete f.val (if fnResetting f.val s then zeros n
        else (List.range n).map (fun k => bar2Byte f.val (off + k) s)))
    | .write b => if !ok b.length || fnResetting f.val s then s
      else unmaskAll f.val (tableWrite f.val off b s))

/-- A mask clears (R405). -/
def execMsixUnmask (f : Fn) (v : Option Nat) (s : State) : Out := gate s <|
  .next (unmaskAll f.val (match v with
    | none => s.onFn f.val (fun k => { k with msixMask := false })
    | some v => s.onFn f.val (fun k => { k with
        vects := keySet (v % 64) { s.vect f.val (v % 64) with masked := false } k.vects })))

/-! ### Requests to no BAR (R415) -/

/-- An error is detected (R414). -/
def execAerError (f : Fn) (e : AerErr) (hdr : List Nat) (s : State) : Out := gate s <| .next (reportError f.val e hdr s)

/-- A request that matches no BAR (R415). -/
def execUnsupportedRequest (f : Fn) (isRead : Bool) (s : State) : Out := gate s <|
  let s := reportError (govFn f.val) .unsupported [] s
  .next (if isRead then s.send (.unsupported (fnPort f.val)) else s)

/-- First address of a function's window (R47). -/
def windowOf (f : Nat) : Nat := 0x03000000 + f * 0x40000

/-- May a TENANT function read an address (R64, R65)? -/
def tenantMayRead (f addr : Nat) : Bool :=
  decide (windowOf f ≤ addr ∧ addr < windowOf f + 0x40000) ||
    (f % 32 == 0 && match blkOf addr with
      | some b => decide (addr - blkBase b < 8)
      | none => false)

/-- A TENANT read outside its limits (R403). -/
def execTenantReadDenied (f : Fn) (addr : Nat) (s : State) : Out := gate s <|
  .next (if f.val = afFunc s ∨ tenantMayRead f.val addr ∨ !fnExists f.val s then s
    else if fnResetting f.val s then s.send (.complete f.val (zeros 4))
    else (s.bump (HLK_DCNTp_DENIED_RD.i (fnPort f.val).val) 1).send (.complete f.val (zeros 4)))

/-! ### The part's own requests (R408, R409, R416) -/

/-- Sends waiting reads while fewer than 256 are outstanding on the port (R408). -/
def sendReads (p : Two) : Nat → State → State
  | 0, s => s
  | n + 1, s =>
    let k := s.host.ports[p]
    match k.queue with
    | q :: r =>
      if 256 ≤ k.reqs.length then s
      else sendReads p n ((s.onPort p (fun k => { k with reqs := k.reqs ++ [{ q with sent := s.now }], queue := r })).send
        (.read q.fn q.addr q.len))
    | [] => s

/-- Reads a command's buffer of `len` bytes (R408). -/
def readBuf (x : Ctx) (len : Nat) (s : State) : State :=
  let p := fnPort x.fn
  let runs := readRuns (min 4096 (s.hfn (govFn x.fn)).mrrs) x.buf len
  sendReads p 256 (s.onPort p (fun k => { k with
    queue := k.queue ++ runs.map (fun (a, n) => { fn := x.fn, ctx := x.id, addr := a, len := n }) }))

/-- A request of the part has failed with a violation code (R416): the command ends. -/
def dmaFault (q : Req) (code : Nat) (s : State) : State :=
  match s.ctx q.ctx with
  | none => s
  | some x =>
    let s := violation x.fn code (x.ring - ringFirst x.fn s) (q.addr % 2 ^ 32) s
    if pastCommit x then s else finish x 0x14 code 0 s

/-- A completion arrives (R409, R416). -/
def execDmaCompletion (p : Two) (n : Nat) (e : DmaEnd) (s : State) : Out := gate s <|
  let k := s.host.ports[p]
  .next (match k.reqs[n]? with
    | some q =>
      let s := sendReads p 1 (s.onPort p (fun k => { k with reqs := k.reqs.eraseIdx n }))
      match e with
      | .good => s
      | .unsupported => dmaFault q 8 s
      | .abort => dmaFault q 9 s
      | .poisoned => dmaFault q 10 (reportError q.fn .poisoned [] s)
    | none => match k.late[n - k.reqs.length]? with
      | some q => reportError q.fn .unexpected [] (s.onPort p (fun k => { k with
          late := k.late.eraseIdx (n - k.reqs.length) }))
      | none => s)

/-- A completion has not arrived within the timeout (R409): 40 ms by default; in a range that software has chosen the standard
gives the time, and the command says that it has passed. -/
def execCompletionTimeout (p : Two) (n : Nat) (s : State) : Out := gate s <|
  .next (match s.host.ports[p].reqs[n]? with
    | some q =>
      if (s.hfn (govFn q.fn)).ctoOff ∨ ((s.hfn (govFn q.fn)).ctoValue = 0 ∧ s.now < q.sent + 16000) then s
      else
        let s := s.onPort p (fun k => { k with reqs := k.reqs.eraseIdx n, late := k.late ++ [q] })
        dmaFault q 11 (reportError q.fn .completionTimeout [] (sendReads p 1 s))
    | none => s)

end Sys2Proof.Machine
end

