-- ==== Sys2Proof/Machine/Rings.lean ====
section
/-! DEFINITION. Rings, doorbells and the Signal box (R424–R459): ring states, fetching, grants and drains. -/

namespace Sys2Proof.Machine

open Reg

/-- The HQE block. -/
def hqeBlk : Blk := ⟨.hqe, 0⟩

/-! ### Ring states (R427, R428, R452) -/

/-- A ring enters RUNNING (R428). -/
def ringRun (g : Nat) (s : State) : State :=
  let s := (s.put (RC_STAT_STATE.i g) 1).put (RC_PTR_HEAD.i g) 0
  let s := (s.put (RC_PTR_TAIL.i g) 0).put (RC_PTR_PASS.i g) 1
  headWait g (s.onRing g (fun _ => { credit := max 1 (s.get (RC_CFG_WEIGHT.i g)) }))

/-- Ends the grants a ring holds. -/
def dropGrants (g : Nat) (s : State) : State :=
  s.onHost (fun h => { h with admin := h.admin.filter (· != g), grant := h.grant.filter (fun k => k.ring != g) })

/-- A ring enters DRAINING (R452): commands before their commit point are dropped. -/
def ringDrain (g : Nat) (s : State) : State :=
  let s := headWait g (dropGrants g ((s.put (RC_STAT_STATE.i g) 2).putb (RC_CTL_SHUTDOWN.i g) true))
  s.each (s.host.ctxs.filter (fun x => x.ring == g && !x.silent && !pastCommit x)) (fun s x =>
    releaseCtx x (unplace x.id [] (s.onRing g (fun r => { r with
      drops := r.drops ++ [⟨x.index, x.phase, transferred x s, x.tag⟩] }))))

/-- The effect of a write to RC_CTL (R427). -/
def rcCtlEffect (g : Nat) (v : W32) (s : State) : State :=
  let en := bitOf 0 v.toNat
  let sd := bitOf 1 v.toNat
  let st := ringState g s
  let s := s.putb (RC_CTL_ENABLE.i g) false
  if st = 0 ∨ st = 3 then
    let s := s.putb (RC_CTL_SHUTDOWN.i g) false
    if en && (ringOwner g s).isSome then ringRun g s else s
  else if st = 1 ∨ st = 4 then (if sd then ringDrain g s else s)
  else s

/-- Index `k` entries after `h`, and whether that wraps. -/
def entryAfter (h k depth : Nat) : Nat × Bool := ((h + k) % depth, decide (depth ≤ h + k))

/-- The end of a drain (R453). -/
def execDrainComplete (g : Nat) (tags : List (Option Nat)) (s : State) : Out := gate s <|
  .next (match ringOwner g s with
    | none => s
    | some f =>
      if ringState g s ≠ 2 ∨ s.host.ctxs.any (fun x => x.ring == g && !x.silent) then s
      else
        let d := ringDepth g s
        let h := s.get (RC_PTR_HEAD.i g)
        let t := s.get (RC_PTR_TAIL.i g)
        let pass := s.getb (RC_PTR_PASS.i g)
        let s := s.each (s.ringX g).drops (fun s r => writeRecord f (entryAddr g r.index s) r.phase 3 1 0 r.count r.tag s)
        let s := s.each (List.range ((t + d - h) % d)) (fun s k =>
          let (i, w) := entryAfter h k d
          writeRecord f (entryAddr g i s) (pass ^^ w) 3 1 0 0 ((tags.getD k none).getD 0) s)
        let s := (s.put (RC_STAT_STATE.i g) 3).putb (RC_CTL_SHUTDOWN.i g) false
        interrupt f (s.get (RC_CFG_VECTOR.i g)) (s.onRing g (fun r => { r with drops := [] })))

/-! ### The Signal box (R437–R442) -/

/-- Has a ring an entry that may be fetched (R397, R411, R437)? -/
def canFetch (g : Nat) (s : State) : Bool :=
  ringState g s == 1 && s.get (RC_PTR_HEAD.i g) != s.get (RC_PTR_TAIL.i g) && !headBusy g s &&
    match ringOwner g s with
    | some f => !(s.hfn f).d3hot && !fnResetting f s && fnExists f s
    | none => false

/-- Is a context free (R441)? -/
def ctxFree (s : State) : Bool := decide (s.host.ctxs.length < 4096)

/-- The admin ring served next (R438). -/
def adminDue (s : State) : Option (Nat × Nat) :=
  ((List.range 64).map (fun k => (s.host.lastAdmin + 1 + k) % 64)).findSome? (fun f =>
    match ringOf f 0 s with
    | some g => if canFetch g s && decide ((s.host.ctxs.filter (fun x => x.ring == g)).length < 16)
        then some (f, g) else none
    | none => none)

/-- RUNNING I/O rings in increasing number. -/
def ioRings (s : State) : List Nat :=
  (s.regs.filterMap (fun (a, v) => if 0x2000000 ≤ a ∧ a < 0x2100000 ∧ a % 0x40 = 0x10 ∧ v.toNat % 8 = 1
    then some ((a - 0x2000000) / 0x40) else none)).filter (fun g => !isAdminRing g s)

/-- A round begins: each RUNNING I/O ring's credit is set to its WEIGHT (R439). -/
def roundBegin (s : State) : State :=
  let s := s.each (ioRings s) (fun s g => s.onRing g (fun r => { r with credit := max 1 (s.get (RC_CFG_WEIGHT.i g)) }))
  s.onHost (fun h => { h with inRound := true })

/-- Unfetched entries of a ring. -/
def unfetched (g : Nat) (s : State) : Nat :=
  let d := ringDepth g s
  (s.get (RC_PTR_TAIL.i g) + d - s.get (RC_PTR_HEAD.i g)) % d

/-- Busy I/O rings with credit. -/
def ioBusy (s : State) : List Nat := (ioRings s).filter (fun g => canFetch g s && decide (0 < (s.ringX g).credit))

/-- A walk begins: a ring whose wait has ended takes part again (R437, R439). -/
def walkBegin (s : State) : State :=
  let s := s.each ((s.host.rings.filter (fun r => r.2.skip && !r.2.waiting)).map (·.1)) (fun s g =>
    s.onRing g (fun r => { r with skip := false }))
  s.onHost (fun h => { h with walk := 0 })

/-- The ring that the present walk comes to next. -/
def walkNext (s : State) : Option Nat := (ioBusy s).find? (fun g => decide (s.host.walk ≤ g) && !(s.ringX g).skip)

/-- The arbiter's next I/O grant (R439): in this walk, else in the next, in a new round when no ring has credit. -/
def ioGrant (s : State) : State :=
  let s := if s.host.inRound && (ioBusy s).length != 0 then s else walkBegin (roundBegin s)
  let s := if (walkNext s).isSome then s else walkBegin s
  match walkNext s with
  | none => s.onHost (fun h => { h with inRound := false })
  | some g =>
    let n := min (clampN 1 64 (s.get (RC_CFG_BURST.i g))) (min (s.ringX g).credit (unfetched g s))
    s.onHost (fun h => { h with walk := g + 1, grant := some { ring := g, left := n } })

/-- A grant (R438–R440). While an activation has stopped fetching, there is none (R502). -/
def execArbiterGrant (s : State) : Out := gate s <|
  .next (if s.host.act.isSome then s
    else match s.host.admin, (if ctxFree s then adminDue s else none) with
    | none, some (f, g) => s.onHost (fun h => { h with admin := some g, lastAdmin := f })
    | _, _ => if s.host.grant.isNone then ioGrant s else s)

/-- The fetch position moves past an entry (R445). -/
def headNext (g : Nat) (s : State) : State :=
  let h := s.get (RC_PTR_HEAD.i g) + 1
  if h = ringDepth g s then (s.put (RC_PTR_HEAD.i g) 0).putb (RC_PTR_PASS.i g) (!s.getb (RC_PTR_PASS.i g))
  else s.put (RC_PTR_HEAD.i g) h

/-- A grant has given one entry. -/
def grantUsed (g : Nat) (admin : Bool) (s : State) : State :=
  if admin then s.onHost (fun h => { h with admin := none })
  else
    let s := s.onRing g (fun r => { r with credit := r.credit - 1 })
    s.onHost (fun h => { h with grant := h.grant.bind (fun k =>
      if k.left ≤ 1 then none else some { k with left := k.left - 1, stalled := false }) })

/-- The fetch of an entry fails (R451). -/
def fetchFault (f g code : Nat) (s : State) : State :=
  let i := s.get (RC_PTR_HEAD.i g)
  let addr := entryAddr g i s
  let s := violation f code (g - ringFirst f s) (addr % 2 ^ 32) s
  let s := writeRecord f addr (s.getb (RC_PTR_PASS.i g)) 3 0x14 code 0 0 s
  let s := interrupt f (s.get (RC_CFG_VECTOR.i g)) s
  dropGrants g ((headNext g (s.put (RC_STAT_STATE.i g) 4)).raise hqeBlk 4)

/-- Marks that a fetched command leaves on the part at once: NS_DELETE closes its namespace to later commands
(R487). -/
def fetchMarks (x : Ctx) (s : State) : State :=
  if x.op = 0x81 then
    { s with map := { s.map with ns := s.map.ns.map (fun k => if k.nsid = x.nsid then { k with deleting := some x.id } else k) } }
  else s

/-- A fetched entry takes a context and is checked (R441, R461, R462). -/
def takeEntry (f g : Nat) (bytes : List Byte) (segs : List (Nat × Nat)) (s : State) : State :=
  let localRing := g - ringFirst f s
  let i := s.get (RC_PTR_HEAD.i g)
  let falls := allCh.map (fun c => (s.chan c).dcm.falls)
  let phase := s.getb (RC_PTR_PASS.i g)
  let x : Ctx := { id := s.host.nextId, ring := g, fn := f, index := i, phase, entry := bytes, segs, falls }
  let s := s.onHost (fun h => { h with nextId := h.nextId + 1 })
  let chk := checkEntry f localRing bytes segs s
  let s := (headNext g s).bump (RC_CNT_FETCHED.i g) 1
  let x := if x.isWrite then { x with
    pieces := cutPieces (decide (x.nlb ≤ 256)) (x.nlb / 256 + 2) x.slba x.nlb } else x
  let s := putCtxs g (s.host.ctxs ++ [x]) s
  match chk with
  | none => fetchMarks x s
  | some (st, d, viol) =>
    let s := if viol = 0 then s else violation f viol localRing (i % 4096 + x.op * 65536) s
    finish x st d 0 s

/-- The next entry is fetched (R438, R440, R441, R451). -/
def execEntryFetched (e : FetchEnd) (s : State) : Out := gate s <|
  let due : Option (Nat × Bool) := match s.host.admin with
    | some g => some (g, true)
    | none => if (adminDue s).isSome && ctxFree s then none else s.host.grant.map (fun (k : Grant) => (k.ring, false))
  .next (match due with
    | none => s
    | some (g, admin) =>
      match ringOwner g s with
      | none => dropGrants g s
      | some f =>
        if s.host.act.isSome then s
        else if !canFetch g s then dropGrants g s
        else if !ctxFree s then
          if s.host.grant.any (fun (k : Grant) => k.stalled) then s
          else
            let s := ((s.bump HQE_STALL_CTX_STALL 1).bump (RC_CNT_STALLS.i g) 1).raise hqeBlk 1
            s.onHost (fun h => { h with grant := h.grant.map (fun (k : Grant) => { k with stalled := true }) })
        else match e with
          | .failed code => fetchFault f g (clampN 8 11 code) s
          | .entry b segs => takeEntry f g b segs (grantUsed g admin s))

/-! ### Doorbells (R434–R436, R449, R503) -/

/-- Accepts a doorbell of a RUNNING ring, or answers its violation (R435). -/
def doorbellRun (f g r v : Nat) (s : State) : State :=
  let d := ringDepth g s
  let h := s.get (RC_PTR_HEAD.i g)
  let t := s.get (RC_PTR_TAIL.i g)
  if d ≤ v then violation f 1 r v s
  else if (v + d - h) % d < (t + d - h) % d then violation f 2 r v s
  else headWait g (s.put (RC_PTR_TAIL.i g) v)

/-- A write of the doorbell of local ring `r` of a function (R411, R426, R435, R436, R503), whichever origin writes it (DEDUCED,
log 140). -/
def bellWrite (f : Fn) (r : Nat) (be : BitVec 4) (v : W32) (s : State) : State :=
  if fnResetting f.val s || (s.hfn f.val).d3hot || !fnExists f.val s then s
    else if be ≠ 0xF then violation f.val 5 r v.toNat (s.bump SYS_UNMAPPED_CNT_COUNT 1)
    else match ringOf f.val r s with
      | none => violation f.val 3 r v.toNat s
      | some g =>
        let st := ringState g s
        if st = 0 ∨ st = 3 then violation f.val 3 r v.toNat s
        else if st = 2 ∨ st = 4 then s
        else doorbellRun f.val g r v.toNat s

/-- DOORBELL (R435). -/
def execDoorbell (f : Fn) (r : Nat) (be : BitVec 4) (v : W32) (s : State) : Out := gate s <| .next (bellWrite f r be v s)

/-- The transfer of a granted write starts, or its description is refused (R449). -/
def stagedStart (x : Ctx) (r v : Nat) (e : FetchEnd) (s : State) : State :=
  match e with
  | .failed code => finish x 0x14 (clampN 8 11 code) 0
      (violation x.fn (clampN 8 11 code) r ((entryAddr x.ring x.index s + 32) % 2 ^ 32) s)
  | .entry b segs =>
    if field b 63 1 ≠ 1 then violation x.fn 4 r v s
    else
      let e := x.entry.take 32 ++ (b.drop 32).take 32
      let bad := lower (bufferFault e segs) (lower
        (if field e 40 4 ≠ x.nlb * x.unit then some 40 else none)
        ((List.range 3).findSome? (fun k => if field e (45 + k) 1 ≠ 0 then some (45 + k) else none)))
      match bad with
      | some o => finish x 0x11 o 0 s
      | none =>
        let x := { x with entry := e, segs := segs, granted := none, receiving := true }
        readBuf x (x.nlb * x.unit) (onCtx x.id (fun _ => x) s)

/-- The command at XFER_READY in an entry. -/
def grantedAt (g i : Nat) (s : State) : Option Ctx :=
  s.host.ctxs.find? (fun x => x.ring == g && x.index == i && x.granted.isSome && !x.silent)

/-- A staging doorbell of a RUNNING or FAULTED ring (R449). -/
def stagedDoorbell (f g r n : Nat) (e : FetchEnd) (s : State) : State :=
  if ringDepth g s ≤ n then violation f 4 r n s
  else match grantedAt g n s with
    | none => violation f 4 r n s
    | some x => stagedStart x r n e s

/-- A write of the staging doorbell of local ring `r` of a function (R436, R449); during an activation it is recorded
(R503). -/
def stagingWrite (f : Fn) (r : Nat) (be : BitVec 4) (v : W32) (e : FetchEnd) (s : State) : State :=
  let n := v.toNat
  if fnResetting f.val s || (s.hfn f.val).d3hot || !fnExists f.val s then s
    else if be ≠ 0xF then violation f.val 5 r n (s.bump SYS_UNMAPPED_CNT_COUNT 1)
    else match ringOf f.val r s with
      | none => violation f.val 3 r n s
      | some g =>
        let st := ringState g s
        if st = 0 ∨ st = 3 then violation f.val 3 r n s
        else if st = 2 then s
        else if s.host.act.isSome then s.onRing g (fun k => { k with stagedLater := k.stagedLater ++ [(n, e)] })
        else stagedDoorbell f.val g r n e s

/-- STAGING_DOORBELL (R449). -/
def execStagingDoorbell (f : Fn) (r : Nat) (be : BitVec 4) (v : W32) (e : FetchEnd) (s : State) : Out := gate s <|
  .next (stagingWrite f r be v e s)

/-! ### Reservations (R448, R450) -/

/-- The write whose transfer is the next to start: reserved, not started, free of the yard (R448, R485). -/
def startDue (s : State) : Option Ctx :=
  s.host.ctxs.find? (fun x => x.isWrite && x.reserved.isSome && x.stage == 0 && !x.receiving && x.blocks.isEmpty &&
    x.granted.isNone && x.parked.isNone && !x.silent && yardReceive x s)

/-- A reserved write starts: XFER_READY, or the transfer at once (R448). -/
def startWrite (x : Ctx) (s : State) : State :=
  if x.deferred then
    let s := stageRecord x 1 (x.nlb * x.unit) s
    onCtx x.id (fun x => { x with granted := some s.now }) s
  else readBuf x (x.nlb * x.unit) (onCtx x.id (fun x => { x with receiving := true }) s)

/-- The next reservation, in fetch order (R448, R554). -/
def execBufferReservation (s : State) : Out := gate s <|
  .next (match startDue s with
    | some x => startWrite x s
    | none => match s.host.ctxs.find? (fun x => x.isWrite && x.reserved.isNone && x.stage == 0 &&
        x.parked.isNone && !x.silent) with
      | none => s
      | some x =>
        if stripeBytes s < (s.get STR_BUF_USED_BLOCKS + x.nlb) * 4112 then s
        else
          let s := onCtx x.id (fun x => { x with reserved := some x.nlb }) s
          if yardReceive x s then startWrite x s else s)

/-- A pending grant runs out (R450). -/
def execGrantExpiry (id : Nat) (s : State) : Out := gate s <|
  let tmo := s.get HQE_GRANT_GRANT_TMO
  .next (match s.ctx id with
    | none => s
    | some x => match x.granted with
      | none => s
      | some t =>
        if tmo = 0 ∨ s.now < t + ticks10ms tmo then s
        else finish x 1 0 0 ((s.bump HQE_CNT_GRANT_EXPIRED 1).raise hqeBlk 2))

/-! ### Register effects (R424–R429, R458, R459) -/

/-- Would a write to HQE_FRINGf take effect (R425)? -/
def assignOk (f : Nat) (v : W32) (s : State) : Bool :=
  let base := bitsOf 13 0 v.toNat
  let n := min 1024 (bitsOf 26 16 v.toNat)
  let quiet := fun g => ringState g s == 0 || ringState g s == 3
  (List.range (ringTotal f s)).all (fun k => quiet (ringFirst f s + k)) && (List.range n).all (fun k => quiet (base + k)) &&
    (List.range 64).all (fun h => h == f || n == 0 || ringTotal h s == 0 ||
      decide (base + n ≤ ringFirst h s ∨ ringFirst h s + ringTotal h s ≤ base)) && decide (base + n ≤ 16384)

/-- Counters of HQE and of every ring (R458). -/
def hqeClear (s : State) : State :=
  let s := s.clearAll [HQE_STALL_CTX_STALL, HQE_CNT_HEAD_WAITS, HQE_CNT_GRANT_EXPIRED]
  (s.regs.filter (fun (a, _) => decide (0x2000000 ≤ a ∧ a < 0x2100000) && a % 0x40 == 0x18)).foldl
    (fun s (a, _) => s.wr a 0) s

/-- Setting EVQ_EN from 0 to 1 (R459). -/
def evqEffect (g : Nat) (old v : W32) (s : State) : State :=
  if bitOf 0 v.toNat && !bitOf 0 old.toNat then
    let s := s.put (RC_EVQ_PTR_EVQ_TAIL.i g) 0
    match ringOwner g s with
    | some f => s.onFn f (fun k => { k with evSeq := 1, evPhase := true })
    | none => s
  else s

end Sys2Proof.Machine
end

