-- ==== Sys2Proof/Machine/MapCache.lean ====
section
/-! DEFINITION. The map cache (R530–R537): lines, fills, the eviction buffer, prefetches, locks and operations. The cache
holds which lines are where; their content is the map's own, which every request reads and writes. -/

namespace Sys2Proof.Machine

open Reg

/-- The MCA block. -/
def mcaBlk : Blk := ⟨.mca, 0⟩

/-- Changes the map cache. -/
def State.onMca (s : State) (f : Mca → Mca) : State := { s with mca := f s.mca }

/-! ### Lines -/

/-- Set of a line (R530). -/
def setOfLine (line : Nat) : Nat := line % 4096

/-- Is a way locked? -/
def wayLocked (w : Nat) (s : State) : Bool := bitOf w (s.get MCA_WAY_LOCK)

/-- Is a way disabled? -/
def wayDisabled (w : Nat) (s : State) : Bool := bitOf w (s.get MCA_WAY_DISABLED)

/-- Are all ways disabled (R537)? -/
def allDisabled (s : State) : Bool := s.get MCA_WAY_DISABLED == 65535

/-- The cached copy of a line. -/
def lineAt (line : Nat) (l : List CLine) : Option CLine := l.find? (fun k => k.line == line)

/-- A line becomes the most recently used of its set (R531). -/
def touch (line : Nat) (l : List CLine) : List CLine :=
  match lineAt line l with
  | none => l
  | some k => l.map (fun j =>
      if j.line = line then { j with age := 0 }
      else if setOfLine j.line = setOfLine line ∧ j.age < k.age then { j with age := j.age + 1 } else j)

/-- Adds a line as the most, or the least, recently used of its set (R531, R536). -/
def addLine (n : CLine) (lru : Bool) (l : List CLine) : List CLine :=
  let mine := l.filter (fun j => setOfLine j.line == setOfLine n.line)
  if lru then l ++ [{ n with age := mine.length }]
  else l.map (fun j => if setOfLine j.line = setOfLine n.line then { j with age := j.age + 1 } else j) ++ [{ n with age := 0 }]

/-- Removes a line. -/
def dropLine (line : Nat) (l : List CLine) : List CLine :=
  match lineAt line l with
  | none => l
  | some k => (l.filter (fun j => j.line != line)).map (fun j =>
      if setOfLine j.line = setOfLine line ∧ k.age < j.age then { j with age := j.age - 1 } else j)

/-- Where a line is filled (R531): a way, and the line it displaces; none when every way is locked or disabled. -/
def fillWay (line : Nat) (s : State) : Option (Nat × Option CLine) :=
  let ways := (List.range 16).filter (fun w => !wayLocked w s && !wayDisabled w s)
  let mine := s.mca.lines.filter (fun j => setOfLine j.line == setOfLine line)
  match ways.find? (fun w => mine.all (fun j => j.way != w)) with
  | some w => some (w, none)
  | none =>
    let old := (mine.filter (fun j => ways.contains j.way)).foldl (fun (m : Option CLine) (j : CLine) => match m with
      | some k => if k.age < j.age then some j else some k
      | none => some j) none
    old.map (fun j => (j.way, some j))

/-! ### Requests (R530–R533) -/

/-- A request that hits (R536). -/
def hitLine (k : CLine) (write : Bool) (s : State) : State :=
  let s := if k.pf then s.bump MCA_CNT_PF_PF_USED 1 else s
  (s.bump MCA_CNT_HIT_HITS 1).onMca (fun m => { m with lines := touch k.line (m.lines.map (fun j =>
    if j.line = k.line then { j with dirty := j.dirty || write, pf := false } else j)) })

/-- Serves a request that does not wait behind others: a hit, the eviction buffer, or a fill (R531–R533). -/
def serveReq (q : CReq) (s : State) : State :=
  if s.mca.evict = some q.line then
    if q.write then s.onMca (fun m => { m with evictWrites := m.evictWrites ++ [q] })
    else (s.bump MCA_CNT_HIT_HITS 1).bump MCA_CNT_MISC_EVICT_SERVED 1
  else match lineAt q.line s.mca.lines with
    | some k => hitLine k q.write s
    | none => match s.mca.fill with
      | none => (s.bump MCA_CNT_MISS_MISSES 1).onMca (fun m => { m with fill := some (q.line, false, [q]) })
      | some (l, pf, rs) =>
        if l = q.line then s.onMca (fun m => { m with fill := some (l, pf, rs ++ [q]) })
        else s.onMca (fun m => { m with waiting := m.waiting ++ [q] })

/-- Serves waiting requests in arrival order until one begins a fill; on fuel (R532). -/
def serveWaiting : Nat → State → State
  | 0, s => s
  | f + 1, s =>
    if s.mca.fill.isSome then s
    else match s.mca.waiting with
      | [] => s
      | q :: r => serveWaiting f (serveReq q (s.onMca (fun m => { m with waiting := r })))

/-- A prefetch fill begins when no demand miss waits (R536). -/
def startPrefetch (s : State) : State :=
  match s.mca.fill, s.mca.waiting, s.mca.prefetch with
  | none, [], l :: r =>
    let s := s.onMca (fun m => { m with prefetch := r })
    if (lineAt l s.mca.lines).isSome || s.mca.evict == some l then s
    else (s.bump MCA_CNT_PF_PF_ISSUED 1).onMca (fun m => { m with fill := some (l, true, []) })
  | _, _, _ => s

/-! ### Prefetch (R536) -/

/-- First DRAM line of the extent map. -/
def mapLine (s : State) : Nat := (s.get MAP_BASE_HI_BASE * 2 ^ 32 + s.get MAP_BASE_LO_BASE * 2 ^ 28) / 64

/-- First DRAM line of the patch pool. -/
def poolLine (s : State) : Nat := (s.get MAP_POOL_HI_POOL_BASE * 2 ^ 32 + s.get MAP_POOL_LO_POOL_BASE * 2 ^ 15) / 64

/-- Does a line lie in the extent map? -/
def inMap (line : Nat) (s : State) : Bool := decide (mapLine s ≤ line ∧ line < mapLine s + 4194304)

/-- Does a line lie in the patch pool? -/
def inPool (line : Nat) (s : State) : Bool :=
  decide (poolLine s ≤ line ∧ line < poolLine s + min 131071 (s.get MAP_POOL_CFG_PATCH_PAGES) * 512)

/-- May a prefetch of a line follow a request of another: within the extent range of its namespace, or the patch page in
use (R536)? -/
def mayPrefetch (line dst : Nat) (s : State) : Bool :=
  let e := (line - mapLine s) * 4
  if inMap line s then
    match s.map.ns.find? (fun k => decide (k.extBase < e + 4 ∧ e < k.extBase + (k.size + 4095) / 4096)) with
    | some k => inMap dst s && decide (k.extBase < (dst - mapLine s) * 4 + 4 ∧ (dst - mapLine s) * 4 < k.extBase + (k.size + 4095) / 4096)
    | none => false
  else inPool line s && inPool dst s && (line - poolLine s) / 512 == (dst - poolLine s) / 512

/-- The lines a stride leads to, those the cache may prefetch. -/
def strideLines (a b c depth : Nat) (s : State) : List Nat :=
  let d : Int := c - b
  if d = 0 ∨ (b : Int) - a ≠ d then []
  else ((List.range depth).map (fun k => (c : Int) + (k + 1 : Nat) * d)).filterMap (fun z =>
    if z < 0 then none else if mayPrefetch c z.toNat s then some z.toNat else none)

/-- Notes a request with its stream's tracker; 256 trackers, the least recently used giving way (R536). -/
def track (q : Stream) (line : Nat) (s : State) : State :=
  let old := (s.mca.trackers.find? (fun t => t.stream == q)).getD { stream := q }
  let lines := (line :: old.lines).take 3
  let rest := (s.mca.trackers.filter (fun t => t.stream != q)).take 255
  let keep := fun (ahead : List Nat) (s : State) =>
    s.onMca (fun m => { m with trackers := { stream := q, lines, ahead } :: rest })
  match lines with
  | [c, b, a] =>
    if !s.getb MCA_CTL_PF_EN then keep old.ahead s
    else
      let goal := strideLines a b c (max 1 (s.get MCA_CTL_PF_DEPTH)) s
      let new := goal.filter (fun l => !old.ahead.contains l &&
        (lineAt l s.mca.lines).isNone && !s.mca.prefetch.contains l && s.mca.fill.map (·.1) != some l)
      keep goal (s.onMca (fun m => { m with prefetch := m.prefetch ++ new }))
  | _ => keep [] s

/-- MAP_CACHE_ACCESS (R530–R533, R536). With every way disabled, requests go to DRAM directly (R537). -/
def execMapCacheAccess (q : Stream) (line : Nat) (write : Bool) (s : State) : Out := gate s <|
  .next (if allDisabled s then s else startPrefetch (track q line (serveReq ⟨q, line, write⟩ s)))

/-- A fill whose data have come takes its slot; a dirty line it displaces goes to the eviction buffer, and the fill waits
while that buffer is busy (R531–R533). -/
def endFill (s : State) : State :=
  match s.mca.fill with
  | none => s
  | some (l, pf, rs) =>
    let next := fun (s : State) =>
      let s := s.onMca (fun m => { m with fill := none, filled := false })
      startPrefetch (serveWaiting (s.mca.waiting.length) s)
    match fillWay l s with
    | none => next s
    | some (w, old) =>
      let dirtyOld := match old with
        | some j => j.dirty
        | none => false
      if dirtyOld && s.mca.evict.isSome then s.onMca (fun m => { m with filled := true })
      else
        let used := pf && rs != []
        let s := if used then s.bump MCA_CNT_PF_PF_USED 1 else s
        let n : CLine := { line := l, way := w, dirty := rs.any (·.write), pf := pf && !used }
        let s := s.onMca (fun m => { m with
          lines := addLine n (pf && !used) (match old with
            | some j => dropLine j.line m.lines
            | none => m.lines)
          evict := if dirtyOld then old.map (·.line) else m.evict })
        next s

/-- CACHE_FILL_DONE (R531, R532). -/
def execCacheFillDone (s : State) : Out := gate s <| .next (endFill s)

/-- CACHE_EVICT_DONE (R533): a fill that waited for the buffer takes its slot, and writes that waited for the write-back are
served as misses. -/
def execCacheEvictDone (s : State) : Out := gate s <|
  .next (if s.mca.evict.isNone then s
    else
      let ws := s.mca.evictWrites
      let s := s.onMca (fun m => { m with evict := none, evictWrites := [], waiting := m.waiting ++ ws })
      if s.mca.filled then endFill s else startPrefetch (serveWaiting s.mca.waiting.length s))

/-! ### Operations and locks (R534, R535, R541) -/

/-- Invalidates one line: written back when dirty, removed, and counted when its way is locked (R534). -/
def invalidateLine (line : Nat) (s : State) : State :=
  match lineAt line s.mca.lines with
  | none => s
  | some k =>
    let s := if wayLocked k.way s then s.bump MCA_CNT_MISC_LOCKED_INVALIDATED 1 else s
    s.onMca (fun m => { m with lines := dropLine line m.lines })

/-- Invalidates the cached lines of a range (R534). -/
def invalidateRange (first n : Nat) (s : State) : State :=
  s.each ((s.mca.lines.map (·.line)).filter (fun l => decide (first ≤ l ∧ l < first + n))) (fun s l => invalidateLine l s)

/-- Loads one line into a way (R535). -/
def preloadLine (w line : Nat) (s : State) : State :=
  match lineAt line s.mca.lines with
  | some k =>
    if k.way = w then s
    else s.onMca (fun m =>
      let l := dropLine line m.lines
      let l := match l.find? (fun j => j.way == w && setOfLine j.line == setOfLine line) with
        | some j => dropLine j.line l
        | none => l
      { m with lines := addLine { line, way := w } false l })
  | none => s.onMca (fun m =>
      let l := match m.lines.find? (fun j => j.way == w && setOfLine j.line == setOfLine line) with
        | some j => dropLine j.line m.lines
        | none => m.lines
      { m with lines := addLine { line, way := w } false l })

/-- Does a range lie within the extent map or within the patch pool (R535)? -/
def opRangeOk (first n : Nat) (s : State) : Bool :=
  decide (n ≤ 4096) && ((inMap first s && inMap (first + n - 1) s) || (inPool first s && inPool (first + n - 1) s))

/-- The effect of a write of MCA_OP with GO (R534, R535, R541). A command is whole; a disabled way takes none (DESIGN
CHOICE, log 47). -/
def mcaOpEffect (v : W32) (s : State) : State :=
  let s := s.putb MCA_OP_GO false
  let n := max 1 (s.get MCA_OP_LEN_LINES)
  let first := s.get MCA_ADDR_HI_ADDR * 2 ^ 26 + s.get MCA_ADDR_LO_ADDR
  let w := s.get MCA_OP_WAY
  let done := fun (r : Nat) (s : State) => (s.put MCA_OP_RESULT r).raise mcaBlk 3
  if !bitOf 31 v.toNat then s
  else match s.get MCA_OP_OP with
    | 1 =>
      if !opRangeOk first n s then done 1 s
      else if wayDisabled w s then done 0 s
      else
        let s := s.each ((List.range n).map (first + ·)) (fun s l => preloadLine w l s)
        done 0 (s.onMca (fun m => { m with loaded := if m.loaded.contains w then m.loaded else m.loaded ++ [w] }))
    | 2 => done 0 (invalidateRange first n s)
    | 3 => done 0 (s.onMca (fun m => { m with lines := m.lines.map (fun j =>
        if first ≤ j.line ∧ j.line < first + n then { j with dirty := false } else j) }))
    | _ => s

/-- Ways locked. -/
def lockedCount (s : State) : Nat := ((List.range 16).filter (fun w => wayLocked w s)).length

/-- Unlocks a way: its dirty lines are written back (R535). -/
def unlockWay (w : Nat) (s : State) : State :=
  s.onMca (fun m => { m with
    loaded := m.loaded.filter (· != w)
    lines := m.lines.map (fun j => if j.way = w then { j with dirty := false } else j) })

/-- The effect of a write of MCA_WAY that found the LOCK bits `old` (R535). -/
def mcaLockEffect (old : Nat) (v : W32) (s : State) : State :=
  let want := v.toNat % 65536
  let s := s.put MCA_WAY_LOCK (old &&& want)
  let s := s.each ((List.range 16).filter (fun w => bitOf w old && !bitOf w want)) (fun s w => unlockWay w s)
  s.each ((List.range 16).filter (fun w => bitOf w want && !bitOf w old)) (fun s w =>
    if !s.mca.loaded.contains w || wayDisabled w s || decide (15 ≤ lockedCount s) then s.raise mcaBlk 2
    else s.put MCA_WAY_LOCK (s.get MCA_WAY_LOCK + 2 ^ w))

/-! ### Errors of the arrays (R537) -/

/-- Disables a way: its lines leave it, its lock clears (R537). -/
def disableWay (w : Nat) (s : State) : State :=
  if wayDisabled w s then s
  else
    let s := if wayLocked w s then s.put MCA_WAY_LOCK (s.get MCA_WAY_LOCK - 2 ^ w) else s
    let s := s.put MCA_WAY_DISABLED (s.get MCA_WAY_DISABLED + 2 ^ w)
    let s := s.onMca (fun m => { m with
      loaded := m.loaded.filter (· != w)
      lines := (m.lines.filter (fun j => j.way == w)).foldl (fun l j => dropLine j.line l) m.lines })
    ((s.bump MCA_CNT_ECC_WAYS_DISABLED 1).raise mcaBlk 1).fault 18 0 mcaBlk

/-- A correction in a way's array counts; more than 8 within any 400,000 ticks disable the way (R537). -/
def wayCorrected (w : Nat) (s : State) : State :=
  let s := (s.bump MCA_CNT_ECC_CORRECTED 1).onMca (fun m => { m with
    ecc := (m.ecc.filter (fun p => decide (s.now < p.2 + 400000))) ++ [(w, s.now)] })
  if 8 < (s.mca.ecc.filter (fun p => p.1 == w)).length then disableWay w s else s

/-- Counters of MCA (R541). -/
def mcaClear (s : State) : State :=
  s.clearAll [MCA_CNT_HIT_HITS, MCA_CNT_MISS_MISSES, MCA_CNT_PF, MCA_CNT_MISC, MCA_CNT_ECC]

end Sys2Proof.Machine
end

