-- ==== Sys2Proof/Machine/Map.lean ====
section
/-! DEFINITION. The extent map (R505–R529): entries and patch pages, resolution, changes, commit groups, the journal and
its base, and the recovery at chip start. -/

namespace Sys2Proof.Machine

open Reg

/-- The MAP block. -/
def mapBlk : Blk := ⟨.map, 0⟩

/-- Changes the map manager. -/
def State.onMap (s : State) (f : MapM → MapM) : State := { s with map := f s.map }

/-! ### Entries (R505, R509–R513) -/

/-- Entries of the extent map (R10). -/
def mapEntries : Nat := 16777216

/-- Extents of a namespace (R505). -/
def extCount (k : Ns) : Nat := (k.size + 4095) / 4096

/-- The entry of an extent; none is UNMAPPED. -/
def extOf (e : Nat) (s : State) : Option Ext := keyFind e s.map.exts

/-- Replaces the entry of an extent. -/
def setExt (e : Nat) (x : Option Ext) (s : State) : State :=
  s.onMap (fun m => { m with exts := match x with
    | some v => keySet e v m.exts
    | none => keyErase e m.exts })

/-- The namespace an extent belongs to. -/
def nsOfExt (e : Nat) (s : State) : Option Ns :=
  s.map.ns.find? (fun k => decide (k.extBase ≤ e ∧ e < k.extBase + extCount k))

/-- The entries of a patch page. -/
def pageOf (page : Nat) (s : State) : List (Nat × Patch) := (keyFind page s.map.pages).getD []

/-- The disc at an index of the disc table (R514). -/
def discAt (idx : Nat) (s : State) : Nat := (keyFind idx s.map.discs).getD 0

/-- Index of a disc in the disc table. -/
def discIdx (d : Nat) (l : List (Nat × Nat)) : Option Nat := (l.find? (fun p => p.2 == d)).map (·.1)

/-- The lowest free index of the disc table (R514). -/
def freeIdx (l : List (Nat × Nat)) : Option Nat := (List.range 4096).find? (fun k => (keyFind k l).isNone)

/-- Place of block `k` blocks after the data index 0 of a tile slot (R512). -/
def placeIn (disc layer zone tile k : Nat) : Place := ⟨disc, layer, zone, tile + k / 56, k % 56⟩

/-- Place of an on-disc patch entry (R513). -/
def patchPlace (p : Patch) (s : State) : Place := ⟨discAt p.idx s, p.layer, p.zone, p.tile, p.data⟩

/-- Where the map places a block (R512): never written, on a disc, or in an extent whose entry is ABSENT with this home
disc (0 not yet known). -/
inductive Where where
  | never
  | at (p : Place)
  | absent (disc : Nat)
deriving DecidableEq, Repr

/-- Resolves block `n` of extent `e` (R512, R513). -/
def resolveExt (e n : Nat) (s : State) : Where :=
  match extOf e s with
  | none => .never
  | some (.linear d l z _ t st fill) => if fill ≤ n then .never else .at (placeIn d l z t (st + n))
  | some (.patched _ page) => match keyFind n (pageOf page s) with
    | some p => .at (patchPlace p s)
    | none => .never
  | some (.absent d) => .absent d

/-- Resolves an LBA of a namespace (R509). -/
def resolve (k : Ns) (lba : Nat) (s : State) : Where := resolveExt (k.extBase + lba / 4096) (lba % 4096) s

/-- Home disc of an entry (R510). -/
def homeOf : Option Ext → Nat
  | none => 0
  | some (.linear d _ _ _ _ _ _) => d
  | some (.patched d _) => d
  | some (.absent d) => d

/-- Patch pages in use, those of open import tables among them (R513, R529). -/
def pagesUsed (s : State) : Nat :=
  s.map.pages.length + s.map.ns.foldl (fun n k => if k.importOpen then n + (extCount k + 4095) / 4096 else n) 0

/-- Pages of the pool. -/
def pagesTotal (s : State) : Nat := min 131071 (s.get MAP_POOL_CFG_PATCH_PAGES)

/-- The lowest free page. -/
def freePage (s : State) : Option Nat :=
  if pagesUsed s < pagesTotal s then
    (List.range (s.map.pages.length + 1)).find? (fun p => (keyFind p s.map.pages).isNone)
  else none

/-! ### The journal region (R519, R522, R523) -/

/-- Bytes of a record. -/
def recBytes (n : Nat) : Nat := 32 + 32 * n

/-- Bytes in use in a sector of the region. -/
def sectorUse (l : List JRec) (k : Nat) : Nat :=
  (l.filter (fun r => r.sector == k)).foldl (fun n r => n + recBytes r.changes.length) 0

/-- Sectors in use, which FILL_PCT counts (log 166). -/
def sectorsUsed (l : List JRec) : Nat := ((List.range 96).filter (fun k => l.any (fun r => r.sector == k))).length

/-- The sector for a record of `n` changes: that of the last record when it has room, else an erased one, those of the
bank that is not FETCH_BANK first (R519, R632). -/
def sectorFor (l : List JRec) (fetch n : Nat) : Option Nat :=
  let here := match l.getLast? with
    | some r => if sectorUse l r.sector + recBytes n ≤ 32768 then some r.sector else none
    | none => none
  let first := if fetch = 0 then (List.range 48).map (· + 48) ++ List.range 48 else List.range 96
  here.or (first.find? (fun k => !l.any (fun r => r.sector == k)))

/-- The records of a group (R519): at most 1,023 changes each, LAST in the last one; on fuel. -/
def recordsFor (fetch tick : Nat) : Nat → Nat → List Change → List JRec → Option (List JRec)
  | 0, _, _, _ => none
  | f + 1, seq, cs, l =>
    let n := min 1023 cs.length
    match sectorFor l fetch n with
    | none => none
    | some k =>
      let r : JRec := { seq, tick, changes := cs.take n, last := decide (cs.length ≤ n), sector := k }
      if cs.length ≤ n then some (l ++ [r]) else recordsFor fetch tick f (seq + 1) (cs.drop n) (l ++ [r])

/-- The region with the records of a group programmed, if it has room. -/
def programmed (cs : List Change) (s : State) : Option (List JRec) :=
  recordsFor (s.get FLS_STAT_FETCH_BANK) s.stamp (cs.length / 1023 + 1) s.map.nextSeq cs s.map.jrnl

/-- Is every change of a record covered (R522)? -/
def covered (m : MapM) (r : JRec) : Bool := decide (r.seq ≤ m.base.seq) && !m.dirty.any (fun p => p.2 == r.seq)

/-- Discs that hold back a journal sector (R523). -/
def holders (s : State) : List Nat :=
  (s.map.dirty.foldl (fun l p =>
    let d := homeOf (extOf p.1 s)
    if d = 0 || l.contains d then l else l ++ [d]) [])

/-- What the MAP registers show of the map (R539). -/
def showMap (s : State) : State :=
  let s := (s.put MAP_STAT_NS_COUNT s.map.ns.length).put MAP_PATCH_USED_PAGES_USED (pagesUsed s)
  let s := s.put MAP_JRNL_FILL_PCT (sectorsUsed s.map.jrnl * 100 / 96)
  s.put MAP_JRNL_HOLDERS (holders s).length

/-! ### Applying changes (R515, R516, R520, R521) -/

/-- Blocks of a LINEAR run as patch entries. -/
def runPage (idx l z t st fill : Nat) : List (Nat × Patch) :=
  (List.range fill).map (fun n => (n, ⟨idx, l, z, t + (st + n) / 56, (st + n) % 56⟩))

/-- Makes sure a disc has an index, `want` when it is free (R514). -/
def ensureDisc (want d : Nat) (s : State) : Option (Nat × State) :=
  match discIdx d s.map.discs with
  | some k => some (k, s)
  | none =>
    let k := if (keyFind want s.map.discs).isNone then some want else freeIdx s.map.discs
    k.map (fun k => (k, s.onMap (fun m => { m with discs := keySet k d m.discs })))

/-- Takes a free page for an extent and fills it (R516); PATCH_FULL when none is free. -/
def takePage (e home : Nat) (l : List (Nat × Patch)) (s : State) : Option (Nat × State) :=
  (freePage s).map (fun p =>
    (p, setExt e (some (.patched home p)) (s.onMap (fun m => { m with pages := keySet p l m.pages }))))

/-- The extent as PATCHED, with its page (R516): an UNMAPPED one takes `disc` as home. -/
def asPatched (e disc : Nat) (s : State) : Option (Nat × State) :=
  match extOf e s with
  | none => takePage e disc [] s
  | some (.patched _ p) => some (p, s)
  | some (.linear d l z _ t st fill) =>
    match ensureDisc 4096 d s with
    | none => none
    | some (k, s) => (takePage e d (runPage k l z t st fill) s).map (fun (p, s) => (p, s.bump MAP_CNT_MISC_CONVERSIONS 1))
  | some (.absent _) => none

/-- Frees the page of an extent. -/
def dropPage (e : Nat) (s : State) : State :=
  match extOf e s with
  | some (.patched _ p) => s.onMap (fun m => { m with pages := keyErase p m.pages })
  | _ => s

/-- Does BAND of a LINEAR entry belong to its tile slot (R82, R511)? -/
def bandOk : Ext → Bool
  | .linear _ l z b t _ _ => b == tileBand ⟨l, z, 0, t⟩
  | _ => true

/-- Stores an entry that is formed or loaded (R511). -/
def storeExt (e : Nat) (x : Option Ext) (s : State) : State :=
  let s := dropPage e s
  match x with
  | some v => if bandOk v then setExt e x s else setExt e (some (.absent (homeOf x))) (s.fault 17 0 mapBlk)
  | none => setExt e none s

/-- Sets a block of an extent (R513, R516, R521). When the pool or the disc table lacks room, PATCH_FULL is raised and
nothing changes. -/
def storePatch (e n : Nat) (p : Patch) (disc : Nat) (s : State) : Option State :=
  match asPatched e disc s with
  | none => none
  | some (page, s) =>
    match ensureDisc p.idx disc s with
    | none => none
    | some (k, s) => some (s.onMap (fun m => { m with
        pages := keySet page (keySet n { p with idx := k } ((keyFind page m.pages).getD [])) m.pages }))

/-- Notes a change to an extent as not yet in a checkpoint. -/
def noteDirty (e seq : Nat) (s : State) : State := s.onMap (fun m => { m with dirty := m.dirty ++ [(e, seq)] })

/-- The extent changes of a group take effect, or are held while the extent is ABSENT (R521). The changes that close
an import (R529) leave the entry of an extent whose home they name, and settle an extent whose home is not known. -/
def applyExtent (seq e : Nat) (c : Change) (s : State) : State :=
  match c, extOf e s with
  | .extentSet _ none, _ => storeExt e none s
  | .extentSet _ (some (.absent d)), some x => if homeOf (some x) = d then noteDirty e seq s
      else noteDirty e seq (storeExt e (some (.absent d)) s)
  | .extentSet _ x, some (.absent 0) => noteDirty e seq (storeExt e x s)
  | _, some (.absent _) => (noteDirty e seq s).onMap (fun m => { m with held := m.held ++ [(seq, c)] })
  | .extentSet _ x, _ => noteDirty e seq (storeExt e x s)
  | .patchSet _ n p d, _ => noteDirty e seq ((storePatch e n p d s).getD (s.raise mapBlk 3))
  | _, _ => s

/-- Releases what a namespace owns of the map (R508). -/
def dropNs (nsid : Nat) (s : State) : State :=
  match s.map.ns.find? (fun k => k.nsid == nsid) with
  | none => s
  | some k =>
    let mine := fun (e : Nat) => decide (k.extBase ≤ e ∧ e < k.extBase + extCount k)
    let pages := s.map.exts.filterMap (fun (e, x) => match x with
      | .patched _ p => if mine e then some p else none
      | _ => none)
    s.onMap (fun m => { m with
      ns := m.ns.filter (fun j => j.nsid != nsid)
      exts := m.exts.filter (fun x => !mine x.1)
      pages := m.pages.filter (fun x => !pages.contains x.1)
      dirty := m.dirty.filter (fun x => !mine x.1)
      held := m.held.filter (fun x => match x.2 with
        | .extentSet e _ => !mine e
        | .patchSet e _ _ _ => !mine e
        | _ => true) })

/-- Changes a namespace. -/
def onNs (nsid : Nat) (f : Ns → Ns) (s : State) : State :=
  s.onMap (fun m => { m with ns := m.ns.map (fun k => if k.nsid = nsid then f k else k) })

/-- Sets a namespace feature (R481). -/
def setNsFeature (feature v : Nat) (k : Ns) : Ns :=
  match feature with
  | 1 => { k with coalesce := v }
  | 2 => { k with siding := v }
  | 3 => { k with sidingTmo := v }
  | _ => k

/-- Sets every entry of an open import to home not yet known (R529). -/
def importAbsent (k : Ns) (s : State) : State :=
  s.each (List.range (extCount k)) (fun s i => setExt (k.extBase + i) (some (.absent 0)) s)

/-- Replaces the disc of every entry that a rebuild has moved (R577). -/
def moveHome (old new : Nat) (s : State) : State :=
  s.onMap (fun m => { m with exts := m.exts.map (fun (e, x) => (e, match x with
    | .patched d p => if d = old then .patched new p else x
    | .absent d => if d = old then .absent new else x
    | _ => x)) })

/-- The patch entries of every page name a disc by its index; a new disc at an index moves the homes of its PATCHED and
ABSENT entries with it (R577). -/
def setDiscEntry (k d : Nat) (s : State) : State :=
  let old := discAt k s
  let s := s.onMap (fun m => { m with discs := keySet k d m.discs })
  if old = 0 ∨ old = d then s else moveHome old d s

/-- Notes that a disc holds checkpoint items of these extents (R508). -/
def markItems (d : Nat) (es : List Nat) (s : State) : State :=
  s.onMap (fun m => { m with ns := m.ns.map (fun k =>
    if !k.marks.contains d && es.any (fun e => decide (k.extBase ≤ e ∧ e < k.extBase + extCount k)) then
      { k with marks := k.marks ++ [d] } else k) })

/-- Discs that hold a checkpoint item or a block of a namespace (R508). -/
def nsDiscs (k : Ns) (s : State) : List Nat :=
  (s.map.exts.filter (fun p => decide (k.extBase ≤ p.1 ∧ p.1 < k.extBase + extCount k))).foldl (fun l p =>
    let more := match p.2 with
      | .patched _ page => (pageOf page s).map (fun q => discAt q.2.idx s)
      | _ => []
    (homeOf (some p.2) :: more).foldl (fun l d => if d = 0 || l.contains d then l else l ++ [d]) l)
    (s.map.held.foldl (fun l p => match p.2 with
      | .patchSet e _ _ d => if k.extBase ≤ e ∧ e < k.extBase + extCount k ∧ !l.contains d then l ++ [d] else l
      | _ => l) k.marks)

/-- NS_DELETE takes effect (R508): tombstones for the discs of the namespace, the range and its pages released, and the
range's lines invalidated in the map cache. -/
def deleteNs (nsid : Nat) (s : State) : State :=
  match s.map.ns.find? (fun k => k.nsid == nsid) with
  | none => s
  | some k =>
    let ts := (nsDiscs k s).map (fun d => (d, nsid, k.createSeq, s.tb.tod))
    let s := dropNs nsid (s.onMap (fun m => { m with tombs := m.tombs ++ ts }))
    invalidateRange (mapLine s + k.extBase / 4) ((k.extBase + extCount k + 3) / 4 - k.extBase / 4) s

/-- Does the map hold pending changes for an extent (R521)? -/
def heldChange (e : Nat) (s : State) : Bool := s.map.held.any (fun (p : Nat × Change) => match p.2 with
  | .extentSet f _ => f == e
  | .patchSet f _ _ _ => f == e
  | _ => false)

/-- A change takes effect (R520, R521). -/
def applyChange (seq : Nat) (c : Change) (s : State) : State :=
  match c with
  | .extentSet e _ => applyExtent seq e c s
  | .patchSet e _ _ _ => applyExtent seq e c s
  | .nsCreate base nsid layout siding size owners =>
    s.onMap (fun m => { m with
      ns := m.ns ++ [{ nsid, size, layout, siding, owners, extBase := base, createSeq := seq }] })
  | .nsDelete nsid => deleteNs nsid s
  | .checkpointed j d => s.onMap (fun m => { m with
      dirty := m.dirty.filter (fun p => !(decide (p.2 ≤ j) && homeOf (extOf p.1 s) == d) ||
        (s.getb MAP_CTL_MAP_EN && heldChange p.1 s)) })
  | .featureSet nsid f v => onNs nsid (setNsFeature f v) s
  | .discEntry k d => setDiscEntry k d s
  | .nsImport nsid isOpen cseq =>
    let s := onNs nsid (fun k => { k with importOpen := isOpen, imported := true, createSeq := cseq, table := [] }) s
    match isOpen, s.map.ns.find? (fun k => k.nsid == nsid) with
    | true, some k => importAbsent k s
    | _, _ => s
  | .resume _ => s

/-! ### Staging a group (R515, R516, R518) -/

/-- Place after a place along a run (R512). -/
def nextPlace (p : Place) : Place := if p.data = 55 then { p with tile := p.tile + 1, data := 0 } else { p with data := p.data + 1 }

/-- Do blocks follow one another, in number and in place? -/
def isRun : List (Nat × Place) → Bool
  | (n, p) :: (m, q) :: r => m == n + 1 && nextPlace p == q && isRun ((m, q) :: r)
  | _ => true

/-- The LINEAR entry of a run. -/
def linearOf (p : Place) (fill : Nat) : Ext := .linear p.disc p.layer p.zone (tileBand ⟨p.layer, p.zone, 0, p.tile⟩) p.tile p.data fill

/-- Insertion of a block by number, a later one replacing an earlier one. -/
def putBlock (b : Nat × Place) (l : List (Nat × Place)) : List (Nat × Place) := keySet b.1 b.2 l

/-- What staging an extent gives: its changes, pages and disc indices taken. -/
structure Staged' where
  changes : List Change := []
  pages : Nat := 0
  discs : List (Nat × Nat) := []
deriving DecidableEq, Repr

/-- Adds a disc to a disc table, if it has room (DETAIL 4 otherwise). -/
def addDisc (d : Nat) (l : List (Nat × Nat)) : Option (List (Nat × Nat)) :=
  match discIdx d l, freeIdx l with
  | some _, _ => some l
  | none, some k => some (keySet k d l)
  | none, none => none

/-- PATCH_SET changes for blocks, with the disc table they need. -/
def patchSets (e : Nat) : List (Nat × Place) → List (Nat × Nat) → Option (List Change × List (Nat × Nat))
  | [], discs => some ([], discs)
  | (n, p) :: r, discs =>
    match addDisc p.disc discs with
    | none => none
    | some discs =>
      let k := (discIdx p.disc discs).getD 0
      (patchSets e r discs).map (fun (cs, ds) => (.patchSet e n ⟨k, p.layer, p.zone, p.tile, p.data⟩ p.disc :: cs, ds))

/-- The page of an extent with blocks written, as places. -/
def pageAfter (page : Nat) (l : List (Nat × Place)) (s : State) : List (Nat × Place) :=
  l.foldl (fun a b => putBlock b a) ((pageOf page s).map (fun (n, p) => (n, patchPlace p s)))

/-- Does a list of blocks describe one run from block 0? -/
def wholeRun (l : List (Nat × Place)) : Option (Place × Nat) :=
  match l with
  | (0, p) :: _ => if isRun l then some (p, l.length) else none
  | _ => none

/-- Stages the blocks of one extent, in increasing number, with `pages` pages already taken by the group; a failure gives
the DETAIL of NO_MAP_SPACE (R514–R516, R518). -/
def stageExt (e : Nat) (l : List (Nat × Place)) (pages : Nat) (discs : List (Nat × Nat)) (s : State) : Except Nat Staged' :=
  let linear := fun (p : Place) (fill : Nat) => Except.ok { changes := [.extentSet e (some (linearOf p fill))], pages, discs }
  let patches := fun (extra : Nat) (discs : List (Nat × Nat)) =>
    if pagesTotal s < pagesUsed s + pages + extra then Except.error 3
    else match patchSets e l discs with
      | none => Except.error 4
      | some (changes, discs) => Except.ok { changes, pages := pages + extra, discs }
  match (if l.length = 4096 then wholeRun l else none), extOf e s with
  | some (p, n), _ => linear p n
  | none, none => match wholeRun l with
    | some (p, n) => linear p n
    | none => patches 1 discs
  | none, some (.linear d ly z b t st fill) =>
    let lastB := (fill - 1, placeIn d ly z t (st + fill - 1))
    if l.head?.map (·.1) = some fill ∧ isRun (lastB :: l) then
      .ok { changes := [.extentSet e (some (.linear d ly z b t st (fill + l.length)))], pages, discs }
    else match addDisc d discs with
      | none => .error 4
      | some discs => patches 1 discs
  | none, some (.patched _ page) => match wholeRun (pageAfter page l s) with
    | some (p, n) => linear p n
    | none => patches 0 discs
  | none, some (.absent _) => patches 0 discs

/-- The extent and block number of a block. -/
def blockExt (b : PBlk) (s : State) : Option (Nat × Nat) :=
  (s.map.ns.find? (fun k => k.nsid == b.nsid)).map (fun k => (k.extBase + b.lba / 4096, b.lba % 4096))

/-- Extents of a list of blocks, in order. -/
def extsOf (l : List PBlk) (s : State) : List Nat :=
  l.foldl (fun a b => match blockExt b s with
    | some (e, _) => if a.contains e then a else a ++ [e]
    | none => a) []

/-- Stages the extents of a list one after another; a failure names the extent. -/
def stageAll (l : List PBlk) (s : State) : List Nat → Nat → List (Nat × Nat) → Except (Nat × Nat) (List Change)
  | [], _, _ => .ok []
  | e :: es, pages, discs =>
    let mine := l.foldl (fun a b => match blockExt b s with
      | some (x, n) => if x = e then putBlock (n, b.place) a else a
      | none => a) []
    match stageExt e mine pages discs s with
    | .error d => .error (e, d)
    | .ok g => (stageAll l s es g.pages g.discs).map (fun cs => g.changes ++ cs)

/-- Pieces with blocks in an extent. -/
def piecesIn (e : Nat) (l : List PBlk) (s : State) : List (Nat × Nat) :=
  l.foldl (fun a b => match blockExt b s, b.piece with
    | some (x, _), some p => if x = e && !a.contains p then a ++ [p] else a
    | _, _ => a) []

/-- Stages a group; pieces that cannot be committed are removed with every other piece that touches the same extent
(R518): blocks and changes of the rest, and the removed pieces with their DETAIL; on fuel. -/
def stageGroup (s : State) : Nat → List PBlk → List PBlk × List Change × List ((Nat × Nat) × Nat)
  | 0, _ => ([], [], [])
  | f + 1, l =>
    match stageAll l s (extsOf l s) 0 s.map.discs with
    | .ok cs => (l, cs, [])
    | .error (e, d) =>
      let out := piecesIn e l s
      let keep := l.filter (fun b => match blockExt b s, b.piece with
        | some (x, _), some p => x != e && !out.contains p
        | some (x, _), none => x != e
        | none, _ => false)
      let (l', cs, rs) := stageGroup s f keep
      (l', cs, out.map (fun p => (p, d)) ++ rs)

/-! ### Pieces of a write (R477, R495, R496) -/

/-- Changes a piece of a write. -/
def onPiece (id lba : Nat) (f : Piece → Piece) (s : State) : State :=
  onCtx id (fun x => { x with pieces := x.pieces.map (fun p => if p.lba = lba then f p else p) }) s

/-- Is a piece final? -/
def pieceFinal (p : Piece) : Bool := match p.st with
  | .committed | .failed _ _ => true
  | _ => false

/-- First failed piece of a write: its status and DETAIL; WRITE_FAULT and NO_MEDIA_SPACE name the first block not
committed (R464). -/
def pieceFailure (x : Ctx) : Option (Nat × Nat) :=
  let bad := x.pieces.find? (fun p => p.st != .committed)
  bad.bind (fun p => match p.st with
    | .failed st d => some (if st = 0x24 ∨ st = 0x25 then (st, (p.lba - x.slba) % 65536) else (st, d))
    | _ => none)

/-- Ends a write whose pieces are all final (R477). -/
def settle (id : Nat) (s : State) : State :=
  match s.ctx id with
  | none => s
  | some x =>
    if x.isWrite && x.pieces.all pieceFinal && (x.silent || decide (2 ≤ x.stage)) then
      let (st, d) := (pieceFailure x).getD (0, 0)
      finish x st d (transferred x s) s
    else s

/-- A piece cannot be made durable (R477): its blocks leave the open tiles and its reservation is freed (R554). -/
def failPiece (id lba status detail : Nat) (s : State) : State :=
  match s.ctx id with
  | none => s
  | some x =>
    match x.pieces.find? (fun p => p.lba == lba && !pieceFinal p) with
    | none => s
    | some p =>
      let s := onPiece id lba (fun p => { p with st := .failed status detail }) s
      let s := onCtx id (fun x => { x with reserved := x.reserved.map (· - p.n) }) s
      let keep := (x.pieces.filter (fun q => q.lba != lba)).map (·.lba)
      settle id (unplace id keep s)

/-- A piece passes its commit point (R496, R554). -/
def commitPiece (id lba : Nat) (s : State) : State :=
  match s.ctx id with
  | none => s
  | some x =>
    let n := ((x.pieces.find? (fun p => p.lba == lba)).map (·.n)).getD 0
    onCtx id (fun x => { x with reserved := x.reserved.map (· - n) })
      (onPiece id lba (fun p => { p with st := .committed }) s)

/-! ### Committing (R518–R523) -/

/-- Is a block still to be mapped: its piece not dropped, a rewrite's slot still named by the map (R557, R562)? -/
def blockLives (b : PBlk) (s : State) : Bool :=
  match b.piece, b.old with
  | some (id, lba), _ => match s.ctx id with
    | some x => x.pieces.any (fun p => p.lba == lba && !pieceFinal p)
    | none => false
  | none, some o => match s.map.ns.find? (fun k => k.nsid == b.nsid) with
    | some k => resolve k b.lba s == .at o
    | none => false
  | none, none => false

/-- Pieces of a list of blocks. -/
def piecesOf (l : List PBlk) : List (Nat × Nat) :=
  l.foldl (fun a b => match b.piece with
    | some p => if a.contains p then a else a ++ [p]
    | none => a) []

/-- The journal region is full (R523): JRNL_WAIT, and once JOURNAL_FULL and the discs that hold back the oldest sector. -/
def journalFull (s : State) : State :=
  if s.getb MAP_STAT_JRNL_WAIT then s
  else
    let s := (s.putb MAP_STAT_JRNL_WAIT true).raise mapBlk 1
    let oldest := (s.map.jrnl.head?.map (·.sector)).getD 0
    let seqs := (s.map.jrnl.filter (fun r => r.sector == oldest)).map (·.seq)
    let ds := (s.map.dirty.filter (fun p => seqs.contains p.2)).foldl (fun l p =>
      let d := homeOf (extOf p.1 s)
      if d = 0 || l.contains d then l else l ++ [d]) []
    s.each ds (fun s d => s.logEvent (.journalHolder d))

/-- Takes a group to its programming (R518): `changes` formed, its pieces marked. -/
def beginCommit (g : Group) (s : State) : State :=
  match programmed g.changes s with
  | none => journalFull s
  | some _ =>
    let s := s.putb MAP_STAT_JRNL_WAIT false
    let s := s.each (piecesOf g.blocks) (fun s (id, lba) => onPiece id lba (fun p => { p with st := .programming }) s)
    let s := match g.answer with
      | some (id, _) => onCtx id (fun x => { x with begun := true }) s
      | none => s
    s.onMap (fun m => { m with busy := some g })

/-- Was the command that a group answers dropped before its commit point (R498)? -/
def groupDead (g : Group) (s : State) : Bool := match g.answer with
  | some (id, _) => (s.ctx id).isNone
  | none => false

/-- The next ready group is staged (R518). Before the first commit of a start, the RESUME group goes first (R521). -/
def execMapCommit (s : State) : Out := gate s <|
  .next (match s.map.busy, s.map.ready with
    | none, g :: rest =>
      if !s.map.resumed then beginCommit { changes := [.resume s.map.applied] } s
      else if groupDead g s then s.onMap (fun m => { m with ready := rest })
      else
        let live := g.blocks.filter (fun b => blockLives b s)
        let free := (piecesOf live).all (fun (id, _) => match s.ctx id with
          | some x => yardCommit x s
          | none => true)
        if !free then s
        else
          let (blocks, cs, out) := stageGroup s (live.length + 1) live
          let changes := g.changes ++ cs
          if changes = [] then
            let s := s.onMap (fun m => { m with ready := rest })
            let s := if out.any (fun r => r.2 == 3) then s.raise mapBlk 3 else s
            s.each out (fun s ((id, lba), d) => failPiece id lba 0x16 d s)
          else
            let s' := beginCommit { g with blocks, changes } s
            if s'.map.busy.isNone then s'
            else
              let s := s'.onMap (fun m => { m with ready := rest })
              let s := if out.any (fun r => r.2 == 3) then s.raise mapBlk 3 else s
              s.each out (fun s ((id, lba), d) => failPiece id lba 0x16 d s)
    | _, _ => s)

/-- Applies the records of a group, each change with the SEQ of its record. -/
def applyRecords (l : List JRec) (s : State) : State :=
  s.each l (fun s r => s.each r.changes (fun s c => applyChange r.seq c s))

/-- A group's last record is programmed (R496, R519): its pieces pass their commit point and
its changes take effect. -/
def execJournalRecordProgrammed (s : State) : Out := gate s <|
  .next (match s.map.busy with
    | none => s
    | some g =>
      match programmed g.changes s with
      | none => journalFull s
      | some l =>
        let new := l.drop s.map.jrnl.length
        let s := s.onMap (fun m => { m with
          jrnl := l, nextSeq := m.nextSeq + new.length, busy := none, resumed := true
          applied := m.nextSeq + new.length - 1 })
        let s := s.bump FLS_CNT_OPS_PROGRAMS ((new.map (fun r => recBytes r.changes.length / 16)).sum)
        let s := applyRecords new s
        let s := s.bump MAP_CNT_COMMIT_COMMITS 1
        let ps := piecesOf g.blocks
        let s := s.each ps (fun s (id, lba) => commitPiece id lba s)
        let s := s.each ps (fun s (id, _) => settle id s)
        let s := match g.answer with
          | some (id, d) => finishId id 0 d 0 s
          | none => s
        showMap s)

/-! ### The base and the recovery (R521, R522) -/

/-- Disc table indices that a patch page or a journal record names (R514). -/
def namedIdx (m : MapM) : List Nat :=
  m.pages.flatMap (fun p => p.2.map (fun q => q.2.idx)) ++
    m.jrnl.flatMap (fun r => r.changes.filterMap (fun c => match c with
      | .patchSet _ _ p _ => some p.idx
      | .discEntry k _ => some k
      | _ => none))

/-- The map base is rewritten and covered journal sectors are erased (R514, R522, R523). -/
def execMapBaseRewrite (s : State) : Out := gate s <|
  .next (if !s.getb MAP_CTL_MAP_EN then s
    else
      let keep := namedIdx s.map
      let s := s.onMap (fun m => { m with discs := m.discs.filter (fun p => keep.contains p.1) })
      let s := s.onMap (fun m => { m with base :=
        { ns := m.ns, discs := m.discs, tombs := m.tombs, seq := m.nextSeq - 1
          homes := m.exts.filterMap (fun (e, x) =>
            let open' := m.ns.any (fun k => k.importOpen && decide (k.extBase ≤ e ∧ e < k.extBase + extCount k))
            if open' then none else some (e, homeOf (some x))) } })
      let held := fun (k : Nat) => s.map.jrnl.any (fun r => r.sector == k && !covered s.map r)
      let s := s.bump FLS_CNT_OPS_ERASES
        (sectorsUsed s.map.jrnl - sectorsUsed (s.map.jrnl.filter (fun r => held r.sector)))
      let s := s.onMap (fun m => { m with jrnl := m.jrnl.filter (fun r => held r.sector) })
      let s := if sectorsUsed s.map.jrnl < 96 then s.putb MAP_STAT_JRNL_WAIT false else s
      showMap s)

/-- The group that begins at the head of a list of records: consecutive SEQ values up to a record with LAST (R521). -/
def groupAt : List JRec → Option (List JRec)
  | [] => none
  | [r] => if r.last then some [r] else none
  | r :: q :: l =>
    if r.last then some [r]
    else if q.seq = r.seq + 1 then (groupAt (q :: l)).map (r :: ·)
    else none

/-- Is a replayed change one the base does not hold already (log 44)? -/
def replayable (base seq : Nat) (c : Change) (s : State) : Bool :=
  let old := fun (e : Nat) => match nsOfExt e s with
    | some k => decide (seq ≤ base) && !k.imported && decide (seq < k.createSeq)
    | none => true
  match c with
  | .extentSet e _ => !old e
  | .patchSet e _ _ _ => !old e
  | .checkpointed _ _ => true
  | _ => decide (base < seq)

/-- Applies journal records group by group (R521): a group whose first SEQ is one above the last applied, or that lies
among the records the base covers (log 44), or a RESUME that names the last applied; on fuel. -/
def replay (base : Nat) : Nat → List JRec → State → State
  | 0, _, s => s
  | f + 1, l, s =>
    let last := s.map.applied
    let go := fun (g rest : List JRec) =>
      let s := s.each g (fun s r => s.each r.changes (fun s c =>
        if replayable base r.seq c s then applyChange r.seq c s else s))
      replay base f rest (s.onMap (fun m => { m with applied := (g.getLast?.map (·.seq)).getD last }))
    match groupAt l with
    | some g =>
      let first := (g.head?.map (·.seq)).getD 0
      if first = last + 1 ∨ first ≤ base + 1 then go g (l.drop g.length)
      else match l.dropWhile (fun r => !(r.last && r.changes == [.resume last])) with
        | r :: rest => go [r] rest
        | [] => s
    | none => match l with
      | r :: rest =>
        if r.seq ≤ base then replay base f rest s
        else match l.dropWhile (fun r => !(r.last && r.changes == [.resume last])) with
          | r :: rest => go [r] rest
          | [] => s
      | [] => s

/-- Insertion by SEQ. -/
def insertRec (r : JRec) : List JRec → List JRec
  | [] => [r]
  | q :: l => if r.seq ≤ q.seq then r :: q :: l else q :: insertRec r l

/-- The records that the start finds unreadable or with a wrong RCRC are noted, by their sequence numbers (R521, R568). -/
def noteBad (badJ badW : List Nat) (s : State) : State :=
  let s := s.onMap (fun m => { m with jrnl := m.jrnl.map (fun r => { r with ok := r.ok && !badJ.contains r.seq }) })
  let welt := s.str.welt.map (fun (w : Welt) => { w with readable := w.readable && !badW.contains w.wseq })
  { s with str := { s.str with welt } }.put STR_STAT_UNRESOLVED (min 255 (welt.filter (fun (w : Welt) => !w.readable)).length)

/-- The map is rebuilt from base and journal (R521), and the lost-stripe list reloaded (R575); SRAM_SEAL is set (R606), and
then MAP_EN. -/
def execMapRecovery (badJ badW : List Nat) (s : State) : Out := gate s <|
  .next (if s.getb MAP_CTL_MAP_EN || !s.getb MEM_STAT_FILL_DONE || !coresRun s then s
    else
      let s := noteBad badJ badW s
      let b := s.map.base
      let recs := (s.map.jrnl.filter (·.ok)).foldr insertRec []
      let s := s.onMap (fun m => { m with
        ns := b.ns.map (fun k => { k with table := [], deleting := none })
        exts := b.homes.map (fun (e, d) => (e, .absent d)), pages := [], discs := b.discs, dirty := [], held := []
        tombs := b.tombs, ready := [], busy := none, resumed := false, applied := 0 })
      let s := s.each (s.map.ns.filter (·.importOpen)) (fun s k => importAbsent k s)
      let s := replay b.seq (recs.length + 1) recs s
      let top := recs.foldl (fun n r => max n r.seq) b.seq
      let s := s.onMap (fun m => { m with nextSeq := top + 1 })
      let s := s.put STR_LOST_ENTRIES s.str.lost.length
      showMap ((s.seqPut (.core 0) MEM_REPAIR_SRAM_SEAL 1).seqPut (.core 0) MAP_CTL_MAP_EN 1))

/-- Counters of MAP (R539). -/
def mapClear (s : State) : State :=
  s.clearAll [MAP_CNT_COMMIT_COMMITS, MAP_CNT_MISC_CONVERSIONS, MAP_CNT_MISC_ORPHANS, MAP_CNT_MISC_NO_SPACE]

end Sys2Proof.Machine
end

