-- ==== Sys2Proof/Machine/Detector.lean ====
section
/-! DEFINITION. The joint detector and the LDPC decoder (R152–R159): the known channel bits of a tile slot, the
max-log-MAP detector of one beam, the ratios of codeword bits, and layered offset min-sum decoding. -/

namespace Sys2Proof.Machine

/-! ### Places of channel bits (R87, R108, R110) -/

/-- Number of the wedge of a tile slot that holds slot position `pos`, and the position within it. -/
def wedgeAt (p : TilePos) (pos : Nat) : Nat × Nat :=
  let nw := nwTable.getD p.zone 31360
  ((tileWedge p + pos / nw) % 96, pos % nw)

/-- Is slot position `pos` in a wedge field? -/
def inField (p : TilePos) (pos : Nat) : Bool := let (w, k) := wedgeAt p pos; decide (k < fieldLen w)

/-- The positions of a sector's channel bits after its sync: slot positions from start + 48 on, wedge fields left out;
on fuel. -/
def codePos (p : TilePos) : Nat → Nat → Nat → List Nat
  | 0, _, _ => []
  | f + 1, pos, left =>
    if left = 0 then []
    else if inField p pos then
      let (w, k) := wedgeAt p pos
      codePos p f (pos + (fieldLen w - k)) left
    else pos :: codePos p f (pos + 1) (left - 1)

/-- Slot positions of the 39,474 code channel bits of a sector (R91). -/
def sectorCode (p : TilePos) (q : Nat) : List Nat :=
  codePos p 39500 (((sectorSpans p).getD q (0, 0)).1 + 48) 39474

/-- Number of code channel bits of a sector whose positions satisfy a condition of a span list. -/
def flaggedIn (p : TilePos) (q : Nat) (spans : List (Nat × Nat)) : Nat :=
  ((sectorCode p q).filter (fun x => spans.any (fun (a, b) => decide (a ≤ x ∧ x < b)))).length

/-- A fill bit (R110): the 4T tone from the first bit of its run, which begins at a sector's end or after a wedge
field. -/
def fillBit (p : TilePos) (pos : Nat) : Bool :=
  let (w, k) := wedgeAt p pos
  let run := ((sectorSpans p).map (·.2)).foldl (fun m x => if x ≤ pos then max m x else m) (pos - k + fieldLen w)
  decide ((pos - run) % 8 < 4)

/-- Sector whose bits slot position `pos` belongs to, if any. -/
def sectorAt (p : TilePos) (pos : Nat) : Option Nat :=
  (sectorSpans p).findIdx? (fun (a, b) => decide (a ≤ pos ∧ pos < b))

/-- The channel bit that the format fixes at a slot position, if it does: wedge field, sector sync or fill. -/
def knownBit (p : TilePos) (pos : Nat) : Option Bool :=
  let (w, k) := wedgeAt p pos
  if k < fieldLen w then (wedgeField w p.layer p.zone)[k]?
  else match sectorAt p pos with
    | none => some (fillBit p pos)
    | some q =>
      let st := ((sectorSpans p).getD q (0, 0)).1
      if pos < st + 48 then some (bitOf (47 - (pos - st)) 0x0003FFF0003F) else none

/-! ### Samples, syncs and adaptation (R128, R130, R139, R142, R154) -/

/-- The ADC sample of a time; 0 outside the run. -/
def sampleAt (w : Samples) (t : Int) : Int := if t < w.first then 0 else w.xs.getD (t - w.first).toNat 0

/-- The window x[n+7] … x[n−7] of the equaliser output that leaves the FIFO at time `t` (R128, R139): the output is delayed by 7
samples and then by DELAY. -/
def fifoWindow (delay : Nat) (w : Samples) (t : Int) : List Int :=
  (List.range 15).map (fun (k : Nat) => sampleAt w (t - delay - k))

/-- The equalised samples that leave the FIFO at `n` times from `t` on. -/
def fifoOut (span : Nat) (taps : List Int) (delay : Nat) (w : Samples) (t : Int) (n : Nat) : List Int :=
  (List.range n).map (fun (k : Nat) => eqOut span taps (fifoWindow delay w (t + k)))

/-- The wedge sync and the sector sync (R87, R91). -/
def wedgePat : Nat := 0xFFFC0003FFF0
/-- The sector sync. -/
def sectorPat : Nat := 0x0003FFF0003F

/-- Target response of channel bits 3 to 47 of a sync pattern, as numerators over 4 (R142). -/
def syncResp (amp : Nat) (g : List Int) (pat : Nat) : List Int :=
  let a := fun k => if bitOf (47 - k) pat then (1 : Int) else -1
  (List.range 45).map (fun i => targetX4 amp g [a (i + 3), a (i + 2), a (i + 1), a i])

/-- Does a correlation, both as numerators over 4, reach (SYNC_THR + 1)/16 of the energy (R142)? Of an energy of 0 the quotient
is a free value. -/
def corrOk (thr : Nat) (resp : List Int) (corr : Int) : Bool :=
  let e := dot resp resp
  if e = 0 then decide ((thr + 1 : Int) ≤ 16 * Config.openQuot 6 corr) else decide ((thr + 1 : Int) * e ≤ 64 * corr)

/-- The candidates within `w` samples of a prediction, as distances from it (R142): `zs` are the equalised samples from `w + 2`
before the predicted first bit of the sync on. -/
def syncCands (thr : Nat) (resp : List Int) (w : Nat) (zs : List Int) : List Int :=
  let cs := (List.range (2 * w + 5)).map (fun j => dot resp (zs.drop (j + 3)))
  (List.range (2 * w + 1)).filterMap (fun (i : Nat) =>
    let x := cs.getD (i + 2) 0
    if corrOk thr resp x && [0, 1, 3, 4].all (fun k => decide (cs.getD (i + k) 0 ≤ x)) then some ((i : Int) - w) else none)

/-- The settings of a signal's adaptation: SPAN, MU, AMP, the target's taps, and whether the coupling coefficients adapt. -/
structure EqSet where
  span : Nat
  mu : Nat
  amp : Nat
  g : List Int
  xt : Bool
deriving DecidableEq, Repr

/-- What adaptation carries along: taps, inner and outer coupling coefficients, updates not yet made, and the equalised samples so
far, newest first. -/
structure EqRun where
  taps : List Int
  cl : List Int
  cr : List Int
  late : List (Nat × List Int × List Int × List Int)
  y : List Int
deriving DecidableEq, Repr

/-- Makes one update. -/
def eqApply (r : EqRun) (u : List Int × List Int × List Int) : EqRun :=
  { r with taps := addSat sat12 r.taps u.1, cl := addSat sat8 r.cl u.2.1, cr := addSat sat8 r.cr u.2.2 }

/-- One sample at slot position `p` (R128, R130, R154): the updates that have become due are made, the sample is equalised and,
where `dec` gives the decisions a[n] … a[n−3] and whether they are known bits, an update is formed: made at once for known bits,
64 samples late for tentative decisions. `nb`: ā[n−1], ā[n], ā[n+1] of the inner and the outer neighbour. -/
def eqSample (k : EqSet) (p : Nat) (x : List Int) (dec : Option (List Int × Bool)) (nb : List Int × List Int) (r : EqRun) :
    EqRun :=
  let r := { (r.late.filter (fun u => decide (u.1 ≤ p))).foldl (fun r u => eqApply r u.2) r with
    late := r.late.filter (fun u => decide (p < u.1)) }
  let y := eqOut k.span r.taps x
  let r := { r with y := y :: r.y }
  match dec with
  | none => r
  | some (a, known) =>
    let e := targetX4 k.amp k.g a - 4 * y
    let c := fun l => if k.xt then couplingSteps k.mu e l else []
    let u := (tapSteps k.span k.mu e 0 x, c nb.1, c nb.2)
    if known then eqApply r u else { r with late := r.late ++ [(p + 64, u)] }

/-! ### The detector (R152–R156) -/

/-- Expected value of a neighbour's bit from a sum signal's sample, in units of 1/256 (R153). -/
def sumExpected (amp : Nat) (y : Int) : Int :=
  clamp (-256) 256 (if amp = 0 then Config.openQuot 1 y else rnd (256 * y) amp)

/-- ±1 of a bit. -/
def pm (b : Bool) : Int := if b then 1 else -1

/-- Response of the target to bits a[n], a[n−1], a[n−2], a[n−3], in units of 1/4 AMP (R152). -/
def respX4 (g : List Int) (a : Bool) (st : Nat) : Int :=
  dot g [pm a, pm (bitOf 0 st), pm (bitOf 1 st), pm (bitOf 2 st)]

/-- Next trellis state: bit 0 is a[n−1]. -/
def nextSt (a : Bool) (st : Nat) : Nat := b2n a + 2 * (st % 4)

/-- Metric of a branch in units of (1/65,536)²: `z` is the sample less its cross-track term in units of 1/65,536. -/
def branchCost (amp : Nat) (g : List Int) (z prior : Int) (a : Bool) (st : Nat) : Int :=
  let e := z - 16384 * amp * respX4 g a st
  e * e + (if a then Config.priorCost prior else 0)

/-- Smaller of two metrics, where none is infinite. -/
def minO : Option Int → Option Int → Option Int
  | some a, some b => some (min a b)
  | some a, none => some a
  | none, b => b

/-- One channel bit of the detector: sample less cross-track, a-priori ratio, forced bit. -/
structure DetBit where
  z : Int
  prior : Int
  known : Option Bool
deriving DecidableEq, Repr

/-- Is bit `a` allowed? -/
def bitAllowed (k : DetBit) (a : Bool) : Bool := match k.known with
  | some b => a == b
  | none => true

/-- Metric of a state through a branch. -/
def through (amp : Nat) (g : List Int) (k : DetBit) (m : List (Option Int)) (a : Bool) (st : Nat) : Option Int :=
  if bitAllowed k a then (m.getD st none).map (· + branchCost amp g k.z k.prior a st) else none

/-- Forward step over the 8 states. -/
def fwdStep (amp : Nat) (g : List Int) (m : List (Option Int)) (k : DetBit) : List (Option Int) :=
  (List.range 8).map (fun n =>
    (List.range 8).foldl (fun x st => [false, true].foldl (fun x a =>
      if nextSt a st = n then minO x (through amp g k m a st) else x) x) none)

/-- Backward step over the 8 states. -/
def bwdStep (amp : Nat) (g : List Int) (k : DetBit) (m : List (Option Int)) : List (Option Int) :=
  (List.range 8).map (fun st =>
    [false, true].foldl (fun x a =>
      minO x (if bitAllowed k a then (m.getD (nextSt a st) none).map (· + branchCost amp g k.z k.prior a st) else none))
      none)

/-- Forward metrics before each bit. -/
def fwdAll (amp : Nat) (g : List Int) : List DetBit → List (Option Int) → List (List (Option Int))
  | [], _ => []
  | k :: ks, m => m :: fwdAll amp g ks (fwdStep amp g m k)

/-- Backward metrics after each bit. -/
def bwdAll (amp : Nat) (g : List Int) : List DetBit → List (List (Option Int)) × List (Option Int)
  | [] => ([], List.replicate 8 (some 0))
  | k :: ks =>
    let (ms, m) := bwdAll amp g ks
    (m :: ms, bwdStep amp g k m)

/-- Metric difference of a bit: positive favours 0; 0 where a bit is forced. -/
def bitDiff (amp : Nat) (g : List Int) (k : DetBit) (f b : List (Option Int)) : Int :=
  let best := fun (a : Bool) => (List.range 8).foldl (fun x st =>
    minO x (match through amp g k f a st, b.getD (nextSt a st) none with
      | some u, some v => some (u + v)
      | _, _ => none)) none
  match best true, best false with
  | some one, some zero => one - zero
  | _, _ => 0

/-- Metric differences of a run of channel bits (R152). -/
def maxLogMap (amp : Nat) (g : List Int) (l : List DetBit) : List Int :=
  let f := fwdAll amp g l (List.replicate 8 (some 0))
  let b := (bwdAll amp g l).1
  (l.zip (f.zip b)).map (fun (k, fb) => bitDiff amp g k fb.1 fb.2)

/-- The cross-track term of bit `n` in units of 1/65,536 (R152): coefficients C_LATE, C_NOW, C_EARLY of each side. -/
def crossTerm (amp : Nat) (cl cr inner outer : List Int) (n : Nat) : Int :=
  let at' := fun (l : List Int) (k : Nat) => if k = 0 then 0 else l.getD (k - 1) 0
  let side := fun (c l : List Int) =>
    c.getD 0 0 * at' l n + c.getD 1 0 * at' l (n + 1) + c.getD 2 0 * at' l (n + 2)
  amp * (side cl inner + side cr outer)

/-- Ratio of a code channel bit (R155, R156): the metric difference scaled by LLR_SCALE/8 and, where a neighbour's bit
is unknown, by NB_SCALE/8, rounded and limited to ±31. DEDUCED: R156 does not say whether its factor comes before or after the
rounding and limiting of R155; it comes before both (log 146). -/
def scaleRatio (llr nb : Nat) (unknown : Bool) (d : Int) : Int :=
  let q := Config.ratioOf d * (llr : Rat) / 8
  clamp (-31) 31 (rndQ (if unknown then q * (nb : Rat) / 8 else q))

/-- Ratio of u[m] from those of v[m] and p (R155). -/
def uRatio (scr : Bool) (lv lp : Int) : Int :=
  (if scr then -1 else 1) * sgn lv * sgn lp * min lv.natAbs lp.natAbs

/-- The expected value of a channel bit in units of 1/256 from its metric difference (R152). -/
def expected (d : Int) : Int := clamp (-256) 256 (Config.expectOf (Config.ratioOf d))

/-- The 37,152 ratios of a codeword from its 39,474 code channel bit ratios and its scrambler bits (R94, R155). -/
def codewordRatios : Nat → List Bool → List Int → List Int
  | 0, _, _ => []
  | n + 1, scr, l =>
    List.zipWith (fun s lv => uRatio s lv (l.headD 0)) (scr.take 16) ((l.drop 1).take 16) ++
      codewordRatios n (scr.drop 16) (l.drop 17)

/-! ### Layered offset min-sum decoding (R159) -/

/-- Codeword bits of check `r` of row block `i`, in column order (R93). -/
def checkBits (i r : Nat) : List Nat :=
  let info := ((List.range 64).filter (infoHit i)).map (fun j => 516 * j + (r + infoShift i j) % 516)
  let par := fun (m s : Nat) => 516 * (64 + m) + (r + s) % 516
  info ++ (if i = 0 then [par 0 1, par 1 0] else if i = 4 then [par 0 0, par 4 0, par 5 0]
    else if i = 7 then [par 0 1, par 7 0] else [par i 0, par (i + 1) 0])

/-- The product of signs and the two smallest magnitudes of the messages into a check. -/
def checkMins (q : List Int) : Bool × Nat × Nat :=
  q.foldl (fun (sg, m1, m2) (x : Int) =>
    let a := x.natAbs
    (sg ^^ decide (x < 0), min a m1, if a < m1 then m1 else min a m2)) (false, 31, 31)

/-- Updates one check: posterior ratios, stored messages (27 per check, in column order). DESIGN CHOICE: R159 gives messages 6 bits and no
width to the posterior ratios, which stand unlimited (log 145). -/
def checkStep (n : Nat) (bits : List Nat) (post msg : Array Int) : Array Int × Array Int :=
  let old := (List.range bits.length).map (fun k => msg.getD (27 * n + k) 0)
  let q := (bits.zip old).map (fun (b, m) => clamp (-31) 31 (post.getD b 0 - m))
  let (sg, m1, m2) := checkMins q
  (bits.zip (q.zip (old.zipIdx))).foldl (fun (post, msg) (b, x, m, k) =>
    let mag := (if x.natAbs = m1 then m2 else m1) - 1
    let r : Int := if sg ^^ decide (x < 0) then -(mag : Int) else mag
    (post.setIfInBounds b (post.getD b 0 - m + r), msg.setIfInBounds (27 * n + k) r)) (post, msg)

/-- One iteration over the eight row blocks in order. -/
def ldpcIter (post msg : Array Int) : Array Int × Array Int :=
  (List.range 4128).foldl (fun (post, msg) n => checkStep n (checkBits (n / 516) (n % 516)) post msg) (post, msg)

/-- Hard decision of the posterior ratios: a positive ratio favours 0. DESIGN CHOICE: a ratio of 0 is decided as 0 (log 145). -/
def hardWord (post : Array Int) : Nat :=
  post.toList.reverse.foldl (fun w x => 2 * w + (if x < 0 then 1 else 0)) 0

/-- Decodes with at most `f` iterations: codeword and iterations taken (R159). -/
def ldpcRun : Nat → Nat → Array Int → Array Int → Option (Nat × Nat)
  | 0, _, _, _ => none
  | f + 1, n, post, msg =>
    let (post, msg) := ldpcIter post msg
    let w := hardWord post
    if ldpcOk w then some (w, n + 1) else ldpcRun f (n + 1) post msg

/-- Decodes the ratios of a codeword with at most `limit` iterations. -/
def ldpcDecode (limit : Nat) (ratios : List Int) : Option (Nat × Nat) :=
  ldpcRun limit 0 ratios.toArray (Array.replicate (27 * 4128) 0)

/-- The extrinsic ratios of a codeword after `n` iterations that did not converge (R157). -/
def ldpcExtrinsic (n : Nat) (ratios : List Int) : List Int :=
  let r := (List.range n).foldl (fun (r : Array Int × Array Int) _ => ldpcIter r.1 r.2)
    (ratios.toArray, Array.replicate (27 * 4128) 0)
  List.zipWith (· - ·) r.1.toList ratios

/-- Bits in which a codeword differs from the hard decision of its input ratios. -/
def correctedBits (ratios : List Int) (w : Nat) : Nat :=
  ones 37152 (w ^^^ hardWord ratios.toArray)

end Sys2Proof.Machine
end

