-- ==== Sys2Proof/Machine/Recorder.lean ====
section
/-! DEFINITION. The recorder and the replay (R37, R704–R714): frames, state images, the recording area as bytes, the
start and end of a recording, and the entry of a replay. -/

namespace Sys2Proof.Machine

open Reg

/-- Does a register lie in the SRV, MOT or SPN block of a channel (R707, R708)? -/
def engineReg (c : Ch) (a : Nat) : Bool := decide (chBase c + 0x80000 ≤ a ∧ a < chBase c + 0xE0000)

/-- Notes a write that took effect in the channel's SRV, MOT or SPN block (R707). -/
def recChange (c : Ch) (a : Nat) (new old : W32) (s : State) : State :=
  if engineReg c a && recActive c s then
    s.onAcc c (fun k => { k with changes := k.changes ++ [(a, new, old)] })
  else s

/-! ### Bytes of the area (R706–R708) -/

/-- A signed number as `k` bytes. -/
def leInt (k : Nat) (z : Int) : List Byte := leBytes k (ofSigned (8 * k) z)

/-- The bytes of an accepted edge (R707). -/
def edgeBytes : Option (Bool × Int) → List Byte
  | none => leBytes 2 0
  | some (lvl, cyc) => leBytes 2 (0x8000 + b2n lvl * 0x4000 + ofSigned 13 cyc)

/-- The bytes of a frame and its change records (R707). -/
def frameBytes (c : Nat) (f : RFrame) : List Byte :=
  let y := fun k => leInt 2 (f.out.getD k 0)
  leBytes 6 f.tick ++
  leBytes 1 (c + b2n f.sample * 8 + b2n f.ilim * 16 + b2n f.trig * 32 + b2n f.negClamp * 64 + b2n f.busStop * 128) ++
  leBytes 1 f.changes.length ++ (List.range 10).flatMap (fun k => leInt 2 (f.servo.getD k 0)) ++
  leInt 2 f.shunt ++ leBytes 2 f.vm ++ (List.range 3).flatMap (fun k => edgeBytes (f.edges.getD k none)) ++
  leBytes 2 (f.vec + b2n f.off * 8 + f.ta % 2048 * 16) ++ leBytes 4 f.theta ++ leInt 4 f.omega ++
  y 0 ++ y 1 ++ y 2 ++ y 3 ++ leInt 2 f.speed ++ leInt 2 f.sled ++
  leBytes 4 (b2n f.pll * 2 ^ 31 + b2n f.readStop * 2 ^ 30 + b2n f.armFail * 2 ^ 29 + b2n f.unexpected * 2 ^ 28 +
    f.freq % 2 ^ 28) ++
  f.changes.flatMap (fun (a, n, o) => leBytes 4 a ++ leBytes 4 n.toNat ++ leBytes 4 o.toNat ++ leBytes 4 0)

/-- Bytes a frame takes. -/
def frameLen (f : RFrame) : Nat := 64 + 16 * f.changes.length

/-- The two bytes of an edge read back. -/
def edgeParse (n : Nat) : Option (Bool × Int) :=
  if bitOf 15 n then some (bitOf 14 n, toSigned 13 n) else none

/-- The frame a run of bytes holds (R707). -/
def frameParse (l : List Byte) : RFrame :=
  let i := fun o => toSigned 16 (field l o 2)
  let b6 := field l 6 1
  let w := field l 60 4
  { tick := field l 0 6, sample := bitOf 3 b6, ilim := bitOf 4 b6, trig := bitOf 5 b6, negClamp := bitOf 6 b6
    busStop := bitOf 7 b6, servo := (List.range 10).map (fun k => i (8 + 2 * k)), shunt := i 28, vm := field l 30 2
    edges := (List.range 3).map (fun k => edgeParse (field l (32 + 2 * k) 2))
    vec := bitsOf 2 0 (field l 38 2), off := bitOf 3 (field l 38 2), ta := bitsOf 14 4 (field l 38 2)
    theta := field l 40 4, omega := toSigned 32 (field l 44 4), out := [i 48, i 50, i 52, i 54], speed := i 56
    sled := i 58, pll := bitOf 31 w, readStop := bitOf 30 w, armFail := bitOf 29 w, unexpected := bitOf 28 w
    freq := w % 2 ^ 28
    changes := (List.range (field l 7 1)).map (fun k =>
      (field l (64 + 16 * k) 4, BitVec.ofNat 32 (field l (68 + 16 * k) 4), BitVec.ofNat 32 (field l (72 + 16 * k) 4))) }

/-- The word of a register in an image, by its offset. -/
def imageReg (img : Image) (o : Nat) : Nat :=
  (((img.regs.find? (fun (p : Nat × W32) => p.1 == o)).map (·.2)).getD (resetValue (0x1000000 + o))).toNat

/-- Words of the internal state items of a channel's loops (R708): integrators, ramped targets and outputs, flags as LOOP_STAT,
sections. -/
def loopItems (img : Image) : List (Nat × Nat) :=
  (List.range 7).flatMap (fun l =>
    let r := fun o => imageReg img (o + 0x1000 * l)
    [(0x40 * l, r 0x81010), (0x40 * l + 1, r 0x81008 / 65536 + 65536 * (r 0x8100C % 65536)), (0x40 * l + 2, r 0x81004)] ++
    if h : l < 7 then
      let k := img.srv.loops[l]
      let secs := (k.bq ++ k.nt).zipIdx.flatMap (fun (x, n) =>
        [(0x40 * l + 4 + 2 * n, ofSigned 16 x.x1 + 65536 * ofSigned 16 x.x2),
         (0x40 * l + 5 + 2 * n, ofSigned 16 x.y1 + 65536 * ofSigned 16 x.y2)])
      secs
    else [])

/-- The offsets of the registers of the SRV, MOT and SPN blocks from a channel's base, both copies of the banks and of the
Timetable among them (R708). -/
def engineOffsets : List Nat :=
  [0x80000, 0xA0000, 0xC0000].flatMap (fun b => (List.range 8).map (fun k => b + 4 * k)) ++
  (rowsSRV ++ rowsMOT ++ rowsSPN).flatMap (fun r =>
    (List.range r.n1).flatMap (fun i => (List.range r.n2).map (fun j => r.base + i * r.s1 + j * r.s2)))

/-- The items that R708 lists besides those of the loops. -/
def engineItems : List Nat :=
  (List.range 10).map (0x1C0 + ·) ++ (List.range 16).map (0x1D0 + ·) ++ (List.range 128).map (0x200 + ·) ++
    (List.range 64).map (0x300 + ·) ++ (List.range 64).map (0x400 + ·)

/-- The word of an item whose place R708 gives by its order (log 26, DEDUCED): p and φ of the axes; flux, current, angle, speed
and torque of the observer. The words of the others are free values. -/
def itemWord (img : Image) (k : Nat) : Nat :=
  let half := fun (z : Int) (n : Nat) => ofSigned 64 z / 2 ^ (32 * n) % 2 ^ 32
  let axis := fun (a : Fin 2) => let x := img.mot.axes[a]
    match k % 0x40 with
    | 0 => some (half x.p 0)
    | 1 => some (half x.p 1)
    | 4 => some (half x.phi 0)
    | _ => none
  let w := if k / 0x40 = 8 then axis 0 else if k / 0x40 = 9 then axis 1
    else match k with
    | 0x400 => some (half img.spn.psisX 0)
    | 0x401 => some (half img.spn.psisX 1)
    | 0x402 => some (half img.spn.psisY 0)
    | 0x403 => some (half img.spn.psisY 1)
    | 0x404 => some (half img.spn.iX 0)
    | 0x405 => some (half img.spn.iY 0)
    | 0x406 => some (img.spn.theta % 2 ^ 32)
    | 0x407 => some (half img.spn.omega 0)
    | 0x408 => some (half img.spn.torque 0)
    | _ => none
  w.getD (Config.openImageWord img.spn.theta k % 2 ^ 32)

/-- The bytes of a state image (R708): every register by offset, then the internal items, ended by 0xFFFF_FFFF. -/
def imageBytes (img : Image) : List Byte :=
  engineOffsets.flatMap (fun o => leBytes 4 o ++ leBytes 4 (imageReg img o)) ++
  (loopItems img).flatMap (fun (k, v) => leBytes 4 (2 ^ 31 + k) ++ leBytes 4 v) ++
  engineItems.flatMap (fun k => leBytes 4 (2 ^ 31 + k) ++ leBytes 4 (itemWord img k)) ++
  leBytes 4 0xFFFFFFFF

/-- Pads or cuts a list to `n` bytes. -/
def padTo (n : Nat) (l : List Byte) : List Byte := l.take n ++ zeros (n - l.length)

/-- The header of a recording (R706). -/
def recHeader (r : Recording) (bytes : Nat) : List Byte :=
  let last := fun n => match r.chans.zip r.frames |>.find? (fun p => p.1 == n) with
    | some (_, fs) => match fs.getLast? with
      | some f => f.tick
      | none => 0
    | none => 0
  let h := [0x59, 0x44, 0x52, 0x43] ++ leBytes 2 1 ++
    leBytes 1 (r.chans.foldl (fun a n => a + 2 ^ n) 0) ++ leBytes 1 r.cause ++ leBytes 2 r.writer ++
    leBytes 1 r.trigClass ++ leBytes 1 r.snipCh ++ zeros 4 ++ leBytes 8 r.first ++ leBytes 8 r.trigTick ++
    (List.range 6).flatMap (fun n => leBytes 8 (last n)) ++ leBytes 8 bytes ++ leBytes 8 r.tod
  let h := padTo 4092 h
  h ++ leBytes 4 (crc32c h)

/-- Frames of the region in their order: by tick, then by channel (R707). The newest `onChip` frames of a channel are still in
its on-chip store (R37). -/
def frameRegion (onChip : List Nat) (r : Recording) : List Byte :=
  let r : Recording := { r with frames := (r.chans.zip r.frames).map (fun p => p.2.take (p.2.length - onChip.getD p.1 0)) }
  let n := r.frames.foldl (fun m fs => max m fs.length) 0
  (List.range n).flatMap (fun k =>
    (r.chans.zip r.frames).flatMap (fun (c, fs) => match fs[k]? with
      | some f => frameBytes c f
      | none => []))

/-- Bytes of the recording area (R718). -/
def areaSize (s : State) : Nat :=
  let n := s.get TMB_AREA_SIZE_SIZE_MIB
  if n = 0 then 0 else clampN 64 1024 n * 2 ^ 20

/-- Start of the frame region (R706). -/
def frameBase (r : Recording) : Nat := 0x1000 + 0x10000 * r.chans.length

/-- Start of the snippet region (R706). -/
def snipBase (s : State) : Nat := areaSize s - 40 * 1024

/-- The bytes of the area: what stood there, what the present recording wrote, and what was loaded, by offset; a later
piece covers an earlier one. -/
def recPieces (s : State) : List (Nat × List Byte) :=
  let r := s.rcd.area
  s.rcd.under ++ (if r.header then [(0, recHeader r s.rcd.frameBytes)] else []) ++
  r.images.zipIdx.map (fun (g, j) => (0x1000 + 0x10000 * j, imageBytes g)) ++ [(frameBase r, frameRegion s.rcd.onChip r)] ++
  (if r.snip = [] then [] else [(snipBase s, r.snip)]) ++ s.rcd.loaded

/-- A byte of the area: the last piece that covers it, 0 where none does (log 28). -/
def areaByte (pieces : List (Nat × List Byte)) (a : Nat) : Byte :=
  pieces.foldl (fun b (o, l) => if o ≤ a ∧ a < o + l.length then l.getD (a - o) 0 else b) 0

/-- Bytes of the area from `off` (R704). -/
def areaRead (s : State) (off n : Nat) : List Byte :=
  let ps := recPieces s
  (List.range n).map (fun k => areaByte ps (off + k))

/-! ### State images -/

/-- The state image of a channel (R708). -/
def imageOf (c : Ch) (s : State) : Image :=
  let k := s.chan c
  { regs := (s.regs.filter (fun (a, _) => engineReg c a)).map (fun (a, v) => (a - chBase c, v))
    srv := k.srv, mot := k.mot, spn := k.spn }

/-- Returns the registers of the engines of a channel to their reset values. -/
def clearEngine (c : Ch) (s : State) : State :=
  (s.regs.filter (fun (a, _) => engineReg c a)).foldl (fun s (a, _) => s.wr a (resetValue a)) s

/-- Loads a state image into a channel, past the register bus and the change log (R712). The axes keep their positions,
whatever the recording holds (R294). -/
def loadImage (c : Ch) (g : Image) (s : State) : State :=
  let s := g.regs.foldl (fun s (o, v) => s.wr (chBase c + o) v) (clearEngine c s)
  s.onChan c (fun k => { k with srv := g.srv, mot := { g.mot with axes := k.mot.axes }, spn := g.spn })

/-- The observer's items of a loaded image, set by index (R708). -/
def spnItem (k v : Nat) (n : Spn) : Spn :=
  let lo := fun (z : Int) => z / 2 ^ 32 * 2 ^ 32 + v
  let hi := fun (z : Int) => toSigned 32 v * 2 ^ 32 + z % 2 ^ 32
  match k with
  | 0x400 => { n with psisX := lo n.psisX }
  | 0x401 => { n with psisX := hi n.psisX }
  | 0x402 => { n with psisY := lo n.psisY }
  | 0x403 => { n with psisY := hi n.psisY }
  | 0x404 => { n with iX := toSigned 32 v }
  | 0x405 => { n with iY := toSigned 32 v }
  | 0x406 => { n with theta := v }
  | 0x407 => { n with omega := toSigned 32 v }
  | 0x408 => { n with torque := toSigned 32 v }
  | _ => n

/-- The register records of a loaded image, from byte `off` of the area on, and its section items; on fuel. -/
def imageParse (ps : List (Nat × List Byte)) : Nat → Nat → Image → Image
  | 0, _, g => g
  | f + 1, off, g =>
    let w := fun o => leNat ((List.range 4).map (fun k => areaByte ps (o + k)))
    let k := w off
    let v := w (off + 4)
    if k = 0xFFFFFFFF then g
    else if k < 2 ^ 31 then imageParse ps f (off + 8) { g with regs := g.regs ++ [(k, BitVec.ofNat 32 v)] }
    else if 2 ^ 31 + 0x400 ≤ k then imageParse ps f (off + 8) { g with spn := spnItem (k - 2 ^ 31) v g.spn }
    else
      let i := k - 2 ^ 31
      let l := i / 0x40
      let n := (i % 0x40 - 4) / 2
      let upd := fun (x : SecState) => if i % 2 = 0
        then { x with x1 := toSigned 16 v, x2 := toSigned 16 (v / 65536) }
        else { x with y1 := toSigned 16 v, y2 := toSigned 16 (v / 65536) }
      let set := fun (h : LoopHid) => if n < 6 then { h with bq := h.bq.modify n upd }
        else { h with nt := h.nt.modify (n - 6) upd }
      let g := if h : l < 7 then (if 4 ≤ i % 0x40 ∧ n < 10 then
          { g with srv := { g.srv with loops := g.srv.loops.set l (set g.srv.loops[l]) } } else g)
        else g
      imageParse ps f (off + 8) g

/-- The items of a loaded image without a stated layout: free values by item (log 26). -/
def imageOpen (g : Image) : Image :=
  let o := fun k => Config.openImageWord g.regs.length k
  { g with
    srv := { g.srv with g := o 0x1C8, accS := o 0x1C9, expTrack := o 0x1D0, expLayer := o 0x1D1 } }

/-- Position of a channel among those recorded. -/
def recIndex (r : List Nat) (c : Nat) : Option Nat := r.findIdx? (· == c)

/-! ### The recording -/

/-- A write into the area clears READY (R711). -/
def areaWritten (s : State) : State := s.putb TMB_REPLAY_READY false

/-- Ends the recording: the frames still on chip reach the area, and the header is written last (R37, R710). -/
def recFinish (cause : Nat) (s : State) : State :=
  let r := s.rcd.area
  let s := areaWritten (s.onRcd (fun k => { k with
    area := { r with cause, header := true }, onChip := [0, 0, 0, 0, 0, 0] }))
  let act := s.get TMB_REC_STAT_ACTIVE
  let s := (s.putb TMB_REC_STAT_RUN false).put TMB_REC_STAT_ACTIVE 0
  let s := s.put TMB_REC_STAT_STOP_CAUSE cause
  s.logEvent (.recordEnd cause (if act = 0 then r.chans.foldl (fun a n => a + 2 ^ n) 0 else act))

/-- The frame of a channel for the tick that ends (R707). -/
def frameOf (c : Ch) (s : State) : RFrame :=
  let a := s.rcd.acc[c]
  let k := s.chan c
  let y := fun l => s.geti ((LOOP_OUT_Y.at c).i l)
  { tick := s.now, sample := a.shunt.isSome, ilim := k.spn.cut.isSome, trig := a.trig
    negClamp := s.getb (SPN_STAT_NEG_CLAMP.at c)
    busStop := s.get ((VMB_STATx_BUFFER_STOP.i (busOf c).val)) != 0 || s.get ((VMB_STATx_UNDER.i (busOf c).val)) != 0
    servo := a.servo, shunt := a.shunt.getD 0, vm := a.vm, edges := a.edges
    vec := k.spn.next.vec, off := k.spn.next.off, ta := k.spn.next.ta, theta := k.spn.theta, omega := k.spn.omega
    out := [y 0, y 1, y 2, y 3], speed := y 6, sled := y 5, pll := k.srv.pllLocked, readStop := a.readStop
    armFail := a.armFail, unexpected := a.unexpected, freq := a.freq, changes := a.changes.take 255 }

/-- Ends the recording of one channel for want of room or of change records (R37, R707). -/
def recOverflow (c : Ch) (s : State) : State :=
  let s := s.put TMB_REC_STAT_RECORD_OVERFLOW (s.get TMB_REC_STAT_RECORD_OVERFLOW ||| 2 ^ c.val)
  let s := s.put TMB_REC_STAT_ACTIVE (setBits c.val c.val (s.get TMB_REC_STAT_ACTIVE) 0)
  if s.get TMB_REC_STAT_ACTIVE = 0 then recFinish 4 s else s

/-- Stores the frame of the tick that ends for one channel in its on-chip store of 256 frames, of which DRAM has taken
`drained` in the tick (R37). -/
def recStore (c : Ch) (drained : Nat) (s : State) : State :=
  let held := s.rcd.onChip.getD c.val 0 - drained
  let full := decide (256 ≤ held)
  let s := s.onRcd (fun r => { r with onChip := r.onChip.set c.val held })
  if !s.getb TMB_REC_STAT_RUN || !recActive c s then s
  else if full || decide (255 < (s.rcd.acc[c]).changes.length) then recOverflow c s
  else
    let f := frameOf c s
    if snipBase s < frameBase s.rcd.area + s.rcd.frameBytes + frameLen f then recFinish 3 s
    else match recIndex s.rcd.area.chans c.val with
      | none => s
      | some j => (areaWritten s).onRcd (fun r => { r with
          frameBytes := r.frameBytes + frameLen f
          onChip := r.onChip.set c.val (held + 1)
          area := { r.area with frames := r.area.frames.modify j (· ++ [f]) } })

/-- The end of a tick for the recorder: frames of every channel still recording, then the gathering begins anew. -/
def recTick (drained : List Nat) (s : State) : State :=
  let s := s.each allCh (fun s c => recStore c (drained.getD c.val 0) s)
  s.onRcd (fun r => { r with acc := Vector.replicate 6 {} })

/-- Has the running recording reached the end that its trigger sets (R710)? -/
def recDue (s : State) : Bool :=
  s.getb TMB_REC_STAT_RUN && s.getb TMB_REC_STAT_TRIGGERED && decide (s.rcd.area.trigTick + s.rcd.post ≤ s.now)

/-! ### The replay (R711–R714) -/

/-- The check of PREP (R711). -/
def prepOk (src : Nat) (s : State) : Bool :=
  let h := areaRead s 0 4096
  areaSize s != 0 && h.take 4 == [0x59, 0x44, 0x52, 0x43] && field h 4 2 == 1 &&
    field h 4092 4 == crc32c (h.take 4092) && bitOf src (field h 6 1)

/-- Frames of channel `src` from loaded bytes: from `off` up to `stop`, on fuel. -/
def framesParse (ps : List (Nat × List Byte)) (src stop : Nat) : Nat → Nat → List RFrame
  | 0, _ => []
  | f + 1, off =>
    if stop ≤ off then []
    else
      let n := (areaByte ps (off + 7)).toNat
      let l := (List.range (64 + 16 * n)).map (fun k => areaByte ps (off + k))
      let rest := framesParse ps src stop f (off + 64 + 16 * n)
      if bitsOf 2 0 (field l 6 1) = src then frameParse l :: rest else rest

/-- Image and frames of channel `src`: those of the recording the part made, or, once pieces were loaded or while the
recording has no header, those the bytes of the area spell. -/
def replaySource (src : Nat) (s : State) : Image × List RFrame :=
  if s.rcd.loaded = [] ∧ s.rcd.area.header = true then
    match recIndex s.rcd.area.chans src with
    | some j => (s.rcd.area.images.getD j {}, s.rcd.area.frames.getD j [])
    | none => ({}, [])
  else
    let ps := recPieces s
    let h := areaRead s 0 4096
    let set := (List.range 6).filter (fun n => bitOf n (field h 6 1))
    let j := (recIndex set src).getD 0
    let base := 0x1000 + 0x10000 * set.length
    let fb := field h 80 8
    let last := field h (32 + 8 * src) 8
    (imageOpen (imageParse ps 8192 (0x1000 + 0x10000 * j) {}),
      (framesParse ps src (base + fb) (fb / 64) base).filter (fun f => f.tick ≤ last))

/-- The outputs of one equaliser over the samples of a snippet block, from sample `n` on (R712): taps, samples,
decisions and update bits as functions of the compared sample's number. -/
def snipRun (amp : Nat) (g : List Int) (span mu : Nat) (x : Nat → Int) (a : Int → Int) (u : Nat → Bool) :
    Nat → Nat → List Int → List Int
  | 0, _, _ => []
  | f + 1, n, h =>
    let win := (List.range 15).map (fun k => x (n + 14 - k))
    let y := eqOut span h win
    let e := targetX4 amp g [a n, a (n - 1 : Int), a (n - 2 : Int), a (n - 3 : Int)] - 4 * y
    y :: snipRun amp g span mu x a u f (n + 1) (if u n then addSat sat12 h (tapSteps span mu e 0 win) else h)

/-- Does a snippet block's recorded output equal the one computed again (R709, R712)? A tap update acts from the next
sample on (log 27). -/
def snipOk (blk : List Byte) : Bool :=
  let tgt := field blk 12 4
  let g := (List.range 4).map (fun k => toSigned 4 (tgt / 16 ^ k))
  let taps := (List.range 15).map (fun k => toSigned 16 (field blk (16 + 2 * k) 2))
  let bit := fun o n => bitOf (n % 8) (field blk (o + n / 8) 1)
  let dec := fun (n : Int) => if n < 0 then Config.snipBefore (field blk 0 1) n.natAbs
    else if bit 3152 n.toNat then 1 else -1
  let y := snipRun (bitsOf 23 16 tgt) g (field blk 2 1) (field blk 1 1)
    (fun n => toSigned 8 (field blk (64 + n) 1)) dec (bit 3280) 1024 0 taps
  y == (List.range 1024).map (fun n => toSigned 16 (field blk (1104 + 2 * n) 2))

/-- Counts a replayed tick with a mismatch; the first stores its tick and field (R714). -/
def replayMiss (tick fieldNo : Nat) (s : State) : State :=
  let s := if s.get TMB_REPLAY_STAT_MISMATCHES = 0 then
      (s.put TMB_REPLAY_STAT_FIELD fieldNo).put TMB_REPLAY_FIRST_TICK (tick % 2 ^ 32) else s
  s.bump TMB_REPLAY_STAT_MISMATCHES 1

/-- Entering REPLAY (R712): the image is loaded and the snippet replayed. The counts of the last replay start anew
(log 28). -/
def replayEnter (c : Ch) (s : State) : State :=
  let src := s.get TMB_REPLAY_SRC
  let (g, fs) := replaySource src s
  let h := areaRead s 0 4096
  let s := loadImage c g s
  let s := (s.put TMB_REPLAY_STAT 0).put TMB_REPLAY_FIRST 0 |>.put TMB_REPLAY_CNT 0
  let s := s.onRcd (fun r => { r with replay := fs })
  if field h 11 1 = src then
    let blocks := (List.range 10).map (fun k => areaRead s (snipBase s + 4096 * k) 4096)
    if blocks.all snipOk then s else replayMiss (field h 24 8) 15 s
  else s

/-- The channel leaves REPLAY: its wobble PLL, whose lock the recording gave, has none (R712). -/
def replayLeave (c : Ch) (s : State) : State :=
  s.onSrv c (fun v => { v with pllLocked := false, addr := none, addrValid := false, wedgeKnown := false, holdover := none })

/-- The first field of a frame that the computed values miss, 0 when none (R714). -/
def frameDiff (c : Ch) (f : RFrame) (s : State) : Nat :=
  let n := { frameOf c s with tick := f.tick }
  let y := fun (l : List Int) k => l.getD k 0
  if (n.vec, n.off, n.ta % 2048) ≠ (f.vec, f.off, f.ta % 2048) then 1
  else if n.theta ≠ f.theta then 2
  else if n.omega ≠ f.omega then 3
  else if y n.out 0 ≠ y f.out 0 then 4
  else if y n.out 1 ≠ y f.out 1 then 5
  else if y n.out 2 ≠ y f.out 2 then 6
  else if y n.out 3 ≠ y f.out 3 then 7
  else if n.speed ≠ f.speed then 8
  else if n.sled ≠ f.sled then 9
  else 0

end Sys2Proof.Machine
end

