-- ==== Sys2Proof/Machine/ServoRun.lean ====
section
/-! DEFINITION. The servo engine's tick: the routines of the Timetable (R230–R267, R270, R271, R278). -/

namespace Sys2Proof.Machine

open Reg

/-! ### One run of a loop, as a function of its values -/

/-- The values a run of a loop reads and writes. `neg` is ESIGN −1; `step` reports the SWAP_STEP of R261. -/
structure LoopVal where
  st : Nat := 0
  i : Int := 0
  now : Int := 0
  y : Int := 0
  v : Int := 0
  iclamp : Bool := false
  aw : Bool := false
  neg : Bool := false
  err : Int := 0
  bq : List SecState := []
  nt : List SecState := []
  step : Bool := false
deriving DecidableEq, Repr

/-- ESIGN as a number. -/
def LoopVal.esign (l : LoopVal) : Int := if l.neg then -1 else 1

/-- |I| equals the clamp (R242). -/
def atClamp (b : Bank) (i : Int) : Bool := i.natAbs == b.iclamp * 65536

/-- Engages anti-windup at the end of a run, whether it was engaged or not (R243): by the limiter when it changed v, else
by the clamp, reached in direction `cdir` (0: the clamp did not act). Where both act, the limiter's direction counts;
log 127. -/
def engage (b : Bank) (aw neg : Bool) (v y cdir : Int) : Bool × Bool :=
  let dir : Int := if y < v then 1 else if v < y then -1 else cdir
  if dir = 0 then (aw, neg) else (true, decide (dir * gainSign b < 0))

/-- `engage` in a swap run: anti-windup still engaged keeps its ESIGN (R261, R262). -/
def engageSwap (b : Bank) (aw neg : Bool) (v y cdir : Int) : Bool × Bool :=
  if aw then (true, neg) else engage b false neg v y cdir

/-- Is anti-windup still engaged in a run with error `e`? The first error opposite to ESIGN ends it (R243). -/
def awStays (l : LoopVal) (e : Int) : Bool := l.aw && !(e != 0 && sgn e == -l.esign)

/-- A normal run with error `e` (R238, R241–R243). -/
def runNormal (b : Bank) (e ff : Int) (l : LoopVal) : LoopVal :=
  let (up, bq, nt) := propPath b l.bq l.nt e
  let aw := awStays l e
  let raw := if aw && sgn e == l.esign then l.i else integStep b l.i e
  let i := clampI b raw
  let cdir := if i = raw then 0 else sgn raw
  let v := sat16 (up + uiOf i + ff)
  let y := limitOut b v
  let (aw, neg) := engage b aw l.neg v y cdir
  { l with i, v, y, iclamp := atClamp b i, aw, neg, err := e, bq, nt, step := false }

/-- A swap run with the integrator off its clamp (R261). -/
def runSwapFree (old new : Bank) (e ff : Int) (l : LoopVal) : LoopVal :=
  let (upold, _, _) := propPath old l.bq l.nt e
  let (upnew, bq, nt) := propPath new l.bq l.nt e
  let vold := sat16 (upold + uiOf l.i + ff)
  let raw := (vold - upnew - ff) * 65536
  let i := clampI new raw
  let cdir := if i = raw then 0 else sgn raw
  let v := sat16 (upnew + uiOf i + ff)
  let y := limitOut new v
  let (aw, neg) := engageSwap new (if cdir = 0 then awStays l e else l.aw) l.neg v y cdir
  { l with i, v, y, iclamp := atClamp new i, aw, neg, err := e, bq, nt, step := cdir != 0 }

/-- A swap run with the integrator at its clamp (R262). -/
def runSwapClamped (new : Bank) (e ff : Int) (l : LoopVal) : LoopVal :=
  let (up, bq, nt) := propPath new l.bq l.nt e
  let i := sgn l.i * (new.iclamp * 65536 : Nat)
  let v := sat16 (up + uiOf i + ff)
  let y := limitOut new v
  let (aw, neg) := engageSwap new (awStays l e) l.neg v y 0
  { l with i, v, y, iclamp := true, aw, neg, err := e, bq, nt, step := false }

/-- The swap run (R261, R262). -/
def runSwap (old new : Bank) (e ff : Int) (l : LoopVal) : LoopVal :=
  if l.iclamp then runSwapClamped new e ff l else runSwapFree old new e ff l

/-- The closing run (R265): histories zeroed, target at the measured value `m`, the integrator seeded so that the
first closed output equals the open value; for a loop that returns from COUNT, its last output (log 133). -/
def runClosing (b : Bank) (m openv ff : Int) (l : LoopVal) : LoopVal :=
  let i := clampI b ((openv - ff) * 65536)
  let v := sat16 (uiOf i + ff)
  let y := limitOut b v
  let (aw, neg) := engage b false false v y 0
  { l with
    st := 2, i, v, y, now := m, iclamp := atClamp b i, aw, neg, err := 0
    bq := List.replicate 6 {}, nt := List.replicate 4 {}, step := false }

/-- The ramped target moved towards its end by at most `rate` (R266); a CLOSED loop follows at once. -/
def rampNow (st : Nat) (now stop : Int) (rate : Nat) : Int :=
  if st = 2 then now + clamp (-rate) rate (stop - now) else stop

/-! ### Banks and descriptors from the registers -/

/-- One section of a bank window. `a` selects the active view. -/
def readSec (a : Bool) (c : Ch) (l k : Nat) (s : State) : SecCoef :=
  let f (x y : Fld) : Fld := ((if a then x else y).at c).ij l k
  { b0 := s.geti (f BA_S0_B0 BK_S0_B0), b1 := s.geti (f BA_S0_B1 BK_S0_B1), b2 := s.geti (f BA_S1_B2 BK_S1_B2)
    a1 := s.geti (f BA_S1_A1 BK_S1_A1), a2 := s.geti (f BA_S2_A2 BK_S2_A2), shift := s.get (f BA_S2_SHIFT BK_S2_SHIFT) }

/-- A bank window of a loop (R285): the active view, or the shadow window. -/
def readBank (a : Bool) (c : Ch) (l : Nat) (s : State) : Bank :=
  let f (x y : Fld) : Fld := ((if a then x else y).at c).i l
  let nn := min 4 (s.get (f BA_N_NN BK_N_NN))
  let nb := min 6 (s.get (f BA_N_NB BK_N_NB))
  { gain := s.geti (f BA_GAIN_GAIN BK_GAIN_GAIN), gshift := s.get (f BA_GAIN_GSHIFT BK_GAIN_GSHIFT)
    ki := s.geti (f BA_KI_KI BK_KI_KI), kiShift := s.get (f BA_KI_KI_SHIFT BK_KI_KI_SHIFT)
    iclamp := s.get (f BA_CLAMP_ICLAMP BK_CLAMP_ICLAMP)
    hi := s.geti (f BA_LIM_LIMIT_HI BK_LIM_LIMIT_HI), lo := s.geti (f BA_LIM_LIMIT_LO BK_LIM_LIMIT_LO)
    nn, nb
    notch := (List.range nn).map (fun k => readSec a c l (6 + k) s)
    biquad := (List.range nb).map (fun k => readSec a c l k s) }

/-- Exchanges two registers. -/
def exchange (s : State) (a b : Nat) : State :=
  let x := s.rd a
  let y := s.rd b
  (s.wr a y).wr b x

/-- Exchanges the shadow window and the active view of a loop (R259). -/
def swapBanks (c : Ch) (l : Nat) (s : State) : State :=
  (List.range 48).foldl (fun s k =>
    exchange s (((BK_GAIN.at c).i l).base + 4 * k) (((BA_GAIN.at c).i l).base + 4 * k)) s

/-- One Timetable slot (R286). -/
structure TtSlot where
  start : Nat
  stop : Nat
  en : Bool
  phase : Nat
  rate : Nat
  loop : Nat
  routine : Nat
deriving DecidableEq, Repr

/-- Divisor of a RATE code (R286). -/
def rateDiv (r : Nat) : Nat := if r = 0 then 1 else if r = 1 then 4 else if r = 2 then 16 else 64

/-- A slot descriptor from its two words (R286). -/
def ttDecode (w0 w1 : Nat) : TtSlot :=
  ⟨bitsOf 10 0 w0, bitsOf 26 16 w0, bitOf 31 w1, bitsOf 21 16 w1, bitsOf 9 8 w1, bitsOf 6 4 w1, bitsOf 3 0 w1⟩

/-- The slots of a Timetable copy of a channel: the active one, or the shadow. -/
def readTt (active : Bool) (c : Ch) (s : State) : List TtSlot :=
  (List.range 32).map (fun k =>
    let f (x y : Fld) : Nat := (s.rd (((if active then x else y).at c).i k).base).toNat
    ttDecode (f TT_A0 TT_S0) (f TT_A1 TT_S1))

/-- Do two slots share a cycle? -/
def ttOverlap (a b : TtSlot) : Bool := decide (a.start < b.stop) && decide (b.start < a.stop)

/-- Divisor a loop must have (R247). -/
def loopDiv (l : Nat) : Nat := if l ≤ 1 then 1 else if l = 5 then 64 else 16

/-- Is a Timetable valid (R247)? The conditions on PHASE and on one slot for each loop are those of every slot, the others
those of the enabled slots; log 128. -/
def ttValid (t : List TtSlot) : Bool :=
  let e := t.filter (·.en)
  let rout (n : Nat) : List TtSlot := e.filter (fun k => k.routine == n)
  let once (n : Nat) : Bool := match rout n with
    | [k] => k.rate == 0
    | _ => false
  e.all (fun k => decide (k.start < k.stop))
    && (e.zip (e.drop 1)).all (fun p => decide (p.1.start ≤ p.2.start))
    && e.all (fun k => decide (1 ≤ k.routine ∧ k.routine ≤ 6))
    && once 1 && once 4 && once 3 && once 6
    && (rout 1).all (fun i => e.all (fun k => decide (i.start ≤ k.start)))
    && (rout 6).all (fun o => decide (o.stop ≤ 1999) && e.all (fun k => k.routine == 6 || decide (k.stop ≤ o.start)))
    && (rout 2).all (fun k => decide (k.loop ≤ 6) && rateDiv k.rate == loopDiv k.loop)
    && (List.range 7).all (fun l => decide ((t.filter (fun k => k.routine == 2 && k.loop == l)).length ≤ 1))
    && (rout 5).all (fun k => decide (k.rate ≤ 1))
    && t.all (fun k => decide (k.phase < rateDiv k.rate))
    && (List.range e.length).all (fun i => (List.range i).all (fun j =>
        match e[i]?, e[j]? with
        | some a, some b =>
          let d := min (rateDiv a.rate) (rateDiv b.rate)
          !ttOverlap a b || a.phase % d != b.phase % d
        | _, _ => true))

/-! ### Reading and storing a loop -/

/-- The values of a loop before a run. -/
def loadLoop (c : Ch) (l : Fin 7) (s : State) : LoopVal :=
  let h := s.loop c l
  let f (x : Fld) : Fld := (x.at c).i l.val
  { st := s.get (f LOOP_STAT_STATE), i := s.geti (f LOOP_INT_I), now := s.geti (f LOOP_TGT_NOW)
    y := s.geti (f LOOP_OUT_Y), v := s.geti (f LOOP_OUT_V), iclamp := s.getb (f LOOP_STAT_ICLAMP)
    aw := s.getb (f LOOP_STAT_AW), neg := s.getb (f LOOP_STAT_ESIGN), err := h.err, bq := h.bq, nt := h.nt }

/-- Stores the values of a loop after a complete run. -/
def storeLoop (c : Ch) (l : Fin 7) (v : LoopVal) (s : State) : State :=
  let f (x : Fld) : Fld := (x.at c).i l.val
  let s := s.onLoop c l (fun h => { h with err := v.err, bq := v.bq, nt := v.nt })
  let s := (s.put (f LOOP_STAT_STATE) v.st).puti (f LOOP_INT_I) v.i
  let s := (s.puti (f LOOP_TGT_NOW) v.now).puti (f LOOP_OUT_Y) v.y
  let s := (s.puti (f LOOP_OUT_V) v.v).putb (f LOOP_STAT_ICLAMP) v.iclamp
  ((s.putb (f LOOP_STAT_AW) v.aw).putb (f LOOP_STAT_ESIGN) v.neg).putb (f LOOP_STAT_LASTCUT) false

/-- STATE of a loop. -/
def loopSt (c : Ch) (l : Fin 7) (s : State) : Nat := s.get ((LOOP_STAT_STATE.at c).i l.val)

/-- Stores STATE of a loop. -/
def setLoopSt (c : Ch) (l : Fin 7) (n : Nat) (s : State) : State := s.put ((LOOP_STAT_STATE.at c).i l.val) n

/-- Last output y of a loop. -/
def loopY (c : Ch) (l : Fin 7) (s : State) : Int := s.geti ((LOOP_OUT_Y.at c).i l.val)

/-- The open value of a loop: the value PROFILE has moved it to or a step holds, else OPENVAL (R244, R269). -/
def openValue (c : Ch) (l : Fin 7) (s : State) : Int :=
  match (s.loop c l).openHeld with
  | some q => sat16 (rndQ q)
  | none => s.geti ((LOOP_OPEN_OPENVAL.at c).i l.val)

/-- SUM_NOM of a channel, a servo value (R234, R283). -/
def sumNom (c : Ch) (s : State) : Int := s.geti (SRV_SUMNOM_SUM_NOM.at c)

/-- Does a light level reach `thr` sixteenths of SUM_NOM? -/
def lightOk (thr : Nat) (nom x : Int) : Bool := decide (thr * nom ≤ 16 * x)

/-- Output y of a loop: the open value of an open loop (R244). -/
def outputOf (c : Ch) (l : Fin 7) (s : State) : Int := if loopSt c l s = 0 then openValue c l s else loopY c l s

/-! ### INPUT (R230, R231) -/

/-- Stores the ten latched inputs as Q1.15 codes (R230). -/
def latchInputs (c : Ch) (codes : List Int) (s : State) : State :=
  (List.range 5).foldl (fun s k =>
    (s.puti ((SRV_INk_IN_LO.at c).i k) (4 * codes.getD (2 * k) 0)).puti ((SRV_INk_IN_HI.at c).i k)
      (4 * codes.getD (2 * k + 1) 0)) s

/-- Latched input `k` (R230). -/
def servoIn (c : Ch) (k : Nat) (s : State) : Int :=
  if k % 2 = 0 then s.geti ((SRV_INk_IN_LO.at c).i (k / 2)) else s.geti ((SRV_INk_IN_HI.at c).i (k / 2))

/-- The normaliser (R231). -/
def norm1 (g x : Int) : Int := store (x * g) 2

/-- The gain from the previous period (R231). -/
def gainOf (nom sum : Int) (n : Nat) (g : Int) : Int :=
  if n = 0 then g
  else
    let sm := fdiv sum n
    if sm ≤ 0 then 32767 else min 32767 ((nom * 8192) / sm)

/-- Sum and halving of two inputs, stored once (R231): both, or one beam's alone in one-beam mode (R276). -/
def pairOf (ob : Option Bool) (a b : Int) : Int :=
  match ob with
  | none => store ((a + b) * 16384) 0
  | some true => b
  | some false => a

/-- The INPUT routine in tick `n` (R231, R276). -/
def routineInput (c : Ch) (n : Nat) (s : State) : State :=
  let v := (s.chan c).srv
  let v : Srv := if v.period = n / 16 then v
    else { v with period := n / 16, accS := 0, accN := 0,
                  prevS := if v.period + 1 = n / 16 then v.accS else 0,
                  prevN := if v.period + 1 = n / 16 then v.accN else 0 }
  let g := if n % 16 = 0 then gainOf (sumNom c s) v.prevS v.prevN v.g else v.g
  let inp (k : Nat) : Int := servoIn c k s
  let sS := pairOf v.oneBeam (inp 4) (inp 5)
  let fe := norm1 g (pairOf v.oneBeam (inp 0) (inp 1))
  let te := norm1 g (pairOf v.oneBeam (inp 2) (inp 3))
  let ske := if v.oneBeam.isSome then 0 else norm1 g (store ((inp 2 - inp 3) * 16384) 0)
  let se := norm1 g (pairOf v.oneBeam (inp 6) (inp 7))
  let tl := inp 8
  let feX := sgn fe != 0 && sgn fe == -v.feSign
  let teX := sgn te != 0 && sgn te == -v.teSign
  let lim : Int := s.get (SRV_TMON_TS_THR.at c) * 128
  let exc := decide (lim < te) || decide (te < -lim)
  let counting := s.get ((LOOP_STAT_STATE.at c).i 1) == 4
  let dir : Int := if (s.chan c).mot.seekDelta < 0 then -1 else 1
  s.onSrv c (fun _ =>
    { v with
      s := sS, fe, te, ske, se, tl, g
      accS := v.accS + sS, accN := v.accN + 1
      feSign := if sgn fe = 0 then v.feSign else sgn fe
      teSign := if sgn te = 0 then v.teSign else sgn te
      feCross := feX, teCross := teX
      teGap := if teX then n - v.teCrossTick else v.teGap
      teCrossTick := if teX then n else v.teCrossTick
      excursion := exc || (v.excursion && !teX)
      count := if counting && teX && v.excursion then v.count + dir else v.count })

/-! ### PROFILE (R244, R268, R299) -/

/-- One step of a sweeping value towards an end by at most `rate` (R268). -/
def sweepTo (pos stop rate : Rat) : Rat :=
  if pos < stop then (if stop < pos + rate then stop else pos + rate)
  else (if pos - rate < stop then stop else pos - rate)

/-- Direction of the search, from FOC_START towards FOC_END; "towards the disc" in R274. DESIGN CHOICE (log 13). -/
def towardsDisc (c : Ch) (s : State) : Int :=
  if s.geti (SRV_FOCR_FOC_END.at c) < s.geti (SRV_FOCR_FOC_START.at c) then -1 else 1

/-- Where the present leg of a sweep ends: FOC_END in ACQUIRE (R268), one side of FF_FOC and then the other in a
recovery (R274). -/
def sweepEnd (c : Ch) (recovery : Bool) (leg : Nat) (s : State) : Rat :=
  if recovery then
    let ff := s.geti ((SRV_LAYERn_FF_FOC.at c).i (s.chan c).srv.expLayer)
    let w : Int := s.get (SRV_SEARCH_REC_SWEEP.at c)
    let d := towardsDisc c s
    ((if leg % 2 = 0 then ff + d * w else ff - d * w : Int) : Rat)
  else ((s.geti (SRV_FOCR_FOC_END.at c) : Int) : Rat)

/-- SEARCH_RATE in codes per tick (R281). -/
def searchRate (c : Ch) (s : State) : Rat := (s.get (SRV_SEARCH_SEARCH_RATE.at c) : Rat) / 256

/-- PROFILE takes over where the layer-jump profile of a loop stands in tick `n` (R244, R299). After its end the open
value is OPENVAL again, unless the step that made the move holds it. -/
def profileOpen (c : Ch) (n : Nat) (l : Fin 7) (s : State) : State :=
  s.onLoop c l (fun h => match h.openRun with
    | none => h
    | some r =>
      if !h.openKeep && r.ended n && decide (h.openHeld = some r.target) then { h with openRun := none, openHeld := none }
      else { h with openHeld := some (r.pos n) })

/-- The PROFILE routine in tick `n`: it reads the layer-jump and fine-seek profile positions, and it moves the open value
of FOCUS along a sweep (R268, R274, R299). -/
def routineProfile (c : Ch) (n : Nat) (s : State) : State :=
  let s := profileOpen c n 1 (profileOpen c n 0 s)
  let s := s.onMot c (fun m => match m.fine with
    | some r => { m with finePos := r.pos n }
    | none => m)
  let v := (s.chan c).srv
  match v.step with
  | .sweep recovery =>
    if loopSt c 0 s ≠ 0 ∨ (s.loop c 0).closing then s
    else
      let stop := sweepEnd c recovery v.sweepLeg s
      let p := sweepTo v.sweepPos stop (searchRate c s)
      let s := s.onSrv c (fun v => { v with
        sweepPos := p, sweepLeg := if recovery && decide (p = stop) then v.sweepLeg + 1 else v.sweepLeg })
      s.onLoop c 0 (fun h => { h with openRun := none, openHeld := some p })
  | _ => s

/-! ### LOOP (R238–R267, R270) -/

/-- The ramp end of a loop (R256, R257). -/
def rampEnd (c : Ch) (l : Fin 7) (s : State) : Int :=
  let f (x : Fld) : Fld := (x.at c).i l.val
  let nest := s.get (f LOOP_CTL_NEST)
  let target := if h : nest < 7 then
      (if loopDiv l.val < loopDiv nest then loopY c ⟨nest, h⟩ s else s.geti (f LOOP_TGT_TARGET))
    else s.geti (f LOOP_TGT_TARGET)
  if l = 0 then
    sat16 (target + rnd ((s.geti (SRV_OFS_FOCUS_OFS.at c) + s.geti (SRV_LADDER_LADDER_F.at c))
      * s.get (SRV_KNM_KNM_F.at c)) 256)
  else if l = 1 then
    sat16 (target + rnd ((s.geti (SRV_OFS_TRACK_OFS.at c) + s.geti (SRV_LADDER_LADDER_T.at c))
      * s.get (SRV_KNM_KNM_T.at c)) 256)
  else sat16 target

/-- The profile position of COUNT mode in nm (R270, R313, R314). -/
def countProfile (c : Ch) (s : State) : Rat :=
  let m := (s.chan c).mot
  match m.fine with
  | some _ => m.finePos * 1800 / 256
  | none =>
    let p : Rat := ((m.axes[(0 : Two)]).p : Rat) / 2 ^ 40
    if m.seekTarget = m.seekP0 then (m.seekDelta : Rat) * 1800
    else (m.seekDelta : Rat) * 1800 * ((p - m.seekP0) / ((m.seekTarget - m.seekP0 : Int) : Rat))

/-- The measured signal of COUNT mode (R270): rounding to nearest is DEDUCED from R236 (log 14). -/
def countSignal (c : Ch) (s : State) : Int :=
  let v := (s.chan c).srv
  let k : Rat := s.get (SRV_KNM_KNM_T.at c)
  let te : Rat := if k = 0 then Config.openQuot 2 v.te else (v.te : Rat) / k * 256
  let te : Rat := if te < -450 then -450 else if 450 < te then 450 else te
  sat16 (rndQ (((v.count : Rat) * 1800 + te - countProfile c s) * 8192 / 1800))

/-- The SPEED loop's error (R254). `rpmSet` is ωset; the wobble frequency or the observer gives ωmeas. -/
def speedError (rpmSet : Nat) (locked : Bool) (freq16 wob : Nat) (omega : Int) (poles : Nat) : Int :=
  let ws : Rat := rpmSet
  let wm : Rat := if locked then (freq16 : Rat) / 16 * 60 / ((96 * wob : Nat) : Rat)
    else (omega : Rat) * 400000 * 60 / (2 ^ 32 * (poles : Rat))
  sat16 (if ws = 0 then Config.openQuot 3 (rndQ wm) else rndQ ((ws - wm) * 2097152 / ws))

/-- POLES as it acts (R369). -/
def polesOf (c : Ch) (s : State) : Nat := clampN 1 8 (s.get (SPN_MOTOR_POLES.at c))

/-- The measured signal of a loop (R252, R253, R270); a TRACK loop with its closing run to come has returned to
following. -/
def measured (c : Ch) (l : Fin 7) (s : State) : Int :=
  let v := (s.chan c).srv
  match l.val with
  | 0 => v.fe
  | 1 => if loopSt c 1 s = 4 ∧ ¬(s.loop c 1).closing then countSignal c s else v.te
  | 2 => meanOver 16 (v.tl :: v.histTl)
  | 3 => meanOver 16 (v.ske :: v.histSke)
  | 4 => meanOver 16 (v.se :: v.histSe)
  | 5 => meanOver 64 (outputOf c 1 s :: v.histTrk)
  | _ => speedError (s.chan c).dcm.rpmSet v.pllLocked v.pllFreq
      (wobTable.getD (s.get (DCM_STAT_ZONE.at c)) 490) (s.chan c).spn.omega (polesOf c s)
where
  /-- Mean over the last `d` values, rounded down (R253); values before the first are 0. -/
  meanOver (d : Nat) (h : List Int) : Int := fdiv ((h.take d).sum) d

/-- Cost of a run in cycles (R246). -/
def loopCost (c : Ch) (l : Fin 7) (s : State) : Nat :=
  let n (a : Bool) : Nat :=
    let f (x y : Fld) : Fld := ((if a then x else y).at c).i l.val
    min 6 (s.get (f BA_N_NB BK_N_NB)) + min 4 (s.get (f BA_N_NN BK_N_NN))
  let st := loopSt c l s
  48 + 14 * n true +
    (if st = 3 then 0
     else if (s.loop c l).closing then 16
     else if st ≠ 0 ∧ s.getb ((LOOP_STAT_SWAP_RUN.at c).i l.val) then 24 + 14 * n false else 0)

/-- Updates the counts of consecutive runs of FOCUS and TRACK (R267, R272). -/
def countRuns (c : Ch) (l : Fin 7) (st : Nat) (e : Int) (s : State) : State :=
  if l.val ≤ 1 then
    let win := (if l = 0 then s.get (SRV_FMON_FLOCK_WIN.at c) else s.get (SRV_TMON_TLOCK_WIN.at c)) * 64
    let lim := (if l = 0 then s.get (SRV_FMON_FE_LIM.at c) else s.get (SRV_TMON_TS_THR.at c)) * 128
    s.onLoop c l (fun h => { h with
      lockRuns := if st = 1 ∧ e.natAbs ≤ win then h.lockRuns + 1 else 0
      lossRuns := if st = 1 ∧ lim < e.natAbs then h.lossRuns + 1 else 0 })
  else s

/-- One run of a loop's routine (R238, R244, R261–R266). -/
def runLoop (c : Ch) (l : Fin 7) (s : State) : State :=
  let h := s.loop c l
  let v := loadLoop c l s
  let f (x : Fld) : Fld := (x.at c).i l.val
  if v.st = 3 then s
  else if h.closing then
    let new := readBank true c l.val s
    let v' := runClosing new (measured c l s) (outputOf c l s) h.ff v
    let s := storeLoop c l v' s
    let s := s.onLoop c l (fun h => { h with closing := false, openRun := none, openHeld := none, lockRuns := 0,
                                             lossRuns := 0, injE := 0 })
    s.putb (f LOOP_STAT_SWAP_RUN) false
  else if v.st = 0 then
    (s.puti (f LOOP_OUT_Y) (openValue c l s)).putb (f LOOP_STAT_LASTCUT) false
  else
    let stop := rampEnd c l s
    let rate := max 1 (s.get (f LOOP_SS_SS_RATE))
    let now := rampNow v.st v.now stop rate
    let st := if v.st = 2 ∧ now = stop then 1 else v.st
    let m := measured c l s
    let e := sat16 ((if l = 6 then m else sat16 (now - m)) + h.injE)
    let new := readBank true c l.val s
    let swap := s.getb (f LOOP_STAT_SWAP_RUN)
    let v1 : LoopVal := { v with st, now }
    let v' := if swap then runSwap (readBank false c l.val s) new e h.ff v1 else runNormal new e h.ff v1
    let s := storeLoop c l v' s
    let s := s.onLoop c l (fun h => { h with injE := 0 })
    let s := countRuns c l st e s
    let s := if l = 6 then s.putb (SRV_STAT_SPEED_OK.at c) (decide (e.natAbs ≤ 2097)) else s
    let s := if swap then (s.putb (f LOOP_STAT_SWAP_RUN) false).bump (f LOOP_CNT_SWAPS) 1 else s
    if v'.step then (s.bump (SRV_CNT_OVR_SWAP_STEPS.at c) 1).raise ⟨.srv, c⟩ 7 else s

/-! ### MONITOR (R267, R271, R272) -/

/-- Gives a loop back the values it had in `s0` (R250, R271). -/
def restoreLoop (c : Ch) (l : Fin 7) (s0 s : State) : State :=
  let a := ((LOOP_CTL.at c).i l.val).base
  let s := [4, 8, 12, 16, 28].foldl (fun s o => s.wr (a + o) (s0.rd (a + o))) s
  s.onLoop c l (fun _ => s0.loop c l)

/-- Puts a loop into HOLD with its last output (R271); `cmd`: by a hold command. -/
def holdLoop (c : Ch) (l : Fin 7) (cmd : Bool) (s : State) : State :=
  let st := loopSt c l s
  if st = 3 then s
  else setLoopSt c l 3 (s.onLoop c l (fun h => { h with heldFrom := st, heldByCmd := cmd }))

/-- Resumes a held loop in the state it had before the hold (R271). -/
def releaseLoop (c : Ch) (l : Fin 7) (s : State) : State :=
  if loopSt c l s = 3 then setLoopSt c l (s.loop c l).heldFrom s else s

/-- The loops a low light level holds: FOCUS and TRACK when CLOSED, in SOFTSTART or in COUNT, and, where one of them is
held (`held`), the sub-rate loops that ran in the tick (R271). -/
def monitorHold (c : Ch) (held : Bool) (ran : List (Fin 7)) (s0 s : State) : State :=
  let hold1 (s : State) (l : Fin 7) : State :=
    if loopSt c l s0 = 0 ∨ loopSt c l s0 = 3 then s else holdLoop c l false (restoreLoop c l s0 s)
  let s := [(0 : Fin 7), 1].foldl hold1 s
  if held then ran.foldl (fun s l => if 2 ≤ l.val then hold1 s l else s) s else s

/-- The lock flags (R267). -/
def lockFlags (c : Ch) (s : State) : State :=
  let v := (s.chan c).srv
  let s := s.putb (SRV_STAT_FOCUS_LOCK.at c) (loopSt c 0 s == 1 && decide (64 ≤ (s.loop c 0).lockRuns))
  s.putb (SRV_STAT_TRACK_LOCK.at c)
    (loopSt c 1 s == 1 && v.oneBeam.isNone && decide (256 ≤ (s.loop c 1).lockRuns))

/-- The MONITOR routine: light level, sums, lock windows and their counts (R267, R271, R272). `s0` is the state at the
start of the tick, `ran` the loops that have run in it. -/
def routineMonitor (c : Ch) (ran : List (Fin 7)) (s0 s : State) : State :=
  let v := (s.chan c).srv
  let nom := sumNom c s
  let low := !lightOk (s.get (SRV_FMON_HOLD_THR.at c)) nom v.s
  let held := decide (loopSt c 0 s0 ≠ 0 ∧ loopSt c 0 s0 ≠ 3) || decide (loopSt c 1 s0 ≠ 0 ∧ loopSt c 1 s0 ≠ 3)
  let s := if low then monitorHold c held ran s0 s else s
  let sbl := s.get (SRV_BMON_SBL_THR.at c)
  let hthr := s.get (SRV_FMON_HOLD_THR.at c)
  let a := servoIn c 4 s
  let b := servoIn c 5 s
  let saOk := lightOk sbl nom a
  let sbOk := lightOk sbl nom b
  let s := (s.putb (SRV_STAT_SA_OK.at c) saOk).putb (SRV_STAT_SB_OK.at c) sbOk
  let holding := v.holding || (low && held)
  let s := s.onSrv c (fun v => { v with
    holding
    holdTicks := if holding then v.holdTicks + 1 else 0
    goodTicks := if low then 0 else v.goodTicks + 1
    saLow := if !saOk && lightOk hthr nom b then v.saLow + 1 else 0
    sbLow := if !sbOk && lightOk hthr nom a then v.sbLow + 1 else 0
    bothOk := if saOk && sbOk then v.bothOk + 1 else 0 })
  lockFlags c s

/-! ### INJECT and OUTPUT (R232, R233, R278) -/

/-- The INJECT routine in tick `n` (R278). In REPLAY it runs as it did in the recording, whose frames do not hold the mode:
there INJ_EN alone decides (R279; log 129). -/
def routineInject (c : Ch) (n : Nat) (s : State) : State :=
  let on := s.getb (SRV_INJ_INJ_EN.at c) && (s.mode c == mCAL || s.mode c == mREPLAY)
  let k := s.get (SRV_INJ_INJ_LOOP.at c)
  let l : Fin 7 := if h : k < 7 then ⟨k, h⟩ else 0
  let x := injectSine (s.geti (SRV_WAVE_INJ_AMP.at c)) (s.get (SRV_WAVE_INJ_FREQ.at c)) n
  let s := [(0 : Fin 7), 1, 2, 3, 4, 5, 6].foldl (fun s l => s.onLoop c l (fun h => { h with ff := 0 })) s
  if !on then s
  else if s.getb (SRV_INJ_INJ_POINT.at c) then s.onLoop c l (fun h => { h with ff := x })
  else s.onLoop c l (fun h => { h with injE := x })

/-- The OUTPUT routine (R232, R233): it hands the outputs to the DACs of the next tick, the motion generator and the
spindle controller, except in REPLAY. -/
def routineOutput (c : Ch) (s : State) : State :=
  let replay := s.mode c == mREPLAY
  let y (l : Fin 7) : Int := outputOf c l s
  let s := [(0 : Fin 7), 1, 2, 3, 4, 5, 6].foldl (fun s l =>
    if loopSt c l s = 0 then s.puti ((LOOP_OUT_Y.at c).i l.val) (outputOf c l s) else s) s
  s.onSrv c (fun v =>
    if replay then v
    else { v with out := [y 0, y 1, y 2, y 3], torque := y 6, sacY := y 4, sledY := y 5 })

/-! ### The Timetable in one tick (R245, R246, R250) -/

/-- Cost of a routine in tick `n` (R246). -/
def slotCost (c : Ch) (n : Nat) (k : TtSlot) (s : State) : Nat :=
  match k.routine with
  | 1 => if n % 16 = 0 then 160 else 120
  | 2 => if h : k.loop < 7 then loopCost c ⟨k.loop, h⟩ s else 0
  | 3 => 96
  | 4 => 140
  | 5 => 40
  | _ => 64

/-- Runs the routine of a slot in tick `n`; `ran` collects the loops that have run. -/
def runRoutine (c : Ch) (n : Nat) (s0 : State) (k : TtSlot) (sr : State × List (Fin 7)) : State × List (Fin 7) :=
  let (s, ran) := sr
  match k.routine with
  | 1 => (routineInput c n s, ran)
  | 2 =>
    if h : k.loop < 7 then
      let l : Fin 7 := ⟨k.loop, h⟩
      if 2 ≤ l.val ∧ (s.chan c).srv.holding ∧ loopSt c l s ≠ 0 then (holdLoop c l false s, ran)
      else (runLoop c l s, ran ++ [l])
    else (s, ran)
  | 3 => (routineMonitor c ran s0 s, ran)
  | 4 => (routineProfile c n s, ran)
  | 5 => (routineInject c n s, ran)
  | 6 => (routineOutput c s, ran)
  | _ => (s, ran)

/-- One slot of the Timetable in tick `n`: it runs when enabled and in phase, and is cut, with nothing of it kept, when
its cost exceeds its cycles (R245, R250). -/
def runSlot (c : Ch) (n : Nat) (s0 : State) (sr : State × List (Fin 7)) (p : Nat × TtSlot) : State × List (Fin 7) :=
  let (i, k) := p
  if k.en && n % rateDiv k.rate == k.phase then
    if k.stop - k.start < slotCost c n k sr.1 then
      (sr.1.onSrv c (fun v => { v with cuts := v.cuts ++ [i] }), sr.2)
    else runRoutine c n s0 k sr
  else sr

/-- The servo engine's work in tick `n` (R17, R245). The signals of sub-rate loops enter their running sums at its end,
cut or not (R250, R253). -/
def servoTick (c : Ch) (n : Nat) (s : State) : State :=
  let tt := readTt true c s
  let s := s.onSrv c (fun v => { v with feCross := false, teCross := false })
  let s1 := (((List.range 32).zip tt).foldl (runSlot c n s) (s, [])).1
  s1.onSrv c (fun v => { v with
    histTl := (v.tl :: v.histTl).take 15, histSke := (v.ske :: v.histSke).take 15, histSe := (v.se :: v.histSe).take 15
    histTrk := (outputOf c 1 s1 :: v.histTrk).take 63 })

end Sys2Proof.Machine
end

