-- ==== Sys2Proof/Machine/Motion.lean ====
section
/-! DEFINITION. The motion generator: both stepper axes, homing, seeks (R287–R320). -/

namespace Sys2Proof.Machine

open Reg

/-- A field of axis `x` of channel `c`. -/
def axF (f : Fld) (c : Ch) (x : Two) : Fld := (f.at c).i x.val

/-- The mode in effect of an axis (R288). -/
def axMode (c : Ch) (x : Two) (s : State) : Nat := s.get (axF AX_STAT_MODE_NOW c x)

/-- Units of position: 2⁻⁴⁰ microstep (R295). -/
def posUnit : Int := 2 ^ 40

/-- floor(p) in microsteps. -/
def stepOf (p : Int) : Int := p / posUnit

/-- AT_LIMIT clears when a command or target leads away from the limit it shows (R306); `dir` is the direction of the
command. -/
def limitLeft (c : Ch) (x : Two) (dir : Int) (s : State) : State :=
  if dir * (s.axis c x).limitDir < 0 then
    (s.putb (axF AX_STAT_AT_LIMIT c x) false).onAxis c x (fun a => { a with limitDir := 0 })
  else s

/-- An axis comes to stand at a limit (R306). -/
def limitHit (c : Ch) (x : Two) (dir p : Int) (s : State) : State :=
  ((s.onAxis c x (fun a => { a with p, vel := 0, limitDir := dir })).putb (axF AX_STAT_AT_LIMIT c x) true).raise ⟨.mot, c⟩ 5

/-- The level IRUN (R293, R318). -/
def runLevel (c : Ch) (x : Two) (s : State) : Nat := min 32767 (s.get (axF AX_CUR_IRUN c x))

/-- A position in microsteps, rounded down to 2⁻⁴⁰ microstep. -/
def posOf (q : Rat) : Int := (q * 2 ^ 40).floor

/-- The limits of limit set `n` of an axis (R295, R318). -/
def axLimits (c : Ch) (x : Two) (n : Nat) (s : State) : Limits :=
  { v := (s.get ((AX_LIM_V_VMAX.at c).ij x.val n) : Rat) / 2 ^ 24
    a := (s.get ((AX_LIM_A_AMAX.at c).ij x.val n) : Rat) / 2 ^ 32
    j := (s.get ((AX_LIM_J_JMAX.at c).ij x.val n) : Rat) / 2 ^ 40 }

/-- USTEP_NM as it acts (R317). -/
def ustep (c : Ch) (s : State) : Nat := max 1 (s.get (MOT_USTEP_USTEP_NM.at c))

/-- The limits a move runs with (R300, R312). -/
def moveLimits (c : Ch) (x : Two) (m : Move) (s : State) : Limits :=
  let l := axLimits c x m.set s
  if m.seek then { l with v := minQ l.v (1800 / ((8 * ustep c s : Nat) : Rat)) } else l

/-- The limits of the fine-seek profile, fine units per tick (R299, R312). -/
def fineLimits (c : Ch) (s : State) : Limits :=
  { v := minQ ((s.get (MOT_FS_V_FS_V.at c) : Rat) / 2 ^ 24) 32
    a := (s.get (MOT_FS_A_FS_A.at c) : Rat) / 2 ^ 32
    j := (s.get (MOT_FS_J_FS_J.at c) : Rat) / 2 ^ 40 }

/-- The limits of the focus layer-jump profile, DAC codes per tick (R281, R299). -/
def jumpLimits (c : Ch) (s : State) : Limits :=
  { v := (s.get (SRV_JUMP_JUMP_V.at c) : Rat) / 256, a := (s.get (SRV_JUMP_JUMP_A.at c) : Rat) / 4096
    j := (s.get (SRV_JERK_JUMP_J.at c) : Rat) / 65536 }

/-- `v` moved towards `target` by at most `step`. -/
def stepTowards (v target step : Rat) : Rat :=
  if v < target then (if v + step < target then v + step else target)
  else (if target < v - step then v - step else target)

/-! ### The move queue (R297, R300–R302) -/

/-- Where the moves in motion put the axis at tick `n`, in microsteps (R297, R301). -/
def runsPos (n : Nat) : List (Run × Move) → Rat
  | [] => 0
  | [(r, _)] => r.pos n
  | (r, _) :: (r2, _) :: _ => r.pos n + (r2.at n).1

/-- Velocity of the moves in motion. -/
def runsVel (n : Nat) (l : List (Run × Move)) : Rat := (l.map (fun r => if r.1.ended n then 0 else (r.1.at n).2.1)).sum

/-- Removes the moves at the head that have ended at tick `n`: what is left, the number that ended, and the target of
the last one that ended (R297). -/
def endRuns (n : Nat) : List (Run × Move) → List (Run × Move) × Nat × Option Rat
  | [] => ([], 0, none)
  | (r, m) :: rest =>
    if r.ended n then
      let (l, k, t) := endRuns n rest
      (l, k + 1, some (t.getD r.target))
    else ((r, m) :: rest, 0, none)

/-- Takes the head of the queue at tick `n` (R296, R298, R301): at rest, blended into the move in motion, or at the tick
after that one has ended. -/
def takeMove (c : Ch) (x : Two) (n : Nat) (s : State) : State :=
  let a := s.axis c x
  match a.queue with
  | [] => s
  | m :: rest =>
    let lim := moveLimits c x m s
    let m : Move := { m with cur := runLevel c x s }
    match a.runs with
    | [] =>
      let r := Run.mk' n lim ((a.p : Rat) / 2 ^ 40) m.target
      let s := limitLeft c x (if r.neg then -1 else 1) s
      let s := if m.seek then s.onMot c (fun k => { k with seekP0 := a.p }) else s
      s.onAxis c x (fun a => { a with queue := rest, runs := [(r, m)] })
    | [(h, hm)] =>
      let r := Run.mk' n lim h.target m.target
      let off := n - h.start
      let left := ((planEnd h.plan).ceil.toNat) - off
      if planFifth h.plan ≤ h.age n ∧ !h.ended n ∧ !m.noblend ∧ r.neg = h.neg ∧ r.plan.d ≠ 0
          ∧ blendOk lim h.plan r.plan off left then
        s.onAxis c x (fun a => { a with queue := rest, runs := [(h, hm), (r, m)] })
      else s
    | _ => s

/-- The stop without jerk limit of R303, at AMAX of limit set `set` (R303, R307). -/
def axSlow (c : Ch) (x : Two) (set : Nat) (s : State) : State :=
  let v := stepTowards (s.axis c x).vel 0 (axLimits c x set s).a
  let s := if v = 0 then s else s.putb (axF AX_STAT_AT_TARGET c x) false
  s.onAxis c x (fun a => { a with vel := v, acc := 0, p := posOf ((a.p : Rat) / 2 ^ 40 + v) })

/-- PROFILE in tick `n` (R297, R301–R303). -/
def axProfile (c : Ch) (x : Two) (n : Nat) (s : State) : State :=
  let a := s.axis c x
  if a.aborting ∨ (a.runs.isEmpty ∧ a.vel ≠ 0) then
    (axSlow c x 0 s).onAxis c x (fun a => { a with aborting := a.aborting && decide (a.vel ≠ 0) })
  else
    let s := takeMove c x n s
    let a := s.axis c x
    if a.runs.isEmpty then s
    else
      let (left, ended, tgt) := endRuns n a.runs
      let p := match left, tgt with
        | [], some t => posOf t
        | l, _ => posOf (runsPos n l)
      let s := s.onAxis c x (fun a => { a with runs := left, p, vel := runsVel n left })
      let s := s.bump (axF AX_CNT_MOVES c x) ended
      let seekEnd := a.runs.any (fun r => r.2.seek && r.1.ended n)
      let s := if seekEnd then s.onMot c (fun m => { m with profEnd := some n }) else s
      let done := left.isEmpty && a.queue.isEmpty
      let s := s.putb (axF AX_STAT_AT_TARGET c x) done
      if done then s.raise ⟨.mot, c⟩ 1 else s

/-! ### Following and target modes (R304–R306) -/

/-- Moves an axis to `p` with velocity `v`, held at MIN_POS and MAX_POS; `dir` is the direction of the command (R306). -/
def axLimited (c : Ch) (x : Two) (p : Int) (v : Rat) (dir : Int) (s : State) : State :=
  let lo := s.geti (axF AX_MINPOS_MIN_POS c x) * posUnit
  let hi := s.geti (axF AX_MAXPOS_MAX_POS c x) * posUnit
  let s := limitLeft c x dir s
  if hi < p then limitHit c x 1 hi s
  else if p < lo then limitHit c x (-1) lo s
  else s.onAxis c x (fun a => { a with p, vel := v })

/-- FOLLOW (R304). An aborted axis comes to rest and stays there until a mode is set (R303; log 131). -/
def axFollow (c : Ch) (x : Two) (s : State) : State :=
  let a := s.axis c x
  let st := loopSt c 5 s
  let cmd : Rat := if st = 0 ∨ st = 3 ∨ a.aborting then 0
    else ((s.chan c).srv.sledY * s.get (axF AX_FOLLOW_FOLLOW_V c x) : Int) / 32768 / 2 ^ 24
  let v := stepTowards a.vel cmd (axLimits c x 0 s).a
  let s := if v = 0 then s else s.putb (axF AX_STAT_AT_TARGET c x) false
  axLimited c x (posOf ((a.p : Rat) / 2 ^ 40 + v)) v (if cmd < 0 then -1 else if cmd = 0 then 0 else 1) s

/-- Microstep position of the corrector that the servo engine asks for (R255), or a layer jump's (R269). After a jump
SA_POS of the layer it was to reach is that of the current layer until a valid address names one. -/
def corrTarget (c : Ch) (s : State) : Int :=
  let y := rnd ((s.chan c).srv.sacY * 256) 32768
  match (s.chan c).mot.jumpTarget with
  | some t => if loopSt c 4 s = 3 then t else t + y
  | none => s.geti ((SRV_LAYERn_SA_POS.at c).i (s.get (SRV_STAT_LAYER.at c))) + y

/-- TARGET (R305). The square root is taken to 2⁻⁴⁰ microstep, rounded down; DEDUCED from R295 (log 16). An aborted axis
comes to rest and stays there until a mode is set (R303; log 131). -/
def axTarget (c : Ch) (x : Two) (s : State) : State :=
  if (s.axis c x).aborting then axSlow c x 0 s else
  let a := s.axis c x
  let lim := axLimits c x 0 s
  let tgt := corrTarget c s * posUnit
  let r := tgt - a.p
  let root : Rat := (isqrt (2 * s.get ((AX_LIM_A_AMAX.at c).ij x.val 0) * r.natAbs * 256) : Rat) / 2 ^ 40
  let sp := minQ lim.v root
  let vdes : Rat := if r < 0 then -sp else if r = 0 then 0 else sp
  let v := stepTowards a.vel vdes lim.a
  let p := posOf ((a.p : Rat) / 2 ^ 40 + v)
  let hit := decide (0 ≤ r ∧ tgt ≤ p ∧ 0 ≤ v) || decide (r ≤ 0 ∧ p ≤ tgt ∧ v ≤ 0)
  let s := axLimited c x (if hit then tgt else p) (if hit then 0 else v) (sgn r) s
  let a := s.axis c x
  s.putb (axF AX_STAT_AT_TARGET c x) (decide (a.p = tgt) && decide (a.vel = 0))

/-! ### Homing (R307–R310) -/

/-- Direction towards home (R318). -/
def homeDir (c : Ch) (x : Two) (s : State) : Int := if s.getb (axF AX_HCTL_HOME_DIR c x) then -1 else 1

/-- Stores the running homing phase. -/
def setPhase (c : Ch) (x : Two) (n : Nat) (s : State) : State :=
  (s.onAxis c x (fun a => { a with phaseP0 := a.p, releaseP := none, homeStop := false })).put
    (axF AX_STAT_HOME_PHASE c x) n

/-- The end of homing, once the axis has stopped after the capture (R307). -/
def homeEnd (c : Ch) (x : Two) (s : State) : State :=
  let s := s.onAxis c x (fun a => { a with homeStop := false, releaseP := none })
  let s := (s.putb (axF AX_STAT_HOMED c x) true).put (axF AX_STAT_HOME_PHASE c x) 0
  (s.put (axF AX_STAT_MODE_NOW c x) 0).raise ⟨.mot, c⟩ 3

/-- HOME in a tick: the phases' motion, and the turn from one phase to the next once the axis has stopped (R307). -/
def axHome (c : Ch) (x : Two) (s : State) : State :=
  let a := s.axis c x
  let ph := s.get (axF AX_STAT_HOME_PHASE c x)
  let d : Rat := homeDir c x s
  let fast : Rat := (s.get (axF AX_HOMEV_FAST c x) : Rat) / 65536
  let slow : Rat := (max 1 (s.get (axF AX_HOMEV_SLOW c x)) : Nat) / 65536
  let backDone := match a.releaseP with
    | some r => decide ((s.get (axF AX_BACKOFF_BACKOFF c x) : Int) * posUnit ≤ ((a.p - r).natAbs : Int))
    | none => false
  let stop := a.homeStop || backDone
  let want : Rat := if stop ∨ a.aborting then 0
    else if ph = 1 then d * fast else if ph = 2 then -d * slow else if ph = 3 then d * slow else 0
  let s := limitLeft c x (if want < 0 then -1 else if want = 0 then 0 else 1) s
  let v := stepTowards a.vel want (axLimits c x (if ph = 0 ∨ a.aborting then 0 else 1) s).a
  let s := s.onAxis c x (fun a => { a with vel := v, p := posOf ((a.p : Rat) / 2 ^ 40 + v), homeStop := stop,
                                           aborting := a.aborting && decide (v ≠ 0) })
  if stop ∧ v = 0 ∧ ph = 1 then setPhase c x 2 s
  else if stop ∧ v = 0 ∧ ph = 2 then setPhase c x 3 s
  else if stop ∧ v = 0 ∧ ph = 3 then homeEnd c x s
  else s

/-- Samples the home input at cycle 0 of a tick (R308). -/
def homeSample (c : Ch) (x : Two) (level : Bool) (s : State) : State :=
  s.onAxis c x (fun a =>
    if level = a.homeCand then { a with homeRun := a.homeRun + 1 }
    else { a with homeCand := level, homeRun := 1, homeAt := a.driven })

/-! ### The tick (R287–R294) -/

/-- s(e) of R292 from the wave table. -/
def waveS (w : Nat → Int) (e : Nat) : Int :=
  if e ≤ 256 then w e else if e ≤ 512 then w (512 - e) else if e ≤ 768 then -w (e - 512) else -w (1024 - e)

/-- The DAC codes of an electrical index and a current level (R292). -/
def waveDac (w : Nat → Int) (e lev : Nat) : Int × Int :=
  (rnd (waveS w ((e + 256) % 1024) * lev) 32768, rnd (waveS w (e % 1024) * lev) 32768)

/-- The electrical index (R291). -/
def elecIndex (inv : Bool) (step phi : Int) : Nat := ((if inv then phi - step else step + phi) % 1024).toNat

/-- The current level of an axis (R293, R294): in a move the level fixed when the move was taken (R298). -/
def axCurrent (c : Ch) (x : Two) (s : State) : Nat :=
  let m := s.mode c
  let a := s.axis c x
  if m = mOFF then 0
  else if (m = mPARKED ∧ axMode c x s ≠ 3 ∧ a.vel = 0) ∨ m = mREPLAY ∨ a.holdCur then min 32767 (s.get (axF AX_CUR_IHOLD c x))
  else match a.runs with
    | (_, k) :: _ => k.cur
    | [] => runLevel c x s

/-- Shows an axis in its registers and forms its DAC codes (R291–R294, R318), which the loss of the timebase and EXTEST hold
(R33, R746). -/
def axShow (c : Ch) (x : Two) (s : State) : State :=
  let a := s.axis c x
  let w (k : Nat) : Int := s.geti ((AX_WAVE_WAVE.at c).ij x.val k)
  let e := elecIndex (s.getb (axF AX_CTL_DIR_INV c x)) (stepOf a.p) a.phi
  let (da, db) := waveDac w e (axCurrent c x s)
  let s := (s.puti (axF AX_POS_POS c x) (stepOf a.p)).puti (axF AX_VEL_VEL c x) (a.vel * 2 ^ 24).floor
  let s := if s.halted then s else (s.puti (axF AX_DAC_DACA c x) da).puti (axF AX_DAC_DACB c x) db
  (s.put (axF AX_STAT_QCOUNT c x) a.queue.length).putb (axF AX_STAT_BLENDING c x) (decide (1 < a.runs.length))

/-- Is an axis at rest with an empty queue? -/
def axIdle (a : Axis) : Bool := a.queue.isEmpty && a.runs.isEmpty && decide (a.vel = 0)

/-- Starts homing (R290, R307): phase 1, skipped when the input is asserted. -/
def homeStart (c : Ch) (x : Two) (s : State) : State :=
  let s := (s.onAxis c x (fun a => { a with queue := [], runs := [], modePend := none, aborting := false })).put
    (axF AX_STAT_MODE_NOW c x) 3
  let s := (s.putb (axF AX_STAT_HOMED c x) false).putb (axF AX_STAT_AT_TARGET c x) false
  setPhase c x (if s.getb (axF AX_STAT_HOME_IN c x) then 2 else 1) s

/-- Takes up a MODE that waits for the end of the moves (R289): HOME starts homing (R307). -/
def axPendingMode (c : Ch) (x : Two) (s : State) : State :=
  let a := s.axis c x
  match a.modePend with
  | some m =>
    if !axIdle a then s
    else if m = 3 then homeStart c x s
    else (s.onAxis c x (fun a => { a with modePend := none })).put (axF AX_STAT_MODE_NOW c x) m
  | none => s

/-- HOLD: the axis comes to rest at AMAX of limit set 0. DEDUCED from R289 and R303 (log 15). -/
def axHold (c : Ch) (x : Two) (s : State) : State :=
  (axSlow c x 0 s).onAxis c x (fun a => { a with aborting := a.aborting && decide (a.vel ≠ 0) })

/-- Cycle 0 of a tick for an axis: the DAC codes of the tick before reach the stepper DACs (R287), unless the loss of the
timebase or EXTEST holds them (R33, R746), and the home input is sampled (R308). -/
def axisBoundary (c : Ch) (x : Two) (home : Bool) (s : State) : State :=
  let s := if s.halted then s else s.onAxis c x (fun a => { a with
    driven := stepOf a.p, dacA := s.geti (axF AX_DAC_DACA c x), dacB := s.geti (axF AX_DAC_DACB c x) })
  homeSample c x home s

/-- One axis in tick `n` (R287). In OFF and in REPLAY it does not move; in PARKED, but for homing, it comes to rest (R294,
R375). -/
def axisTick (c : Ch) (x : Two) (n : Nat) (s : State) : State :=
  let s := axPendingMode c x s
  let md := s.mode c
  let moving := (s.axis c x).vel ≠ 0
  let s := if md = mOFF ∨ md = mREPLAY then s.onAxis c x (fun a => { a with vel := 0 })
    else if md = mPARKED ∧ axMode c x s ≠ 3 then axHold c x s
    else match axMode c x s with
      | 1 => axProfile c x n s
      | 2 => if x = 0 then axFollow c x s else axTarget c x s
      | 3 => axHome c x s
      | _ => axHold c x s
  let now := (s.axis c x).vel ≠ 0 ∨ (s.axis c x).runs ≠ []
  let s := s.onAxis c x (fun a => { a with
    restTick := if moving ∧ ¬now then n else a.restTick, holdCur := a.holdCur && decide (¬now) && decide (¬moving) })
  axShow c x s

/-- The part itself puts an axis into FOLLOW or TARGET (R269, R313), which an axis that is not HOMED does not accept
(R290). -/
def axFollowNow (c : Ch) (x : Two) (s : State) : State :=
  if s.getb (axF AX_STAT_HOMED c x) then
    (s.onAxis c x (fun a => { a with aborting := false })).put (axF AX_STAT_MODE_NOW c x) 2
  else s

/-- TRACK returns to following after a seek, and the sled to FOLLOW (R270, R313, R314). -/
def seekReturn (c : Ch) (s : State) : State :=
  let long := s.get (MOT_SEEK_KIND.at c) == 2
  let s := s.onLoop c 1 (fun h => { h with closing := true, openRun := none, openHeld := none })
  let s := s.onMot c (fun m => { m with returned := true, fine := none })
  if long then releaseLoop c 5 (axFollowNow c 0 s) else s

/-- The end of a seek's profile, the match of its count and its end at TRACK_LOCK (R313, R314). -/
def seekTick (c : Ch) (n : Nat) (s : State) : State :=
  if s.get (MOT_SEEK_KIND.at c) = 0 then s
  else
    let m := (s.chan c).mot
    let fineEnd : Bool := match m.fine with
      | some r => r.ended n
      | none => false
    let s := if m.profEnd.isNone && fineEnd then s.onMot c (fun m => { m with profEnd := some n }) else s
    let m := (s.chan c).mot
    if m.returned then
      (if s.getb (SRV_STAT_TRACK_LOCK.at c) then s.put (MOT_SEEK_KIND.at c) 0 else s)
    else if m.profEnd.isSome ∧ (s.chan c).srv.count = m.seekDelta then seekReturn c s
    else s

/-- The motion generator's work in tick `n` (R287, R313). -/
def motionTick (c : Ch) (n : Nat) (s : State) : State := seekTick c n (axisTick c 1 n (axisTick c 0 n s))

/-! ### Commands -/

/-- The drop of R303: the queue emptied and every move in motion dropped; an axis in motion slows as an aborted one. -/
def axFlush (c : Ch) (x : Two) (s : State) : State :=
  (s.onAxis c x (fun a => { a with queue := [], runs := [], aborting := decide (a.vel ≠ 0), modePend := none })).putb
    (axF AX_STAT_AT_TARGET c x) false

/-- ABORT (R303). In FOLLOW and TARGET the axis stays at rest, AT_TARGET 0, until a mode is set (log 131). -/
def axAbort (c : Ch) (x : Two) (s : State) : State :=
  let s := axFlush c x s
  if axMode c x s = 3 then s.put (axF AX_STAT_HOME_PHASE c x) 0
  else if axMode c x s = 2 then s.onAxis c x (fun a => { a with aborting := true })
  else s

/-- Applies a written MODE (R288–R290, R307). -/
def axSetMode (c : Ch) (x : Two) (m : Nat) (s : State) : State :=
  let m := if m < 4 then m else 0
  let cur := axMode c x s
  if m = 3 then
    (if cur = 1 ∧ !axIdle (s.axis c x) then s.onAxis c x (fun a => { a with modePend := some 3 })
     else homeStart c x s)
  else if ¬(s.getb (axF AX_STAT_HOMED c x)) ∧ m ≠ 0 then s
  else if cur = 1 ∧ !axIdle (s.axis c x) then
    s.onAxis c x (fun a => { a with modePend := if m = 1 then none else some m })
  else
    let s := (s.onAxis c x (fun a => { a with
      modePend := none, aborting := a.aborting && (m != 2) && decide (a.vel ≠ 0) })).put (axF AX_STAT_MODE_NOW c x) m
    if cur = 3 then s.put (axF AX_STAT_HOME_PHASE c x) 0 else s

/-- The effect of a write of `v` to AX_CTL, whose register held `old` (R289, R290, R303, R307). ABORT comes first, and MODE
is then taken up as in any write; only an axis in HOME is not homed anew by the write that aborts its homing, nor a
FOLLOW or TARGET it is already in taken up again (log 131). -/
def axCtlEffect (c : Ch) (x : Two) (old v : W32) (s : State) : State :=
  let s := if bitOf 16 old.toNat ≠ bitOf 16 v.toNat then s.putb (axF AX_STAT_HOMED c x) false else s
  if bitOf 8 v.toNat then
    let s := axAbort c x s
    let m := bitsOf 2 0 v.toNat
    if 2 ≤ m ∧ m = axMode c x s then s else axSetMode c x m s
  else axSetMode c x (bitsOf 2 0 v.toNat) s

/-- The target of a push of AX_QCMD with `rel` (R300). -/
def pushTarget (c : Ch) (x : Two) (rel : Bool) (s : State) : Int :=
  let a := s.axis c x
  let q := s.geti (axF AX_QTGT_QTGT c x)
  if !rel then q
  else match a.queue.getLast?, a.runs.getLast? with
    | some m, _ => m.target + q
    | none, some (_, m) => m.target + q
    | none, none => stepOf a.p + q

/-- Is a target outside MIN_POS to MAX_POS? -/
def outOfTravel (c : Ch) (x : Two) (t : Int) (s : State) : Bool :=
  decide (t < s.geti (axF AX_MINPOS_MIN_POS c x)) || decide (s.geti (axF AX_MAXPOS_MAX_POS c x) < t)

/-- Does the part refuse a push (R300)? -/
def pushRefused (c : Ch) (x : Two) (v : W32) (s : State) : Bool :=
  bitOf 0 v.toNat &&
    (decide (8 ≤ (s.axis c x).queue.length) || !s.getb (axF AX_STAT_HOMED c x) ||
     outOfTravel c x (pushTarget c x (bitOf 1 v.toNat) s) s || axMode c x s == 3)

/-- The effect of a write of `v` to AX_QCMD (R300). -/
def axQcmdEffect (c : Ch) (x : Two) (v : W32) (s : State) : State :=
  if !bitOf 0 v.toNat then s
  else if pushRefused c x v s then (s.bump (axF AX_CNT_REFUSED c x) 1).raise ⟨.mot, c⟩ 2
  else
    let m : Move := { target := pushTarget c x (bitOf 1 v.toNat) s, set := bitsOf 4 4 v.toNat, noblend := bitOf 2 v.toNat }
    let s := s.onAxis c x (fun a => { a with queue := a.queue ++ [m] })
    (s.put (axF AX_STAT_QCOUNT c x) (s.axis c x).queue.length).putb (axF AX_STAT_AT_TARGET c x) false

/-- Target microstep of a long seek of `d` bands (R313). -/
def longTarget (c : Ch) (d : Int) (s : State) : Int :=
  stepOf (s.axis c 0).p + rnd (d * 1800) (ustep c s)

/-- Does the part refuse a seek of `d` bands (R311)? -/
def seekRefused (c : Ch) (d : Int) (s : State) : Bool :=
  s.get (MOT_SEEK_KIND.at c) != 0 || loopSt c 1 s != 1 ||
    (decide (64 < d.natAbs) && (!s.getb (axF AX_STAT_HOMED c 0) || outOfTravel c 0 (longTarget c d s) s))

/-- TRACK enters COUNT with count `d`; the expected track becomes the move's target (R270, R272). -/
def seekCount (c : Ch) (d : Int) (s : State) : State :=
  let s := setLoopSt c 1 4 s
  let s := s.onSrv c (fun v => { v with
    count := 0, excursion := false, expTrack := (v.expTrack + d).toNat })
  s.onMot c (fun m => { m with seekDelta := d, profEnd := none, returned := false, fine := none, finePos := 0,
                               seekP0 := (m.axes[(0 : Two)]).p, seekTarget := (m.axes[(0 : Two)]).p })

/-- Starts a seek of `d` bands (R311–R314); `jumpBack` is judged as any short seek. -/
def seekStart (c : Ch) (d : Int) (s : State) : State :=
  if seekRefused c d s then s.raise ⟨.mot, c⟩ 2
  else
    let s := s.bump (MOT_CNT_SEEKS.at c) 1
    if d.natAbs ≤ 64 then
      let s := (seekCount c d s).put (MOT_SEEK_KIND.at c) 1
      s.onMot c (fun m => { m with fine := some (Run.mk' s.now (fineLimits c s) 0 ((d * 256 : Int) : Rat)) })
    else
      let t := longTarget c d s
      let s := stopTransfer c 3 s
      let s := holdLoop c 5 true s
      let s := axFlush c 0 s
      let s := (seekCount c d s).put (MOT_SEEK_KIND.at c) 2
      let s := s.onMot c (fun m => { m with seekTarget := t * posUnit })
      let s := s.onAxis c 0 (fun a => { a with queue := [{ target := t, set := 0, noblend := true, seek := true }] })
      s.put (axF AX_STAT_MODE_NOW c 0) 1

/-- The effect of a write of `v` to MOT_SEEK (R311): a new seek waits while the cores do not run (R40; DEDUCED, log 137), but not
in REPLAY. -/
def motSeekEffect (c : Ch) (v : W32) (s : State) : State :=
  if !bitOf 31 v.toNat then s
  else if coresRun s || s.mode c == mREPLAY then seekStart c (toSigned 16 v.toNat) s
  else s.onMot c (fun m => { m with seekWait := some (toSigned 16 v.toNat) })

/-- A seek that waited for the cores starts with the tick that finds them running (R40). -/
def seekResume (c : Ch) (s : State) : State :=
  match (s.chan c).mot.seekWait with
  | some d => if coresRun s then seekStart c d (s.onMot c (fun m => { m with seekWait := none })) else s
  | none => s

/-- The counters of MOT (R320). -/
def motCounters (c : Ch) : List Fld :=
  [MOT_CNT.at c, axF AX_CNT c 0, axF AX_CNT c 1]

/-! ### Events -/

/-- HOLD_DELAY_EXPIRY (R293). -/
def execHoldDelayExpiry (c : Ch) (x : Two) (s : State) : Out := gateEngine c s <|
  let a := s.axis c x
  .next (if a.vel = 0 ∧ a.runs = [] ∧ a.restTick + s.get (axF AX_HCTL_HOLD_DELAY c x) ≤ s.now then
      s.onAxis c x (fun a => { a with holdCur := true })
    else s)

/-- Capture (R309): the position is reassigned, φ takes the opposite, and the axis stops (R307). -/
def homeCapture (c : Ch) (x : Two) (s : State) : State :=
  let d := s.geti (axF AX_HOMEPOS_HOME_POS c x) - (s.axis c x).homeAt
  let s := s.puti (axF AX_CAPT_CAPT c x) (s.axis c x).homeAt
  let inv := s.getb (axF AX_CTL_DIR_INV c x)
  let s := s.onAxis c x (fun a => { a with
    p := a.p + d * posUnit, phi := if inv then a.phi + d else a.phi - d, homeStop := true, releaseP := none })
  s.puti (axF AX_POS_POS c x) (stepOf (s.axis c x).p)

/-- HOME_INPUT_CHANGE (R307–R309): the filtered change is accepted once HOME_FILT + 1 samples agree. The inputs are those of
the part in REPLAY too, where no axis homes (R294). -/
def execHomeInputChange (c : Ch) (x : Two) (s : State) : Out := gate s <|
  let a := s.axis c x
  let inNow := s.getb (axF AX_STAT_HOME_IN c x)
  .next (if a.homeCand ≠ inNow ∧ s.get (axF AX_HCTL_HOME_FILT c x) + 1 ≤ a.homeRun then
      let s := s.putb (axF AX_STAT_HOME_IN c x) a.homeCand
      if axMode c x s ≠ 3 ∨ s.mode c = mREPLAY ∨ a.homeStop then s
      else match s.get (axF AX_STAT_HOME_PHASE c x), a.homeCand with
        | 1, true => s.onAxis c x (fun a => { a with homeStop := true })
        | 2, false => s.onAxis c x (fun a => { a with releaseP := some a.p })
        | 3, true => homeCapture c x s
        | _, _ => s
    else s)

/-- Has a homing phase travelled its limit (R307)? -/
def phaseFailed (c : Ch) (x : Two) (s : State) : Bool :=
  let a := s.axis c x
  let travelled : Int := (a.p - a.phaseP0).natAbs
  match s.get (axF AX_STAT_HOME_PHASE c x) with
  | 1 => !a.homeStop && decide ((s.get (axF AX_RANGE_HOME_RANGE c x) : Int) * posUnit ≤ travelled)
  | 2 => !a.homeStop && decide ((s.get (axF AX_RANGE_HOME_RANGE c x) : Int) * posUnit ≤ travelled)
  | 3 => !a.homeStop && decide (((2 * s.get (axF AX_BACKOFF_BACKOFF c x) + 1024 : Nat) : Int) * posUnit ≤ travelled)
  | _ => false

/-- A homing phase fails (R290, R310). -/
def homingFail (c : Ch) (x : Two) (s : State) : State :=
  let s := axFlush c x s
  let s := (s.put (axF AX_STAT_HOME_PHASE c x) 0).putb (axF AX_STAT_HOMED c x) false
  (s.raise ⟨.mot, c⟩ 4).faultCh 6 c .mot

/-- SEEK_COUNT_TIMEOUT (R315). -/
def execSeekCountTimeout (c : Ch) (s : State) : Out := gateEngine c s <|
  let m := (s.chan c).mot
  .next (match m.profEnd with
    | some t =>
      if s.get (MOT_SEEK_KIND.at c) ≠ 0 ∧ ¬m.returned ∧ t + 64 ≤ s.now ∧ (s.chan c).srv.count ≠ m.seekDelta then
        let s := ((seekReturn c s).bump (MOT_CNT_SEEK_MISS.at c) 1).put (MOT_SEEK_KIND.at c) 0
        let s := if s.get (SRV_STAT_RECOVERY.at c) = 0 then
            ((s.put (SRV_STAT_RECOVERY.at c) 2).put (SRV_STAT_ATTEMPT.at c) 1).onSrv c (fun v =>
              { v with step := .slipWait, recTick := s.now, wedges := 0 })
          else s
        s
      else s
    | none => s)

end Sys2Proof.Machine
end

