-- ==== Sys2Proof/Machine/Servo.lean ====
section
/-! DEFINITION. The servo engine's commands, sequences and recoveries (R134, R137, R248, R250, R259–R284). -/

namespace Sys2Proof.Machine

open Reg

/-! ### Loop commands (R259–R265, R284) -/

/-- A close command: it acts on an OPEN loop, whose next run is its closing run (R265, R284). -/
def closeLoop (c : Ch) (l : Fin 7) (s : State) : State :=
  if loopSt c l s = 0 then s.onLoop c l (fun h => { h with closing := true }) else s

/-- An open command (R284): the output becomes the open value. -/
def openLoop (c : Ch) (l : Fin 7) (s : State) : State :=
  setLoopSt c l 0 (s.onLoop c l (fun h => { h with closing := false, openRun := none, openHeld := none }))

/-- Opens a loop with its last output held (R269, R274). -/
def openHeld (c : Ch) (l : Fin 7) (s : State) : State :=
  let y : Rat := outputOf c l s
  setLoopSt c l 0 (s.onLoop c l (fun h => { h with closing := false, openRun := none, openHeld := some y }))

/-- Opens a loop and moves its open value from the last output to `target` along the jump profile (R269, R274, R277);
`keep`: the end of the move is held. -/
def openMove (c : Ch) (l : Fin 7) (keep : Bool) (target : Rat) (s : State) : State :=
  let y : Rat := outputOf c l s
  let r := Run.mk' s.now (jumpLimits c s) y target
  setLoopSt c l 0 (s.onLoop c l (fun h =>
    { h with closing := false, openRun := some r, openHeld := some y, openKeep := keep }))

/-- A hold command, in any state (R284). It ends a close command still to come; the closing run of a TRACK loop that
returns from COUNT waits for the release. -/
def holdCmd (c : Ch) (l : Fin 7) (s : State) : State :=
  (holdLoop c l true s).onLoop c l (fun h => { h with heldByCmd := true, closing := h.closing && h.heldFrom == 4 })

/-- Closes an open loop, and a held one after its release (R268 steps 3 and 4 within a recovery). -/
def closeOrRelease (c : Ch) (l : Fin 7) (s : State) : State := closeLoop c l (releaseLoop c l s)

/-- A swap that takes effect (R259, R260, R263). -/
def swapEffect (c : Ch) (l : Fin 7) (s : State) : State :=
  let f (x : Fld) : Fld := (x.at c).i l.val
  let s := swapBanks c l.val s
  let run := s.getb (f LOOP_STAT_SWAP_RUN)
  let st := loopSt c l s
  let s := (s.putb (f LOOP_STAT_BANK) (!s.getb (f LOOP_STAT_BANK))).putb (f LOOP_STAT_SWAP_PEND) false
  s.putb (f LOOP_STAT_SWAP_RUN) (!run && st != 0 && st != 3)

/-- The effect of a write of `v` to LOOP_CTL: the swap first, then CMD (R263, R284). -/
def loopCtlEffect (c : Ch) (l : Fin 7) (v : W32) (s : State) : State :=
  let s := if bitOf 8 v.toNat then swapEffect c l s else s
  match bitsOf 2 0 v.toNat with
  | 1 => closeLoop c l s
  | 2 => openLoop c l s
  | 3 => holdCmd c l s
  | 4 => releaseLoop c l s
  | _ => s

/-! ### The Timetable swap (R247, R248) -/

/-- Exchanges the two Timetable copies of a channel. -/
def swapTt (c : Ch) (s : State) : State :=
  (List.range 32).foldl (fun s k =>
    exchange (exchange s ((TT_S0.at c).i k).base ((TT_A0.at c).i k).base)
      ((TT_S1.at c).i k).base ((TT_A1.at c).i k).base) s

/-- The Timetable swap at a 64-tick boundary, with its second check (R248). -/
def ttSwapNow (c : Ch) (s : State) : State :=
  let s := s.putb (SRV_STAT_TT_PEND.at c) false
  if ttValid (readTt false c s) then
    (swapTt c s).putb (SRV_STAT_TT_BANK.at c) (!s.getb (SRV_STAT_TT_BANK.at c))
  else s.raise ⟨.srv, c⟩ 6

/-- The counters of SRV (R282, R284). -/
def srvCounters (c : Ch) : List Fld :=
  [SRV_CNT_LOCK.at c, SRV_CNT_REC.at c, SRV_CNT_OVR.at c] ++ (List.range 7).map (fun l => (LOOP_CNT.at c).i l)

/-- The effect of TT_SWAP, which takes effect at the boundary of tick `n` (R248). -/
def ttSwapEffect (c : Ch) (n : Nat) (s : State) : State :=
  if s.getb (SRV_STAT_TT_PEND.at c) then s
  else if ttValid (readTt false c s) then
    (if n % 64 = 0 then ttSwapNow c s else s.putb (SRV_STAT_TT_PEND.at c) true)
  else s.raise ⟨.srv, c⟩ 6

/-! ### Layer jumps (R269) -/

/-- Starts a layer jump to layer `m` (R269 step 1); it runs from the layer of the last valid address. -/
def jumpStart (c : Ch) (m : Nat) (s : State) : State :=
  let s := stopTransfer c 3 s
  let s := holdCmd c 5 (openHeld c 1 s)
  s.onSrv c (fun v => { v with
    step := .jumpOpen, stepTick := s.now, jumpTo := some m, jumpFrom := s.get (SRV_STAT_LAYER.at c), expLayer := m })

/-- FF_FOC of a layer. -/
def ffFoc (c : Ch) (n : Nat) (s : State) : Int := s.geti ((SRV_LAYERn_FF_FOC.at c).i n)

/-! ### Recoveries (R272–R277) -/

/-- Priority of a recovery code: 1 the highest, 4 none (R272). -/
def recPriority (r : Nat) : Nat := if r = 1 then 1 else if r = 2 then 3 else if r = 0 then 4 else 2

/-- Ends a running seek where the spots stand (R274, R315): its profile and its count end, and a sled that a long seek moves
is stopped and follows its held loop again. -/
def seekDrop (c : Ch) (s : State) : State :=
  let long := s.get (MOT_SEEK_KIND.at c) == 2 && !(s.chan c).mot.returned
  let s := (s.put (MOT_SEEK_KIND.at c) 0).onMot c (fun m => { m with fine := none, profEnd := none, returned := true })
  if long then axFollowNow c 0 (axFlush c 0 s) else s

/-- One-beam mode begins, the SA beam lost or the SB beam (R276). A track-slip recovery it interrupts is over. -/
def oneBeamStart (c : Ch) (sa : Bool) (slip : Bool) (s : State) : State :=
  (holdCmd c 3 s).onSrv c (fun v => { v with
    oneBeam := some sa, oneBeamTick := s.now, recTick := s.now, bothOk := 0
    step := if slip then .settled else v.step })

/-- Begins an attempt of recovery `r` (R274–R276). -/
def beginRecovery (c : Ch) (r : Nat) (s : State) : State :=
  let slip := s.get (SRV_STAT_RECOVERY.at c) == 2
  let s := s.put (SRV_STAT_RECOVERY.at c) r
  match r with
  | 1 =>
    let s := [(0 : Fin 7), 1, 2, 3, 4, 5].foldl (fun s l => holdCmd c l s) (seekDrop c s)
    s.onSrv c (fun v => { v with step := .recOpen, stepTick := s.now, recTick := s.now, holding := false, holdTicks := 0,
                                 jumpTo := none })
  | 3 => oneBeamStart c true slip s
  | 4 => oneBeamStart c false slip s
  | _ =>
    -- a seek whose spots have been brought back is over (R275, R315)
    let s := if (s.chan c).mot.returned then s.put (MOT_SEEK_KIND.at c) 0 else s
    s.onSrv c (fun v => { v with step := .slipWait, stepTick := s.now, recTick := s.now, wedges := 0, jumpTo := none })

/-- Starts recovery `r` at its first attempt (R273). -/
def startRecovery (c : Ch) (r : Nat) (s : State) : State :=
  beginRecovery c r (s.put (SRV_STAT_ATTEMPT.at c) 1)

/-- The detection of a loss of lock (R272, R273): `ev` its event, `cls` its class, `cause` the abort cause, `cnt` its
counter. Any detection clears INJ_EN (R278). During a recovery of the same or higher priority it is counted and does not
act; log 18. A loss of lock also counts for a running ageing measurement (R664). -/
def detect (c : Ch) (r ev cls cause : Nat) (cnt : Fld) (s : State) : State :=
  let s := (s.bump cnt 1).putb (SRV_INJ_INJ_EN.at c) false
  if recPriority (s.get (SRV_STAT_RECOVERY.at c)) ≤ recPriority r then s
  else
    let s := (s.raise ⟨.srv, c⟩ ev).faultCh cls c .srv
    let s := (s.putb (SRV_STAT_FOCUS_LOCK.at c) false).putb (SRV_STAT_TRACK_LOCK.at c) false
    let s := stopTransfer c cause s
    let s := s.onDcm c (fun d => { d with calHits := d.calHits + 1 })
    startRecovery c r s

/-- The condition of a focus drop (R272). -/
def focusDropNow (c : Ch) (s : State) : Bool :=
  let v := (s.chan c).srv
  let n := max 1 (s.get (SRV_FMON_FD_TICKS.at c))
  (v.holding && decide (n ≤ v.holdTicks)) || (loopSt c 0 s == 1 && decide (n ≤ (s.loop c 0).lossRuns))

/-- The condition of a servo-beam loss by its sums (R272). -/
def beamLossNow (c : Ch) (s : State) : Bool :=
  let v := (s.chan c).srv
  let n := max 1 (s.get (SRV_BMON_SBL_TICKS.at c))
  decide (n ≤ v.saLow) || decide (n ≤ v.sbLow)

/-- The condition of a track slip (R272). -/
def trackSlipNow (c : Ch) (s : State) : Bool :=
  let v := (s.chan c).srv
  v.slipSeen || (loopSt c 1 s == 1 && decide (max 1 (s.get (SRV_TMON_TS_TICKS.at c)) ≤ (s.loop c 1).lossRuns))

/-- Clears what the detections watch. -/
def clearWatch (c : Ch) (s : State) : State :=
  let s := s.onLoop c 0 (fun h => { h with lossRuns := 0 })
  let s := s.onLoop c 1 (fun h => { h with lossRuns := 0 })
  s.onSrv c (fun v => { v with slipSeen := false, saLow := 0, sbLow := 0 })

/-- The detection of a servo-beam loss (R272, R276): SA lost, SB lost, or reading stopped with both sums normal. -/
def detectBeam (c : Ch) (s : State) : State :=
  let r := if !s.getb (SRV_STAT_SA_OK.at c) then 3 else if !s.getb (SRV_STAT_SB_OK.at c) then 4 else 5
  clearWatch c (detect c r 4 4 4 (SRV_CNT_REC_BEAM_LOSSES.at c) s)

/-- The last recovery attempt has failed (R277). -/
def recoveryFail (c : Ch) (s : State) : State :=
  let s := ((s.bump (SRV_CNT_REC_RECOVERY_FAILS.at c) 1).raise ⟨.srv, c⟩ 5).faultCh 5 c .srv
  let s := openMove c 1 false 0 (openMove c 0 false 0 (seekDrop c s))
  let s := [(2 : Fin 7), 3, 4, 5].foldl (fun s l => holdCmd c l s) s
  let s := (s.put (SRV_STAT_RECOVERY.at c) 0).put (SRV_STAT_ATTEMPT.at c) 0
  s.onSrv c (fun v => { v with step := .idle, recFailed := true, oneBeam := none, jumpTo := none })

/-- A recovery attempt has failed (R268, R277): the next attempt begins, or the last has failed (log 19). -/
def attemptFailed (c : Ch) (s : State) : State :=
  let a := s.get (SRV_STAT_ATTEMPT.at c)
  if max 1 (s.get (SRV_REC_REC_TRIES.at c)) ≤ max 1 a then recoveryFail c s
  else
    let s := s.put (SRV_STAT_ATTEMPT.at c) (max 1 a + 1)
    match s.get (SRV_STAT_RECOVERY.at c) with
    | 0 => s.onSrv c (fun v => { v with wedges := 0, recTick := s.now })
    | r => beginRecovery c r s

/-! ### ACQUIRE (R268) -/

/-- Begins ACQUIRE: the focus sweep starts at FOC_START (R268). -/
def acquireStart (c : Ch) (s : State) : State :=
  let p : Rat := s.geti (SRV_FOCR_FOC_START.at c)
  let s := [(0 : Fin 7), 1, 2, 3, 4, 5].foldl (fun s l => openLoop c l s) s
  let s := s.onLoop c 0 (fun h => { h with openHeld := some p })
  let s := (s.put (SRV_STAT_RECOVERY.at c) 0).put (SRV_STAT_ATTEMPT.at c) 0
  let s := s.onMot c (fun m => { m with jumpTarget := none })
  s.onSrv c (fun v => { v with
    step := .sweep false, stepTick := s.now, sweeps := 1, sweepPos := p, sweepLeg := 0, wedges := 0, jumpTo := none
    oneBeam := none, acqFailed := false, recFailed := false, slipSeen := false, holding := false })

/-- The steps of a sequence that end in a tick without a command of their own (R268, R269, R274). -/
def seqTick (c : Ch) (n : Nat) (s : State) : State :=
  let v := (s.chan c).srv
  match v.step with
  | .focusClose =>
    if s.getb (SRV_STAT_FOCUS_LOCK.at c) then s.onSrv c (fun v => { v with step := .trackWait, stepTick := n }) else s
  | .trackClose =>
    if s.getb (SRV_STAT_TRACK_LOCK.at c) then
      let s := closeOrRelease c 5 (closeOrRelease c 4 s)
      s.onSrv c (fun v => { v with step := .addrWait, stepTick := n, wedges := 0 })
    else s
  | .jumpOpen =>
    if v.stepTick < n then
      let s := holdCmd c 4 s
      let p := s.geti ((SRV_LAYERn_SA_POS.at c).i (v.jumpTo.getD 0))
      let s := axFollowNow c 1 (s.onMot c (fun m => { m with jumpTarget := some p }))
      (s.putb (axF AX_STAT_AT_TARGET c 1) false).onSrv c (fun v => { v with step := .jumpCorr, stepTick := n })
    else s
  | .recOpen =>
    if v.stepTick < n then
      let s := openMove c 0 true (ffFoc c v.expLayer s : Int) (openHeld c 1 s)
      s.onSrv c (fun v => { v with step := .recMove, stepTick := n })
    else s
  | .recMove =>
    match (s.loop c 0).openRun with
    | some r =>
      if r.ended n then
        let p : Rat := ffFoc c v.expLayer s
        let s := s.onLoop c 0 (fun h => { h with openRun := none, openHeld := some p })
        s.onSrv c (fun v => { v with step := .sweep true, stepTick := n, sweepPos := p, sweepLeg := 0 })
      else s
    | none => s
  | _ => s

/-- Light enough for a capture (R268, R269). -/
def captureLight (c : Ch) (s : State) : Bool := lightOk (s.get (SRV_FMON_CAP_THR.at c)) (sumNom c s) (s.chan c).srv.s

/-! ### SA addresses and the wobble PLL (R134, R137) -/

/-- Number of ones among the bits `lo` up to `lo + n − 1`. -/
def onesIn (w lo : Nat) : Nat → Nat
  | 0 => 0
  | n + 1 => b2n (bitOf (lo + n) w) + onesIn w lo n

/-- The fields of an address unit whose parity bits check and whose fields lie in their ranges (R85). R134 names the parity
bits only: a WEDGE above 95 or a SERVO_TRACK above 18,880 is taken as an address that does not check; log 130. -/
def addrFields (bits : BitVec 28) : Option SaAddr :=
  let w := bits.toNat
  if onesIn w 13 15 % 2 = b2n (bitOf 1 w) ∧ onesIn w 2 11 % 2 = b2n (bitOf 0 w)
      ∧ bitsOf 12 6 w ≤ 95 ∧ bitsOf 27 13 w ≤ 18880 then
    some ⟨bitsOf 27 13 w, bitsOf 12 6 w, bitsOf 5 2 w⟩
  else none

/-- The 28 address bits of an address unit (R84): bit k of the word is 1 when wobble k is inverted. Wobbles 0 to 7, all inverted,
are the unit sync; then two wobbles make a bit, most significant bit first: normal and inverted 0, inverted and normal 1. -/
def unitBits (w : BitVec 64) : Option (BitVec 28) :=
  let inv := fun (k : Nat) => bitOf k w.toNat
  let pairs := (List.range 28).map (fun j => (inv (8 + 2 * j), inv (9 + 2 * j)))
  if w.toNat % 256 = 255 ∧ pairs.all (fun p => p.1 != p.2) then
    some (BitVec.ofNat 28 (pairs.foldl (fun n p => 2 * n + b2n p.1) 0))
  else none

/-- The address unit of 28 address bits (R84). -/
def addrUnit (bits : BitVec 28) : BitVec 64 :=
  BitVec.ofNat 64 (255 + (List.range 28).foldl (fun n j =>
    n + (if bitOf (27 - j) bits.toNat then 2 ^ (8 + 2 * j) else 2 ^ (9 + 2 * j))) 0)

/-- Does the address read from SB, which follows the next servo track (R74), agree with SA's (R86)? None where SB lies in
another zone or its unit does not check. DESIGN CHOICE: the answer decides nothing (log 142). -/
def sbCheck (a : SaAddr) (sb : Option (BitVec 64)) : Option Bool :=
  let z := fun (t : Nat) => min t 18879 / 2360
  if z a.track ≠ z (a.track + 1) then none
  else ((sb.bind unitBits).bind addrFields).map (fun b => b == ⟨a.track + 1, a.wedge, a.layer⟩)

/-- Does a wedge number follow the previous valid one, the invalid ones between counted (R134)? The first address after
none has been valid, or after a read stop, is taken as following; log 20. -/
def wedgeFollows (v : Srv) (wedge : Nat) : Bool := !v.wedgeKnown || wedge == v.wedgeNext

/-- The servo track expected at a wedge: one further along the spiral at each W0 (R272). -/
def spiralTrack (v : Srv) (wedge : Nat) : Nat :=
  if wedge = 0 ∨ (!v.wedgeKnown ∧ wedge < v.wedgeNext) then v.expTrack + 1 else v.expTrack

/-- The LOCK bits of signals 8 and 9 follow the validity of the SA address (R136). -/
def sumLock (c : Ch) (b : Bool) (s : State) : State :=
  (s.putb ((RDC_STAT_LOCK.at c).i 8) b).putb ((RDC_STAT_LOCK.at c).i 9) b

/-- The end of a sequence on the layer it was to reach (R268, R269, R274, R275). Without a recovery the track reached is the
expected one from here on. In a recovery a seek back to the expected band follows; while the motion generator would refuse
it, because TRACK is not CLOSED yet, the part waits for the next address. -/
def addressBack (c : Ch) (a : SaAddr) (s : State) : State :=
  let e := (s.chan c).srv.expTrack
  let d : Int := (e : Int) - a.track
  let done (s : State) : State := s.onSrv c (fun v => { v with step := .settled, stepTick := s.now, jumpTo := none })
  let s := s.onMot c (fun m => { m with jumpTarget := none })
  if s.get (SRV_STAT_RECOVERY.at c) = 0 then
    (done (s.put (SRV_STAT_ATTEMPT.at c) 0)).onSrv c (fun v => { v with expTrack := a.track })
  else if d = 0 then done s
  else if seekRefused c d s then s
  else (seekStart c d (done s)).onSrv c (fun v => { v with expTrack := e })

/-- What a valid address does to a running sequence (R268, R269, R274, R275). -/
def addressStep (c : Ch) (a : SaAddr) (s : State) : State :=
  let v := (s.chan c).srv
  let back := addressBack c a
  match v.step with
  | .addrWait =>
    if a.layer = v.expLayer then back s
    else if v.jumpTo.isSome then
      let s := s.bump (SRV_CNT_REC_LAYER_MISS.at c) 1
      let n := s.get (SRV_STAT_ATTEMPT.at c)
      if max 1 (s.get (SRV_REC_REC_TRIES.at c)) ≤ max 1 n then recoveryFail c s
      else (jumpStart c v.expLayer (s.put (SRV_STAT_ATTEMPT.at c) (max 1 n + 1))).onSrv c (fun v => { v with recTick := s.now })
    else jumpStart c v.expLayer s
  | .slipWait => back s
  | _ => s

/-- A valid SA address (R134, R272). -/
def addressValid (c : Ch) (a : SaAddr) (s : State) : State :=
  let v := (s.chan c).srv
  let exp := spiralTrack v a.wedge
  let free := v.step = .idle ∨ v.step = .settled
  let seeking := s.get (MOT_SEEK_KIND.at c) ≠ 0
  let slip := v.addr.isSome ∧ free ∧ ¬seeking ∧ (a.layer ≠ v.expLayer ∨ a.track ≠ exp)
  let follow := v.addr.isNone ∨ (free ∧ ¬seeking ∧ ¬slip ∧ s.get (SRV_STAT_RECOVERY.at c) = 0)
  let s := s.put (SRV_STAT_LAYER.at c) a.layer
  let s := (s.put (DCM_STAT_LAYER.at c) a.layer).put (DCM_STAT_ZONE.at c) (zoneOfRadial (min a.track 18879))
  let s := s.onSrv c (fun v => { v with
    addr := some a, addrValid := true, invalidRun := 0, holdover := none, wedgeKnown := true, wedgeNext := (a.wedge + 1) % 96
    expTrack := if follow then a.track else exp, slipSeen := v.slipSeen || decide slip })
  let s := s.onDcm c (fun d => { d with band := radialOf a.layer a.track, wedge := a.wedge })
  let s := s.onAcc c (fun k => { k with unexpected := k.unexpected || decide slip })
  addressStep c a (sumLock c true s)

/-- An invalid SA address (R134, R137). -/
def addressInvalid (c : Ch) (s : State) : State :=
  let s := s.onSrv c (fun v => { v with
    addrValid := false, invalidRun := v.invalidRun + 1, wedges := v.wedges + 1
    wedgeNext := (v.wedgeNext + 1) % 96, expTrack := if v.wedgeNext = 0 then v.expTrack + 1 else v.expTrack
    holdover := v.holdover.or (if 3 ≤ v.invalidRun + 1 then some 5 else none) })
  sumLock c false s

/-- SA_ADDRESS (R84, R86, R134). The check against SB is kept and decides nothing: R134 names what makes an address valid (log
142). -/
def execSaAddress (c : Ch) (sa : BitVec 64) (sb : Option (BitVec 64)) (s : State) : Out := gateEngine c s <|
  let a := (unitBits sa).bind addrFields
  let s := s.onSrv c (fun v => { v with sbAgrees := a.bind (fun a => sbCheck a sb) })
  let v := (s.chan c).srv
  .next (match a with
    | some a => if v.pllLocked && wedgeFollows v a.wedge then addressValid c a s else addressInvalid c s
    | none => addressInvalid c s)

/-- WOBBLE_PLL_LOCK (R134): the synthesiser takes the locked frequency. After an unlock the next address is the first to be
followed (log 20). -/
def execWobblePllLock (c : Ch) (freq : Nat) (s : State) : Out := gateEngine c s <|
  .next (s.onSrv c (fun v => { v with
    pllLocked := true, pllFreq := freq, wedgeKnown := v.wedgeKnown && v.pllLocked }))

/-- WOBBLE_PLL_LOCK_LOSS (R137): the synthesiser holds its frequency for the rest of the wedge and up to 4 further wedges, whose
boundaries count them down. -/
def execWobblePllLockLoss (c : Ch) (s : State) : Out := gateEngine c s <|
  .next (if (s.chan c).srv.pllLocked then
      s.onSrv c (fun v => { v with pllLocked := false, holdover := some (v.holdover.getD 5) })
    else s)

/-- Sector rows of a tile slot that have ended at the wedge boundary just passed (R137). -/
def rowsEnded (at' : Nat) (t : TileRead) : Nat := ((sectorSpans t.pos).filter (fun p => decide (p.2 ≤ at'))).length

/-- WOBBLE_READ_STOP (R137): four wedges of holdover have passed without a valid address: every slot whose sector ends after the
fourth is erased. Where a focus drop applies too, it alone acts, and reading stops for it (R272). -/
def execWobbleReadStop (c : Ch) (s : State) : Out := gateEngine c s <|
  .next (if (s.chan c).srv.holdover = some 0 then
      let s := s.onAcc c (fun a => { a with readStop := true })
      let s := s.onSrv c (fun v => { v with holdover := none, invalidRun := 0, wedgeKnown := false })
      let s := stopReadAt c (rowsEnded (s.chan c).rdc.wedgePos) s
      if focusDropNow c s then s else detectBeam c s
    else s)

/-! ### Events of the servo engine -/

/-- ROUTINE_OVERRUN (R250). -/
def execRoutineOverrun (c : Ch) (s : State) : Out := gateEngine c s <|
  .next (match (s.chan c).srv.cuts with
    | [] => s
    | k :: rest =>
      let s := s.onSrv c (fun v => { v with cuts := rest })
      let s := (s.put (SRV_STAT_OVR_SLOT.at c) k).bump (SRV_CNT_OVR_OVERRUNS.at c) 1
      let w1 := (s.rd ((TT_A1.at c).i k).base).toNat
      let s := if bitsOf 3 0 w1 = 2 then
          (s.putb ((LOOP_STAT_LASTCUT.at c).i (bitsOf 6 4 w1)) true).bump ((LOOP_CNT_CUTS.at c).i (bitsOf 6 4 w1)) 1
        else s
      (s.raise ⟨.srv, c⟩ 1).faultCh 1 c .srv)

/-- TT_SWAP_APPLY (R248): it comes before the TICK of its 64-tick boundary. -/
def execTtSwapApply (c : Ch) (s : State) : Out := gateEngine c s <|
  .next (if s.getb (SRV_STAT_TT_PEND.at c) && (s.now + 1) % 64 == 0 then ttSwapNow c s else s)

/-- HOLD_RESUME (R271). -/
def execHoldResume (c : Ch) (s : State) : Out := gateEngine c s <|
  let v := (s.chan c).srv
  .next (if v.holding && decide (2 ≤ v.goodTicks) then
      let s := [(0 : Fin 7), 1, 2, 3, 4, 5, 6].foldl (fun s l =>
        if (s.loop c l).heldByCmd then s else releaseLoop c l s) s
      s.onSrv c (fun v => { v with holding := false, holdTicks := 0 })
    else s)

/-- FOCUS_CAPTURE (R268, R269, R274). -/
def execFocusCapture (c : Ch) (s : State) : Out := gateEngine c s <|
  let v := (s.chan c).srv
  .next (if v.feCross && captureLight c s then
      match v.step with
      | .sweep _ => (closeLoop c 0 s).onSrv c (fun v => { v with step := .focusClose, stepTick := s.now })
      | .jumpCapture =>
        if s.now ≤ v.stepTick + 400 then
          (closeLoop c 0 s).onSrv c (fun v => { v with step := .trackWait, stepTick := s.now })
        else s
      | _ => s
    else s)

/-- FOCUS_SWEEP_END (R268): a new sweep, or ACQUIRE fails after 3. -/
def execFocusSweepEnd (c : Ch) (s : State) : Out := gateEngine c s <|
  let v := (s.chan c).srv
  .next (if v.step = .sweep false ∧ v.sweepPos = ((s.geti (SRV_FOCR_FOC_END.at c) : Int) : Rat) then
      if v.sweeps < 3 then
        let p : Rat := s.geti (SRV_FOCR_FOC_START.at c)
        (s.onLoop c 0 (fun h => { h with openHeld := some p })).onSrv c (fun v =>
          { v with sweeps := v.sweeps + 1, sweepPos := p })
      else (s.onLoop c 0 (fun h => { h with openHeld := none })).onSrv c (fun v => { v with step := .idle, acqFailed := true })
    else s)

/-- TRACK_CAPTURE (R268): TRACK, TILT and SKEW close. -/
def execTrackCapture (c : Ch) (s : State) : Out := gateEngine c s <|
  let v := (s.chan c).srv
  let ready := v.step = .trackWait ∨ (v.step = .focusClose ∧ s.getb (SRV_STAT_FOCUS_LOCK.at c))
  .next (if ready ∧ v.teCross ∧ s.get (SRV_TMON_TCAP_TICKS.at c) ≤ v.teGap then
      let s := closeOrRelease c 3 (closeOrRelease c 2 (closeOrRelease c 1 s))
      s.onSrv c (fun v => { v with step := .trackClose, stepTick := s.now })
    else s)

/-- ACQUIRE_ADDRESS_TIMEOUT (R268, R275): 8 wedges without a valid address fail the attempt. -/
def execAcquireAddressTimeout (c : Ch) (s : State) : Out := gateEngine c s <|
  let v := (s.chan c).srv
  .next (if (v.step = .addrWait ∨ v.step = .slipWait) ∧ 8 ≤ v.wedges then attemptFailed c s else s)

/-- LAYER_JUMP_CORRECTOR_DONE (R269 steps 2 and 3). -/
def execLayerJumpCorrectorDone (c : Ch) (s : State) : Out := gateEngine c s <|
  let v := (s.chan c).srv
  .next (if v.step = .jumpCorr ∧ s.getb (axF AX_STAT_AT_TARGET c 1) then
      let d : Rat := ffFoc c (v.jumpTo.getD 0) s - ffFoc c v.jumpFrom s
      let s := openMove c 0 true (outputOf c 0 s + d) s
      s.onSrv c (fun v => { v with step := .jumpProfile, stepTick := s.now })
    else s)

/-- LAYER_JUMP_PROFILE_END (R269 step 4). -/
def execLayerJumpProfileEnd (c : Ch) (s : State) : Out := gateEngine c s <|
  let v := (s.chan c).srv
  .next (match v.step, (s.loop c 0).openRun with
    | .jumpProfile, some r =>
      if r.ended s.now then
        (s.onLoop c 0 (fun h => { h with openRun := none, openHeld := some r.target })).onSrv c (fun v =>
          { v with step := .jumpCapture, stepTick := s.now })
      else s
    | _, _ => s)

/-- LAYER_JUMP_CAPTURE_TIMEOUT (R269 step 4): the focus-drop recovery begins, the jump's target expected. -/
def execLayerJumpCaptureTimeout (c : Ch) (s : State) : Out := gateEngine c s <|
  let v := (s.chan c).srv
  .next (if v.step = .jumpCapture ∧ v.stepTick + 400 < s.now then startRecovery c 1 s else s)

/-- FOCUS_DROP (R272–R274). -/
def execFocusDrop (c : Ch) (s : State) : Out := gateEngine c s <|
  .next (if focusDropNow c s then
      clearWatch c (detect c 1 2 2 2 (SRV_CNT_LOCK_FOCUS_DROPS.at c) s)
    else s)

/-- SERVO_BEAM_LOSS (R272, R276). -/
def execServoBeamLoss (c : Ch) (s : State) : Out := gateEngine c s <|
  .next (if beamLossNow c s && !focusDropNow c s then detectBeam c s else s)

/-- TRACK_SLIP (R272, R275). -/
def execTrackSlip (c : Ch) (s : State) : Out := gateEngine c s <|
  .next (if trackSlipNow c s && !focusDropNow c s && !beamLossNow c s then
      clearWatch c (detect c 2 3 3 3 (SRV_CNT_LOCK_TRACK_SLIPS.at c) s)
    else s)

/-- Ticks of one revolution at the speed now demanded (R276). -/
def revTicks (c : Ch) (s : State) : Nat := (24000000 + (s.chan c).dcm.rpmSet - 1) / (s.chan c).dcm.rpmSet

/-- ONE_BEAM_END (R276). -/
def execOneBeamEnd (c : Ch) (s : State) : Out := gateEngine c s <|
  let v := (s.chan c).srv
  .next (if v.oneBeam.isSome ∧ (s.chan c).dcm.rpmSet ≠ 0 ∧ revTicks c s ≤ v.bothOk then
      let s := releaseLoop c 3 s
      let s := if recPriority (s.get (SRV_STAT_RECOVERY.at c)) = 2 then
          (s.put (SRV_STAT_RECOVERY.at c) 0).put (SRV_STAT_ATTEMPT.at c) 0
        else s
      s.onSrv c (fun v => { v with oneBeam := none })
    else s)

/-- RECOVERY_DONE (R274, R275): TRACK_LOCK on the expected address. -/
def execRecoveryDone (c : Ch) (s : State) : Out := gateEngine c s <|
  let v := (s.chan c).srv
  let r := s.get (SRV_STAT_RECOVERY.at c)
  .next (if (r = 1 ∨ r = 2 ∨ r = 5) ∧ v.step = .settled ∧ s.getb (SRV_STAT_TRACK_LOCK.at c)
        ∧ v.addrValid ∧ v.addr.map (fun a => (a.track, a.layer)) = some (v.expTrack, v.expLayer) then
      let s := (s.put (SRV_STAT_RECOVERY.at c) 0).put (SRV_STAT_ATTEMPT.at c) 0
      s.onSrv c (fun v => { v with step := .settled })
    else s)

/-- Has the time of the recovery attempt passed (R277)? -/
def attemptExpired (c : Ch) (s : State) : Bool :=
  let v := (s.chan c).srv
  let t := s.get (SRV_REC_REC_TICKS.at c)
  match s.get (SRV_STAT_RECOVERY.at c) with
  | 0 => false
  | 3 => decide (v.oneBeamTick + t * max 1 (s.get (SRV_REC_REC_TRIES.at c)) ≤ s.now)
  | 4 => decide (v.oneBeamTick + t * max 1 (s.get (SRV_REC_REC_TRIES.at c)) ≤ s.now)
  | _ => decide (v.recTick + t ≤ s.now)

/-- The end of a recovery attempt by its time (R276, R277). -/
def attemptTimeout (c : Ch) (s : State) : State :=
  if attemptExpired c s then
    if recPriority (s.get (SRV_STAT_RECOVERY.at c)) = 2 ∧ (s.chan c).srv.oneBeam.isSome then recoveryFail c s
    else attemptFailed c s
  else s

end Sys2Proof.Machine
end

