-- ==== Sys2Proof/Machine/Spindle.lean ====
section
/-! DEFINITION. The spindle controller: bridge patterns, observer, direct torque control, six-step, starting, catching
and braking (R321–R369). -/

namespace Sys2Proof.Machine

open Reg

/-! ### States (R367) -/

/-- STATE of a spindle. -/
def spnSt (c : Ch) (s : State) : Nat := s.get (SPN_STAT_STATE.at c)

/-- Enters a state. -/
def setSpn (c : Ch) (n : Nat) (s : State) : State :=
  (s.onSpn c (fun k => { k with stateTick := s.now })).put (SPN_STAT_STATE.at c) n

/-- Is the bus of a channel stopped (R359, R363)? -/
def busStopped (b : Two) (s : State) : Bool :=
  s.getb (VMB_STATx_BUFFER_STOP.i b.val) || s.getb (VMB_STATx_UNDER.i b.val)

/-- Is the bridge of a channel all-off, whatever the selected pattern (R324)? -/
def bridgeOff (c : Ch) (s : State) : Bool :=
  let m := s.mode c
  (s.chan c).spn.pat.off || m == mOFF || m == mPARKED || m == mREPLAY || s.halted ||
    s.getb (VMB_STATx_BUFFER_STOP.i (busOf c).val)

/-- The level of a leg: high, low or off. -/
inductive Leg where
  | high | low | off
deriving DecidableEq, Repr

/-- The legs of the eight voltage vectors, phases A, B and C (R321). -/
def vectorLegs (v : Nat) : List Leg :=
  match v with
  | 1 => [.high, .low, .low] | 2 => [.high, .high, .low] | 3 => [.low, .high, .low] | 4 => [.low, .high, .high]
  | 5 => [.low, .low, .high] | 6 => [.high, .low, .high] | 7 => [.high, .high, .high] | _ => [.low, .low, .low]

/-- The zero vector that completes a tick after a vector (R323). -/
def zeroAfter (v : Nat) : Nat := if v = 2 ∨ v = 4 ∨ v = 6 ∨ v = 7 then 7 else 0

/-- The H, L and F legs of a six-step step (R345), as phase numbers. -/
def sixLegs (st : Nat) : Nat × Nat × Nat :=
  match st with
  | 0 => (0, 1, 2) | 1 => (0, 2, 1) | 2 => (1, 2, 0) | 3 => (1, 0, 2) | 4 => (2, 0, 1) | _ => (2, 1, 0)

/-- A leg of a six-step step at a cycle, with the H leg high for `ton` cycles (R346). -/
def sixLeg (st ton cycle ph : Nat) : Leg :=
  let (h, l, _) := sixLegs st
  if ph = h then (if cycle < ton then .high else .low) else if ph = l then .low else .off

/-- A leg in tick `j` after a commutation to step `st`, with its trapezoidal edge of `e` ticks (R348). -/
def sixEdge (st ton e j cycle ph : Nat) : Leg :=
  let old := (st + 5) % 6
  let c := 2000 * (e + 1 - j) / (e + 1)
  if 1 ≤ j ∧ j ≤ e then
    if ph = (sixLegs st).2.2 then (if cycle < c then sixLeg old ton cycle ph else .off)
    else if ph = (sixLegs old).2.2 then (if cycle < c then .off else sixLeg st ton cycle ph)
    else sixLeg st ton cycle ph
  else sixLeg st ton cycle ph

/-- The legs of a pattern at a cycle (R321–R324, R346, R348), in tick `j` after a commutation with edges of `e` ticks. -/
def patLegs (p : Pattern) (e j cycle : Nat) : List Leg :=
  if p.off then [.off, .off, .off]
  else if p.six then [0, 1, 2].map (sixEdge p.vec p.ta e j cycle)
  else if cycle < p.ta then vectorLegs p.vec
  else vectorLegs (zeroAfter p.vec)

/-- The legs of a channel's bridge at a cycle of the present tick (R321–R324, R346, R348). -/
def legsAt (c : Ch) (cycle : Nat) (s : State) : List Leg :=
  let k := (s.chan c).spn
  if bridgeOff c s then [.off, .off, .off]
  else
    let ta := match k.cut with
      | some t => min t k.pat.ta
      | none => k.pat.ta
    patLegs { k.pat with ta } (s.get (SPN_SIX_EDGE_TICKS.at c)) (s.now - k.commTick + 1) cycle

/-- The legs `back` cycles before a cycle of the present tick, through the two ticks before it. -/
def legsBack (c : Ch) (cycle back : Nat) (s : State) : List Leg :=
  let k := (s.chan c).spn
  let e := s.get (SPN_SIX_EDGE_TICKS.at c)
  let j := s.now - k.commTick + 1
  if back ≤ cycle then legsAt c (cycle - back) s
  else if back - cycle ≤ 2000 then patLegs k.past e (j - 1) (2000 - (back - cycle))
  else patLegs k.past2 e (j - 2) (4000 - (back - cycle))

/-- Dead time in cycles of 1.25 ns: DEADTIME in units of 12.5 ns, below 8 acting as 8 (R322, R367). -/
def deadCycles (c : Ch) (s : State) : Nat := 10 * max 8 (s.get (SPN_GATE_DEADTIME.at c))

/-- The six gate outputs of a channel at a cycle of the present tick, high side and low side of the phases A, B and C (R321, R322):
the outgoing gate turns off as its leg switches, and the incoming one turns on the dead time later. -/
def gatesAt (c : Ch) (cycle : Nat) (s : State) : List (Bool × Bool) :=
  let was := fun (ph : Nat) (l : Leg) => (List.range (deadCycles c s)).any (fun k => (legsBack c cycle (k + 1) s).getD ph .off == l)
  (legsAt c cycle s).zipIdx.map (fun (l, ph) => (l == .high && !was ph .low, l == .low && !was ph .high))

/-! ### The observer (R330–R332) -/

/-- Saturates at a width of two's complement. -/
def satW (w : Nat) (z : Int) : Int := clamp (-(2 ^ (w - 1) : Int)) (2 ^ (w - 1) - 1) z

/-- An angle in units of 60° as 2⁻³² turn. -/
def turn60 (k : Nat) : Nat := k * 2 ^ 32 / 6

/-- One µWb in units of the flux. -/
def fluxUnit : Int := 65536000

/-- wrap of R331. -/
def wrapTurn (z : Int) : Int := toSigned 32 (z % 2 ^ 32).toNat

/-- PSI_M × dir(angle), in flux units times 2³⁰. -/
def magnetFlux (psim angle : Nat) : Int × Int :=
  let d := Config.cordicDir angle
  (psim * fluxUnit * d.1, psim * fluxUnit * d.2)

/-- One component of the predicted current (R331). -/
def predCur (ind : Nat) (psis mag30 : Int) : Int :=
  if ind = 0 then satW 32 (Config.currentNoInd psis)
  else satW 32 (rnd ((psis * 2 ^ 30 - mag30) * 10000) (2 ^ 46 * ind))

/-- One component of psir (R331). -/
def rotorFlux (ind : Nat) (psis i : Int) : Int := satW 48 (psis - rnd (ind * i * 4096) 625)

/-- What the observer takes from a channel's registers. -/
structure SpnCfg where
  res : Nat
  ind : Nat
  psim : Nat
  poles : Nat
  kpsi : Nat
  omegaK : Nat
  dtComp : Nat
deriving DecidableEq, Repr

/-- The observer's constants (R331, R369). -/
def spnCfg (c : Ch) (s : State) : SpnCfg :=
  ⟨s.get (SPN_MOTOR_RES_MOHM.at c), s.get (SPN_IND_IND.at c), s.get (SPN_IND_PSI_M.at c), polesOf c s,
   s.get (SPN_FREF_KPSI.at c), s.get (SPN_TORQ_OMEGA_K.at c), s.get (SPN_GATE_DT_COMP.at c)⟩

/-- Voltage component of the tick before, µV (R331): `vm` in µV, `u` a component of the unit vector, LSB 2⁻³⁰. -/
def appliedV (vm : Nat) (u ta dt : Int) : Int := satW 32 (rnd (2 * vm * u * (ta - dt)) (6000 * 2 ^ 30))

/-- One step of the observer (R331). `u` is the direction of the active vector of the tick before (LSB 2⁻³⁰), `meas` the
sampled phase current and its axis as an angle. -/
def observe (g : SpnCfg) (vm : Nat) (u : Int × Int) (ta : Nat) (meas : Option (Int × Nat)) (k : Spn) : Spn :=
  let vx := appliedV vm u.1 ta g.dtComp
  let vy := appliedV vm u.2 ta g.dtComp
  let sx := satW 48 (k.psisX + rnd ((1000 * vx - g.res * k.iX) * 512) 3125)
  let sy := satW 48 (k.psisY + rnd ((1000 * vy - g.res * k.iY) * 512) 3125)
  let m := magnetFlux g.psim ((k.theta + k.omega) % 2 ^ 32).toNat
  let px := predCur g.ind sx m.1
  let py := predCur g.ind sy m.2
  let (ix, iy) := match meas with
    | none => (px, py)
    | some (im, ax) =>
      let ux := Config.cordicDir ax
      let d := im - Config.cordicDot ux (px, py)
      (satW 32 (px + rnd (d * ux.1) (2 ^ 30)), satW 32 (py + rnd (d * ux.2) (2 ^ 30)))
  let rx := rotorFlux g.ind sx ix
  let ry := rotorFlux g.ind sy iy
  let f := magnetFlux g.psim (Config.cordicAngle rx ry % 2 ^ 32)
  let sx := satW 48 (sx + rnd (g.kpsi * (f.1 - rx * 2 ^ 30)) (2 ^ 46))
  let sy := satW 48 (sy + rnd (g.kpsi * (f.2 - ry * 2 ^ 30)) (2 ^ 46))
  let rx := rotorFlux g.ind sx ix
  let ry := rotorFlux g.ind sy iy
  let th : Nat := Config.cordicAngle rx ry % 2 ^ 32
  let om := satW 32 (k.omega + rnd (g.omegaK * (wrapTurn ((th : Int) - k.theta) - k.omega)) 65536)
  { k with
    psisX := sx, psisY := sy, psirX := rx, psirY := ry, iX := ix, iY := iy, omega := om, theta := th
    torque := satW 32 (rnd (3 * g.poles * (sx * iy - sy * ix)) 131072000000) }

/-- Magnitude of a flux by the CORDIC of R330. -/
def fluxMag (x y : Int) : Int := Config.cordicDot (Config.cordicDir (Config.cordicAngle x y % 2 ^ 32)) (x, y)

/-- Speed in rpm from an electrical speed (R332). -/
def rpmOf (omega : Int) (poles : Nat) : Int := rnd (omega * 24000000) (2 ^ 32 * poles)

/-- The observer speed is at least `n` rpm forward. -/
def speedAtLeast (omega : Int) (poles n : Nat) : Bool := decide ((n * 2 ^ 32 * poles : Nat) ≤ omega * 24000000)

/-- The phase axis of the shunt current of a vector, as an angle in units of 60°, and its sign (R321). -/
def shuntAxis (v : Nat) : Nat × Int :=
  match v with
  | 1 => (0, 1) | 2 => (4, -1) | 3 => (2, 1) | 4 => (0, -1) | 5 => (4, 1) | _ => (2, -1)

/-- A shunt code in µA after the trims (R326, R369). The order and sign of the trims are DEDUCED (log 21). -/
def shuntCur (c : Ch) (code : Int) (s : State) : Int :=
  rnd ((2 * code + s.geti (SPN_TRIM_SH_OFS.at c)) * (2000 + s.geti (SPN_TRIM_SH_GAIN.at c))
    * s.get (SPN_SHUNT_ISH_LSB.at c)) 4000

/-! ### Selecting the next pattern (R323, R329, R333–R336, R346) -/

/-- The torque reference in nN·m (R333). -/
def torqueRef (c : Ch) (s : State) : Int :=
  let tmax := s.get (SPN_TORQ_TMAX.at c)
  let frac : Int := match spnSt c s with
    | 3 => s.geti (SPN_START_START_T.at c)
    | 8 => -s.geti (SPN_BRAKE_BRAKE_T.at c)
    | _ => (s.chan c).srv.torque
  let t := rnd (frac * tmax * 1000) 32768
  if s.getb (SPN_STAT_NEG_CLAMP.at c) ∧ t < 0 then 0 else t

/-- The flux sector of an angle (R335). -/
def fluxSector (angle : Nat) : Nat := (12 * angle + 2 ^ 32) % (12 * 2 ^ 32) / (2 * 2 ^ 32) + 1

/-- dψ after a tick (R334), in flux units. -/
def nextDpsi (d epsi hbf : Int) : Int := if hbf < epsi then 1 else if epsi < -hbf then -1 else d

/-- dT after a tick (R334); `hb` over 256. -/
def nextDt (d et hb256 : Int) : Int :=
  if hb256 < et * 256 then 1 else if et * 256 < -hb256 then -1
  else if d = 1 ∧ et ≤ 0 then 0 else if d = -1 ∧ 0 ≤ et then 0 else d

/-- Index of an active vector modulo 6 within 1 to 6. -/
def vecMod (k : Nat) : Nat := (k + 11) % 6 + 1

/-- The vector of the table of R335: none for a zero vector. -/
def tableVec (k : Nat) (dpsi dt : Int) : Option Nat :=
  if dt = 0 then none
  else if dpsi = 1 then some (vecMod (if dt = 1 then k + 1 else k + 5))
  else some (vecMod (if dt = 1 then k + 2 else k + 4))

/-- The planned width of an active vector (R336). -/
def plannedWidth (c : Ch) (et : Int) (s : State) : Nat :=
  if s.getb (SPN_CTL_DUTY_EN.at c) then
    let tmax := s.get (SPN_TORQ_TMAX.at c)
    let base := min 2000 (s.get (SPN_DUTY_TA_BASE.at c))
    let add := if tmax = 0 then (Config.noTmax et).toNat
      else 2000 * s.get (SPN_DUTY_KDUTY.at c) * et.natAbs / (16 * tmax * 1000)
    min 2000 (base + add)
  else 2000

/-- The vector and width that R329 makes of a selection, and whether it widened or inserted. -/
def withWindow (sector : Nat) (widths : List Nat) (sel : Option Nat) (w : Nat) : Option Nat × Nat × Bool :=
  let poor := decide (4 ≤ widths.length) && (widths.take 4).all (fun x => decide (x < 960))
  match sel with
  | some v => if poor && decide (w < 960) then (some v, 960, true) else (some v, w, false)
  | none => if poor then (some sector, 960, true) else (none, 0, false)

/-- Direct torque control selects the pattern of the next tick (R334–R336, R329). -/
def selectDtc (c : Ch) (s : State) : State :=
  let k := (s.chan c).spn
  let tref := torqueRef c s
  let et := tref - k.torque
  let epsi := s.get (SPN_FREF_PSI_REF.at c) * fluxUnit - fluxMag k.psisX k.psisY
  let dpsi := nextDpsi k.dpsi epsi (s.get (SPN_DTC_HB_F.at c) * fluxUnit)
  let dt := nextDt k.dT et (s.get (SPN_DTC_HB_T.at c) * s.get (SPN_TORQ_TMAX.at c) * 1000 : Nat)
  let sec := fluxSector (Config.cordicAngle k.psisX k.psisY % 2 ^ 32)
  let (sel, w, ins) := withWindow sec k.widths (tableVec sec dpsi dt) (plannedWidth c et s)
  let p : Pattern := match sel with
    | some v => { off := false, vec := v, ta := w }
    | none => { off := false, vec := if k.pat.off then 0 else zeroAfter k.pat.vec, ta := 0 }
  let s := s.onSpn c (fun k => { k with tref, dpsi, dT := dt, next := p, widths := (w :: k.widths).take 4 })
  let s := s.put (SPN_STAT_SECTOR.at c) sec
  if ins then s.bump (SPN_CNT_PRED_INSERTED.at c) 1 else s

/-- Six-step selects the pattern of the next tick in step `st` (R346). -/
def selectSix (c : Ch) (st : Nat) (s : State) : State :=
  let tref := torqueRef c s
  let tmax := s.get (SPN_TORQ_TMAX.at c)
  let ton := if tmax = 0 then (Config.noTmax tref).toNat else 2000 * tref.toNat / (tmax * 1000)
  (s.onSpn c (fun k => { k with tref, next := { off := false, six := true, vec := st, ta := min 2000 ton } })).put
    (SPN_STAT_SECTOR.at c) (st + 1)

/-- The pattern of tick `j` of the probe, counted from its first (R341). -/
def probePattern (pt j : Nat) : Pattern :=
  if j % (pt + 40) < pt ∧ j / (pt + 40) < 6 then
    { off := false, vec := [1, 4, 3, 6, 5, 2].getD (j / (pt + 40)) 1, ta := 2000 }
  else {}

/-- PROBE_TICKS as it acts (R367). -/
def probeTicks (c : Ch) (s : State) : Nat := max 1 (s.get (SPN_START_PROBE_TICKS.at c))

/-- Selects the pattern of the next tick by state (R323, R324, R341, R356). -/
def selectNext (c : Ch) (s : State) : State :=
  let k := (s.chan c).spn
  let none' (s : State) : State := s.onSpn c (fun k => { k with next := {} })
  match spnSt c s with
  | 2 => s.onSpn c (fun k => { k with next := probePattern (probeTicks c s) (s.now + 1 - (k.stateTick + 1)) })
  | 3 => selectDtc c s
  | 4 => selectDtc c s
  | 8 => selectDtc c s
  | 5 => selectSix c k.next.vec s
  | 9 => if k.v0 then s.onSpn c (fun k => { k with next := { off := false, vec := 0, ta := 0 } }) else none' s
  | _ => none' s

/-! ### Seeds, catches, starts and braking -/

/-- Seeds the observer (R342, R349, R351): `ind` × i is added to the flux of the magnet. -/
def seedObs (c : Ch) (theta : Nat) (omega ix iy : Int) (s : State) : State :=
  let g := spnCfg c s
  let m := magnetFlux g.psim theta
  let sx := satW 48 (rnd m.1 (2 ^ 30) + rnd (g.ind * ix * 4096) 625)
  let sy := satW 48 (rnd m.2 (2 ^ 30) + rnd (g.ind * iy * 4096) 625)
  s.onSpn c (fun k => { k with
    psisX := sx, psisY := sy, iX := ix, iY := iy, psirX := rotorFlux g.ind sx ix, psirY := rotorFlux g.ind sy iy
    omega, theta, torque := 0, dpsi := 1, dT := 0, widths := [], travel := 0, ilimRun := 0 })

/-- The SPEED loop goes to HOLD (R254). -/
def speedHold (c : Ch) (s : State) : State := holdCmd c 6 s

/-- Begins SHORT (R355, R356). -/
def shortStart (c : Ch) (after : AfterBrake) (s : State) : State :=
  setSpn c 9 ((speedHold c s).onSpn c (fun k => { k with
    v0 := false, still := 0, raw := true, next := {}, afterBrake := after, brakePend := false, collecting := false }))

/-- Begins the start watch of an attempt (R340). -/
def watchStart (c : Ch) (attempt : Nat) (s : State) : State :=
  let s := (speedHold c s).put (SPN_STAT_ATTEMPT.at c) attempt
  setSpn c 1 (s.onSpn c (fun k => { k with
    collect := [], lastCross := s.now, raw := true, next := {}, contStart := false, probe := [] }))

/-- An attempt fails (R343). -/
def attemptFail (c : Ch) (s : State) : State :=
  let s := (s.bump (SPN_CNT_START_START_FAILS.at c) 1).onSpn c (fun k => { k with next := {}, raw := true })
  let s := s.raise ⟨.spn, c⟩ 2
  if 6 ≤ s.get (SPN_STAT_ATTEMPT.at c) then
    ((setSpn c 12 s).raise ⟨.spn, c⟩ 7).faultCh 7 c .spn
  else setSpn c 6 s

/-- A catch fails (R352). -/
def catchFails (c : Ch) (s : State) : State :=
  shortStart c .restart ((s.bump (SPN_CNT_CATCH_CATCH_FAILS.at c) 1).raise ⟨.spn, c⟩ 5)

/-- A catch begins with the loss of the observer (R351 step 1); a detection that makes SPIN_CATCH lasting begins none
(R353). -/
def catchStart (c : Ch) (s : State) : State :=
  let s := (s.raise ⟨.spn, c⟩ 4).faultCh 8 c .spn
  let s := if (s.chan c).spn.lasting then s else s.bump (SPN_CNT_CATCH_CATCHES.at c) 1
  let s := stopTransfer c 5 (speedHold c s)
  let s := s.onDcm c (fun d => { d with calHits := d.calHits + 1 })
  setSpn c 7 (s.onSpn c (fun k => { k with
    catchTick := s.now, collecting := false, collect := [], raw := true, next := {}, contStart := false
    commDue := none, brakePend := false }))

/-- A catch resumes or begins at step 3 (R354, R359). -/
def catchCollect (c : Ch) (s : State) : State :=
  setSpn c 7 (s.onSpn c (fun k => { k with
    catchTick := s.now, collecting := true, collect := [], raw := true, next := {} }))

/-- Direct torque control resumes after a seed (R351 step 5): RUN_DTC, or STARTING for a start that continues (R359). -/
def dtcResume (c : Ch) (s : State) : State :=
  let cont := (s.chan c).spn.contStart
  let s := s.onSpn c (fun k => { k with raw := false, collecting := false, collect := [], contStart := false })
  if cont then selectNext c (setSpn c 3 s)
  else selectNext c (releaseLoop c 6 (setSpn c 4 (s.put (SPN_STAT_ATTEMPT.at c) 0)))

/-- The third consistent crossing seeds the observer, or shows backward rotation (R351 step 4, R352). -/
def catchSeed (c : Ch) (first third : Crossing) (fwd : Bool) (s : State) : State :=
  if !fwd then catchFails c s
  else
    let dt : Nat := third.time - first.time
    let om : Int :=
      satW 32 (if dt = 0 then Config.openQuot 4 third.time else rnd (2 ^ 32 * 2000) (3 * dt))
    let adv : Int := rnd (om * (((s.now + 1) * 2000 - third.time : Nat) : Int)) 2000
    dtcResume c (seedObs c ((turn60 third.angle + adv) % 2 ^ 32).toNat om 0 0 s)

/-- A start command (R340), outside a power failure and a bus stop. -/
def startNow (c : Ch) (s : State) : State :=
  let st := spnSt c s
  if s.get (SPN_IND_IND.at c) = 0 ∨ s.get (SPN_IND_PSI_M.at c) = 0 ∨ s.get (SPN_FREF_PSI_REF.at c) = 0
      ∨ s.get (SPN_TORQ_TMAX.at c) = 0 ∨ (st ≠ 0 ∧ st ≠ 10) then
    s.raise ⟨.spn, c⟩ 3
  else watchStart c 1 s

/-- A brake command (R355), outside a power failure and a bus stop. -/
def brakeNow (c : Ch) (s : State) : State :=
  let b := (busOf c).val
  match spnSt c s with
  | 0 => s
  | 10 => s
  | 12 => s
  | 8 => s
  | 9 => if (s.chan c).spn.lasting then s else s.onSpn c (fun k => { k with afterBrake := .idle })
  | 7 => if (s.chan c).spn.lasting then s else shortStart c .idle s
  | 5 => s.onSpn c (fun k => { k with brakePend := true })
  | 4 =>
    if ¬(s.getb (VMB_STATx_CHOPPER_FAULT.i b)) ∧ ¬(s.getb (SPN_STAT_NEG_CLAMP.at c))
        ∧ speedAtLeast (s.chan c).spn.omega (polesOf c s) (s.get (SPN_BRAKE_REGEN_MIN.at c)) then
      setSpn c 8 ((speedHold c s).onSpn c (fun k => { k with afterBrake := .idle }))
    else shortStart c .idle s
  | _ => shortStart c .idle s

/-- Are SPIN_START and SPIN_CATCH of a channel cleared (R367)? -/
def haltCleared (c : Ch) (s : State) : Bool :=
  !s.hlt.classes.any (fun k => (k.cls == 7 || k.cls == 8) && k.inst == c.val && k.lasting)

/-- A coast command (R354, R364, R367). -/
def coastNow (c : Ch) (s : State) : State :=
  if spnSt c s = 12 ∧ !haltCleared c s then s
  else
    let s := (setSpn c 10 s).put (SPN_STAT_ATTEMPT.at c) 0
    s.onSpn c (fun k => { k with next := {}, pat := { k.pat with off := true }, raw := true, held := none,
                                 collecting := false, brakePend := false, commDue := none, contStart := false })

/-- Are start and brake commands held (R325, R364)? In REPLAY only the recorded stops of the bus count (R365). -/
def spnHolds (c : Ch) (s : State) : Bool :=
  if s.mode c = mREPLAY then spnSt c s == 11 else s.pwr.pwrfailLow || busStopped (busOf c) s

/-- A command of SPN_CTL (R364, R367). -/
def spnCommand (c : Ch) (cmd : Nat) (s : State) : State :=
  match cmd with
  | 1 => if spnHolds c s then s.onSpn c (fun k => { k with held := some 1 }) else startNow c s
  | 2 => if spnHolds c s then s.onSpn c (fun k => { k with held := some 2 }) else brakeNow c s
  | 3 => coastNow c s
  | _ => s

/-- The held command acts once nothing holds it any more (R325, R364). -/
def spnHeld (c : Ch) (s : State) : State :=
  if spnHolds c s then s
  else match (s.chan c).spn.held with
    | some n => spnCommand c n (s.onSpn c (fun k => { k with held := none }))
    | none => s

/-- The counters of SPN (R368). -/
def spnCounters (c : Ch) : List Fld :=
  [SPN_CNT_START.at c, SPN_CNT_CATCH.at c, SPN_CNT_PRED.at c, SPN_CNT_LOSS.at c, SPN_CNT_ILIM.at c]

/-! ### The tick (R17, R326–R336, R342, R349, R351) -/

/-- Moves the patterns on at a boundary and counts the current limit of the tick that has ended (R323, R327). -/
def patternTick (c : Ch) (s : State) : State :=
  let k := (s.chan c).spn
  let ta := match k.cut with
    | some t => min t k.pat.ta
    | none => k.pat.ta
  let act := k.cut.isSome
  let s := s.onSpn c (fun k => { k with
    past := { k.pat with ta }, past2 := k.past, pat := k.next, cut := none, ilimRun := if act then k.ilimRun + 1 else 0 })
  let s := s.putb (SPN_STAT_ILIM.at c) act
  let s := if act then s.bump (SPN_CNT_ILIM_ILIM_TICKS.at c) 1 else s
  let p := (s.chan c).spn.pat
  s.put (SPN_STAT_VECTOR.at c) (if p.off ∨ p.six then 0 else p.vec)

/-- The sample of the tick before, when its active vector reached cycle 960 (R326, R328). -/
def sampleOf (k : Spn) (code : Option Int) : Option Int :=
  if !k.past.off && decide (960 ≤ k.past.ta) && (k.past.six || decide (1 ≤ k.past.vec ∧ k.past.vec ≤ 6)) then code
  else none

/-- Does the observer run in a state (R331)? -/
def observing (st : Nat) : Bool := st == 3 || st == 4 || st == 8 || st == 9

/-- The observer in a tick (R328, R331). -/
def observerTick (c : Ch) (vm : Nat) (code : Option Int) (s : State) : State :=
  if observing (spnSt c s) then
    let k := (s.chan c).spn
    let short := spnSt c s == 9
    let active := !k.past.off && !k.past.six && decide (1 ≤ k.past.vec ∧ k.past.vec ≤ 6) && !short
    let u : Int × Int := if active then Config.cordicDir (turn60 (k.past.vec - 1)) else (0, 0)
    let meas := if short then none else (sampleOf k code).map (fun x =>
      let (ax, sg) := shuntAxis k.past.vec
      (sg * shuntCur c x s, turn60 ax))
    let th := k.theta
    let s := s.onSpn c (observe (spnCfg c s) (vm * 1000) u (if active then k.past.ta else 0) meas)
    let s := s.onSpn c (fun k => { k with travel := k.travel + wrapTurn ((k.theta : Int) - th) })
    let s := s.putb (SPN_STAT_PREDICT.at c) meas.isNone
    if meas.isNone then s.bump (SPN_CNT_PRED_PRED.at c) 1 else s
  else
    let k := (s.chan c).spn
    match spnSt c s, sampleOf k code with
    | 5, some x => s.onSpn c (fun k => { k with pairI := shuntCur c x s })
    | _, _ => s

/-- Is |psir| outside 0.75 to 1.25 of PSI_M (R351)? -/
def fluxLost (c : Ch) (s : State) : Bool :=
  let k := (s.chan c).spn
  let m := 4 * fluxMag k.psirX k.psirY
  let p : Int := s.get (SPN_IND_PSI_M.at c) * fluxUnit
  decide (m < 3 * p) || decide (5 * p < m)

/-- The loss criteria of a tick (R351). -/
def lossTick (c : Ch) (s : State) : State :=
  if spnSt c s = 4 ∨ spnSt c s = 8 then
    let f := fluxLost c s
    let i := decide (8 ≤ (s.chan c).spn.ilimRun)
    let s := if f then s.bump (SPN_CNT_LOSS_LOSS_FLUX.at c) 1 else s
    let s := if i then s.bump (SPN_CNT_LOSS_LOSS_ILIM.at c) 1 else s
    if f ∨ i then catchStart c s else s
  else s

/-- The end of a start attempt in a tick (R342, R343). -/
def startTick (c : Ch) (s : State) : State :=
  if spnSt c s = 3 then
    let k := (s.chan c).spn
    if 6 * k.travel < -(2 ^ 32) then attemptFail c s
    else if 2 ^ 32 ≤ k.travel ∧ speedAtLeast k.omega (polesOf c s) (s.get (SPN_RPM_HAND_RPM.at c)) then
      let s := s.put ((LOOP_OPEN_OPENVAL.at c).i 6) (s.get (SPN_START_START_T.at c))
      let s := closeLoop c 6 (openLoop c 6 s)
      let s := (s.put (SPN_STAT_ATTEMPT.at c) 0).bump (SPN_CNT_START_STARTS.at c) 1
      (setSpn c 4 s).raise ⟨.spn, c⟩ 1
    else s
  else s

/-- The step whose range holds an angle (R345). -/
def sixStepOf (theta : Nat) : Nat := (12 * theta + 5 * 2 ^ 32) % (12 * 2 ^ 32) / (2 * 2 ^ 32)

/-- Twice P from the last crossings, in cycles; from the speed where there are fewer than three (R347, log 153). -/
def crossPeriod2 (k : Spn) : Nat :=
  match k.cross with
  | a :: _ :: b :: _ => a.time - b.time
  | _ => if k.omega ≤ 0 then 0 else (2 ^ 32 * 2000 / (3 * k.omega.toNat))

/-- Hand-over to six-step when theta enters the range of a step (R344, R349); `th0` is theta before the tick. The first
step has the edges and the blanking of a commutation (log 152). -/
def sixTick (c : Ch) (th0 : Nat) (s : State) : State :=
  let k := (s.chan c).spn
  if spnSt c s = 4 ∧ s.getb (SPN_CTL_DRIVE.at c) ∧ 0 < k.omega
      ∧ speedAtLeast k.omega (polesOf c s) (s.get (SPN_SIX_SIX_MIN.at c)) ∧ sixStepOf k.theta ≠ sixStepOf th0 then
    setSpn c 5 (s.onSpn c (fun k => { k with
      sixP2 := crossPeriod2 k, commDue := none, commTick := s.now + 1, sixCross := none, raw := true
      next := { off := false, six := true, vec := sixStepOf k.theta } }))
  else s

/-- REGEN ends below REGEN_MIN; standstill in SHORT is counted (R355, R357). -/
def brakeTick (c : Ch) (s : State) : State :=
  let k := (s.chan c).spn
  match spnSt c s with
  | 8 => if speedAtLeast k.omega (polesOf c s) (s.get (SPN_BRAKE_REGEN_MIN.at c)) then s else shortStart c k.afterBrake s
  | 9 =>
    let low := decide (k.omega.natAbs * 24000000 < s.get (SPN_RPM_STILL_RPM.at c) * 2 ^ 32 * polesOf c s)
    s.onSpn c (fun k => { k with still := if low then k.still + 1 else 0 })
  | _ => s

/-- Keeps the sample at the end of each probe pulse (R341). -/
def probeTick (c : Ch) (code : Option Int) (s : State) : State :=
  if spnSt c s = 2 then
    let k := (s.chan c).spn
    let pt := probeTicks c s
    let j := s.now - (k.stateTick + 1)
    if 1 ≤ s.now - k.stateTick ∧ j % (pt + 40) = pt ∧ j / (pt + 40) < 6 then
      let v := if s.getb (SPN_STAT_ILIM.at c) then s.get (SPN_SHUNT_ILIM_HW.at c) * 1000
        else match code with
          | some x => (shuntCur c x s).natAbs
          | none => 0
      s.onSpn c (fun k => { k with probe := k.probe ++ [v] })
    else s
  else s

/-- A torque as a fraction of TMAX, Q1.15 (R367). -/
def torqueFrac (c : Ch) (t : Int) (s : State) : Int :=
  let tmax := s.get (SPN_TORQ_TMAX.at c)
  if tmax = 0 then sat16 (Config.noTmax t) else sat16 (rnd (t * 32768) (tmax * 1000))

/-- Shows the observer in its registers (R367). -/
def spnShow (c : Ch) (s : State) : State :=
  let k := (s.chan c).spn
  let s := s.puti (SPN_STAT_RPM.at c) (satW 16 (rpmOf k.omega (polesOf c s)))
  let s := (s.puti (SPN_TREF_TREF.at c) (torqueFrac c k.tref s)).puti (SPN_TREF_TORQUE.at c) (torqueFrac c k.torque s)
  let s := (s.puti (SPN_IAB_I_ALPHA.at c) (sat16 (rnd k.iX 1000))).puti (SPN_IAB_I_BETA.at c) (sat16 (rnd k.iY 1000))
  let s := s.put (SPN_FLUX_PSIR.at c) (min 65535 (rnd (fluxMag k.psirX k.psirY) 65536000).toNat)
  s.put (SPN_FLUX_THETA.at c) (k.theta / 65536)

/-- The spindle controller's work in a tick with VM in mV and the shunt code of the tick before (R17, R331–R336). -/
def spindleTick (c : Ch) (vm : Nat) (code : Option Int) (s : State) : State :=
  let s := patternTick c s
  let s := probeTick c code s
  let th0 := (s.chan c).spn.theta
  let s := observerTick c vm code s
  let s := startTick c s
  let s := lossTick c s
  let s := brakeTick c s
  let s := sixTick c th0 s
  spnShow c (selectNext c s)

/-- The spindle at the boundary after PWRFAIL_N is confirmed low (R325). -/
def spnPowerFail (c : Ch) (s : State) : State :=
  let st := spnSt c s
  if st = 0 ∨ st = 10 ∨ st = 12 then s
  else
    let h := (s.chan c).spn.held
    (coastNow c s).onSpn c (fun k => { k with held := h })

/-! ### Commands and events -/

/-- CURRENT_LIMIT (R327): the active vector of the present tick ends at once. -/
def execCurrentLimit (c : Ch) (cycle : Fin 2000) (s : State) : Out := gateEngine c s <|
  let k := (s.chan c).spn
  .next (if !k.pat.off && decide (cycle.val < k.pat.ta) && k.cut.isNone then
      s.onSpn c (fun k => { k with cut := some cycle.val })
    else s)

/-- The rotor angle an edge marks, in units of 60° (R338). -/
def edgeAngle (ph : Fin 3) (rising : Bool) : Nat :=
  match ph.val, rising with
  | 0, false => 0 | 2, true => 1 | 1, false => 2 | 0, true => 3 | 2, false => 4 | _, _ => 5

/-- Step between two crossing angles: +1, −1 or neither (R338). -/
def crossStep (a b : Nat) : Int := if (a + 1) % 6 = b % 6 then 1 else if (b + 1) % 6 = a % 6 then -1 else 0

/-- Are the crossings (newest first) consistent 60° steps in direction `d`? -/
def consistent (d : Int) : List Crossing → Bool
  | a :: b :: r => crossStep b.angle a.angle == d && consistent d (b :: r)
  | _ => true

/-- The crossing speed in 2⁻³² turn per tick (R339). -/
def crossSpeed (l : List Crossing) : Option Int :=
  if l.length < 7 then none
  else match l.head?, l.getLast? with
    | some a, some b =>
      if a.time ≤ b.time then none
      else if consistent 1 l then some (rnd (2 ^ 32 * 2000) (a.time - b.time))
      else if consistent (-1) l then some (-rnd (2 ^ 32 * 2000) (a.time - b.time))
      else none
    | _, _ => none

/-- Adds a crossing to a collection (newest first); a crossing out of step starts it again (R351 step 3). -/
def collectAdd (x : Crossing) (l : List Crossing) : List Crossing :=
  match l with
  | [] => [x]
  | [a] => if crossStep a.angle x.angle = 0 then [x] else [x, a]
  | a :: b :: r =>
    if crossStep a.angle x.angle ≠ 0 ∧ crossStep a.angle x.angle = crossStep b.angle a.angle then x :: a :: b :: r else [x]

/-- A crossing in the start watch or in a catch (R340, R351, R352). -/
def collectEdge (c : Ch) (x : Crossing) (s : State) : State :=
  let s := s.onSpn c (fun k => { k with collect := collectAdd x k.collect })
  match (s.chan c).spn.collect with
  | [z, y, a] =>
    let s := if spnSt c s = 1 then s.bump (SPN_CNT_CATCH_BUS_CATCH.at c) 1 else s
    catchSeed c a z (crossStep y.angle z.angle == 1) s
  | _ => s

/-- The speed criterion of R351 at a crossing. -/
def speedLost (c : Ch) (s : State) : Bool :=
  let k := (s.chan c).spn
  match crossSpeed k.cross with
  | none => false
  | some x =>
    speedAtLeast k.omega.natAbs (polesOf c s) (s.get (SPN_RPM_HAND_RPM.at c)) &&
      decide ((x.natAbs : Int) < 10 * (x - k.omega).natAbs ∨ sgn x ≠ sgn k.omega)

/-- round(I/√3), exactly. -/
def overRoot3 (i : Int) : Int := sgn i * (((isqrt (4 * i.natAbs * i.natAbs / 3) + 1) / 2 : Nat) : Int)

/-- The current vector of the conducting pair of a step (R349). -/
def pairVector (st : Nat) (i : Int) : Int × Int :=
  match st with
  | 0 => (i, -overRoot3 i) | 1 => (i, overRoot3 i) | 2 => (0, 2 * overRoot3 i)
  | 3 => (-i, overRoot3 i) | 4 => (-i, -overRoot3 i) | _ => (0, -2 * overRoot3 i)

/-- The hand-back to direct torque control at a floating-phase crossing at time `tc` (R349, R355). -/
def sixHandBack (c : Ch) (angle tc : Nat) (s : State) : State :=
  let k := (s.chan c).spn
  let om : Int := if k.sixP2 = 0 then Config.openQuot 5 tc else rnd (2 ^ 32 * 2000) (3 * k.sixP2)
  let adv : Int := rnd (om * (((s.now + 1) * 2000 - tc : Nat) : Int)) 2000
  let (ix, iy) := pairVector k.next.vec k.pairI
  let s := seedObs c ((turn60 angle + adv) % 2 ^ 32).toNat om ix iy s
  let s := s.onSpn c (fun k => { k with raw := false, commDue := none })
  if k.brakePend then shortStart c .idle s else selectNext c (setSpn c 4 s)

/-- The speed in six-step is below SIX_MIN (R344). -/
def sixSlow (c : Ch) (s : State) : Bool :=
  let p := (s.chan c).spn.sixP2
  decide (16000000000 < s.get (SPN_SIX_SIX_MIN.at c) * polesOf c s * p)

/-- ADV_DEG as it acts (R367). -/
def advDeg (c : Ch) (s : State) : Nat := min 29 (s.get (SPN_SIX_ADV_DEG.at c))

/-- A crossing in six-step: only the floating phase's, after the edge ramp and the blanking (R345, R347, R349). -/
def sixEdgeIn (c : Ch) (ph : Fin 3) (x : Crossing) (s : State) : State :=
  let k := (s.chan c).spn
  let st := k.next.vec
  let quiet := k.commTick + s.get (SPN_SIX_EDGE_TICKS.at c) + s.get (SPN_SIX_BLANK_TICKS.at c)
  if ph.val = (sixLegs st).2.2 ∧ x.angle = (st + 4) % 6 ∧ quiet ≤ x.time / 2000 ∧ k.commDue.isNone then
    let s := s.onSpn c (fun k => { k with cross := (x :: k.cross).take 7, lastCross := s.now, sixCross := some x.time })
    let s := s.onSpn c (fun k => { k with sixP2 := crossPeriod2 k })
    if ¬(s.getb (SPN_CTL_DRIVE.at c)) ∨ sixSlow c s ∨ k.brakePend then sixHandBack c x.angle x.time s
    else
      let due120 := 120 * x.time + (s.chan c).spn.sixP2 * (30 - advDeg c s)
      s.onSpn c (fun k => { k with commDue := some ((due120 + 239999) / 240000) })
  else s

/-- BEMF_EDGE (R338–R340, R347, R349, R351): it comes in the tick in which the crossing is an input, after its TICK. A speed
criterion met in the tick of a detection counts and starts no second catch (R351). -/
def execBemfEdge (c : Ch) (ph : Fin 3) (rising : Bool) (cycle : Int) (s : State) : Out := gateEngine c s <|
  let x : Crossing := ⟨((s.now * 2000 : Nat) + cycle).toNat, edgeAngle ph rising⟩
  let s := s.onAcc c (fun a => { a with edges := a.edges.set ph.val (some (rising, cycle)) })
  .next (if spnSt c s = 5 then sixEdgeIn c ph x s
    else
      let s := s.onSpn c (fun k => { k with cross := (x :: k.cross).take 7, lastCross := s.now })
      match spnSt c s with
      | 1 => collectEdge c x s
      | 7 =>
        if (s.chan c).spn.collecting then collectEdge c x s
        else if (s.chan c).spn.catchTick = s.now ∧ speedLost c s then s.bump (SPN_CNT_LOSS_LOSS_SPEED.at c) 1
        else s
      | 4 => if speedLost c s then catchStart c (s.bump (SPN_CNT_LOSS_LOSS_SPEED.at c) 1) else s
      | 8 => if speedLost c s then catchStart c (s.bump (SPN_CNT_LOSS_LOSS_SPEED.at c) 1) else s
      | _ => s)

/-- START_WATCH_TIMEOUT (R340): the probe begins. -/
def execStartWatchTimeout (c : Ch) (s : State) : Out := gateEngine c s <|
  .next (if spnSt c s = 1 ∧ (s.chan c).spn.lastCross + 800 ≤ s.now then
      setSpn c 2 (s.onSpn c (fun k => { k with probe := [], next := probePattern (probeTicks c s) 0 }))
    else s)

/-- The pulse with the largest current, the earlier on a tie (R341): its number, the largest and the smallest. -/
def probeBest : Nat → List Nat → Nat × Nat × Nat
  | _, [] => (0, 0, 0)
  | k, [x] => (k, x, x)
  | k, x :: l => let (b, mx, mn) := probeBest (k + 1) l; if mx ≤ x then (k, x, min x mn) else (b, mx, min x mn)

/-- PROBE_END (R341, R342). -/
def execProbeEnd (c : Ch) (s : State) : Out := gateEngine c s <|
  let k := (s.chan c).spn
  .next (if spnSt c s = 2 ∧ k.probe.length = 6 ∧ k.stateTick + 6 * (probeTicks c s + 40) ≤ s.now then
      let (b, mx, mn) := probeBest 0 k.probe
      if (mx - mn) * 256 < s.get (SPN_START_PROBE_MIN.at c) * mx then attemptFail c s
      else
        let v := [1, 4, 3, 6, 5, 2].getD b 1
        let s := speedHold c (seedObs c (turn60 (v - 1)) 0 0 0 s)
        selectNext c (setSpn c 3 (s.onSpn c (fun k => { k with raw := false })))
    else s)

/-- START_TIMEOUT (R340, R342, R343). -/
def execStartTimeout (c : Ch) (s : State) : Out := gateEngine c s <|
  let t := (s.chan c).spn.stateTick
  .next (match spnSt c s with
    | 1 => if t + max 1 (s.get (SPN_STIME_START_PAUSE.at c)) * 256 ≤ s.now then attemptFail c s else s
    | 3 => if t + max 1 (s.get (SPN_STIME_START_TIME.at c)) * 256 ≤ s.now then attemptFail c s else s
    | _ => s)

/-- START_PAUSE_END (R343). -/
def execStartPauseEnd (c : Ch) (s : State) : Out := gateEngine c s <|
  .next (if spnSt c s = 6 ∧ (s.chan c).spn.stateTick + max 1 (s.get (SPN_STIME_START_PAUSE.at c)) * 256 ≤ s.now then
      watchStart c (s.get (SPN_STAT_ATTEMPT.at c) + 1) s
    else s)

/-- SIX_STEP_COMMUTATION (R347): it comes before the TICK of its boundary. -/
def execSixStepCommutation (c : Ch) (s : State) : Out := gateEngine c s <|
  let k := (s.chan c).spn
  .next (match spnSt c s, k.commDue with
    | 5, some t =>
      if t ≤ s.now + 1 then
        selectSix c ((k.next.vec + 1) % 6) (s.onSpn c (fun k => { k with commDue := none, commTick := s.now + 1, sixCross := none }))
      else s
    | _, _ => s)

/-- COMMUTATION_LOST (R350). -/
def execCommutationLost (c : Ch) (s : State) : Out := gateEngine c s <|
  let k := (s.chan c).spn
  .next (if spnSt c s = 5 ∧ k.sixCross.isNone ∧ k.commTick * 2000 + k.sixP2 ≤ s.now * 2000 then
      catchStart c (s.bump (SPN_CNT_LOSS_LOSS_SIX.at c) 1)
    else s)

/-- CATCH_COAST_END (R351 step 2, R353). -/
def execCatchCoastEnd (c : Ch) (s : State) : Out := gateEngine c s <|
  let k := (s.chan c).spn
  .next (if spnSt c s = 7 ∧ ¬k.collecting ∧ k.catchTick + 81 ≤ s.now then
      if k.lasting then shortStart c .halt s
      else s.onSpn c (fun k => { k with collecting := true, collect := [] })
    else s)

/-- CATCH_TIMEOUT (R352). -/
def execCatchTimeout (c : Ch) (s : State) : Out := gateEngine c s <|
  let k := (s.chan c).spn
  .next (if spnSt c s = 7 ∧ k.catchTick + 20000 ≤ s.now then catchFails c s else s)

/-- π to 50 places (R356, log 23). -/
def piQ : Rat := 314159265358979323846264338327950288419716939937511 / 100000000000000000000000000000000000000000000000000

/-- Is the short-circuit current at an electrical speed of `f` turns per second at or below ILIM_HW (R356)? -/
def shortOk (c : Ch) (f : Rat) (s : State) : Bool :=
  let w : Rat := 2 * piQ * f
  let psi : Rat := s.get (SPN_IND_PSI_M.at c)
  let i : Rat := s.get (SPN_SHUNT_ILIM_HW.at c)
  let r : Rat := s.get (SPN_MOTOR_RES_MOHM.at c)
  let l : Rat := s.get (SPN_IND_IND.at c)
  decide (w * w * psi * psi ≤ i * i * (r * r + w * w * l * l / 100000000))

/-- SHORT_V0_START (R356). -/
def execShortV0Start (c : Ch) (s : State) : Out := gateEngine c s <|
  let k := (s.chan c).spn
  let est : Bool := match crossSpeed k.cross with
    | some x => shortOk c ((x.natAbs : Rat) * 400000 / 2 ^ 32) s
    | none => false
  .next (if spnSt c s = 9 ∧ ¬k.v0 ∧ (est ∨ max k.lastCross k.stateTick + 800 ≤ s.now) then
      selectNext c (s.onSpn c (fun k => { k with v0 := true, raw := false }))
    else s)

/-- SPINDLE_STOPPED (R352, R353, R357). -/
def execSpindleStopped (c : Ch) (s : State) : Out := gateEngine c s <|
  let k := (s.chan c).spn
  .next (if spnSt c s = 9 ∧ 40000 ≤ k.still then
      let s := ((setSpn c 0 s).put (SPN_STAT_ATTEMPT.at c) 0).raise ⟨.spn, c⟩ 6
      let s := s.onSpn c (fun k => { k with v0 := false, next := {}, raw := true, still := 0 })
      match k.afterBrake with
      | .idle => s
      | .restart => startNow c s
      | .halt => (setSpn c 12 s).raise ⟨.spn, c⟩ 7
    else s)

end Sys2Proof.Machine
end

