-- ==== Sys2Proof/Machine/VmBus.lean ====
section
/-! DEFINITION. The motor supply buses: brake chopper, Buffer stop and undervoltage stop (R354, R358–R364, R371). -/

namespace Sys2Proof.Machine

open Reg

/-- A field of bus `b`. -/
def vmF (f : Fld) (b : Two) : Fld := f.i b.val

/-- The VMB block. -/
def vmbBlk : Blk := ⟨.vmb, 0⟩

/-- The last tick sample of a bus, mV (R358). -/
def vmSample (b : Two) (s : State) : Nat := s.get (vmF VMB_STATx_VM b)

/-- Length of a run of samples. -/
def runLen (ok : Bool) (n : Nat) : Nat := if ok then n + 1 else 0

/-- The sample of a bus at cycle 0 of a tick (R358–R360, R363). -/
def busTick (b : Two) (mv : Nat) (s : State) : State :=
  let uv := s.get (vmF VMB_UVx_UV_MV b)
  let on := s.getb (vmF VMB_STATx_CHOP_ON b)
  let s := s.put (vmF VMB_STATx_VM b) (min mv 65535)
  s.onBus b (fun k => { k with
    onSamples := if on then k.onSamples + 1 else 0
    noFall := on && (if k.onSamples + 1 = 20 then decide (k.onVm < mv + 200) else k.noFall)
    lowRun := runLen (decide (mv ≤ 13800)) k.lowRun
    uvRun := runLen (decide (mv < uv)) k.uvRun
    okRun := runLen (decide (uv + 500 ≤ mv)) k.okRun })

/-- Applies a change to the three channels of a bus, but for a channel in REPLAY, whose spindle takes the state of the
bus from the recording (R365). -/
def onBusChans (b : Two) (f : Ch → State → State) (s : State) : State :=
  s.each (busChans b) (fun s c => if s.mode c = mREPLAY then s else f c s)

/-- A spindle enters BUS_STOP, its bridge all-off at once (R359) or from the next tick boundary (R358); a stop that finds it
there keeps its state. -/
def busStopSpindle (c : Ch) (atOnce : Bool) (s : State) : State :=
  let st := spnSt c s
  let s := s.onSpn c (fun k => { k with pat := { k.pat with off := k.pat.off || atOnce }, next := {} })
  let s := s.onDcm c (fun d => { d with calHits := d.calHits + 1, busTick := some (d.busTick.getD s.now) })
  if st = 11 then s else setSpn c 11 (s.onSpn c (fun k => { k with before := st }))

/-- A spindle when its bus is released (R354, R359, R363, R364). -/
def busFreeSpindle (c : Ch) (s : State) : State :=
  let s := s.onDcm c (fun d => { d with busTick := none })
  let s :=
    if spnSt c s ≠ 11 then s
    else match (s.chan c).spn.before with
      | 3 => catchCollect c ((s.bump (SPN_CNT_CATCH_BUS_CATCH.at c) 1).onSpn c (fun k => { k with contStart := true }))
      | 4 => catchCollect c (speedHold c (s.bump (SPN_CNT_CATCH_BUS_CATCH.at c) 1))
      | 5 => catchCollect c (speedHold c (s.bump (SPN_CNT_CATCH_BUS_CATCH.at c) 1))
      | 7 => catchCollect c s
      | 8 => shortStart c (s.chan c).spn.afterBrake s
      | 9 => shortStart c (s.chan c).spn.afterBrake s
      | 1 => setSpn c 1 (s.onSpn c (fun k => { k with collect := [], lastCross := s.now }))
      | 2 => setSpn c 2 (s.onSpn c (fun k => { k with probe := [], next := probePattern (probeTicks c s) 0 }))
      | n => setSpn c n s
  spnHeld c s

/-- CHOPPER_ON (R358, R361). -/
def execChopperOn (b : Two) (mv : Nat) (s : State) : Out := gate s <|
  .next (if 14500 ≤ mv ∧ ¬(s.getb (vmF VMB_STATx_CHOP_ON b)) ∧ ¬(s.getb (vmF VMB_STATx_CHOPPER_FAULT b)) then
      let s := (s.putb (vmF VMB_STATx_CHOP_ON b) true).bump (vmF VMB_CNTx_CHOP_ONS b) 1
      s.onBus b (fun k => { k with onSamples := 0, onVm := vmSample b s, noFall := false })
    else s)

/-- CHOPPER_OFF (R358). -/
def execChopperOff (b : Two) (mv : Nat) (s : State) : Out := gate s <|
  .next (if mv ≤ 13800 then
      (s.putb (vmF VMB_STATx_CHOP_ON b) false).onBus b (fun k => { k with onSamples := 0, noFall := false })
    else s)

/-- NEG_CLAMP on a spindle, and REGEN ends (R361). -/
def chopperClamp (c : Ch) (s : State) : State :=
  let s := s.putb (SPN_STAT_NEG_CLAMP.at c) true
  if spnSt c s = 8 then shortStart c (s.chan c).spn.afterBrake s else s

/-- CHOPPER_FAULT (R360, R361): no fall of the voltage, or no chopper current. -/
def execChopperFault (b : Two) (noCurrent : Bool) (s : State) : Out := gate s <|
  .next (if s.getb (vmF VMB_STATx_CHOP_ON b) && ((s.buses[b]).noFall || noCurrent) then
      let cause := if (s.buses[b]).noFall then 1 else 2
      let s := (s.putb (vmF VMB_STATx_CHOP_ON b) false).putb (vmF VMB_STATx_CHOPPER_FAULT b) true
      let s := (s.put (vmF VMB_STATx_FAULT_CAUSE b) cause).onBus b (fun k => { k with onSamples := 0, noFall := false })
      onBusChans b chopperClamp ((s.raise vmbBlk 2).fault 10 b.val vmbBlk)
    else s)

/-- Is a spindle of the bus in REGEN or SHORT (R362)? -/
def busBraking (b : Two) (s : State) : Bool := (busChans b).any (fun c => spnSt c s == 8 || spnSt c s == 9)

/-- The effect of CHOP_CLR (R362). -/
def chopClear (b : Two) (s : State) : State :=
  if busBraking b s then s
  else
    let s := (s.putb (vmF VMB_STATx_CHOPPER_FAULT b) false).put (vmF VMB_STATx_FAULT_CAUSE b) 0
    onBusChans b (fun c s => s.putb (SPN_STAT_NEG_CLAMP.at c) false) s

/-- The effect of a write of `v` to VMB_CTL of a bus (R362, R371). -/
def vmbCtlEffect (b : Two) (v : W32) (s : State) : State :=
  let s := if bitOf 1 v.toNat then chopClear b s else s
  if bitOf 0 v.toNat then s.put (VMB_CNTx.i b.val) 0 else s

/-- BUFFER_STOP (R22, R359). -/
def execBufferStop (b : Two) (mv : Nat) (s : State) : Out := gate s <|
  .next (if 16000 ≤ mv ∧ ¬(s.getb (vmF VMB_STATx_BUFFER_STOP b)) then
      let s := (s.putb (vmF VMB_STATx_BUFFER_STOP b) true).bump (vmF VMB_CNTx_STOPS b) 1
      let s := ((s.raise vmbBlk 1).fault 9 b.val vmbBlk).onBus b (fun k => { k with lowRun := 0 })
      onBusChans b (fun c s => busStopSpindle c true (stopTransfer c 8 s)) s
    else s)

/-- The spindles proceed once neither stop is in effect on the bus (R359, R363). -/
def busRelease (b : Two) (s : State) : State := if busStopped b s then s else onBusChans b busFreeSpindle s

/-- BUFFER_STOP_RELEASE (R359). -/
def execBufferStopRelease (b : Two) (s : State) : Out := gate s <|
  .next (if s.getb (vmF VMB_STATx_BUFFER_STOP b) && decide (40 ≤ (s.buses[b]).lowRun) then
      busRelease b (s.putb (vmF VMB_STATx_BUFFER_STOP b) false)
    else s)

/-- UNDERVOLT_STOP (R358, R363): transfer stops as a catch stops it. -/
def execUndervoltStop (b : Two) (s : State) : Out := gate s <|
  .next (if ¬(s.getb (vmF VMB_STATx_UNDER b)) ∧ 40 ≤ (s.buses[b]).uvRun then
      let s := (s.putb (vmF VMB_STATx_UNDER b) true).bump (vmF VMB_CNTx_UV b) 1
      let s := (s.raise vmbBlk 3).fault 11 b.val vmbBlk
      onBusChans b (fun c s => busStopSpindle c false (stopTransfer c 5 s)) s
    else s)

/-- UNDERVOLT_RELEASE (R363). -/
def execUndervoltRelease (b : Two) (s : State) : Out := gate s <|
  .next (if s.getb (vmF VMB_STATx_UNDER b) && decide (40 ≤ (s.buses[b]).okRun) then
      busRelease b (s.putb (vmF VMB_STATx_UNDER b) false)
    else s)

end Sys2Proof.Machine
end

