-- ==== Sys2Proof/Machine/Mode.lean ====
section
/-! DEFINITION. The mode sequencer of a drive channel (R372–R389): requests, transitions, errors, profiles, and the
answers to a power failure and to the loss of the timebase (R33, R222, R380, R744). -/

namespace Sys2Proof.Machine

open Reg

/-! ### Profiles (R384–R389) -/

/-- Speed of a zone in a profile, rpm (R384, R385). -/
def zoneRpm (c : Ch) (p z : Nat) (s : State) : Nat :=
  let f := if z % 2 = 0 then DCM_RPMp_k_RPM_LO else DCM_RPMp_k_RPM_HI
  min 7200 (s.get ((f.at c).ij p (z / 2)))

/-- The profile whose speeds and fields are in use: MARGIN while the ladder holds it, else the effective one (R388). -/
def profInUse (c : Ch) (s : State) : Nat := if s.getb (DCM_STAT_LADDER_MARGIN.at c) then 3 else s.profile c

/-- The profile R389 asks for; R387 holds a change to MARGIN back while MODE_REQ is WRITE. -/
def wantProfile (c : Ch) (s : State) : Nat :=
  let req := s.get (DCM_CTL_PROFILE_REQ.at c)
  let allow := s.get (DCM_ALLOW.at c)
  let p := if 2 ≤ req ∨ bitOf req allow then req else if bitOf 1 allow then 1 else 2
  if p = 3 ∧ s.get (DCM_CTL_MODE_REQ.at c) = mWRITE then s.profile c else p

/-- Notes that the effective profile has to change (R387). -/
def profileCheck (c : Ch) (s : State) : State :=
  let diff := wantProfile c s != s.profile c
  s.onDcm c (fun d => { d with profPend := d.profPend || diff })

/-- Writes the fields a profile sets, from DCM_CFG (R386). -/
def profileFields (c : Ch) (p : Nat) (s : State) : State :=
  let g := fun (f : Fld) => s.get ((f.at c).i p)
  let o := dcmOrigin c
  let s := s.stageSeq c (SPN_CTL_DRIVE.at c) (g DCM_CFGp_SIX) o
  let s := s.each (List.range 10) (fun s k => s.stageSeq c ((RDC_EQ_CTL_SPAN.at c).i k) (g DCM_CFGp_SPAN) o)
  let it := g DCM_CFGp_RETRY_LDPC * 2 ^ 12 + g DCM_CFGp_RETRY_GLOBAL * 2 ^ 8 + g DCM_CFGp_INLINE_LDPC * 2 ^ 4 +
    g DCM_CFGp_INLINE_GLOBAL
  let s := s.stageSeq c (DET_ITER.at c) it o
  s.stageSeq c (DET_LADDER_MAX_RUNG.at c) (g DCM_CFGp_MAX_RUNG) o

/-- Zone of DCM_TGT. -/
def targetZone (c : Ch) (s : State) : Nat := zoneOfBand (s.get (DCM_TGT_LAYER.at c)) (s.get (DCM_TGT_BAND.at c))

/-- The speed the mode demands (R375): the target zone's, in SPIN_UP and ACQUIRE that of Z0. -/
def demandSpeed (c : Ch) (s : State) : State :=
  let m := s.mode c
  let z := if m = mSPINUP ∨ m = mACQUIRE then 0 else targetZone c s
  let n := zoneRpm c (profInUse c s) z s
  s.onDcm c (fun d => { d with rpmSet := n })

/-- Puts the profile in use into effect; a working mode then passes through SEEK (R387). -/
def profileEffect (c : Ch) (s : State) : State :=
  let s := profileFields c (profInUse c s) s
  if isWorking (s.mode c) then s.onDcm c (fun d => { d with seekNeeded := true })
  else if s.mode c = mSPINUP ∨ s.mode c = mACQUIRE ∨ s.mode c = mSEEK then demandSpeed c s
  else s

/-- Is a tile slot under the pickup being written or read? -/
def slotUnder (c : Ch) (s : State) : Bool :=
  (s.chan c).wrc.writing.isSome ||
    ((s.chan c).rdc.tile.toList ++ (s.chan c).rdc.prev.toList).any (fun t => t.arm || t.reading)

/-- PROFILE_APPLY (R387): at the end of the tile slot under the pickup, or at once where none is. -/
def execProfileApply (c : Ch) (s : State) : Out := gate s <|
  .next (if (s.chan c).dcm.profPend ∧ ¬slotUnder c s then
      let s := s.put (DCM_STAT_PROFILE.at c) (wantProfile c s)
      profileEffect c (s.onDcm c (fun d => { d with profPend := false }))
    else s)

/-- Rung 4 of the ladder takes the channel to MARGIN (R176, R388). -/
def ladderMargin (c : Ch) (s : State) : State :=
  let s := s.onDcm c (fun d => { d with atRung4 := d.atRung4 + 1 })
  if s.profile c = 3 ∨ s.getb (DCM_STAT_LADDER_MARGIN.at c) then s
  else profileEffect c ((s.putb (DCM_STAT_LADDER_MARGIN.at c) true).bump (DCM_CNT2_MARGIN_ENTRIES.at c) 1)

/-- A tile that entered rung 4 has ended its ladder (R388). -/
def ladderMarginEnd (c : Ch) (s : State) : State :=
  let s := s.onDcm c (fun d => { d with atRung4 := d.atRung4 - 1 })
  if (s.chan c).dcm.atRung4 = 0 ∧ s.getb (DCM_STAT_LADDER_MARGIN.at c) then
    profileEffect c (s.putb (DCM_STAT_LADDER_MARGIN.at c) false)
  else s

/-- The effect of a write of DCM_ALLOW that found the wanted profile `before` and the bits `old` (R389). -/
def allowEffect (c : Ch) (before old : Nat) (s : State) : State :=
  let now := wantProfile c s
  let s := profileCheck c s
  if now = before then s
  else
    let s := s.raise ⟨.dcm, c⟩ 4
    if old % 4 &&& (3 - s.get (DCM_ALLOW.at c) % 4) ≠ 0 then s.bump (DCM_CNT_WITHDRAWALS.at c) 1 else s

/-- The effect of a changed DCM_RPM or DCM_CFG value of profile `p` (R393). -/
def profileValueEffect (c : Ch) (p : Nat) (s : State) : State :=
  if p = s.profile c then s.onDcm c (fun d => { d with profPend := true }) else s

/-! ### Errors (R378) -/

/-- DCM_ERR records the cause and the mode in which the error arose. -/
def noteErr (c : Ch) (cause : Nat) (s : State) : State :=
  (s.put (DCM_ERR_CAUSE.at c) cause).put (DCM_ERR_MODE.at c) (s.mode c)

/-- Raises MODE_FAIL with a cause. -/
def modeFail (c : Ch) (cause : Nat) (s : State) : State :=
  ((noteErr c cause s).bump (DCM_CNT_MODE_FAILS.at c) 1).raise ⟨.dcm, c⟩ 2

/-- Sets MODE_REQ and HEADING. The sequencer writes MODE_REQ as origin (R69). -/
def headTo (c : Ch) (m : Nat) (s : State) : State :=
  (s.seqPut (dcmOrigin c) (DCM_CTL_MODE_REQ.at c) m).put (DCM_STAT_HEADING.at c) m

/-- A fall-back: MODE_REQ becomes the destination and MODE_FAIL is raised (R378). A channel in OFF stays there
(log 29). -/
def fallback (c : Ch) (cause : Nat) (toOff : Bool) (s : State) : State :=
  let dest := if toOff ∨ s.mode c = mOFF then mOFF else mPARKED
  let s := headTo c dest (modeFail c cause s)
  s.onDcm c (fun d => { d with falling := some (cause, toOff), falls := d.falls + 1 })

/-- A stop: a fall-back that also sets STOPPED and raises CH_STOP (R378); `cls` is the fault class behind it. -/
def stopChan (c : Ch) (cause : Nat) (toOff : Bool) (cls : Option (Nat × Nat)) (s : State) : State :=
  let s := fallback c cause toOff s
  let s := ((s.putb (DCM_STAT_STOPPED.at c) true).bump (DCM_CNT_STOPS.at c) 1).raise ⟨.dcm, c⟩ 3
  s.onDcm c (fun d => { d with stopClass := cls, stopCause := cause })

/-- Cause 15: WRITE_BLOCK is set and the channel goes to IDLE_TRACK (R378). -/
def blockWrite (c : Ch) (s : State) : State :=
  let s := (noteErr c 15 s).putb (DCM_STAT_WRITE_BLOCK.at c) true
  if s.get (DCM_CTL_MODE_REQ.at c) = mWRITE then headTo c mIDLE s else s

/-! ### Entering a mode (R372, R375) -/

/-- MODE takes a value; MODE_DONE when it reaches HEADING (R373). -/
def setMode (c : Ch) (m : Nat) (s : State) : State :=
  let s := (s.put (DCM_STAT_MODE.at c) m).onDcm c (fun d => { d with modeTick := s.now })
  if s.get (DCM_STAT_HEADING.at c) = m then s.raise ⟨.dcm, c⟩ 1 else s

/-- Powers the front ends of the ten signals up or down (log 30: the sequencer's own action, not staged). -/
def frontEnds (c : Ch) (on : Bool) (s : State) : State :=
  s.each (List.range 10) (fun s k => s.seqPut (dcmOrigin c) ((RDC_AFE_INPUT_EN.at c).i k) (b2n on))

/-- The read laser level (R212). -/
def readLevel (c : Ch) (s : State) : Nat :=
  (rnd ((s.get (WRC_RLASER_RREAD_BASE.at c) * s.get (WRC_SCALE_RSCALE.at c) : Nat) : Int) 16384).toNat

/-- OFF to PARKED: front ends powered, ENABLE 0, each axis homed unless HOMED. -/
def parkFromOff (c : Ch) (s : State) : State :=
  let s := driverDue c 1 0 (frontEnds c true s)
  let s := s.each [(0 : Two), 1] (fun s x => if s.getb (axF AX_STAT_HOMED c x) then s else homeStart c x s)
  setMode c mPARKED s

/-- The axes of a channel that enters OFF: at rest, HOMED cleared (R290). -/
def axesOff (c : Ch) (s : State) : State :=
  s.each [(0 : Two), 1] (fun s x =>
    let s := (s.onAxis c x (fun a => { a with
      queue := [], runs := [], modePend := none, aborting := false, homeStop := false, vel := 0, acc := 0 })).putb
      (axF AX_STAT_HOMED c x) false
    (s.put (axF AX_STAT_MODE_NOW c x) 0).put (axF AX_STAT_HOME_PHASE c x) 0)

/-- Entry into OFF: axis DAC codes 0, HOMED cleared, front ends powered down. -/
def offEnter (c : Ch) (s : State) : State :=
  let s := s.each [(0 : Two), 1] (fun s x => s.onAxis c x (fun a => { a with dacA := 0, dacB := 0 }))
  let s := axesOff c s
  let s := frontEnds c false (driverDue c 1 0 s)
  let s := s.onWrc c (fun w => { w with emittersOff := true })
  setMode c mOFF (s.onDcm c (fun d => { d with falling := none }))

/-- PARKED to SPIN_UP: read laser on at its level, CK running, start command, ωset of Z0. -/
def spinUpEnter (c : Ch) (s : State) : State :=
  let lvl := readLevel c s
  let s := driverDue c 2 lvl (driverDue c 1 1 s)
  let s := s.onWrc c (fun w => { w with emittersOff := false, lanesRead := true, rlevel := lvl })
  let s := s.onDcm c (fun d => { d with
    runTick := none, acqTries := 0, retried := false, eqLZ := none, seekNeeded := false, falling := none })
  let s := s.onSrv c (fun v => { v with addr := none, addrValid := false, wedgeKnown := false })
  spnCommand c 1 (demandSpeed c (setMode c mSPINUP s))

/-- The axes follow their loops from ACQUIRE on (R372). -/
def axesFollow (c : Ch) (s : State) : State := axSetMode c 1 2 (axSetMode c 0 2 s)

/-- SPIN_UP to ACQUIRE. -/
def acquireEnter (c : Ch) (s : State) : State :=
  let s := setMode c mACQUIRE (axesFollow c s)
  let s := s.onDcm c (fun d => { d with acqTries := 1, acqWait := false })
  acquireStart c (s.onSrv c (fun v => { v with expLayer := s.get (DCM_TGT_LAYER.at c) }))

/-- FOCUS and TRACK open, their open values running to 0 along the jump profile (R277, R375). -/
def openToZero (c : Ch) (s : State) : State :=
  openMove c 1 false 0 (openMove c 0 false 0 s)

/-- A working mode or SEEK back to ACQUIRE (R378 causes 6 and 7); the sweep begins once the open values are 0. -/
def acquireAgain (c : Ch) (s : State) : State :=
  let s := openToZero c (stopTransfer c 3 s)
  let s := (s.put (SRV_STAT_RECOVERY.at c) 0).put (SRV_STAT_ATTEMPT.at c) 0
  let s := (s.put (MOT_SEEK_KIND.at c) 0).onSrv c (fun v => { v with
    step := .idle, jumpTo := none, oneBeam := none, recFailed := false, acqFailed := false })
  let s := s.onMot c (fun m => { m with fine := none, jumpTarget := none, profEnd := none })
  let s := setMode c mACQUIRE (axesFollow c (axFlush c 0 s))
  demandSpeed c (s.onDcm c (fun d => { d with acqTries := 1, acqWait := true, retried := true }))

/-- Entry into SEEK: transfer stops, ωset of the target zone (R375). -/
def seekEnter (c : Ch) (s : State) : State :=
  let s := setMode c mSEEK (stopTransfer c 5 s)
  demandSpeed c ((s.onDcm c (fun d => { d with seekNeeded := false })).onSrv c (fun v => { v with step := .idle }))

/-- Restarts the ten equalisers of a channel at its next wedge boundary (R132). -/
def restartAll (c : Ch) (s : State) : State :=
  s.each (List.range 10) (fun s k => s.stageSeq c ((RDC_EQ_CTL_RESTART.at c).i k) 1 (dcmOrigin c))

/-- Are no restarts of equalisers under way? -/
def restartsDone (c : Ch) (s : State) : Bool :=
  let k := s.chan c
  k.rdc.restart.isEmpty && !(k.stage ++ k.rdc.pend).any (fun w => (List.range 10).any (fun g => w.addr == ((RDC_EQ_CTL_RESTART.at c).i g).base))

/-- Entry into BRAKE (R375). A sled that is not HOMED accepts no move (R290) and comes to rest where it is; log 132. -/
def brakeEnter (c : Ch) (s : State) : State :=
  let s := openToZero c (stopTransfer c 5 s)
  let s := s.each [(2 : Fin 7), 3, 4] (fun s l => holdCmd c l s)
  let s := (s.put (SRV_STAT_RECOVERY.at c) 0).put (SRV_STAT_ATTEMPT.at c) 0
  let s := (s.put (MOT_SEEK_KIND.at c) 0).onSrv c (fun v => { v with
    step := .idle, jumpTo := none, oneBeam := none, recFailed := false, acqFailed := false })
  let s := s.onMot c (fun m => { m with fine := none, jumpTarget := none, profEnd := none })
  let s := driverDue c 1 0 s
  let home := s.geti (axF AX_HOMEPOS_HOME_POS c 0)
  let s := axFlush c 0 s
  let s := if s.getb (axF AX_STAT_HOMED c 0) then
      (s.onAxis c 0 (fun a => { a with queue := [{ target := home, set := 1, noblend := true }] })).put
        (axF AX_STAT_MODE_NOW c 0) 1
    else s
  spnCommand c 2 (setMode c mBRAKE (s.onDcm c (fun d => { d with acqWait := false })))

/-- BRAKE to PARKED: ENABLE 0, CK stopped. -/
def parkFromBrake (c : Ch) (s : State) : State :=
  let s := driverDue c 1 0 s
  let s := s.onWrc c (fun w => { w with emittersOff := true, bankOk := false, shapeOf := none })
  let s := (s.putb (DCM_STAT_TRANSFER_WAIT.at c) false).onDcm c (fun d => { d with falling := none, busTick := none })
  setMode c mPARKED (axSetMode c 1 0 (axSetMode c 0 0 s))

/-- The pulse-shape table of the layer and zone under the spots is loaded before a write is armed (R207). -/
def loadShape (c : Ch) (s : State) : State :=
  let here := (s.get (DCM_STAT_LAYER.at c), s.get (DCM_STAT_ZONE.at c))
  if (s.chan c).wrc.shapeOf = some here then s
  else
    let s := s.each (List.range 32) (fun s k =>
      let v := s.get ((WRC_SHAPE_SHAPE.at c).i k)
      driverDue c (0x41 + 2 * k) (v / 65536) (driverDue c (0x40 + 2 * k) (v % 65536) s))
    s.onWrc c (fun w => { w with shapeOf := some here })

/-- Level `k` of the 24 in the order PEAK, BIAS, READ that the next tile is to have (R210). A level above 16 bits is a
free value (log 34). -/
def levelOf (c : Ch) (k : Nat) (s : State) : Nat :=
  let b := k % 8
  let f := fun (x : Fld) => s.get ((x.at c).i b)
  let n := fun (base : Nat) => (rnd ((base * s.get (WRC_SCALE_WSCALE.at c) : Nat) *
    (256 + s.geti ((WRC_BSTAT_RPC_OFS.at c).i b))) (256 * 16384)).toNat
  let v := if k < 8 then n (f WRC_LEVEL_PEAK_BASE) else if k < 16 then n (f WRC_LEVEL_BIAS_BASE)
    else f WRC_READLVL_READ_BASE
  if v < 65536 then v else Config.levelOver v % 65536

/-- Queues the frames of the inactive bank's levels that are not yet as intended and checked (R208, R209). -/
def levelFrames (c : Ch) (s : State) : State :=
  s.each (List.range 24) (fun s k =>
    let w := (s.chan c).wrc
    let v := levelOf c k s
    let f : DrvFrame := { write := true, addr := 0x10 + k, data := v }
    if (w.checked.getD k false && w.inactive.getD k 0 == v) || w.due.any (fun d => d.addr == f.addr && d.data == v)
      || w.prevFrame.any (fun d => d.addr == f.addr && d.data == v) then s
    else s.onWrc c (fun w => { w with due := w.due ++ [f] }))

/-- Entry into a working mode; WRITE and CALIBRATE also power the write emitters (log 31) and prepare the driver. -/
def workEnter (c : Ch) (m : Nat) (s : State) : State :=
  let s := if m = mWRITE ∨ m = mCAL then levelFrames c (loadShape c (driverDue c 1 3 s)) else s
  setMode c m (s.onDcm c (fun d => { d with retried := false }))

/-! ### Transitions (R375–R377) -/

/-- Is an axis homing? -/
def homing (c : Ch) (s : State) : Bool := axMode c 0 s == 3 || axMode c 1 s == 3

/-- Is a request of PARKED or OFF pending (R376, R377)? -/
def leaving (c : Ch) (s : State) : Bool := decide (s.get (DCM_CTL_MODE_REQ.at c) ≤ 1)

/-- Are the spots on the target, layer and band (R375)? -/
def onTarget (c : Ch) (s : State) : Bool :=
  (s.chan c).srv.addrValid && s.get (DCM_STAT_LAYER.at c) == s.get (DCM_TGT_LAYER.at c) &&
    (s.chan c).dcm.band == s.get (DCM_TGT_BAND.at c)

/-- Nothing of the servo engine's sequences runs and TRACK is locked. -/
def tracking (c : Ch) (s : State) : Bool :=
  let v := (s.chan c).srv
  (v.step == .idle || v.step == .settled) && s.getb (SRV_STAT_TRACK_LOCK.at c) && s.get (MOT_SEEK_KIND.at c) == 0 &&
    s.get (SRV_STAT_RECOVERY.at c) == 0

/-- Radial servo tracks from the spots to a band of a layer. -/
def seekDistance (c : Ch) (layer band : Nat) (s : State) : Int :=
  (radialOf layer band : Int) - ((s.chan c).srv.expTrack : Int)

/-- The answer to a failed servo recovery or seek (R378 causes 6 and 7). -/
def servoFailed (c : Ch) (cause : Nat) (s : State) : State :=
  if (s.chan c).dcm.retried then fallback c cause false (s.onSrv c (fun v => { v with recFailed := false }))
  else acquireAgain c (noteErr c cause s)

/-- ACQUIRE has failed once more (R378 cause 5). -/
def acquireFailed (c : Ch) (s : State) : State :=
  let n := (s.chan c).dcm.acqTries
  let s := s.onSrv c (fun v => { v with acqFailed := false, recFailed := false, step := .idle })
  if n < max 1 (s.get (DCM_CTL_ACQ_TRIES.at c)) then
    (openToZero c s).onDcm c (fun d => { d with acqTries := n + 1, acqWait := true })
  else fallback c 5 false s

/-- The work of ACQUIRE that the sequencer judges. -/
def acquireJudge (c : Ch) (s : State) : State :=
  let v := (s.chan c).srv
  let ended := fun (l : Fin 7) => match v.loops[l].openRun with
    | some r => r.ended s.now
    | none => true
  if (s.chan c).dcm.acqWait then
    (if ended 0 && ended 1 then
      acquireStart c ((s.onDcm c (fun d => { d with acqWait := false })).onSrv c (fun v =>
        { v with expLayer := s.get (DCM_TGT_LAYER.at c) }))
    else s)
  else if v.acqFailed || v.recFailed then acquireFailed c s
  else if v.step == .settled && v.addrValid && s.getb (SRV_STAT_TRACK_LOCK.at c) then seekEnter c s
  else s

/-- The resident firmware loads the stored START taps and lead and trail tables of a layer and zone into every data signal
and emitter (R133, R668). -/
def loadTables (c : Ch) (key : Nat) (s : State) : State :=
  match s.cal.chans[c].tables.find? (fun p => p.1 == key) with
  | none => s
  | some (_, ws) =>
    let s := s.expert (.core 0) ⟨.rdc, c⟩ (fun s => s.each (List.range 8) (fun s g => s.each (List.range 15) (fun s k =>
      s.stageSeq c ((RDC_EQ_TAP_START.at c).ij g k) (ws.getD k 0) (.core 0))))
    s.expert (.core 0) ⟨.wrc, c⟩ (fun s => s.each (List.range 8) (fun s b =>
      s.each ([WRC_LEAD_LO, WRC_LEAD_HI, WRC_TRAIL_LO, WRC_TRAIL_HI].zipIdx) (fun s p =>
        s.stageSeq c ((p.1.at c).i b) (ws.getD (15 + p.2) 0) (.core 0))))

/-- Is a trim run in progress on a channel (R659)? -/
def trimRun (c : Ch) (s : State) : Bool :=
  s.cal.runs.any (fun r => r.begun && r.chan == c.val && decide (r.measure < 0x10))

/-- The work of SEEK: a layer jump if needed, the seek, the equalisers, and the end (R133, R375). Spots one band before the
target reach it along the spiral, with no sled movement. -/
def seekJudge (c : Ch) (s : State) : State :=
  let lay := s.get (DCM_TGT_LAYER.at c)
  if !tracking c s then s
  else if s.get (DCM_STAT_LAYER.at c) ≠ lay then jumpStart c lay s
  else if !(s.chan c).srv.addrValid then s
  else if (s.chan c).dcm.band + 1 = s.get (DCM_TGT_BAND.at c) then s
  else if !onTarget c s then seekStart c (seekDistance c lay (s.get (DCM_TGT_BAND.at c)) s) s
  else
    let here := (lay, targetZone c s)
    if (s.chan c).dcm.eqLZ ≠ some here then
      let s := loadTables c (8 * here.1 + here.2) s
      restartAll c (s.onDcm c (fun d => { d with eqLZ := some here }))
    else if s.getb (SRV_STAT_SPEED_OK.at c) ∧ restartsDone c s then
      workEnter c (s.get (DCM_CTL_MODE_REQ.at c)) s
    else s

/-- Is a seek due in a working mode: another band, a change of layer or zone, or of the spindle speed (R375, R387)? -/
def seekDue (c : Ch) (s : State) : Bool :=
  let d := (s.chan c).dcm
  let tb := s.get (DCM_TGT_BAND.at c)
  d.seekNeeded || s.get (DCM_STAT_LAYER.at c) != s.get (DCM_TGT_LAYER.at c) ||
    !(d.band == tb || d.band + 1 == tb || d.band == tb + 1) ||
    d.eqLZ != some (s.get (DCM_TGT_LAYER.at c), targetZone c s) || zoneRpm c (profInUse c s) (targetZone c s) s != d.rpmSet

/-- The one-band jump back of R314 and R375: a short seek against the recording direction. -/
def jumpBack (c : Ch) (s : State) : State :=
  seekStart c (if s.get (DCM_STAT_LAYER.at c) % 2 = 0 then -1 else 1) s

/-- The work of a working mode that the sequencer judges. -/
def workJudge (c : Ch) (s : State) : State :=
  let req := s.get (DCM_CTL_MODE_REQ.at c)
  if (s.chan c).srv.recFailed then servoFailed c 6 s
  else if slotUnder c s then s
  else if seekDue c s then (if s.get (SRV_STAT_RECOVERY.at c) = 0 ∧ s.get (MOT_SEEK_KIND.at c) = 0 then seekEnter c s else s)
  else if req ≠ s.mode c then workEnter c req s
  else if (s.chan c).dcm.band = s.get (DCM_TGT_BAND.at c) + 1 ∧ tracking c s then jumpBack c s
  else s

/-- The transition whose trigger holds, if any (R375). -/
def transition (c : Ch) (s : State) : State :=
  let req := s.get (DCM_CTL_MODE_REQ.at c)
  match s.mode c with
  | 0 => if req ≠ mOFF ∧ ¬s.tb.lost then parkFromOff c s else s
  | 1 =>
    if (homing c s ∧ (s.chan c).dcm.falling.map (·.1) ≠ some 2) ∨ trimRun c s then s
    else if req = mOFF then offEnter c s
    else if req = mREPLAY then setMode c mREPLAY (replayEnter c s)
    else if isWorking req then spinUpEnter c s
    else s
  | 2 =>
    if leaving c s then brakeEnter c s
    else if (spnSt c s = 4 ∨ spnSt c s = 5) ∧ s.getb (SRV_STAT_SPEED_OK.at c) then acquireEnter c s
    else s
  | 3 => if leaving c s then brakeEnter c s else acquireJudge c s
  | 5 =>
    if leaving c s then brakeEnter c s
    else if (s.chan c).srv.recFailed then servoFailed c 6 s
    else seekJudge c s
  | 10 =>
    let a := s.axis c 0
    if (spnSt c s = 0 ∨ spnSt c s = 12) ∧ a.vel = 0 ∧ a.runs = [] ∧ a.queue = []
        ∧ (¬s.getb (axF AX_STAT_HOMED c 0) ∨ stepOf a.p = s.geti (axF AX_HOMEPOS_HOME_POS c 0)) then parkFromBrake c s
    else s
  | 11 => if req ≠ mREPLAY then setMode c mPARKED (replayLeave c s) else s
  | _ =>
    if leaving c s then (if (s.chan c).wrc.writing.isSome then s else brakeEnter c s) else workJudge c s

/-- MODE_TRANSITION (R375); it waits while the cores do not run (R40) and while a power failure lasts (R380). -/
def execModeTransition (c : Ch) (s : State) : Out := gate s <|
  .next (if coresRun s ∧ ¬(s.chan c).dcm.powerWait then transition c s else s)

/-! ### Requests (R373, R374, R379) -/

/-- Does the sequencer refuse a requested mode (R374, R379)? -/
def requestRefused (c : Ch) (req : Nat) (loaded : Bool) (s : State) : Bool :=
  decide (12 ≤ req) || req == 2 || req == 3 || req == 5 || req == 10 ||
    (isWorking req && (!loaded || s.getb (DCM_STAT_STOPPED.at c))) ||
    (req == mWRITE && (s.getb (DCM_STAT_WRITE_BLOCK.at c) || s.profile c == 3)) ||
    (req == mREPLAY && (s.mode c != mPARKED || s.getb (DCM_STAT_STOPPED.at c) || !s.getb TMB_REPLAY_READY ||
      s.get TMB_REPLAY_CHANNEL % 6 != c.val))

/-- Is the class behind a stop cleared (R379, R693)? -/
def stopCleared (c : Ch) (s : State) : Bool :=
  let d := (s.chan c).dcm
  d.stopCause != 10 && (match d.stopClass with
    | none => true
    | some (k, i) => !s.hlt.classes.any (fun e => e.cls == k && e.inst == i && e.lasting))

/-- STOP_CLR (R379): a spindle in HALTED then takes a coast command. -/
def stopClrEffect (c : Ch) (s : State) : State :=
  if s.getb (DCM_STAT_STOPPED.at c) ∧ stopCleared c s then
    let s := (s.putb (DCM_STAT_STOPPED.at c) false).onDcm c (fun d => { d with stopClass := none, stopCause := 0 })
    if spnSt c s = 12 then spnCommand c 3 s else s
  else s

/-- The effect of a write of `v` to DCM_CTL whose register held `old` (R373, R374, R379, R387, R391). -/
def dcmCtlEffect (c : Ch) (old v : W32) (s : State) : State :=
  let loaded := bitOf 4 v.toNat
  let s := s.putb (DCM_STAT_DISC_LOADED.at c) loaded
  let s := if bitOf 30 v.toNat then
      s.clearAll [DCM_CNT.at c, DCM_CNT2.at c] else s
  let s := if bitOf 31 v.toNat then stopClrEffect c s else s
  let was := bitsOf 3 0 old.toNat
  let req := bitsOf 3 0 v.toNat
  let s :=
    if req = was then s
    else if requestRefused c req loaded s then modeFail c 1 (s.put (DCM_CTL_MODE_REQ.at c) was)
    else (s.put (DCM_STAT_HEADING.at c) req).onDcm c (fun d => { d with falling := none })
  profileCheck c s

/-- A refused write of DCM_TGT (R374). -/
def tgtRefused (v : W32) : Bool := decide (18879 < bitsOf 19 4 v.toNat)

/-! ### Timeouts (R378) -/

/-- A time field in units of `unit` ticks; 0 acts as 1. -/
def timeField (f : Fld) (unit : Nat) (s : State) : Nat := max 1 (s.get f) * unit

/-- SPINUP_TIMEOUT (cause 3). -/
def execSpinupTimeout (c : Ch) (s : State) : Out := gate s <|
  .next (match (s.chan c).dcm.runTick with
    | some t =>
      if s.mode c = mSPINUP ∧ t + timeField (DCM_TIME_SPINUP_TIME.at c) 40000 s < s.now ∧ ¬leaving c s then
        fallback c 3 false s else s
    | none => s)

/-- SEEK_TIMEOUT (cause 7). -/
def execSeekTimeout (c : Ch) (s : State) : Out := gate s <|
  .next (if s.mode c = mSEEK ∧ (s.chan c).dcm.modeTick + timeField (DCM_TIME_SEEK_TIME.at c) 4000 s < s.now
      ∧ ¬leaving c s then servoFailed c 7 s else s)

/-- BRAKE_TIMEOUT (cause 12): the spindle is given a coast command and the channel is in PARKED (log 25). -/
def execBrakeTimeout (c : Ch) (s : State) : Out := gate s <|
  .next (if s.mode c = mBRAKE ∧ (s.chan c).dcm.modeTick + timeField (DCM_TIME_BRAKE_TIME.at c) 40000 s < s.now then
      parkFromBrake c (axFlush c 0 (spnCommand c 3 (stopChan c 12 false none s)))
    else s)

/-- BUS_WAIT_TIMEOUT (cause 11), in any spinning mode. -/
def execBusWaitTimeout (c : Ch) (s : State) : Out := gate s <|
  .next (match (s.chan c).dcm.busTick with
    | some t =>
      if 2 ≤ s.mode c ∧ s.mode c ≤ 10 ∧ t + timeField (DCM_TIME_BUS_WAIT.at c) 4000 s < s.now then
        fallback c 11 false (s.onDcm c (fun d => { d with busTick := none })) else s
    | none => s)

/-- May transfer go on (R276, R378)? TRACK is locked and no recovery runs; or SB is lost, TRACK is CLOSED, and reading
continues. -/
def transferOk (c : Ch) (s : State) : Bool :=
  let v := (s.chan c).srv
  tracking c s ||
    (s.get (SRV_STAT_RECOVERY.at c) == 4 && (v.step == .idle || v.step == .settled) && loopSt c 1 s == 1 &&
      s.get (MOT_SEEK_KIND.at c) == 0)

/-- TRANSFER_RESUME (R378): SPEED_OK holds and a wedge sync has been found on the expected address. -/
def execTransferResume (c : Ch) (s : State) : Out := gate s <|
  let found := (List.finRange 8).any (fun (b : Fin 8) => (s.sig c ⟨b.val, by omega⟩).synced)
  .next (if s.getb (DCM_STAT_TRANSFER_WAIT.at c) && s.getb (SRV_STAT_SPEED_OK.at c) && transferOk c s &&
      isWorking (s.mode c) && (s.chan c).srv.addrValid && found then
      s.putb (DCM_STAT_TRANSFER_WAIT.at c) false
    else s)

/-- RECOVERY_ATTEMPT_TIMEOUT (R277), with the answer of R378 when the last attempt fails. -/
def execRecoveryAttemptTimeout (c : Ch) (s : State) : Out := gateEngine c s <|
  let s := attemptTimeout c s
  .next (if (s.chan c).srv.recFailed ∧ (isWorking (s.mode c) ∨ s.mode c = mSEEK) then servoFailed c 6 s else s)

/-- HOMING_PHASE_FAIL (R307, R310): between OFF and PARKED the channel falls back to OFF (cause 2). -/
def execHomingPhaseFail (c : Ch) (x : Two) (s : State) : Out := gateEngine c s <|
  .next (if axMode c x s = 3 ∧ phaseFailed c x s then
      let s := homingFail c x s
      if s.mode c = mPARKED then fallback c 2 true s else s
    else s)

/-! ### Power and timebase (R33, R222, R325, R380, R744) -/

/-- PWRFAIL_ASSERT (R222). -/
def execPwrfailAssert (s : State) : Out := gate s <|
  .next { s with pwr := if s.pwr.pwrfailLow then s.pwr else { s.pwr with pwrfailLow := true, confirmed := false } }

/-- The steps of R222 on one channel that do not wait for a tick boundary. -/
def pwrfailChan (c : Ch) (s : State) : State :=
  let s := (s.putb (WRC_STAT_PWRFAIL_SEEN.at c) true).putb (WRC_STAT_LSAFE.at c) true
  abortWrite c 1 (s.onWrc c (fun w => { w with lanesRead := true }))

/-- PWRFAIL_CONFIRMED (R222): the low level has lasted 0.10 µs. -/
def execPwrfailConfirmed (s : State) : Out := gate s <|
  .next (if s.pwr.pwrfailLow ∧ ¬s.pwr.confirmed then
      let s := { s with pwr := { s.pwr with confirmed := true, boundaryDue := true, restartDue := true } }
      (s.putb FLS_STAT_PWRFAIL_HOLD true).each allCh (fun s c => pwrfailChan c s)
    else s)

/-- One channel at the boundary after the confirmation (R22, R325, R380). -/
def powerChan (c : Ch) (s : State) : State :=
  let m := s.mode c
  let s := if m = mREPLAY then s else spnPowerFail c s
  if m = mOFF ∨ m = mPARKED ∨ m = mREPLAY then s
  else
    let s := stopTransfer c 1 s
    let s := s.each [(0 : Fin 7), 1, 2, 3, 4, 5] (fun s l => openLoop c l s)
    let s := (s.put (SRV_STAT_RECOVERY.at c) 0).put (SRV_STAT_ATTEMPT.at c) 0
    let s := (s.put (MOT_SEEK_KIND.at c) 0).onSrv c (fun v => { v with
      step := .idle, jumpTo := none, oneBeam := none, recFailed := false, acqFailed := false })
    let s := s.onMot c (fun m => { m with fine := none, jumpTarget := none, profEnd := none })
    let s := axSetMode c 1 0 (axSetMode c 0 0 (axFlush c 0 s))
    let s := s.onDcm c (fun d => { d with powerWait := true, acqWait := false, runTick := none })
    setMode c mSPINUP s

/-- The boundary actions of a power failure (R22). -/
def powerBoundary (s : State) : State :=
  if s.pwr.boundaryDue then
    ({ s with pwr := { s.pwr with boundaryDue := false } } : State).each allCh (fun s c => powerChan c s)
  else s

/-- PWRFAIL_DEASSERT (R325, R744): the part resumes under R223 and R380, and a held start or brake command acts. -/
def execPwrfailDeassert (s : State) : Out := gate s <|
  .next (if s.pwr.pwrfailLow then
      let s := ({ s with pwr := { s.pwr with pwrfailLow := false, highSince := s.now } } : State).putb FLS_STAT_PWRFAIL_HOLD false
      s.each allCh (fun s c => spnHeld c s)
    else s)

/-- PWRFAIL_RESTART (R380): after 10 ms the sequencers give the start command. -/
def execPwrfailRestart (s : State) : Out := gate s <|
  .next (if s.pwr.restartDue ∧ ¬s.pwr.pwrfailLow ∧ s.pwr.highSince + 4000 ≤ s.now then
      ({ s with pwr := { s.pwr with restartDue := false } } : State).each allCh (fun s c =>
        if (s.chan c).dcm.powerWait then
          let s := s.onDcm c (fun d => { d with powerWait := false, modeTick := s.now, eqLZ := none })
          spnCommand c 1 (demandSpeed c s)
        else s)
    else s)

/-- One channel when the timebase is lost (R33, R378 cause 10). -/
def timebaseChan (c : Ch) (s : State) : State :=
  let s := stopTransfer c 9 s
  let s := s.onWrc c (fun w => { w with lanesRead := true, emittersOff := true })
  let s := stopChan c 10 true (some (0, 0)) (spnCommand c 3 s)
  if s.mode c = mOFF then s
  else
    let s := frontEnds c false (driverDue c 1 0 (axesOff c s))
    setMode c mOFF (s.onDcm c (fun d => { d with powerWait := false, acqWait := false }))

/-- TIMEBASE_LOST (R33): every channel stops; the class becomes lasting; only chip reset ends it. -/
def execTimebaseLost (s : State) : Out := gate s <|
  .next (if s.tb.lost then s
    else
      let s : State := { s with tb := { s.tb with lost := true } }
      let s := s.each allCh (fun s c => timebaseChan c s)
      s.fault 0 0 ⟨.tmb, 0⟩)

end Sys2Proof.Machine
end

