-- ==== Sys2Proof/Machine/ReadChannel.lean ====
section
/-! DEFINITION. The read channel and the joint detector (R124–R179, R749): wedge boundaries, syncs and the flywheel,
defects, rows and decodes, the outer decoder and the recovery ladder. -/

namespace Sys2Proof.Machine

open Reg

/-! ### Signals -/

/-- A field of signal `g`. -/
def sigF (f : Fld) (c : Ch) (g : Nat) : Fld := (f.at c).i g

/-- The beam as a signal. -/
def beamSig (b : Beam) : Fin 10 := ⟨b.val, by omega⟩

/-- A limit field: 0 acts as 1 (R186). -/
def atLeast1 (f : Fld) (s : State) : Nat := max 1 (s.get f)

/-- A span as a pair of slot positions. An open span reaches past the slot. -/
def spanPair (x : Span) : Nat × Nat := (x.start, x.stop.getD (2 ^ 32))

/-- Closes the open span of a list. -/
def closeSpan (stop : Nat) (l : List Span) : List Span := l.map (fun x => if x.stop.isNone then ⟨x.start, some stop⟩ else x)

/-- Does a list of spans cover a slot position? -/
def covers (l : List (Nat × Nat)) (pos : Nat) : Bool := l.any (fun (x, y) => decide (x ≤ pos ∧ pos < y))

/-- Overlaps of two lists of spans. -/
def overlaps (a b : List (Nat × Nat)) : List (Nat × Nat) :=
  a.flatMap (fun (x, y) => b.filterMap (fun (u, v) => if max x u < min y v then some (max x u, min y v) else none))

/-- The spans flagged on data beam `b` (R165, R166). -/
def flaggedSpans (c : Ch) (b : Beam) (s : State) : List (Nat × Nat) :=
  let own := (s.sig c (beamSig b)).spans.map spanPair
  let d8 := (s.sig c 8).spans.map spanPair
  let d9 := (s.sig c 9).spans.map spanPair
  own ++ (if b = 0 then d8 else []) ++ (if b = 7 then d9 else []) ++ overlaps d8 d9

/-- Is a slot position flagged on a beam? -/
def flaggedAt (c : Ch) (b : Beam) (pos : Nat) (s : State) : Bool :=
  covers (flaggedSpans c b s) pos

/-- Spans flagged on a signal: of a sum signal its dropouts. -/
def sigFlagged (c : Ch) (g : Fin 10) (s : State) : List (Nat × Nat) :=
  if h : g.val < 8 then flaggedSpans c ⟨g.val, h⟩ s else (s.sig c g).spans.map spanPair

/-- Where the bits of a signal are not known as a neighbour's (R156): for a data beam the flagged spans and those of a lost flywheel,
and for every signal those out of alignment range. -/
def unknownSpans (c : Ch) (g : Fin 10) (s : State) : List (Nat × Nat) :=
  (if g.val < 8 then sigFlagged c g s ++ (s.sig c g).lost.map spanPair else []) ++ (s.sig c g).out.map spanPair

/-- Is a defect span or dropout open on a signal? -/
def spanOpen (c : Ch) (g : Fin 10) (s : State) : Bool := (s.sig c g).spans.any (fun x => x.stop.isNone)

/-- RDC_STAT.DEFECT of every signal follows the open spans (R182). -/
def showDefects (c : Ch) (s : State) : State :=
  let both := spanOpen c 8 s && spanOpen c 9 s
  (List.finRange 10).foldl (fun s (g : Fin 10) =>
    let by8 := g.val == 0 && spanOpen c 8 s
    let by9 := g.val == 7 && spanOpen c 9 s
    s.putb (sigF RDC_STAT_DEFECT c g.val) (spanOpen c g s || by8 || by9 || (both && decide (g.val < 8)))) s

/-- The fifteen taps in use of a signal. -/
def tapsOf (c : Ch) (g : Nat) (s : State) : List Int :=
  (List.range 15).map (fun k => s.geti ((RDC_EQ_TAP_CUR.at c).ij g k))

/-- Puts taps into use. -/
def setTaps (c : Ch) (g : Nat) (l : List Int) (s : State) : State :=
  (List.range 15).foldl (fun s k => s.puti ((RDC_EQ_TAP_CUR.at c).ij g k) (l.getD k 0)) s

/-- The target's taps G0 to G3. -/
def targetG (c : Ch) (s : State) : List Int :=
  [s.geti (DET_TARGET_G0.at c), s.geti (DET_TARGET_G1.at c), s.geti (DET_TARGET_G2.at c), s.geti (DET_TARGET_G3.at c)]

/-- The coupling coefficients of a beam on side `j`, in the order C_LATE, C_NOW, C_EARLY (R189). -/
def coupling (c : Ch) (b j : Nat) (s : State) : List Int :=
  [s.geti ((DET_XTC_C_LATE.at c).ij b j), s.geti ((DET_XTC_C_NOW.at c).ij b j), s.geti ((DET_XTC_C_EARLY.at c).ij b j)]

/-- Stores coupling coefficients. -/
def setCoupling (c : Ch) (b j : Nat) (l : List Int) (s : State) : State :=
  let s := s.puti ((DET_XTC_C_LATE.at c).ij b j) (l.getD 0 0)
  let s := s.puti ((DET_XTC_C_NOW.at c).ij b j) (l.getD 1 0)
  s.puti ((DET_XTC_C_EARLY.at c).ij b j) (l.getD 2 0)

/-- A tile slot's rung-3 re-read is under way. -/
def onRung3 (c : Ch) (s : State) : Bool := match (s.chan c).rdc.prev with
  | some t => t.rung == 3 && t.rereading && !t.arm
  | none => false

/-- Does the adaptation of a signal run at a slot position (R131)? -/
def adapting (c : Ch) (g : Fin 10) (pos : Nat) (s : State) : Bool :=
  s.getb (sigF RDC_EQ_CTL_ADAPT_EN c g.val) && !s.getb (sigF RDC_EQ_CTL_FREEZE c g.val) && !onRung3 c s &&
    !covers (sigFlagged c g s) pos && !covers ((s.sig c g).lost.map spanPair) pos

/-- DELAY in use (R139). -/
def delayOf (c : Ch) (g : Nat) (s : State) : Nat := min 1024 (s.get (sigF RDC_ALIGN_DELAY c g))

/-- A run of samples of a signal; there is none while its front end and ADC are without power (R182; DEDUCED, log 163). -/
def powered (c : Ch) (g : Fin 10) (w : Samples) (s : State) : Samples :=
  if s.getb (sigF RDC_AFE_INPUT_EN c g.val) then w else ⟨0, []⟩

/-- The equalised samples of a signal that leave its FIFO at `n` times from `t` on. -/
def sigOut (c : Ch) (g : Fin 10) (w : Samples) (t : Int) (n : Nat) (s : State) : List Int :=
  fifoOut (s.get (sigF RDC_EQ_CTL_SPAN c g.val)) (tapsOf c g.val s) (delayOf c g.val s) (powered c g w s) t n

/-- Has a sample reached a limit of the ADC (R126)? -/
def clipped (l : List Int) : Bool := l.any (fun x => decide (x ≤ -128 ∨ 127 ≤ x))

/-- RDC_STAT.CLIP of a signal from samples of the wedge under the spots (R126), set when the command comes that brings them
(DEDUCED, log 75). -/
def noteClip (c : Ch) (g : Fin 10) (l : List Int) (s : State) : State :=
  if clipped l then s.putb (sigF RDC_STAT_CLIP c g.val) true else s

/-! ### The samples of a sector row (R128–R131, R153, R154, R162) -/

/-- First bit of a row and of what follows it: a row's bits reach from its sector's start, for row 0 from the slot's, to the next
sector's, for row 7 to its own end. -/
def rowRegion (p : TilePos) (q : Nat) : Nat × Nat :=
  let at' := fun k => (sectorSpans p).getD k (0, 0)
  (if q = 0 then 0 else (at' q).1, if q < 7 then (at' (q + 1)).1 else (at' q).2)

/-- The slot positions whose samples a row buffer holds: the sector and 64 at each end (R162). -/
def rowSpan (p : TilePos) (q : Nat) : Nat × Nat :=
  let (a, b) := (sectorSpans p).getD q (0, 0)
  (a - 64, b + 64)

/-- The decision a[n] as ±1 at a slot position: a known bit, else the tentative decision (R130). -/
def decisionAt (p : TilePos) (lo : Nat) (dec : List Bool) (pos : Nat) : Int :=
  pm ((knownBit p pos).getD (dec.getD (pos + 3 - lo) false))

/-- The expected value ā of a data beam's bit at a slot position (R152, R154, R156). -/
def softAt (p : TilePos) (lo : Nat) (unk : List (Nat × Nat)) (soft : List Int) (pos : Nat) : Int :=
  if covers unk pos then 0
  else match knownBit p pos with
    | some v => 256 * pm v
    | none => clamp (-256) 256 (soft.getD (pos + 3 - lo) 0)

/-- ā at a slot position from a sum signal's samples, of which the first stands at position `lo` (R153). -/
def sumAt (amp : Nat) (lo : Nat) (unk : List (Nat × Nat)) (y : List Int) (pos : Nat) : Int :=
  if covers unk pos || decide (pos < lo) then 0 else sumExpected amp (y.getD (pos - lo) 0)

/-- Equalises a row's samples of a signal, adapting as it goes (R128–R131, R154): the state with the taps and coefficients then
reached, and the samples from position `lo` to before `hi`. `base`: the wedge reference that predicted the row. DEDUCED: the one
sample of four is that whose slot position is divisible by 4 (log 159). -/
def rowEqualise (c : Ch) (g : Fin 10) (t : TileRead) (q : Nat) (i : RowIn) (base : Int) (sums : List Int × List Int) (s : State) :
    List Int × State :=
  let w := powered c g (i.adc.getD g.val ⟨0, []⟩) s
  if w.xs = [] then ([], s)
  else
    let (lo, hi) := rowRegion t.pos q
    let (a, b) := rowSpan t.pos q
    let p0 := min lo a
    let k : EqSet := { span := s.get (sigF RDC_EQ_CTL_SPAN c g.val), mu := s.get (sigF RDC_EQ_CTL_MU c g.val)
                       amp := s.get (DET_TARGET_AMP.at c), g := targetG c s
                       xt := decide (g.val < 8) && s.getb (DET_XT_XT_ADAPT_EN.at c) }
    let unk := fun (n : Nat) => if h : n < 10 then unknownSpans c ⟨n, h⟩ s else []
    let nb := fun (side : Nat) (pos : Nat) =>
      if side = 0 then (if g.val = 0 then sumAt k.amp p0 (unk 8) sums.1 pos
        else softAt t.pos lo (unk (g.val - 1)) (i.soft.getD (g.val - 1) []) pos)
      else if g.val = 7 then sumAt k.amp p0 (unk 9) sums.2 pos
      else softAt t.pos lo (unk (g.val + 1)) (i.soft.getD (g.val + 1) []) pos
    let dec := fun (pos : Nat) =>
      if pos % 4 = 0 ∧ lo ≤ pos ∧ pos < hi ∧ adapting c g pos s then
        if 8 ≤ g.val then some ([-1, -1, -1, -1], true)
        else
          let d := fun (n : Nat) => decisionAt t.pos lo (i.dec.getD g.val []) (pos - n)
          some ([d 0, d 1, d 2, d 3], (knownBit t.pos pos).isSome)
      else none
    let r0 : EqRun := { taps := tapsOf c g.val s, cl := if g.val < 8 then coupling c g.val 0 s else []
                        cr := if g.val < 8 then coupling c g.val 1 s else [], late := (s.sig c g).late, y := [] }
    let r := (List.range' p0 (max hi b - p0)).foldl (fun r pos =>
      let near := fun (side : Nat) => if g.val < 8 then [nb side (pos - 1), nb side pos, nb side (pos + 1)] else []
      eqSample k pos (fifoWindow (delayOf c g.val s) w (pos + base)) (dec pos) (near 0, near 1) r) r0
    let s := (setTaps c g.val r.taps s).onSig c g (fun x => { x with late := r.late })
    let s := if g.val < 8 then setCoupling c g.val 1 r.cr (setCoupling c g.val 0 r.cl s) else s
    (r.y.reverse, s)

/-! ### The wedge boundary (R124, R126, R127, R132, R140, R164) -/

/-- The restarts due (R132). -/
def restartDue (c : Ch) (s : State) : State :=
  let l := (s.chan c).rdc.restart
  let s := l.foldl (fun s (g : Fin 10) =>
    let start := (List.range 15).map (fun k => s.geti ((RDC_EQ_TAP_START.at c).ij g.val k))
    let s := setTaps c g.val start s
    let s := if g.val < 8 then setCoupling c g.val 1 [0, 0, 0] (setCoupling c g.val 0 [0, 0, 0] s) else s
    s.putb (sigF RDC_EQ_CTL_RESTART c g.val) false) s
  s.onRdc c (fun r => { r with restart := [] })

/-- The gain step of a data signal (R127): from the ADC peak-to-peak amplitude `amp` over the preamble of the wedge that ended, and
whether that preamble lay in a defect span. -/
def gainStep (c : Ch) (g : Fin 10) (amp : Nat) (inDefect : Bool) (s : State) : State :=
  if 8 ≤ g.val then s
  else if !s.getb (sigF RDC_AFE_AGC_EN c g.val) then
    s.put (sigF RDC_STAT_GAIN_NOW c g.val) (min 120 (s.get (sigF RDC_AFE_GAIN c g.val)))
  else if inDefect then s
  else
    let n := s.get (sigF RDC_STAT_GAIN_NOW c g.val)
    s.put (sigF RDC_STAT_GAIN_NOW c g.val)
      (if amp < 160 then min 120 (n + 1) else if 160 < amp then n - 1 else n)

/-- MEAS as the register shows it (R182). -/
def measCode (m : Int) : Nat := if m < 0 then 0x7FF else if 1024 < m then 0x7FE else m.toNat

/-- Erases a slot; a home slot of a relocated block stays what it is (R114), and what an earlier attempt of the ladder accepted stays
too (R175). -/
def slotErased (rung reason : Nat) (x : Slot) : Slot :=
  if x.st = .erased 7 ∨ (rung ≠ 0 ∧ x.st = .accepted) then x else { x with st := .erased reason, reason := some 6 }

/-- Erases every slot of a beam in the tile being read for a reason. -/
def eraseBeam (b reason : Nat) (t : TileRead) : TileRead :=
  { t with slots := t.slots.mapIdx (fun k x => if k % 8 = b then slotErased t.rung reason x else x) }

/-- A measurement of the alignment of signal `g` (R140, R141). -/
def alignMeas (c : Ch) (g : Fin 10) (m : Int) (s : State) : State :=
  let s := (s.put (sigF RDC_ALIGN_MEAS c g.val) (measCode m)).onSig c g (fun k => { k with meas := m })
  let from' := (s.chan c).rdc.wedgePos
  let was := s.getb (sigF RDC_STAT_ALIGN_RANGE c g.val)
  if 0 ≤ m ∧ m ≤ 1024 then
    (s.putb (sigF RDC_STAT_ALIGN_RANGE c g.val) false).onSig c g (fun k => { k with out := closeSpan from' k.out })
  else
    let s := (s.putb (sigF RDC_STAT_ALIGN_RANGE c g.val) true).onSig c g (fun k => { k with
      out := if k.out.any (fun x => x.stop.isNone) then k.out else k.out ++ [⟨from', none⟩] })
    let s := if g.val < 8 then s.onTile c (eraseBeam g.val 5) else s
    if was then s else (s.raise ⟨.det, c⟩ 3).faultCh 12 c .rdc

/-- The step of DELAY towards the measured delay (R140); in WRITE mode DELAY stands still (R214). -/
def delayStep (c : Ch) (g : Fin 10) (s : State) : State :=
  let d : Int := delayOf c g.val s
  let m := (s.sig c g).meas
  if !s.getb (sigF RDC_ALIGN_AUTO c g.val) || s.mode c == mWRITE then s
  else if d + 2 ≤ m ∧ d < 1024 then s.put (sigF RDC_ALIGN_DELAY c g.val) (d + 1).toNat
  else if m + 2 ≤ d then s.put (sigF RDC_ALIGN_DELAY c g.val) (d - 1).toNat
  else s

/-- Envelope of a data signal over its last 32 equalised samples (R164). -/
def envelope (y : List Int) : Nat := spread (y.drop (y.length - 32))

/-- Mean level of a sum signal over its last 32 equalised samples (R164). DESIGN CHOICE: means are rounded down (log 147). -/
def sumLevel (y : List Int) : Int := meanDown (y.drop (y.length - 32))

/-- A level as an 8-bit field shows it. DESIGN CHOICE: limited to 0 to 255 (log 147). -/
def level8 (x : Int) : Nat := min 255 x.toNat

/-- What one signal showed over the wedge that ends at a boundary (R126, R127, R136, R140, R164). -/
def sigBoundary (c : Ch) (g : Fin 10) (i : SigWedge) (s : State) : State :=
  let w := powered c g ⟨0, i.adc⟩ s
  let at' := (s.chan c).rdc.wedgePos
  let hit := fun (n : Nat) => (overlaps (sigFlagged c g s) [(at', at' + n)]) != []
  let s := s.putb (sigF RDC_STAT_CLIP c g.val) false
  let s := gainStep c g (spread (w.xs.take 64)) (hit 64) s
  if g.val < 8 then
    let y := fifoOut (s.get (sigF RDC_EQ_CTL_SPAN c g.val)) (tapsOf c g.val s) 0 w (w.xs.length - 32 : Nat) 32
    delayStep c g (if w.xs = [] then s else s.put (sigF RDC_STAT_ENV c g.val) (level8 (envelope y)))
  else
    let n := w.xs.length - 14
    let y := fifoOut (s.get (sigF RDC_EQ_CTL_SPAN c g.val)) (tapsOf c g.val s) 0 w 14 n
    let s := if n = 0 then s else s.put (sigF RDC_STAT_ENV c g.val) (level8 (sumLevel y))
    let s := if n = 0 || hit i.adc.length then s else s.put (sigF RDC_STAT_ENV_REF c g.val) (level8 (meanDown y))
    let s := s.putb (sigF RDC_STAT_LOCK c g.val) (s.chan c).srv.addrValid
    let s := match i.unit with
      | some u => alignMeas c g (delayOf c g.val s - u) s
      | none => s
    delayStep c g s

/-- The counters of RDC and DET (R190). -/
def rdcCounters (c : Ch) : List Fld :=
  (List.range 10).flatMap (fun g => [sigF RDC_CNT_SYNC c g, sigF RDC_CNT_WEDGE c g]) ++
  (List.range 5).map (fun k => (DET_RUNGk.at c).i k) ++
  [DET_CNT_LDPC.at c, DET_CNT_ERASE.at c, DET_CNT_SYNC.at c, DET_CNT_RELOC.at c, DET_CNT_MISC.at c]

/-- The first wedge of an armed tile slot begins: its codes go out (R193, R225). -/
def writeBegin (c : Ch) (s : State) : State :=
  if (s.chan c).wrc.writing.isSome ∧ s.get (WRC_STAT_STATE.at c) = 1 then
    (s.onWrc c (fun w => { w with lanesRead := false })).put (WRC_STAT_STATE.at c) 2
  else s

/-- The next wedge under the spots, in recording order. -/
def nextWedge (d : Dcm) : Dcm := if d.wedge = 95 then { d with wedge := 0, band := d.band + 1 } else { d with wedge := d.wedge + 1 }

/-- Moves the writes that wait for the wedge boundary to the front of the latch's work: they are returned to be stored
(R124). -/
def wedgeWrites (c : Ch) (s : State) : List Staged × State :=
  ((s.chan c).rdc.pend, s.onRdc c (fun r => { r with pend := [] }))

/-- Clears what the signals carry from slot to slot: spans are in slot positions, and the updates not yet made are due in the new
ones. The first wedge sync of every slot is predicted from the SA wobble (R143; DEDUCED, log 160). -/
def newSlotSignals (c : Ch) (s : State) : State :=
  let len := (s.chan c).rdc.wedgePos
  let keep := fun (l : List Span) => (l.filter (fun x => x.stop.isNone)).map (fun _ => (⟨0, none⟩ : Span))
  let s := (List.finRange 10).foldl (fun s (g : Fin 10) => s.onSig c g (fun k => { k with
    spans := keep k.spans, lost := keep k.lost, out := keep k.out, wide := true
    late := k.late.map (fun u => (u.1 - len, u.2)) })) s
  s.onRdc c (fun r => { r with wedgePos := 0 })

/-- A tile whose slot has another wedge behind it: after the last of them it lies under the pickup no more. -/
def tileWedgeEnd (t : TileRead) : TileRead :=
  if !t.reading then t
  else if tileT t.pos ≤ t.wedges then { t with reading := false }
  else { t with wedges := t.wedges + 1 }

/-- A tile whose armed read begins. -/
def tileBegin (t : TileRead) : TileRead := if t.arm then { t with arm := false, reading := true, wedges := 1 } else t

/-- The tile slots at a wedge boundary: the slot under the pickup goes on or ends, with the offsets of a rung-3 re-read (R176, R257)
and the wait of a jump back (R175), and an armed read begins. -/
def slotBoundary (c : Ch) (s : State) : State :=
  let re := (s.chan c).rdc.prev.any (fun t => t.reading)
  let s := s.onRdc c (fun r => { r with tile := r.tile.map tileWedgeEnd, prev := r.prev.map tileWedgeEnd })
  let s := if re ∧ !(s.chan c).rdc.prev.any (fun t => t.reading) then setLadder c (0, 0) s else s
  let r := (s.chan c).rdc
  let s := if (r.tile.toList ++ r.prev.toList).any (·.arm) then newSlotSignals c s else s
  let s := s.onRdc c (fun r => { r with tile := r.tile.map tileBegin, prev := r.prev.map tileBegin })
  if (s.chan c).rdc.jumpDue ∧ ¬slotUnder c s then jumpBack c (s.onRdc c (fun r => { r with jumpDue := false })) else s

/-- Channel bits of the wedge under the spots. -/
def wedgeBits (c : Ch) (s : State) : Nat := nwTable.getD (zoneOfBand (s.get (DCM_STAT_LAYER.at c)) (s.chan c).dcm.band) 31360

/-- The rest of the wedge boundary, once the waiting writes have taken effect: what the wedge that ends has shown, then the tile
slots, and the codes of an armed write go out. -/
def wedgeBoundaryRest (c : Ch) (sigs : List SigWedge) (s : State) : State :=
  let s := restartDue c s
  let s := (List.finRange 10).foldl (fun s (g : Fin 10) => match sigs[g.val]? with
    | some i => sigBoundary c g i s
    | none => s) s
  let s := s.onRdc c (fun r => { r with wedgePos := r.wedgePos + wedgeBits c s })
  let s := s.onDcm c nextWedge
  let s := s.onSrv c (fun v => { v with holdover := v.holdover.map (· - 1) })
  writeBegin c (slotBoundary c s)

/-! ### Arming a read (R14, R114, R138, R175) -/

/-- Slots of a tile that are homes of relocated blocks (R114, R115). -/
def relocHomes (p : TilePos) (l : List Nat) : List Nat :=
  (l.filter (fun e => bitsOf 3 0 e == p.layer && bitsOf 6 4 e == p.zone && bitsOf 23 8 e == p.tile
    && bitsOf 31 30 e == p.region)).map (bitsOf 29 24)

/-- A fresh read of a tile slot. -/
def freshRead (p : TilePos) (needed homes : List Nat) (verify : Bool) : TileRead :=
  { pos := p, needed, verify
    slots := (List.range 64).map (fun k => if homes.contains k then { st := .erased 7, reason := some 6 } else {})
    reloc := false }

/-- Is there room to arm another read: the slot under the pickup is in its last wedge or ended, one tile may still be decoded, and
the output buffer holds two tiles (R14)? A tile that the buffer holds in part counts once. -/
def readRoom (c : Ch) (s : State) : Bool :=
  let r := (s.chan c).rdc
  let ends := match r.tile with
    | some t => !t.arm && (!t.reading || decide (tileT t.pos ≤ t.wedges))
    | none => true
  let more := r.prev.any (fun t => !r.outBuf.any (fun o => o.pos == t.pos))
  ends && (r.tile.isNone || r.prev.isNone) && decide (r.outBuf.length + b2n more + b2n r.tile.isSome < 2)

/-- Is a tile slot wanted? -/
def wantOf (p : TilePos) : List (TilePos × List Nat) → Option (List Nat)
  | [] => none
  | (q, n) :: r => if q = p then some n else wantOf p r

/-- The mode in which tile slots are read: READ and SCAN, CALIBRATE, and IDLE_TRACK while a mount runs (R372, R381). -/
def readMode (c : Ch) (s : State) : Bool :=
  let m := s.mode c
  m == mREAD || m == mSCAN || m == mCAL || (m == mIDLE && (s.chan c).dcm.mount.isSome)

/-- Does the wedge before the slot carry the expected address (R138)? -/
def armed (c : Ch) (p : TilePos) (s : State) : Bool :=
  let v := (s.chan c).srv
  v.addrValid && v.addr == some (expectedAddr p)

/-- A failed arming check (R138, R272). -/
def armFail (c : Ch) (s : State) : State :=
  let s := s.bump (DET_CNT_MISC_ARM_FAIL.at c) 1
  let s := s.onAcc c (fun a => { a with armFail := true })
  s.onSrv c (fun v => { v with slipSeen := true })

/-- The offsets of a rung-3 attempt (R176): φ and τ in nm, attempts counted from 0. -/
def rung3Point (df dt : Int) (k : Nat) : Int × Int :=
  let m : Int := if k < 4 then 1 else 2
  match k % 4 with
  | 0 => (m * df, 0)
  | 1 => (-(m * df), 0)
  | 2 => (0, m * dt)
  | _ => (0, -(m * dt))

/-- The re-read of a ladder attempt is armed: what earlier attempts accepted stays, and every other slot but the homes of relocated
blocks is read anew (R114, R175). -/
def rereadStart (c : Ch) (t : TileRead) (s : State) : State :=
  s.onRdc c (fun r => { r with prev := some { t with
    rereading := true, arm := true, stopped := false, rowsDone := 0, rowsEnd := 8, lineOnly := [], rows := [], queue := []
    slots := t.slots.map (fun x => if x.st = .accepted ∨ x.st = .erased 7 then x else {}) } })

/-- The offsets of a rung-3 re-read enter at the tick boundary before its slot's first wedge (R176, R257). -/
def ladderTick (c : Ch) (soon : Bool) (s : State) : State :=
  match (s.chan c).rdc.prev with
  | some t => if soon ∧ t.arm ∧ t.rereading ∧ t.rung = 3 then
      setLadder c (rung3Point (s.get (DET_LADDER_FOCUS_STEP.at c)) (s.get (DET_LADDER_TRACK_STEP.at c)) t.attempt) s
    else s
  | none => s

/-- Arms a read as the next tile of the channel. -/
def armTile (t : TileRead) (r : Rdc) : Rdc :=
  { r with prev := r.tile.or r.prev, tile := some { t with arm := true } }

/-- Arms the read of a wanted tile slot. -/
def readStart (c : Ch) (p : TilePos) (needed : List Nat) (s : State) : State :=
  let homes := relocHomes p (s.chan c).dcm.spares
  s.onRdc c (fun r => armTile (freshRead p needed homes false) { r with wanted := r.wanted.filter (fun w => w.1 ≠ p) })

/-- May tiles be read in the recovery state of the servo engine: none runs, or one beam alone is used and reading goes on without
SB (R276)? -/
def readsOn (c : Ch) (s : State) : Bool :=
  s.get (SRV_STAT_RECOVERY.at c) == 0 || s.get (SRV_STAT_RECOVERY.at c) == 4

/-- TILE_READ_START (R138): a slot that a command wants, or that the ladder re-reads, at the wedge before its first. -/
def execTileReadStart (c : Ch) (p : TilePos) (s : State) : Out := gate s <|
  let r := (s.chan c).rdc
  let ladder := match r.prev with
    | some t => decide (t.pos = p) && decide (2 ≤ t.rung ∧ t.rung ≤ 4) && !t.rereading && !r.jumpDue &&
        r.tile.all (fun t => !t.arm && (!t.reading || decide (tileT t.pos ≤ t.wedges)))
    | none => false
  let go := readMode c s && coresRun s && !leaving c s && !s.getb (DCM_STAT_TRANSFER_WAIT.at c) && readsOn c s
  .next (if !go then s
    else match ladder, r.prev, wantOf p r.wanted with
      | true, some t, _ => if armed c p s then rereadStart c t s else armFail c s
      | false, _, some needed =>
        if !readRoom c s then s else if armed c p s then readStart c p needed s else armFail c s
      | _, _, _ => s)

/-! ### Syncs (R142–R150) -/

/-- The candidate nearest the prediction, the earlier one of two equally near (R146). -/
def nearest : List Int → Option Int
  | [] => none
  | d :: ds => match nearest ds with
    | none => some d
    | some e => if d.natAbs < e.natAbs then some d else if d.natAbs = e.natAbs then some (min d e) else some e

/-- Candidates at most `w` samples from the prediction. -/
def within (w : Nat) (l : List Int) : List Int := l.filter (fun d => decide (d.natAbs ≤ w))

/-- The candidates of a sync pattern within `w` samples of the FIFO time `t` of its first bit (R142). -/
def candsAt (c : Ch) (g : Fin 10) (pat : Nat) (w : Nat) (x : Samples) (t : Int) (s : State) : List Int :=
  if (powered c g x s).xs = [] then []
  else
    syncCands (s.get (RDC_CTL_SYNC_THR.at c)) (syncResp (s.get (DET_TARGET_AMP.at c)) (targetG c s) pat) w
      (sigOut c g x (t - w - 2) (2 * w + 55) s)

/-- Has a byte an even number of ones (R89)? -/
def evenOnes (b : BitVec 8) : Bool := ones 8 b.toNat % 2 == 0

/-- Limits a rational. -/
def clampQ (lo hi q : Rat) : Rat := if q < lo then lo else if hi < q then hi else q

/-- What the digital PLL of a signal carries: integrator, phase, the last 256 phase errors, newest first, and whether its lock has
been lost. -/
structure PllRun where
  int : Rat
  phase : Rat
  errs : List Int
  lost : Bool
deriving DecidableEq, Repr

/-- One sample of the digital PLL (R135): the frequency offset stays within ±2 % of T per sample, and LOCK is lost when the mean
error over 256 samples exceeds T/8. -/
def pllSample (ki kp : Nat) (e : Int) (r : PllRun) : PllRun :=
  let i := clampQ (-(32 / 25)) (32 / 25) (r.int + (e : Rat) / 2 ^ (ki + 8))
  let es := (e :: r.errs).take 256
  { int := i, phase := r.phase + (e : Rat) / 2 ^ (kp + 2) + i, errs := es
    lost := r.lost || (es.length == 256 && decide (256 * 8 < (es.map (fun e => (e.natAbs : Int))).sum)) }

/-- A run of the PLL of a data signal over phase errors from slot position `pos` on; over a flagged span it holds phase and frequency
(R135, R167). -/
def pllSteps (c : Ch) (b : Beam) (pos : Nat) (l : List Int) (s : State) : State :=
  let g := beamSig b
  let k := s.sig c g
  let spans := flaggedSpans c b s
  let ki := s.get (sigF RDC_PLL_CTL_KI c g.val)
  let kp := s.get (sigF RDC_PLL_CTL_KP c g.val)
  let r := l.zipIdx.foldl (fun r (e, n) => if covers spans (pos + n) then r else pllSample ki kp e r)
    ({ int := k.pllInt, phase := k.pllPhase, errs := k.errs, lost := false } : PllRun)
  let s := s.onSig c g (fun k => { k with pllInt := r.int, pllPhase := r.phase, errs := r.errs })
  let s := s.put (sigF RDC_PLL_STAT_PHASE c g.val) (r.phase.floor % 64).toNat
  let s := s.puti (sigF RDC_PLL_STAT_FREQ_OFS c g.val) (clamp (-32768) 32767 (rndQ (r.int * 1000000 / 64)))
  if r.lost then s.putb (sigF RDC_STAT_LOCK c g.val) false else s

/-- The preamble's acquisition (R135): the phase follows the preamble, LOCK judges its last 32 samples. -/
def pllPreamble (c : Ch) (b : Beam) (l : List Int) (s : State) : State :=
  let s := pllSteps c b (s.chan c).rdc.wedgePos l s
  let last := l.drop (l.length - 32)
  if 32 ≤ l.length ∧ (last.map (fun e => (e.natAbs : Int))).sum < 32 * 4 then
    (s.putb (sigF RDC_STAT_LOCK c b.val) true).onSig c (beamSig b) (fun k => { k with errs := [] })
  else s

/-- The mean envelope over a preamble (R164): over its samples whose 32 samples lie in it, rounded down (log 147). `t`: FIFO time of
the wedge's first bit. -/
def preambleEnv (c : Ch) (g : Fin 10) (x : Samples) (t : Int) (s : State) : Nat :=
  let y := sigOut c g x t 64 s
  (meanDown ((List.range 33).map (fun n => (spread ((y.drop n).take 32) : Int)))).toNat

/-- A wedge sync that was found, with the wedge reference it gives (R140, R143, R149, R164). ENV_REF is the mean over the wedge
fields found so far, at most 8, rounded down (log 147). -/
def wedgeFound (c : Ch) (b : Beam) (i : WedgeSyncIn) (ref : Int) (s : State) : State :=
  let g := beamSig b
  let env := preambleEnv c g i.adc ref s
  let at' := (s.chan c).rdc.wedgePos
  let envs := (env :: (s.sig c g).envs).take 8
  let s := s.onSig c g (fun k => { k with
    wref := ref, wide := false, synced := true, inserted := 0, envs, lost := closeSpan at' k.lost })
  let s := s.put (sigF RDC_STAT_ENV_REF c g.val) (min 255 (envs.sum / envs.length))
  let s := s.putb (sigF RDC_STAT_FLY_LOST c g.val) false
  let s := s.onTile c (fun t => { t with wsyncSeen := true })
  let s := match i.lead with
    | some n => s.put ((WRC_EMIT_LEAD.at c).i b.val) (min 4095 n)
    | none => s
  alignMeas c g (delayOf c g.val s - ref) s

/-- The placement error of a written wedge sync, and AUTO_ADV (R214, R217). -/
def placement (c : Ch) (b : Beam) (s : State) : State :=
  if !((s.chan c).wrc.writing.isSome) then s
  else
    let p : Int := (s.sig c (beamSig b)).meas - delayOf c b.val s
    let s := s.puti ((WRC_BSTAT_PERR.at c).i b.val) (clamp (-128) 127 p)
    let s := s.onWrc c (fun w => { w with perrMax := max w.perrMax p.natAbs })
    let s := if 8 < p.natAbs then s.bump (WRC_CNT_MISC_PLACE_ERR.at c) 1 else s
    if s.getb (WRC_CTL_AUTO_ADV.at c) ∧ 3 ≤ p.natAbs then
      s.onWrc c (fun w => { w with advPend := w.advPend.modify b.val (fun a => if 0 < p then a - 1 else a + 1) })
    else s

/-- Do the WN and LZ bytes read after a sync name the wedge under the spots, with even parity (R89, R143)? -/
def wedgeNamed (c : Ch) (wn lz : BitVec 8) (s : State) : Bool :=
  let d := (s.chan c).dcm
  let layer := s.get (DCM_STAT_LAYER.at c)
  evenOnes wn && evenOnes lz && wn.toNat == wnByte d.wedge && lz.toNat == lzByte layer (zoneOfBand layer d.band)

/-- The wedge syncs a window holds, as distances from the prediction (R142, R143): candidates whose WN and LZ bytes name the expected
wedge. -/
def wedgeSyncs (c : Ch) (b : Beam) (i : WedgeSyncIn) (s : State) : List Int :=
  let g := beamSig b
  let k := s.sig c g
  let w := if k.wide then 64 else 24
  (candsAt c g wedgePat w i.adc ((if k.wide then 0 else k.wref) + 64) s).filter (fun d =>
    match i.names.find? (fun n => n.1 == d) with
    | some (_, wn, lz) => wedgeNamed c wn lz s
    | none => false)

/-- WEDGE_SYNC (R143, R144). The window is 24 samples to each side of the prediction from the reference before, or 64 to each side
of that from the SA wobble at the first wedge of a read and while the signal re-acquires. DEDUCED: of several syncs that qualify
the one nearest the prediction is taken, as R146 takes it (log 148). -/
def execWedgeSync (c : Ch) (b : Beam) (i : WedgeSyncIn) (s : State) : Out := gate s <|
  let g := beamSig b
  let s := noteClip c g (powered c g i.adc s).xs (pllPreamble c b i.phaseErr s)
  let k := s.sig c g
  let pred := if k.wide then 0 else k.wref
  .next (match nearest (wedgeSyncs c b i s) with
    | some d => placement c b (wedgeFound c b i (pred + d) s)
    | none =>
      let lost := s.getb (sigF RDC_STAT_FLY_LOST c g.val)
      let s := s.bump (sigF RDC_CNT_WEDGE_WSYNC_MISS c g.val) 1
      s.onSig c g (fun k => { k with wref := pred, wide := k.wide && lost }))

/-- Slot of row `q` on beam `b` (R102). -/
def slotNo (q : Fin 8) (b : Beam) : Nat := 8 * q.val + b.val

/-- Changes a slot of a tile. -/
def onSlot (k : Nat) (f : Slot → Slot) (t : TileRead) : TileRead := { t with slots := t.slots.modify k f }

/-- The row takes a row buffer when its sector sync window opens; without a free one it is decoded in line only (R162, R163). The
tile read before it holds its buffers too. -/
def rowOpen (c : Ch) (q : Nat) (s : State) : State :=
  let r := (s.chan c).rdc
  match r.under with
  | none => s
  | some t =>
    if t.buffers.contains q || t.lineOnly.contains q then s
    else if ((r.tile.toList ++ r.prev.toList).flatMap (·.buffers)).length < 8 then
      s.onTile c (fun t => { t with buffers := t.buffers ++ [q] })
    else
      let s := s.onTile c (fun t => { t with lineOnly := t.lineOnly ++ [q] })
      (s.bump (DET_CNT_MISC_STORE_FULL.at c) 1).raise ⟨.det, c⟩ 4

/-- An inserted sector sync counts for the flywheel unless it lies in a flagged span (R149, R150). -/
def insertedCount (c : Ch) (b : Beam) (pos : Nat) (s : State) : State :=
  if flaggedAt c b pos s then s
  else
    let g := beamSig b
    let n := (s.sig c g).inserted + 1
    let s := s.onSig c g (fun k => { k with inserted := n })
    if n < 3 then s
    else
      let s := s.onSig c g (fun k => { k with inserted := 0, wide := true, lost := k.lost ++ [⟨pos, none⟩] })
      let s := (s.putb (sigF RDC_STAT_FLY_LOST c g.val) true).bump (sigF RDC_CNT_WEDGE_FLY_LOST_CNT c g.val) 1
      (s.onTile c (fun t => { t with flyLost := true })).raise ⟨.det, c⟩ 2

/-- The slot takes a sync decision, by a distance from the prediction `base`. -/
def syncSlot (k sync : Nat) (d base : Int) (t : TileRead) : TileRead :=
  onSlot k (fun x => { x with sync, syncD := d, base }) t

/-- SECTOR_SYNC (R145–R149): the decision on the sector sync of row `q` on beam `b`, in the tile slot under the pickup. The place is
predicted from the wedge reference. -/
def execSectorSync (c : Ch) (b : Beam) (q : Fin 8) (adc : Samples) (s : State) : Out := gate s <|
  .next (match (s.chan c).rdc.under with
  | none => s
  | some t =>
    if !t.reading then s
    else
      let g := beamSig b
      let k := slotNo q b
      let pred := (s.sig c g).wref
      let s := noteClip c g (powered c g adc s).xs (rowOpen c q.val s)
      if s.getb (sigF RDC_STAT_FLY_LOST c g.val) then
        s.onTile c (fun t => onSlot k (fun x => { slotErased t.rung 4 x with base := pred }) t)
      else
        let cands := candsAt c g sectorPat 64 adc pred s
        match nearest (within 16 cands) with
        | some d =>
          let s := s.onSig c g (fun x => { x with inserted := 0 })
          if d.natAbs ≤ 1 then (s.onSig c g (fun x => { x with wref := x.wref + d })).onTile c (syncSlot k 0 d pred)
          else s.onTile c (syncSlot k 1 d pred)
        | none =>
          let s := s.bump (sigF RDC_CNT_SYNC_OUTSIDE c g.val) cands.length
          let s := s.bump (sigF RDC_CNT_SYNC_INSERTED c g.val) 1
          let s := s.onTile c (fun t => { syncSlot k 2 0 pred t with insertedAny := true })
          insertedCount c b ((sectorSpans t.pos).getD q.val (0, 0)).1 s)

/-! ### Defects (R164–R166) -/

/-- DEFECT_SPAN_START (R165): the envelope over the 32 samples that end at `pos` has fallen below DROP_THR/8 of ENV_REF; the span
begins GUARD samples before the first of them. -/
def execDefectSpanStart (c : Ch) (b : Beam) (pos : Nat) (y : List Int) (s : State) : Out := gate s <|
  let g := beamSig b
  let env := envelope y
  let s := s.put (sigF RDC_STAT_ENV c g.val) (min 255 env)
  .next (if !spanOpen c g s ∧ 8 * env < atLeast1 (DET_DEFECT_DROP_THR.at c) s * s.get (sigF RDC_STAT_ENV_REF c g.val) then
      let s := s.onSig c g (fun k => { k with spans := k.spans ++ [⟨pos - 31 - s.get (DET_DEFECT_GUARD.at c), none⟩] })
      showDefects c (s.bump (DET_CNT_MISC_DEFECT_SPANS.at c) 1)
    else s)

/-- Number of samples at the end of a run whose envelopes all reach the upper threshold (DROP_THR + 1)/8 of ENV_REF (R165); on
fuel. -/
def upperRun (c : Ch) (b : Beam) (s : State) : Nat → List Int → Nat
  | 0, _ => 0
  | f + 1, y =>
    if y.length < 32 then 0
    else if 8 * envelope y < (atLeast1 (DET_DEFECT_DROP_THR.at c) s + 1) * s.get (sigF RDC_STAT_ENV_REF c b.val) then 0
    else 1 + upperRun c b s f y.dropLast

/-- DEFECT_SPAN_END (R165): the envelope has stayed at or above the upper threshold for 64 samples; the span ends GUARD samples
after the last sample below it. -/
def execDefectSpanEnd (c : Ch) (b : Beam) (pos : Nat) (y : List Int) (s : State) : Out := gate s <|
  let g := beamSig b
  let stay := upperRun c b s y.length y
  let s := s.put (sigF RDC_STAT_ENV c g.val) (min 255 (envelope y))
  .next (if spanOpen c g s ∧ 64 ≤ stay then
      showDefects c (s.onSig c g (fun k => { k with
        spans := closeSpan (pos + 1 - stay + s.get (DET_DEFECT_GUARD.at c)) k.spans }))
    else s)

/-- The sum signal named by `outer`. -/
def sumSig (outer : Bool) : Fin 10 := if outer then 9 else 8

/-- Is a sum level below SUM_THR/8 of SUM_REF (R166)? -/
def isDropout (c : Ch) (g : Fin 10) (level : Int) (s : State) : Bool :=
  decide (8 * level < ((atLeast1 (DET_DEFECT_SUM_THR.at c) s * s.get (sigF RDC_STAT_ENV_REF c g.val) : Nat) : Int))

/-- DROPOUT_START (R164, R166). -/
def execDropoutStart (c : Ch) (outer : Bool) (pos : Nat) (y : List Int) (s : State) : Out := gate s <|
  let g := sumSig outer
  let s := s.put (sigF RDC_STAT_ENV c g.val) (level8 (sumLevel y))
  .next (if !spanOpen c g s && isDropout c g (sumLevel y) s then
      showDefects c (s.onSig c g (fun k => { k with spans := k.spans ++ [⟨pos, none⟩] }))
    else s)

/-- DROPOUT_END (R164, R166). -/
def execDropoutEnd (c : Ch) (outer : Bool) (pos : Nat) (y : List Int) (s : State) : Out := gate s <|
  let g := sumSig outer
  let s := s.put (sigF RDC_STAT_ENV c g.val) (level8 (sumLevel y))
  .next (if spanOpen c g s && !isDropout c g (sumLevel y) s then
      showDefects c (s.onSig c g (fun k => { k with spans := closeSpan pos k.spans }))
    else s)

/-! ### Rows and decodes (R155–R163, R167, R168) -/

/-- Changes the tile read before, or the one after it. -/
def onWhich (c : Ch) (prev : Bool) (f : TileRead → TileRead) (s : State) : State :=
  s.onRdc c (fun r => if prev then { r with prev := r.prev.map f } else { r with tile := r.tile.map f })

/-- The tile read before, or the one after it. -/
def whichTile (c : Ch) (prev : Bool) (s : State) : Option TileRead :=
  if prev then (s.chan c).rdc.prev else (s.chan c).rdc.tile

/-- Has every codeword of a row a result? -/
def rowSettled (t : TileRead) (q : Nat) : Bool :=
  (t.slots.zipIdx.filter (fun (_, k) => k / 8 == q)).all (fun (x, _) => x.st != .waiting && x.st != .decoding)

/-- Has every codeword of a tile a result (R170)? -/
def tileSettled (t : TileRead) : Bool := t.slots.all (fun x => x.st != .waiting && x.st != .decoding)

/-- Rows of a tile that are in the decoder queue. -/
def liveRows (t : TileRead) : List Nat := t.queue.filter (fun r => !rowSettled t r)

/-- Cuts the decoding of a row: its codewords not yet converged fail (R160), a suspect sync among them with SYNC_SUSPECT (R147). -/
def cutRow (c : Ch) (prev : Bool) (q : Nat) (s : State) : State :=
  match whichTile c prev s with
  | none => s
  | some t =>
    let mine := t.slots.zipIdx.filter (fun (x, k) => k / 8 == q && x.st == .decoding)
    let s := onWhich c prev (fun t => { t with
      queue := t.queue.filter (· ≠ q)
      suspect := t.suspect || mine.any (fun (x, _) => x.sync == 1)
      slots := t.slots.mapIdx (fun k x =>
        if k / 8 = q ∧ x.st = .decoding then { x with st := .failed, reason := some 6 } else x) }) s
    (s.bump (DET_CNT_LDPC_CUT.at c) mine.length).bump (DET_CNT_LDPC_FAIL_INLINE.at c) mine.length

/-- The queue in front of the decoders holds two rows: a full one loses the oldest (R160). The rows of the tile read before come
first. -/
def queueRoom (c : Ch) (s : State) : State :=
  let s := s.onRdc c (fun r => { r with
    tile := r.tile.map (fun t => { t with queue := liveRows t }), prev := r.prev.map (fun t => { t with queue := liveRows t }) })
  let r := (s.chan c).rdc
  let l := (r.prev.toList.flatMap (fun t => t.queue.map (fun q => (true, q)))) ++
    (r.tile.toList.flatMap (fun t => t.queue.map (fun q => (false, q))))
  if 2 ≤ l.length then match l.head? with
    | some (p, q) => cutRow c p q s
    | none => s
  else s

/-- The slots of a completed row: erased without decoding where too much of it is flagged (R168), else to be decoded. -/
def rowSlots (c : Ch) (prev : Bool) (q : Fin 8) (s : State) : State :=
  (List.finRange 8).foldl (fun s (b : Beam) =>
    match whichTile c prev s with
    | none => s
    | some t =>
      match (t.slots.getD (slotNo q b) {}).st with
      | .waiting =>
        let spans := flaggedSpans c b s
        let n := if spans.isEmpty then 0 else flaggedIn t.pos q.val spans
        if s.get (DET_DEFECT_SLOT_ERASE.at c) * 64 ≤ n then
          (onWhich c prev (onSlot (slotNo q b) (fun x => { x with st := .erased 1, reason := some 5 })) s).bump
            (DET_CNT_ERASE_DEFECT_SLOT.at c) 1
        else onWhich c prev (onSlot (slotNo q b) (fun x => { x with st := .decoding })) s
      | _ => s) s

/-- A row of a tile being written has been written in full; with row 7 the writing of the slot ends (R196, R201). -/
def rowWritten (c : Ch) (q : Nat) (s : State) : State :=
  match (s.chan c).wrc.writing with
  | none => s
  | some t =>
    if q < 7 then s.onWrc c (fun w => { w with rowsWritten := q + 1 })
    else
      let s := s.onWrc c (fun w => { w with
        writing := none, rowsWritten := 0, lanesRead := true, judging := w.judging ++ [{ t with perr := w.perrMax }]
        reloc := if t.pos.region = 0 then w.reloc.map (fun b => { b with waited := b.waited + 1 }) else w.reloc })
      s.put (WRC_STAT_STATE.at c) 0

/-- Mean CUR taps of signals 0 to 7 (R669); the mean is rounded to nearest (log 49). -/
def meanTaps (c : Ch) (s : State) : List Int :=
  (List.range 15).map (fun k => rnd (((List.range 8).map (fun g => s.geti ((RDC_EQ_TAP_CUR.at c).ij g k))).sum) 8)

/-- Is row `q` that of the tile read before: of a re-read, or of a slot whose last row ends as the next slot begins? -/
def rowOfPrev (r : Rdc) (q : Nat) : Bool := match r.prev with
  | some t => (t.rung == 0 || t.rereading) && !t.arm && t.rowsDone == q && decide (q < t.rowsEnd)
  | none => false

/-- Does an envelope of a data signal reach BLANK_MOD/32 of ENV_REF within equalised samples (R151; DEDUCED, log 165)? -/
def rowModulated (c : Ch) (g : Fin 10) (y : List Int) (s : State) : Bool :=
  let lim := s.get (DET_DEFECT_BLANK_MOD.at c) * s.get (sigF RDC_STAT_ENV_REF c g.val)
  (List.range (y.length - 31)).any (fun n => decide (lim ≤ 32 * spread ((y.drop n).take 32)))

/-- The samples of a row: equalised with adaptation, the sum signals first, and stored with what is flagged (R128–R131, R151, R154,
R162). -/
def rowStore (c : Ch) (prev : Bool) (t : TileRead) (q : Fin 8) (i : RowIn) (s : State) : State :=
  let base := fun (g : Fin 10) => if h : g.val < 8 then (t.slots.getD (slotNo q ⟨g.val, h⟩) {}).base else 0
  let (y8, s) := rowEqualise c 8 t q.val i 0 ([], []) s
  let (y9, s) := rowEqualise c 9 t q.val i 0 ([], []) s
  let (ys, s) := (List.finRange 8).foldl (fun (ys, s) (b : Beam) =>
    let (y, s) := rowEqualise c (beamSig b) t q.val i (base (beamSig b)) (y8, y9) s
    (ys ++ [y], s)) (([] : List (List Int)), s)
  let p0 := min (rowRegion t.pos q.val).1 (rowSpan t.pos q.val).1
  let (a, z) := rowSpan t.pos q.val
  let row : RowBuf := { q := q.val, y := (ys ++ [y8, y9]).map (fun y => (y.drop (a - p0)).take (z - a))
                        flag := (List.finRange 8).map (fun (b : Beam) => flaggedSpans c b s)
                        unk := (List.finRange 10).map (fun (g : Fin 10) => unknownSpans c g s) }
  let mod := (List.finRange 8).any (fun (b : Beam) => rowModulated c (beamSig b) (ys.getD b.val []) s)
  onWhich c prev (fun t => { t with
    modulated := t.modulated || mod, rows := t.rows.filter (fun r => r.q != q.val) ++ [row] }) s

/-- Samples of a row that lie in the wedge under the spots set CLIP (R126). -/
def rowClip (c : Ch) (i : RowIn) (s : State) : State :=
  let from' : Int := (s.chan c).rdc.wedgePos
  (List.finRange 10).foldl (fun s (g : Fin 10) =>
    let w := powered c g (i.adc.getD g.val ⟨0, []⟩) s
    noteClip c g (w.xs.drop (from' - w.first).toNat) s) s

/-- SECTOR_ROW_COMPLETE (R160): the samples of row `q` are equalised and stored, the digital PLLs follow them (R135), and in line
the row enters the queue of two rows; the rows of a re-read wait for the end of the slot (R175). -/
def execSectorRowComplete (c : Ch) (q : Fin 8) (i : RowIn) (s : State) : Out := gate s <|
  let prev := rowOfPrev (s.chan c).rdc q.val
  .next (match whichTile c prev s with
  | none => s
  | some t =>
    if t.arm || t.rowsDone != q.val || decide (t.rowsEnd ≤ q.val) then s
    else
      let s := rowStore c prev t q i (rowClip c i s)
      let s := (List.finRange 8).foldl (fun s (b : Beam) =>
        if s.getb (sigF RDC_PLL_CTL_DD_EN c b.val) then
          pllSteps c b (rowRegion t.pos q.val).1 (i.phaseErr.getD b.val []) s else s) s
      let s := if t.rereading then s else queueRoom c s
      let s := rowSlots c prev q s
      let clear := (List.finRange 8).all (fun (b : Beam) => (s.sig c (beamSig b)).spans.isEmpty)
      let s := onWhich c prev (fun t => { t with
        queue := if t.rereading then [] else t.queue ++ [q.val], rowsDone := q.val + 1
        endTaps := if q.val = 7 ∧ clear then some (meanTaps c s) else none }) s
      if t.verify then rowWritten c q.val s else s)

/-- Iteration limits: fields of 0 act as 1, a global limit above 3 as 3, an LDPC limit above 12 as 12 (R186). -/
def iterLimits (c : Ch) (retry : Bool) (s : State) : Nat × Nat :=
  if retry then (clampN 1 3 (s.get (DET_ITER_RETRY_GLOBAL.at c)), clampN 1 12 (s.get (DET_ITER_RETRY_LDPC.at c)))
  else (clampN 1 3 (s.get (DET_ITER_INLINE_GLOBAL.at c)), clampN 1 12 (s.get (DET_ITER_INLINE_LDPC.at c)))

/-! ### The joint detector over a row (R152–R157) -/

/-- One data beam in the joint detection of a row: alignment relative to the predicted one, whether its codeword is decoded, the
a-priori ratios and the expected values ā of the bits the row buffer holds, and the codeword once it has converged, with its
iterations and corrected bits. -/
structure JBeam where
  al : Int
  dec : Bool
  prior : List Int
  soft : List Int
  conv : Option (Nat × Nat × Nat)
deriving DecidableEq, Repr

/-- Slot positions a row buffer holds. -/
def rowPositions (p : TilePos) (q : Nat) : List Nat := let (a, b) := rowSpan p q; List.range' a (b - a)

/-- Expected values of a neighbour's bits from their metric differences or, where `bits` has them, from the bits themselves; 0 where
they are not known (R152, R156). -/
def rowSoft (p : TilePos) (q b : Nat) (row : RowBuf) (diffs : List Int) : List Int :=
  (rowPositions p q).zipIdx.map (fun (pos, n) =>
    if covers (row.unk.getD b []) pos then 0
    else match knownBit p pos with
      | some v => 256 * pm v
      | none => expected (diffs.getD n 0))

/-- Expected values of a beam whose codeword is known: its re-encoded channel bits, exactly ±1 (R157). -/
def exactSoft (p : TilePos) (q : Fin 8) (b : Beam) (row : RowBuf) (w : Nat) : List Int :=
  let bits := (sectorBits p.region (slotNo q b) p.tile w).drop 48
  let at' := (sectorCode p q.val).zip bits
  (rowPositions p q.val).map (fun pos =>
    if covers (row.unk.getD b.val []) pos then 0
    else match knownBit p pos with
      | some v => 256 * pm v
      | none => 256 * pm (((at'.find? (fun x => x.1 == pos)).map (·.2)).getD false))

/-- Expected values of a sum signal's bits over a row (R153, R156). -/
def sumSoft (amp : Nat) (p : TilePos) (q g : Nat) (row : RowBuf) : List Int :=
  (rowPositions p q).zipIdx.map (fun (pos, n) =>
    if covers (row.unk.getD g []) pos then 0 else sumExpected amp ((row.y.getD g []).getD n 0))

/-- Metric differences of a beam over a row: the samples at its alignment less the cross-track term, through the trellis (R152);
`inner` and `outer` empty leave the term out. -/
def beamDiffs (c : Ch) (p : TilePos) (q b : Nat) (row : RowBuf) (al : Int) (prior inner outer : List Int) (s : State) : List Int :=
  let amp := s.get (DET_TARGET_AMP.at c)
  let cl := coupling c b 0 s
  let cr := coupling c b 1 s
  let y := row.y.getD b []
  maxLogMap amp (targetG c s) ((rowPositions p q).zipIdx.map (fun (pos, n) =>
    let m := (n : Int) + al
    ({ z := 65536 * (if m < 0 then 0 else y.getD m.toNat 0) - crossTerm amp cl cr inner outer n
       prior := prior.getD n 0, known := knownBit p pos } : DetBit)))

/-- The ratios of a slot's code channel bits from the metric differences of its row (R155, R156, R167). -/
def codeRatios (c : Ch) (p : TilePos) (q : Fin 8) (b : Beam) (row : RowBuf) (diffs : List Int) (s : State) : List Int :=
  let a := (rowSpan p q.val).1
  let llr := s.get (DET_XT_LLR_SCALE.at c)
  let nb := s.get (DET_XT_NB_SCALE.at c)
  let inner := row.unk.getD (if b.val = 0 then 8 else b.val - 1) []
  let outer := row.unk.getD (if b.val = 7 then 9 else b.val + 1) []
  (sectorCode p q.val).map (fun pos =>
    if covers (row.flag.getD b.val []) pos then 0
    else scaleRatio llr nb (covers inner pos || covers outer pos) (diffs.getD (pos - a) 0))

/-- The ratios of the codeword of slot (`q`, `b`) from those of its code channel bits (R94, R155). -/
def slotRatios (p : TilePos) (q : Fin 8) (b : Beam) (code : List Int) : List Int :=
  codewordRatios 2322 (scrBits 37152 (scrSeed p.region (slotNo q b) p.tile)) code

/-- A-priori ratios at the positions of a row from those of its code channel bits (R157). -/
def placePriors (p : TilePos) (q : Fin 8) (l : List Int) : List Int :=
  let at' := (sectorCode p q.val).zip l
  (rowPositions p q.val).map (fun pos => ((at'.find? (fun x => x.1 == pos)).map (·.2)).getD 0)

/-- One global iteration over the eight beams of a row (R157): a codeword that has converged is not decoded again. -/
def jointIter (c : Ch) (p : TilePos) (q : Fin 8) (row : RowBuf) (it : Nat) (s : State) (js : List JBeam) : List JBeam :=
  let amp := s.get (DET_TARGET_AMP.at c)
  let softOf := fun (n : Nat) => ((js[n]?).map (·.soft)).getD []
  (List.finRange 8).map (fun (b : Beam) =>
    let j := (js[b.val]?).getD ⟨0, false, [], [], none⟩
    match j.conv with
    | some _ => j
    | none =>
      let inner := if b.val = 0 then sumSoft amp p q.val 8 row else softOf (b.val - 1)
      let outer := if b.val = 7 then sumSoft amp p q.val 9 row else softOf (b.val + 1)
      let d := beamDiffs c p q.val b.val row j.al j.prior inner outer s
      let code := codeRatios c p q b row d s
      let r := slotRatios p q b code
      if !j.dec then { j with soft := rowSoft p q.val b.val row d }
      else match ldpcDecode it r with
        | some (w, n) => { j with soft := exactSoft p q b row w, conv := some (w, n, correctedBits r w) }
        | none => { j with
            soft := rowSoft p q.val b.val row d
            prior := placePriors p q (Config.channelPriors (ldpcExtrinsic it r) code) })

/-- `gl` global iterations. -/
def jointRun (c : Ch) (p : TilePos) (q : Fin 8) (row : RowBuf) (it : Nat) (s : State) : Nat → List JBeam → List JBeam
  | 0, js => js
  | gl + 1, js => jointRun c p q row it s gl (jointIter c p q row it s js)

/-- The alignments of a slot, relative to the predicted one, in the order of R147. DEDUCED: one holds for the whole sector
(log 158). -/
def alignments (x : Slot) (lineOnly : Bool) : List Int :=
  match x.sync with
  | 0 => [x.syncD]
  | 1 => [x.syncD, 0]
  | _ => if lineOnly then [0] else [0, 1, -1, 2, -2, 3, -3, 4, -4]

/-- The beams of a row before the first global iteration: the preliminary pass without the cross-track term (R157). A slot accepted
in an earlier attempt of the ladder is known already. -/
def jointStart (c : Ch) (t : TileRead) (q : Fin 8) (row : RowBuf) (s : State) : List JBeam :=
  (List.finRange 8).map (fun (b : Beam) =>
    let x := t.slots.getD (slotNo q b) {}
    let al := (alignments x (t.lineOnly.contains q.val)).headD 0
    let known := decide (t.rung ≠ 0 ∧ x.st = .accepted)
    let w := ldpcEncode x.content
    let dec := x.st == .decoding || x.st == .accepted || x.st == .failed || x.st == .erased 3
    if known then { al, dec, prior := [], soft := exactSoft t.pos q b row w, conv := some (w, 0, 0) }
    else { al, dec, prior := [], conv := none
           soft := rowSoft t.pos q.val b.val row (beamDiffs c t.pos q.val b.val row al [] [] [] s) })

/-- Decodes a codeword at one alignment: codeword, iterations, corrected bits (R157, R160). -/
def decodeAt (c : Ch) (t : TileRead) (q : Fin 8) (b : Beam) (row : RowBuf) (gl it : Nat) (a : Int) (s : State) :
    Option (Nat × Nat × Nat) :=
  let js := (jointStart c t q row s).modify b.val (fun j => { j with al := a })
  ((jointRun c t.pos q row it s gl js)[b.val]?).bind (·.conv)

/-- Tries the alignments in their order; the answer names the one that won (R147). -/
def decodeTries (c : Ch) (t : TileRead) (q : Fin 8) (b : Beam) (row : RowBuf) (gl it : Nat) (s : State) :
    List Int → Nat → Option (Nat × Int × Nat × Nat × Nat)
  | [], _ => none
  | a :: as, k =>
    match decodeAt c t q b row gl it a s with
    | some (w, n, x) => some (k, a, w, n, x)
    | none => decodeTries c t q b row gl it s as (k + 1)

/-- The decode of a slot from the samples of its row: the in-line limits, or those of the ladder (R160, R163, R175). -/
def slotDecode (c : Ch) (t : TileRead) (q : Fin 8) (b : Beam) (retry : Bool) (s : State) :
    Option (Nat × Int × Nat × Nat × Nat) :=
  let lo := t.lineOnly.contains q.val
  let (gl, it) := iterLimits c retry s
  match t.rows.find? (fun r => r.q == q.val) with
  | none => none
  | some row => decodeTries c t q b row (if lo then 1 else gl) it s (alignments (t.slots.getD (slotNo q b) {}) lo) 0

/-! ### Results of decodes (R147, R148, R161, R215) -/

/-- Disc tag of the mounted disc (R100). -/
def discTag (c : Ch) (s : State) : Nat := s.get (DCM_DISC_LO_DISC.at c) % 65536

/-- Does a converged slot pass R161? -/
def slotGood (p : TilePos) (k tag : Nat) (l : List Byte) : Bool := isParity k || (headerOk p k tag l && guardOk l)

/-- The flywheel after a decode that converged (R148), with the counts of suspect syncs. DEDUCED: where the decode ends in a later
wedge, the reference held at that moment moves (log 149). -/
def syncWon (c : Ch) (b : Beam) (x : Slot) (k : Nat) (a : Int) (s : State) : State :=
  let move := fun (s : State) => s.onSig c (beamSig b) (fun g => { g with wref := g.wref + a })
  match x.sync, k with
  | 1, 0 => move (s.bump (DET_CNT_SYNC_DET_WIN.at c) 1)
  | 1, _ => s.bump (DET_CNT_SYNC_PRED_WIN.at c) 1
  | 2, 0 => s
  | 2, _ => move s
  | _, _ => s

/-- Verify reason of a converged slot (R215): VFY_ITER 0 acts as 1, above 12 as 12 (R225). -/
def verifyReason (c : Ch) (iters corrected : Nat) (s : State) : Nat :=
  if clampN 1 12 (s.get (WRC_VFY_VFY_ITER.at c)) < iters then 3
  else if s.get (WRC_VFY_VFY_BITS.at c) < corrected then 4 else 0

/-- The result of a slot's decode (R148, R161, R215). -/
def slotResult (c : Ch) (p : TilePos) (k rung : Nat) (r : Option (Nat × Int × Nat × Nat × Nat)) (x : Slot) (s : State) :
    Slot :=
  match r with
  | none => { x with st := .failed, reason := some 1 }
  | some (_, _, w, n, e) =>
    let l := ldpcBytes w
    if slotGood p k (discTag c s) l then
      { x with st := .accepted, content := l, iters := n, corrected := e, rung, reason := some (verifyReason c n e s) }
    else { x with st := .erased 3, content := [], iters := n, corrected := e, reason := some 2 }

/-- Frees the row buffers of rows whose eight slots are accepted, and the samples of rows decoded in line only once they are decoded
(R162, R163). -/
def freeRows (t : TileRead) : TileRead :=
  let buffers := t.buffers.filter (fun q =>
    !(t.slots.zipIdx.filter (fun (_, k) => k / 8 == q)).all (fun (x, _) => x.st == .accepted))
  { t with buffers, rows := t.rows.filter (fun r => buffers.contains r.q || (t.lineOnly.contains r.q && !rowSettled t r.q)) }

/-- The tile a decode of row `q` belongs to: the one read before, while it still decodes, else the one after it. -/
def decodesPrev (c : Ch) (k : Nat) (s : State) : Bool := match (s.chan c).rdc.prev with
  | some t => (t.slots.getD k {}).st == .decoding && t.rung == 0
  | none => false

/-- A slot takes the result of its decode; a suspect sync whose slot fails sets SYNC_SUSPECT (R147). -/
def setResult (k : Nat) (y : Slot) (t : TileRead) : TileRead :=
  { onSlot k (fun _ => y) t with suspect := t.suspect || (y.st == .failed && y.sync == 1) }

/-- LDPC_DECODE_DONE (R147, R159, R161): the in-line decode of the codeword of row `q` on beam `b` ends. -/
def execLdpcDecodeDone (c : Ch) (q : Fin 8) (b : Beam) (s : State) : Out := gate s <|
  let k := slotNo q b
  let prev := decodesPrev c k s
  .next (match whichTile c prev s with
  | none => s
  | some t =>
    let x := t.slots.getD k {}
    if x.st ≠ .decoding then s
    else
      let res := slotDecode c t q b false s
      let y := slotResult c t.pos k 0 res x s
      let s := match res with
        | some (n, a, _, _, _) => syncWon c b x n a s
        | none => s.bump (DET_CNT_LDPC_FAIL_INLINE.at c) 1
      let s := if y.st = .erased 3 then s.bump (DET_CNT_ERASE_HEADER.at c) 1 else s
      onWhich c prev (fun t => freeRows (setResult k y t)) s)

/-! ### The outer decode and the ladder (R151, R170–R179) -/

/-- Numbers of the erased slots of a tile (R169): every slot not accepted. -/
def erasedSlots (t : TileRead) : List Nat :=
  (t.slots.zipIdx.filter (fun (x, _) => x.st != .accepted)).map (·.2)

/-- Is the tile slot blank (R151)? -/
def isBlank (t : TileRead) : Bool := !t.wsyncSeen && !t.modulated

/-- The tile after an outer decode (R170, R171): all data slots take the decoded content when it decodes. A home slot of a relocated
block did not become available by it: the block stands in its spare slot (R114, R177). DESIGN CHOICE: u of a decode that fails,
which UNFLAGGED shows, is 0 (log 150). -/
def outerTile (t : TileRead) : TileRead × Nat :=
  match outerDecode (erasedSlots t) (t.slots.map (·.content)) with
  | none => ({ t with decoded := false }, 0)
  | some l =>
    let u := ((t.slots.zip l).filter (fun (x, y) => x.st == .accepted && x.content != y)).length
    ({ t with
        decoded := true
        slots := (t.slots.zip l).map (fun (x, y) =>
          if x.st = .accepted then { x with content := y }
          else { x with st := .accepted, content := y, rung := if x.st = .erased 7 then 0 else t.rung }) }, u)

/-- Needed data indices still missing. -/
def missing (t : TileRead) : List Nat :=
  t.needed.filter (fun i => (t.slots.getD (slotOfIdx i) {}).st != .accepted)

/-- Layer and zone of a tile, for a fault. -/
def tileZone (p : TilePos) : Option (Nat × Nat) := some (p.layer, p.zone)

/-- Queues a block of a read for relocation (R177, R220). -/
def queueReloc (c : Ch) (p : TilePos) (k : Nat) (l : List Byte) (s : State) : State :=
  let spare := p.region == 1 || slotKind l == 3
  let blk : RelocBlk :=
    { layer := p.layer, zone := p.zone
      homeRegion := if spare then bitsOf 7 6 (field l 4120 1) else p.region
      homeTile := if spare then field l 4118 2 else p.tile
      homeSlot := if spare then bitsOf 5 0 (field l 4120 1) else k
      homeContent := if spare then field l 4121 1 else slotKind l
      data := l.take 4112, tries := 0, fromVerify := false, waited := 0 }
  if (s.chan c).wrc.reloc.length < 1024 then
    showReloc c (s.onWrc c (fun w => { w with reloc := w.reloc ++ [blk] }))
  else s.bump (WRC_CNT_RELOC_READ_DROP.at c) 1

/-- Schedules the slots that rung 3 or 4 recovered (R177); a fill block is no block to relocate. -/
def scheduleReloc (c : Ch) (t : TileRead) (s : State) : TileRead × State :=
  let late := t.slots.zipIdx.filter (fun (x, _) => x.st == .accepted && (x.rung == 3 || x.rung == 4))
  let s := late.foldl (fun s (x, k) =>
    if isParity k then s.bump (DET_CNT_RELOC_WEAK_PARITY.at c) 1
    else if slotKind x.content = 0 then s
    else queueReloc c t.pos k x.content (s.bump (DET_CNT_RELOC_RELOC.at c) 1)) s
  (if late.any (fun (x, k) => !isParity k && slotKind x.content != 0) then { t with reloc := true } else t, s)

/-- The tile status word, map and position (R179, R187). -/
def tileStatus (c : Ch) (t : TileRead) (rung u : Nat) (er : List Nat) (s : State) : State :=
  let w := rung * 2 ^ 29 + b2n t.suspect * 2 ^ 28 + b2n t.insertedAny * 2 ^ 27 + b2n t.flyLost * 2 ^ 26 +
    b2n (isBlank t) * 2 ^ 25 + b2n t.reloc * 2 ^ 24 + er.length * 2 ^ 8 + u
  let m := er.foldl (fun a k => a + 2 ^ k) 0
  let s := s.put (DET_LAST_TILE.at c) w
  let s := (s.put (DET_LAST_ERASED_LO.at c) (m % 2 ^ 32)).put (DET_LAST_ERASED_HI.at c) (m / 2 ^ 32)
  s.put (DET_LAST_POS.at c) (t.pos.tile % 65536 * 65536 + t.pos.region * 256 + t.pos.zone * 16 + t.pos.layer)

/-- What a tile delivers (R14, R171); `partly`: its ladder still runs. -/
def outTile (partly : Bool) (t : TileRead) : OutTile :=
  { pos := t.pos, blank := isBlank t, failed := if partly then [] else missing t, partly
    blocks := (t.slots.zipIdx.filter (fun (x, k) => !isParity k && x.st == .accepted)).map (fun (x, k) => (dataIdx k, x.content)) }

/-- A tile enters the output buffer, in place of what it delivered before (R171, R172). -/
def deliver (o : OutTile) (r : Rdc) : Rdc := { r with outBuf := r.outBuf.filter (fun u => u.pos ≠ o.pos) ++ [o] }

/-- Finishes a tile: status, relocations, output buffer, the rung's OK count, the end of rung 4's MARGIN (R176–R179). -/
def finishTile (c : Ch) (t : TileRead) (u : Nat) (er : List Nat) (s : State) : State :=
  let lost := !isBlank t && !(missing t).isEmpty
  let (t, s) := scheduleReloc c t s
  let s := tileStatus c t (if lost then 7 else t.rung) u er s
  let s := if lost then (s.raise ⟨.det, c⟩ 1).faultCh 36 c .det (tileZone t.pos)
    else if t.rung = 0 then s else s.bump ((DET_RUNGk_OK.at c).i (t.rung - 1)) 1
  let s := match t.endTaps with
    | some l => if t.rung = 0 ∧ !lost ∧ !t.verify then
        let key := 8 * t.pos.layer + t.pos.zone
        s.onDcm c (fun d => { d with taps := d.taps.filter (fun p => p.1 != key) ++ [(key, l)] }) else s
    | none => s
  let s := if t.rung = 4 ∨ t.rung = 5 then ladderMarginEnd c s else s
  s.onRdc c (fun r => deliver (outTile false t) { r with prev := none })

/-- The relocations of the mounted disc whose spare slot lies in a spare tile, by data index (R115). -/
def sparedAt (p : TilePos) (l : List Nat) : List (Nat × Nat) :=
  (l.filter (fun e => bitsOf 3 0 e == p.layer && bitsOf 6 4 e == p.zone && bitsOf 47 32 e == p.tile)).map (fun e =>
    (dataIdx (bitsOf 53 48 e), e))

/-- Does rung 5 apply to a tile (R174): is the disc a member of a stripe set, and is a needed block that is missing homed in a data
tile slot? -/
def rung5Applies (c : Ch) (t : TileRead) (s : State) : Bool :=
  let d := s.get (DCM_DISC_HI_DISC.at c) * 2 ^ 32 + s.get (DCM_DISC_LO_DISC.at c)
  s.str.sets.any (fun k => k.members.contains d) &&
    (t.pos.region == 0 || (t.pos.region == 1 && (missing t).any (fun i =>
      (sparedAt t.pos (s.chan c).dcm.spares).any (fun (j, e) => j == i && bitsOf 31 30 e == 0))))

/-- MAX_RUNG in use (R174): 6 and 7 act as 5; rung 5 only where it applies. -/
def maxRung (c : Ch) (t : TileRead) (s : State) : Nat :=
  let m := min 5 (s.get (DET_LADDER_MAX_RUNG.at c))
  if rung5Applies c t s then m else min 4 m

/-- Attempts a rung allows (R176). -/
def rungTries (c : Ch) (rung : Nat) (s : State) : Nat :=
  match rung with
  | 3 => 8
  | 4 => s.get (DET_LADDER_MARGIN_READS.at c)
  | _ => 1

/-- The actions that begin an attempt of rungs 2 to 4 (R175, R176). While another tile slot lies under the pickup the jump back waits
for its end (DEDUCED, log 162). -/
def attemptStart (c : Ch) (rung : Nat) (s : State) : State :=
  let s := if rung = 2 ∨ rung = 4 then restartAll c s else s
  if 2 ≤ rung ∧ rung ≤ 4 then
    if slotUnder c s then s.onRdc c (fun r => { r with jumpDue := true }) else jumpBack c s
  else s

/-- Enters the next rung at or above `rung`, or ends the ladder (R174, R176, R178); on fuel. -/
def enterRung (c : Ch) (t : TileRead) (u : Nat) (er : List Nat) : Nat → Nat → State → State
  | 0, _, s => finishTile c t u er s
  | f + 1, rung, s =>
    if maxRung c t s < rung then finishTile c t u er s
    else if rungTries c rung s = 0 then enterRung c t u er f (rung + 1) s
    else
      let s := s.bump ((DET_RUNGk_TRY.at c).i (rung - 1)) 1
      let s := if rung = 4 then ladderMargin c s else s
      let t := { t with rung, attempt := 0, rereading := false }
      attemptStart c rung (s.onRdc c (fun r => deliver (outTile true t) { r with prev := some t }))

/-- What follows the outer decode of a tile: `z` is the tile after it and the count of accepted contents it changed, `er`
the slots that were erased before it (R170–R178). In WRITE mode the ladder does not run (R173): a tile that needs it waits
(DEDUCED, log 164). -/
def outerJudge (c : Ch) (er : List Nat) (z : TileRead × Nat) (s : State) : State :=
  let (t, u) := z
  if t.decoded || isBlank t || (missing t).isEmpty then finishTile c t u er s
  else if s.mode c = mWRITE then s.onRdc c (deliver (outTile true t))
  else if t.rung = 0 then enterRung c t u er 6 1 s
  else if t.attempt + 1 < rungTries c t.rung s then
    attemptStart c t.rung
      (s.onRdc c (fun r => deliver (outTile true t) { r with prev := some { t with attempt := t.attempt + 1, rereading := false } }))
  else enterRung c t u er 6 (t.rung + 1) s

/-- The outer decode after an attempt (or in line) and what follows it (R170–R178). -/
def outerStep (c : Ch) (t : TileRead) (s : State) : State := outerJudge c (erasedSlots t) (outerTile t) s

/-- OUTER_DECODE_DONE (R170–R172): the oldest tile read whose codewords all have a result. -/
def execOuterDecodeDone (c : Ch) (s : State) : Out := gate s <|
  let r := (s.chan c).rdc
  .next (match r.prev, r.tile with
  | some t, _ => if t.rung = 0 ∧ ¬t.verify ∧ tileSettled t then outerStep c t s else s
  | none, some t =>
    if ¬t.verify ∧ ¬t.arm ∧ tileSettled t ∧ t.rowsEnd ≤ t.rowsDone then
      outerStep c t (s.onRdc c (fun r => { r with tile := none, prev := some t }))
    else s
  | none, none => s)

/-- Is a slot decoded in an attempt of the ladder (R163, R175, R176)? At rung 1 the failed slots of rows with samples in the store,
at rungs 2 to 4 those that the re-read brought (DEDUCED, log 161). -/
def retried (t : TileRead) (q : Nat) (x : Slot) : Bool :=
  if t.rung = 1 then x.st == .failed && t.buffers.contains q else x.st == .decoding

/-- Merges the decodes of a ladder attempt: slots already accepted keep their content (R175). -/
def mergeAttempt (c : Ch) (t : TileRead) (s : State) : TileRead × State :=
  (List.finRange 64).foldl (fun (t, s) (k : Fin 64) =>
    let q : Fin 8 := ⟨k.val / 8, by omega⟩
    let b : Beam := ⟨k.val % 8, by omega⟩
    let x := t.slots.getD k.val {}
    if !retried t q.val x then (t, s)
    else
      let y := slotResult c t.pos k.val t.rung (slotDecode c t q b true s) x s
      (setResult k.val y t, if y.st = .erased 3 then s.bump (DET_CNT_ERASE_HEADER.at c) 1 else s)) (t, s)

/-- LADDER_REREAD (R175): the decodes of an attempt have ended; of a re-read, once its eight rows are complete. In WRITE mode the
ladder does not run (R173). -/
def execLadderReread (c : Ch) (s : State) : Out := gate s <|
  .next (match (s.chan c).rdc.prev with
  | none => s
  | some t =>
    let due := t.rung = 1 ∨ (2 ≤ t.rung ∧ t.rung ≤ 4 ∧ t.rereading ∧ ¬t.arm ∧ ¬t.reading ∧ t.rowsEnd ≤ t.rowsDone)
    if due ∧ s.mode c ≠ mWRITE then
      let (t, s) := mergeAttempt c t s
      outerStep c (freeRows { t with rereading := false }) s
    else s)

end Sys2Proof.Machine
end

