-- ==== Sys2Proof/Machine/WriteChannel.lean ====
section
/-! DEFINITION. The write channel (R191–R223): write-strategy codes, the driver's control port and level banks, power
control, the arming of a write, the verify of a tile, relocation and LSAFE_N. -/

namespace Sys2Proof.Machine

open Reg

/-! ### Channel bits and write-strategy codes (R110, R197–R199) -/

/-- The channel bits of one track of a tile slot from the bits of its eight sectors, position by position; on fuel. -/
def trackBits (p : TilePos) : Nat → Nat → List Bool → List Bool
  | 0, _, _ => []
  | f + 1, pos, secs =>
    if inField p pos then
      let (w, k) := wedgeAt p pos
      (wedgeField w p.layer p.zone).getD k false :: trackBits p f (pos + 1) secs
    else if (sectorAt p pos).isSome then secs.headD false :: trackBits p f (pos + 1) (secs.drop 1)
    else fillBit p pos :: trackBits p f (pos + 1) secs

/-- The channel bits of beam `b` of a tile slot (R91, R108). -/
def tileTrack (t : WTile) (b : Nat) : List Bool :=
  let secs := (List.range 8).flatMap (fun q =>
    sectorBits t.pos.region (8 * q + b) t.pos.tile (ldpcEncode (t.slots.getD (8 * q + b) [])))
  trackBits t.pos (tileBits t.pos) 0 secs

/-- Runs of equal bits with their lengths. -/
def runsOf : List Bool → List (Bool × Nat)
  | [] => []
  | b :: bs => match runsOf bs with
    | (x, n) :: r => if x = b then (x, n + 1) :: r else (b, 1) :: (x, n) :: r
    | [] => [(b, 1)]

/-- Class of a run length (R199). -/
def runClass (n : Nat) : Nat := min n 4 - 1

/-- E of a table entry: 3-bit two's complement, 0b100 acting as −3 (R228), as the code's bits 2:0. -/
def edgeCode (entries : List Nat) (k : Nat) : Nat := let e := entries.getD k 0; if e = 4 then 5 else e

/-- The codes of the runs, given the class of the run before (R197–R199). -/
def runCodes (lead trail : List Nat) : Nat → List (Bool × Nat) → List Nat
  | _, [] => []
  | prev, (m, n) :: r =>
    let k := runClass n
    let first := if m then 8 + edgeCode lead (4 * prev + k) else edgeCode trail (4 * prev + k)
    (first :: List.replicate (n - 1) (if m then 8 else 0)) ++ runCodes lead trail k r

/-- The codes of a track: the run before the first bit counts as a space of class 3, and a first space is no edge. -/
def trackCodes (lead trail : List Nat) (bits : List Bool) : List Nat :=
  match runsOf bits with
  | (false, n) :: r => List.replicate n 0 ++ runCodes lead trail (max (runClass n) (runClass n)) r
  | r => runCodes lead trail 3 r

/-- Entries of a table from its two registers (R228). -/
def tableEntries (lo hi : Nat) : List Nat :=
  (List.range 8).map (fun k => bitsOf (3 * k + 2) (3 * k) lo) ++ (List.range 8).map (fun k => bitsOf (3 * k + 2) (3 * k) hi)

/-- The codes of the channel bits of the slot being written on lane Db. With nothing being written the lanes carry READ,
after one BANK when it has just been sent (R197, R201, R208). -/
def laneCodes (c : Ch) (b : Nat) (s : State) : List Nat :=
  let f := fun (x : Fld) => s.get ((x.at c).i b)
  match (s.chan c).wrc.writing with
  | some t => if (s.chan c).wrc.lanesRead then List.replicate (tileBits t.pos) 4
    else trackCodes (tableEntries (f WRC_LEAD_LO_ENTRIES) (f WRC_LEAD_HI_ENTRIES))
      (tableEntries (f WRC_TRAIL_LO_ENTRIES) (f WRC_TRAIL_HI_ENTRIES)) (tileTrack t b)
  | none => if (s.chan c).wrc.bankSent then [12, 4] else [4]

/-- The code lane Db carries `t8` eighths of T after the bit clock reached bit 0 of the slot: the code of channel bit n goes
out when it reaches bit n − ADV, delayed by FINE × T/8 (R201). -/
def laneAt (c : Ch) (b : Nat) (t8 : Int) (s : State) : Nat :=
  let f := fun (x : Fld) => s.get ((x.at c).i b)
  let n := fdiv (t8 - f WRC_EMIT_FINE) 8 + f WRC_EMIT_ADV
  if (s.chan c).wrc.writing.isSome ∧ 0 ≤ n then (laneCodes c b s).getD n.toNat 4 else 4

/-- The four lane bits of a code, M first (R200). -/
def laneBits (code : Nat) : List Bool := [bitOf 3 code, bitOf 2 code, bitOf 1 code, bitOf 0 code]

/-! ### Building tiles (R97–R106) -/

/-- A tile of data slots: by data index the CONTENT, the 4,112 bytes of data and seal, and the home fields; slots
without one hold fill blocks (R106). Its fill into the tile buffer is still to end (R13). -/
def buildTile (p : TilePos) (tag writer : Nat) (blocks : Nat → Option (Nat × List Byte × Nat × Nat × Nat)) : WTile :=
  let data := (List.range 56).map (fun i =>
    let k := slotOfIdx i
    match blocks i with
    | some (kind, l, ht, hs, hc) => (kind, padTo 4112 l ++ headerBytes p k kind ht hs hc tag)
    | none => (0, fillBlock writer ++ headerBytes p k 0 0 0 0 tag))
  let par := outerParity (data.map (·.2))
  { pos := p, whole := false, kinds := data.map (·.1)
    slots := (List.range 64).map (fun k => if isParity k then par.getD (k / 9) [] else (data.getD (dataIdx k) (0, [])).2) }

/-! ### The driver control port (R203–R209) -/

/-- The 32 bits of a frame to the driver (R203). -/
def frameWord (f : DrvFrame) : Nat :=
  let h := b2n f.write * 128 + f.addr % 128
  let d := if f.write then f.data else 0
  let b : List Byte := [BitVec.ofNat 8 h, BitVec.ofNat 8 (d / 256), BitVec.ofNat 8 d]
  h * 2 ^ 24 + d % 65536 * 256 + crc8 b

/-- Has a response a good CRC (R203)? -/
def respOk (r : BitVec 32) : Bool :=
  let n := r.toNat
  crc8 [BitVec.ofNat 8 (n / 2 ^ 24), BitVec.ofNat 8 (n / 2 ^ 16), BitVec.ofNat 8 (n / 2 ^ 8)] == n % 256

/-- The link to the driver has failed (R204). -/
def linkFail (c : Ch) (s : State) : State :=
  let s := (s.putb (WRC_STAT_LSAFE.at c) true).putb (WRC_STAT_LINK_OK.at c) false
  ((abortWrite c 7 s).raise ⟨.wrc, c⟩ 5).faultCh 13 c .wrc

/-- A status byte that arrived whole (R205, R209). -/
def statusByte (c : Ch) (st : Nat) (s : State) : State :=
  let s := s.put (WRC_STAT_DRV_STATUS.at c) st
  let s := if st % 4 = 0 then s else abortWrite c 6 s
  if (s.chan c).wrc.swapCheck then
    let s := s.onWrc c (fun w => { w with swapCheck := false })
    if bitOf 4 st = s.getb (WRC_STAT_BANK.at c) then s else linkFail c s
  else s

/-- A frame whose answer was right: a level write is echo-checked (R209). -/
def frameDone (c : Ch) (f : DrvFrame) (s : State) : State :=
  if f.write ∧ 0x10 ≤ f.addr ∧ f.addr < 0x28 then
    s.onWrc c (fun w => { w with
      inactive := w.inactive.set (f.addr - 0x10) f.data, checked := w.checked.set (f.addr - 0x10) true })
  else s

/-- DRIVER_FRAME (R203, R204): the frame in flight completes; its response answers the frame before it. -/
def execDriverFrame (c : Ch) (resp : BitVec 32) (s : State) : Out := gate s <|
  let w := (s.chan c).wrc
  .next (match w.frame, w.due with
  | none, [] => s
  | fr, due =>
    let f := fr.getD (due.headD { write := false, addr := 0, data := 0 })
    let s := s.onWrc c (fun w => { w with
      frame := none, due := if fr.isSome then due else due.drop 1, lastFrameTick := s.now, prevFrame := some f })
    let st := bitsOf 31 24 resp.toNat
    let echo := bitsOf 23 8 resp.toNat
    let crc := respOk resp
    let s := if crc then statusByte c st s else s
    match w.prevFrame with
    | none => if crc && !bitOf 2 st then s.putb (WRC_STAT_LINK_OK.at c) true else s
    | some a =>
      if crc && !bitOf 2 st && (!a.write || echo == a.data) then frameDone c a (s.putb (WRC_STAT_LINK_OK.at c) true)
      else if 2 ≤ a.tries then linkFail c s
      else
        let s := s.bump (WRC_CNT_MISC_LINK_RETRY.at c) 1
        s.onWrc c (fun w => { w with due := { a with tries := a.tries + 1 } :: w.due }))

/-- DRIVER_STATUS_POLL (R204): no other frame is due, so STATUS is read. -/
def execDriverStatusPoll (c : Ch) (s : State) : Out := gate s <|
  let w := (s.chan c).wrc
  .next (if w.frame.isNone ∧ w.due = [] then
      s.onWrc c (fun w => { w with frame := some { write := false, addr := 0, data := 0 }, lastFrameTick := s.now })
    else s)

/-- Is the inactive bank echo-checked whole, with no level due to change (R209)? -/
def bankReady (c : Ch) (s : State) : Bool :=
  let w := (s.chan c).wrc
  (List.range 24).all (fun k => w.checked.getD k false && w.inactive.getD k 0 == levelOf c k s)

/-- BANK_SWAP (R208, R209, R217): BANK goes out on the last fill bit of a slot or during READ codes; the frames of the
other bank then fall due, and the changes of ADV take effect. -/
def execBankSwap (c : Ch) (s : State) : Out := gate s <|
  let w := (s.chan c).wrc
  .next (if w.writing.isSome ∨ ¬w.lanesRead ∨ (s.mode c ≠ mWRITE ∧ s.mode c ≠ mCAL) then s
    else if bankReady c s then
      let s := s.onWrc c (fun w => { w with
        active := w.inactive, inactive := w.active, checked := List.replicate 24 false, swapCheck := true, bankOk := true
        bankSent := true
        advPend := List.replicate 8 0 })
      let s := s.each (List.range 8) (fun s b =>
        let f := (WRC_EMIT_ADV.at c).i b
        s.puti f (s.get f + w.advPend.getD b 0))
      levelFrames c (s.putb (WRC_STAT_BANK.at c) (!s.getb (WRC_STAT_BANK.at c)))
    else levelFrames c s)

/-! ### Power control (R211–R213) -/

/-- A scale moved by the monitor's mean and expected value (R211, R212): new value and whether a limit was reached. -/
def scaleStep (v : Nat) (m mexp : Rat) (gain : Nat) : Nat × Bool :=
  let d : Int := if mexp = 0 then Config.scaleNoMean v m else rndQ ((v : Rat) * (m - mexp) * gain / (16 * 256 * mexp))
  let n := clamp 13107 20480 ((v : Int) - d)
  (n.toNat, n == 13107 || n == 20480)

/-- Mean of the samples of a /16 period. -/
def sampleMean (l : List Nat) : Rat := (l.sum : Rat) / (16 : Rat)

/-- The sum over the emitters of the PEAK and BIAS in use, each weighted by the fraction of the emitter's `bits` bits sent as
mark or space (R211). -/
def sentPower (c : Ch) (sent : List (Nat × Nat)) (bits : Nat) (s : State) : Rat :=
  let a := (s.chan c).wrc.active
  (((List.range 8).map (fun b =>
    let (m, p) := sent.getD b (0, 0)
    a.getD b 0 * m + a.getD (8 + b) 0 * p)).sum : Rat) / (bits : Rat)

/-- APC_UPDATE (R211). How the monitor gain turns levels into LMON codes the spec does not state: a free value (log 135). -/
def execApcUpdate (c : Ch) (lmon : List Nat) (sent : List (Nat × Nat)) (bits : Nat) (s : State) : Out := gate s <|
  .next (if s.getb (WRC_CTL_APC_EN.at c) ∧ s.mode c = mWRITE then
      let mexp := Config.monitorCodes false (s.geti (CAL_MON_LMON_GAIN.i c.val)) (sentPower c sent bits s)
      let (v, lim) := scaleStep (s.get (WRC_SCALE_WSCALE.at c)) (sampleMean lmon) mexp (s.get (WRC_APC_APC_GAIN.at c))
      let s := s.put (WRC_SCALE_WSCALE.at c) v
      if lim then s.raise ⟨.wrc, c⟩ 3 else s
    else s)

/-- Is the read laser on (R372)? -/
def readLaser (c : Ch) (s : State) : Bool := let m := s.mode c; decide (2 ≤ m ∧ m ≤ 9)

/-- RAPC_UPDATE (R212): the mean of RMON against RREAD_BASE, turned into RMON codes by the monitor gain as in R211 (log 135);
RLEVEL follows by at most ±0.5 % of its previous value (log 81). -/
def execRapcUpdate (c : Ch) (rmon : List Nat) (s : State) : Out := gate s <|
  .next (if s.getb (WRC_CTL_RAPC_EN.at c) ∧ readLaser c s then
      let mexp := Config.monitorCodes true (s.geti (CAL_MON_RMON_GAIN.i c.val)) (s.get (WRC_RLASER_RREAD_BASE.at c))
      let (v, lim) := scaleStep (s.get (WRC_SCALE_RSCALE.at c)) (sampleMean rmon) mexp (s.get (WRC_APC_RAPC_GAIN.at c))
      let s := s.put (WRC_SCALE_RSCALE.at c) v
      let s := if lim then s.raise ⟨.wrc, c⟩ 3 else s
      let old := (s.chan c).wrc.rlevel
      let lvl := clampN (old - old / 200) (old + old / 200) (readLevel c s)
      if lvl = old then s else driverDue c 2 lvl (s.onWrc c (fun w => { w with rlevel := lvl }))
    else s)

/-- The running power offset of one emitter after a verified tile, with mean m = `sum`/8 over its slots (R213). MEAN_Q shows
4 × m rounded to nearest, and at most 255 (log 136). -/
def rpcBeam (c : Ch) (b : Nat) (sum : Nat) (s : State) : State :=
  let f := (WRC_BSTAT_RPC_OFS.at c).i b
  let s := s.put ((WRC_BSTAT_MEAN_Q.at c).i b) (min 255 (rnd (sum : Int) 2).toNat)
  if !s.getb (WRC_CTL_RPC_EN.at c) then s
  else
    let lim : Int := s.get (WRC_RPC_RPC_LIMIT.at c)
    let ofs := s.geti f
    let set := fun (z : Int) (s : State) =>
      let z := clamp (-lim) lim z
      let s := s.puti f z
      if z = lim ∨ z = -lim then (s.raise ⟨.wrc, c⟩ 4).faultCh 14 c .wrc else s
    let low := decide (sum < 2 * s.get (WRC_RPC_RPC_LO.at c))
    let n := if low then (s.chan c).wrc.lowRuns.getD b 0 + 1 else 0
    let hit := decide (atLeast1 (WRC_RPC_RPC_N.at c) s ≤ n)
    let s := s.onWrc c (fun w => { w with lowRuns := w.lowRuns.set b (if hit then 0 else n) })
    if 2 * s.get (WRC_RPC_RPC_HI.at c) < sum then set (ofs + 1) s
    else if hit then set (ofs - 1) s
    else s

/-- The running power control after a verified tile (R213): a slot that did not converge counts as 13. -/
def rpcTile (c : Ch) (t : TileRead) (s : State) : State :=
  s.each (List.range 8) (fun s b =>
    let l := t.slots.zipIdx.filter (fun (_, k) => k % 8 == b)
    rpcBeam c b ((l.map (fun (x, _) => if x.iters = 0 then 13 else x.iters)).sum) s)

/-! ### Arming a write (R192–R194) -/

/-- The base levels of every emitter are in order (R193). -/
def basesOk (c : Ch) (s : State) : Bool :=
  (List.range 8).all (fun b =>
    let r := s.get ((WRC_READLVL_READ_BASE.at c).i b)
    let i := s.get ((WRC_LEVEL_BIAS_BASE.at c).i b)
    decide (r ≤ i ∧ i ≤ s.get ((WRC_LEVEL_PEAK_BASE.at c).i b)))

/-- The conditions of R193 but the address and the buffer. No frame of the pulse-shape table may still be due or unanswered
(R207). -/
def writeReady (c : Ch) (s : State) : Bool :=
  let w := (s.chan c).wrc
  s.getb (WRC_CTL_WR_EN.at c) && !s.getb (WRC_STAT_LSAFE.at c) && s.getb (SRV_STAT_FOCUS_LOCK.at c) &&
    s.getb (SRV_STAT_TRACK_LOCK.at c) && s.getb (SRV_STAT_SPEED_OK.at c) && s.getb (WRC_STAT_LINK_OK.at c) &&
    s.get (WRC_STAT_DRV_STATUS.at c) % 4 == 0 && w.bankOk && basesOk c s &&
    !(w.due ++ w.frame.toList ++ w.prevFrame.toList).any (fun f => decide (0x40 ≤ f.addr))

/-- Arms the write of the head tile and its read for the verify (R173, R193, R214); its first wedge begins the writing. -/
def writeStart (c : Ch) (t : WTile) (s : State) : State :=
  let s := s.onWrc c (fun w => { w with
    bufs := w.bufs.drop 1, writing := some t, rowsWritten := 0, perrMax := 0 })
  let s := s.onRdc c (armTile (freshRead t.pos [] [] true))
  s.put (WRC_STAT_STATE.at c) 1

/-- TILE_WRITE_START (R193, R194): the tile at the head of the write buffer, at the tick boundary before its slot. -/
def execTileWriteStart (c : Ch) (p : TilePos) (s : State) : Out := gate s <|
  let w := (s.chan c).wrc
  let r := (s.chan c).rdc
  let idle := w.writing.isNone && w.abortPend.isNone && !w.stopped && s.mode c == mWRITE && coresRun s && !leaving c s &&
    !s.getb (DCM_STAT_TRANSFER_WAIT.at c) && s.get (SRV_STAT_RECOVERY.at c) == 0 && (r.tile.isNone || r.prev.isNone)
  .next (match idle, w.bufs with
  | true, t :: _ =>
    if t.pos ≠ p then s
    else if ¬t.whole then jumpBack c (s.bump (WRC_CNT_MISC_UNDERRUN.at c) 1)
    else if ¬writeReady c s then s
    else if ¬armed c p s then armFail c s
    else writeStart c t s
  | _, _ => s)

/-! ### Verify (R215–R218, R221) -/

/-- Is the spare ring of a layer and zone without a blank tile slot (R221)? -/
def spareFull (c : Ch) (layer zone : Nat) (s : State) : Bool :=
  decide (spareSlots.getD zone 0 ≤ allocNext (1, layer, zone) (s.chan c).dcm.alloc)
where
  /-- Next blank tile slot of a region (R382). -/
  allocNext (k : Nat × Nat × Nat) : List ((Nat × Nat × Nat) × Nat) → Nat
    | [] => 0
    | (j, n) :: r => if j = k then n else allocNext k r

/-- Raises SPARE_FULL and SPARE_EXHAUSTED once for a layer and zone of the mounted disc (R221). -/
def spareFullRaise (c : Ch) (layer zone : Nat) (s : State) : State :=
  if (s.chan c).wrc.fullSpares.contains (layer, zone) then s
  else
    let s := s.onWrc c (fun w => { w with fullSpares := w.fullSpares ++ [(layer, zone)] })
    (s.raise ⟨.wrc, c⟩ 6).faultCh 16 c .wrc (some (layer, zone))

/-- Slots of a tile that failed verify. -/
def failedSlots (t : TileRead) : List Nat :=
  (t.slots.zipIdx.filter (fun (x, _) => x.reason != some 0)).map (·.2)

/-- The blocks of failed data slots that hold no fill block, as relocation entries (R216, R219). -/
def failedBlocks (w : WTile) (failed : List Nat) : List RelocBlk :=
  (failed.filter (fun k => !isParity k && w.kinds.getD (dataIdx k) 0 != 0)).map (fun k =>
    match w.blocks.getD (dataIdx k) ⟨16, 0, 0, 0, 0, 0, [], 0, false, 0⟩ with
    | b => if w.pos.region = 1 then { b with tries := b.tries + 1, waited := 0 }
      else { layer := w.pos.layer, zone := w.pos.zone, homeRegion := w.pos.region, homeTile := w.pos.tile, homeSlot := k
             homeContent := w.kinds.getD (dataIdx k) 0, data := (w.slots.getD k []).take 4112, tries := 0
             fromVerify := true, waited := 0 })

/-- Do the failed slots of a tile allow the outcome verified with relocation (R216)? -/
def relocatable (c : Ch) (w : WTile) (fs : List Nat) (s : State) : Bool :=
  decide (w.perr ≤ 8) && decide (fs.length ≤ min 8 (s.get (WRC_VFY_TILE_MAX.at c))) &&
    decide ((fs.filter isParity).length ≤ s.get (WRC_VFY_PAR_MAX.at c))

/-- The outcome of a judged tile (R216, R220, R221). -/
def judge (c : Ch) (t : TileRead) (w : WTile) (s : State) : Nat :=
  let fs := failedSlots t
  let need := failedBlocks w fs
  if 8 < w.perr then 2
  else if fs = [] then 0
  else if relocatable c w fs s then
    (if need = [] then 1
     else if spareFull c w.pos.layer w.pos.zone s ∨ 1024 < (s.chan c).wrc.reloc.length + need.length then 2 else 1)
  else 2

/-- The verify log record of a judged tile (R218). -/
def verifyRecord (c : Ch) (t : TileRead) (outcome : Nat) (s : State) : VRecord :=
  let fs := failedSlots t
  { tick := s.stamp, discTag := discTag c s, pos := t.pos
    maxIter := t.slots.foldl (fun m x => max m x.iters) 0, failed := fs.length, outcome
    failMap := fs.foldl (fun a k => a + 2 ^ k) 0
    entries := t.slots.map (fun x => x.iters % 16 + min 4095 x.corrected * 16 + x.reason.getD 6 * 65536) }

/-- A spare tile that passed: its blocks enter the list of relocations, those that failed wait again, and after three
relocations a block is handed back (R219, R221). -/
def spareJudged (c : Ch) (w : WTile) (failed : List RelocBlk) (all : Bool) (s : State) : State :=
  let bad := fun (b : RelocBlk) => all || failed.any (fun f => f.homeTile == b.homeTile && f.homeSlot == b.homeSlot
    && f.homeRegion == b.homeRegion)
  let ok := (w.blocks.zipIdx.filter (fun (b, _) => !bad b))
  let again := (w.blocks.filter bad).map (fun b => { b with tries := b.tries + 1, waited := 0 })
  let back := again.filter (fun b => 3 ≤ b.tries)
  let wait := again.filter (fun b => b.tries < 3)
  let ents := ok.map (fun (b, i) =>
    spareEntry b.layer b.zone b.homeTile b.homeSlot b.homeRegion w.pos.tile (slotOfIdx i))
  let s := s.bump (WRC_CNT_RELOC_WRITTEN.at c) ok.length
  let s := s.onDcm c (fun d => { d with spares := d.spares ++ ents })
  showReloc c (s.onWrc c (fun k => { k with
    reloc := k.reloc ++ wait, spareList := k.spareList ++ ents
    relocDone := k.relocDone ++ ok.map (fun (b, _) => (b, true)) ++ back.map (fun b => (b, false)) }))

/-- The judgement of a tile (R213, R216–R219). -/
def judgeTile (c : Ch) (t : TileRead) (w : WTile) (s : State) : State :=
  let fs := failedSlots t
  let out := judge c t w s
  let need := failedBlocks w fs
  let s := s.bump (WRC_CNT_SLOT_PAR_FAIL.at c) (fs.filter isParity).length
  let s := s.bump (WRC_CNT_SLOT_DATA_FAIL.at c) (fs.filter (fun k => !isParity k)).length
  let s := vlogAdd c (verifyRecord c t out s) s
  let s := if need ≠ [] ∧ relocatable c w fs s ∧ spareFull c w.pos.layer w.pos.zone s then spareFullRaise c w.pos.layer w.pos.zone s else s
  let s := s.onWrc c (fun k => { k with
    reports := k.reports ++ [⟨w.pos, out, if out = 1 then need.map (fun b => dataIdx b.homeSlot) else [], 8⟩] })
  let s := if w.pos.region = 1 then spareJudged c w need (out == 2) s
    else if out = 1 then showReloc c (s.onWrc c (fun k => { k with reloc := k.reloc ++ need })) else s
  if out = 2 then
    let s := (s.bump (WRC_CNT_TILE_REWRITE.at c) 1).raise ⟨.wrc, c⟩ 2
    let n := (s.chan c).wrc.rewrites + 1
    if 3 ≤ n then
      (s.onWrc c (fun k => { k with rewrites := 0, stopped := true })).faultCh 15 c .wrc (some (w.pos.layer, w.pos.zone))
    else s.onWrc c (fun k => { k with rewrites := n })
  else rpcTile c t ((s.bump (WRC_CNT_TILE_VERIFIED.at c) 1).onWrc c (fun k => { k with rewrites := 0 }))

/-- The tile read for a verify, its slots that were written from an uncorrectable word failed (R603). -/
def spoil (w : WTile) (t : TileRead) : TileRead :=
  { t with slots := w.bad.foldl (fun l k => l.modify k (fun x =>
      if x.reason = some 0 then { x with reason := some 1 } else x)) t.slots }

/-- TILE_VERIFY_JUDGE (R216): the oldest tile written whose 64 slots all have a result. -/
def execTileVerifyJudge (c : Ch) (s : State) : Out := gate s <|
  let r := (s.chan c).rdc
  .next (match (s.chan c).wrc.judging with
  | [] => s
  | w :: rest =>
    let go := fun (t : TileRead) (s : State) => judgeTile c (spoil w t) w (s.onWrc c (fun k => { k with judging := rest }))
    let ready := fun (t : TileRead) => t.verify && decide (t.pos = w.pos) && tileSettled t && decide (t.rowsEnd ≤ t.rowsDone)
    match r.prev.filter ready, r.tile.filter ready with
    | some t, _ => go t (s.onRdc c (fun r => { r with prev := none }))
    | none, some t => go t (s.onRdc c (fun r => { r with tile := none }))
    | none, none => s)

/-! ### Relocation (R219) -/

/-- Waiting blocks of a layer and zone. -/
def waitingOf (l : List RelocBlk) (layer zone : Nat) : List RelocBlk := l.filter (fun b => b.layer == layer && b.zone == zone)

/-- The layer and zone whose spare tile is due (R219), the oldest block's first. -/
def spareDue (idle : Bool) (hold : Nat) (flush : Bool) (l : List RelocBlk) : Option (Nat × Nat) :=
  match l.find? (fun b => idle || flush || decide (hold ≤ b.waited) || decide (56 ≤ (waitingOf l b.layer b.zone).length)) with
  | some b => some (b.layer, b.zone)
  | none => none

/-- Sets the next blank tile slot of a region (R382). -/
def allocSet (k : Nat × Nat × Nat) (n : Nat) : List ((Nat × Nat × Nat) × Nat) → List ((Nat × Nat × Nat) × Nat)
  | [] => [(k, n)]
  | (j, m) :: r => if j = k then (k, n) :: r else (j, m) :: allocSet k n r

/-- Writer ID and generation of the part (R98, R482), kept with the drive's features. DESIGN CHOICE: a part that holds none still
writes metadata, fill and spare tiles on another part's disc, and puts 0 there (log 151). -/
def partWriter (s : State) : Nat := s.writer

/-- Tiles in the buffers of a write channel: the one being written and those that wait (R13). -/
def tilesHeld (w : Wrc) : Nat := w.bufs.length + b2n w.writing.isSome

/-- Puts a tile into a free buffer (R13). -/
def handTile (c : Ch) (t : WTile) (s : State) : State := s.onWrc c (fun w => { w with bufs := w.bufs ++ [t] })

/-- The fill of the oldest incomplete tile ends: the tile is wholly in its buffer (R13, R194). -/
def fillFirst : List WTile → List WTile
  | [] => []
  | t :: r => if t.whole then t :: fillFirst r else { t with whole := true } :: r

/-- The part of a tick that concerns the tile buffers and the lanes (R13, R208). -/
def bufferTick (c : Ch) (filled : Bool) (s : State) : State :=
  s.onWrc c (fun w => { w with bufs := if filled then fillFirst w.bufs else w.bufs, bankSent := false })

/-! ### LSAFE_N (R223) -/

/-- SAFE_CLR releases LSAFE_N once PWRFAIL_N has been high for 10 ms and every lane carries READ (R223). -/
def safeClrEffect (c : Ch) (s : State) : State :=
  if ¬s.pwr.pwrfailLow ∧ s.pwr.highSince + 4000 ≤ s.now ∧ (s.chan c).wrc.lanesRead then
    (s.putb (WRC_STAT_LSAFE.at c) false).putb (WRC_STAT_PWRFAIL_SEEN.at c) false
  else s

/-- The counters of WRC (R226). -/
def wrcCounters (c : Ch) : List Fld :=
  [WRC_CNT_TILE.at c, WRC_CNT_SLOT.at c, WRC_CNT_RELOC.at c, WRC_CNT_MISC.at c]

/-- The effect of a write of `v` to WRC_CTL. -/
def wrcCtlEffect (c : Ch) (v : W32) (s : State) : State :=
  let s := if bitOf 7 v.toNat then s.clearAll (wrcCounters c) else s
  if bitOf 6 v.toNat then safeClrEffect c s else s

end Sys2Proof.Machine
end

