-- ==== Sys2Proof/Machine/Disc.lean ====
section
/-! DEFINITION. Discs as the part sees them (R116–R122, R381, R382, R748, R750): which disc is in which channel, metadata
writes, and what the map and the stripe engine write there. -/

namespace Sys2Proof.Machine

open Reg

/-! ### Which disc is where -/

/-- DCM_DISC of a channel. -/
def discOf (c : Ch) (s : State) : Nat := s.get (DCM_DISC_HI_DISC.at c) * 2 ^ 32 + s.get (DCM_DISC_LO_DISC.at c)

/-- Sets DCM_DISC. -/
def setDisc (c : Ch) (d : Nat) (s : State) : State :=
  (s.put (DCM_DISC_LO_DISC.at c) (d % 2 ^ 32)).put (DCM_DISC_HI_DISC.at c) (d / 2 ^ 32 % 2 ^ 32)

/-- Writes DISC_LOADED of a channel (R381, R383), as the sequencer (R69). -/
def setLoaded (c : Ch) (b : Bool) (s : State) : State :=
  (s.seqPut (dcmOrigin c) (DCM_CTL_DISC_LOADED.at c) (b2n b)).putb (DCM_STAT_DISC_LOADED.at c) b

/-- Holds the channel a mounted disc, its mount complete? -/
def mounted (c : Ch) (s : State) : Bool := s.getb (DCM_CTL_DISC_LOADED.at c) && (s.chan c).dcm.mount.isNone

/-- The channel a disc is mounted in. -/
def chanOf (d : Nat) (s : State) : Option Ch :=
  if d = 0 then none else allCh.find? (fun c => mounted c s && discOf c s == d)

/-- UNMOUNT commands fetched and not ended for a channel (R480). -/
def unmounting (c : Ch) (s : State) : Option Ctx :=
  s.host.ctxs.find? (fun x => x.op == 0x84 && field x.entry 16 1 == c.val)

/-- Has a command begun media work? -/
def mediaBegun (x : Ctx) : Bool := x.since.isSome || x.placed

/-- The channel of a disc for a command: an UNMOUNT fetched earlier, or one that came before the command began media
work, hides it (R480). -/
def chanFor (x : Ctx) (d : Nat) (s : State) : Option Ch :=
  (chanOf d s).filter (fun c => match unmounting c s with
    | some u => decide (x.id < u.id) && mediaBegun x
    | none => true)

/-- Is the channel in a mode in which it transfers, with no fall-back or stop under way (R378)? -/
def chanWorks (c : Ch) (s : State) : Bool :=
  let m := s.mode c
  decide (2 ≤ m ∧ m ≤ 9) && (s.chan c).dcm.falling.isNone && !s.getb (DCM_STAT_STOPPED.at c)

/-- Can the channel's disc be written (R750)? -/
def canWrite (c : Ch) (s : State) : Bool :=
  s.getb (WRC_CTL_WR_EN.at c) && !s.getb (DCM_STAT_WRITE_BLOCK.at c) && !s.getb (WRC_STAT_LSAFE.at c)

/-- Next blank tile slot of a region (R382). -/
def nextBlank (c : Ch) (region layer zone : Nat) (s : State) : Nat :=
  spareFull.allocNext (region, layer, zone) (s.chan c).dcm.alloc

/-- Sets the next blank tile slot of a region. -/
def setBlank (c : Ch) (region layer zone n : Nat) (s : State) : State :=
  s.onDcm c (fun d => { d with alloc := allocSet (region, layer, zone) n d.alloc })

/-! ### Metadata writes (R116, R117, R748) -/

/-- The lowest layer with a blank metadata tile slot (R116). -/
def metaLayer (c : Ch) (s : State) : Option Nat := (List.range 16).find? (fun l => decide (nextBlank c 2 l 0 s < 279))

/-- Zone whose bands the metadata region of a layer takes: the metadata region lies in Z0. -/
def metaPos (layer tile : Nat) : TilePos := ⟨layer, 0, 2, tile⟩

/-- Places blocks of a metadata write in consecutive metadata tile slots (R748); on fuel. -/
def placeMeta (c : Ch) : Nat → List (List Byte) → State → State
  | 0, _, s => s
  | f + 1, blocks, s =>
    if blocks = [] then s
    else match metaLayer c s with
      | none => s
      | some l =>
        let t := nextBlank c 2 l 0 s
        let s := setBlank c 2 l 0 (t + 1) s
        placeMeta c f (blocks.drop 56) (s.onDcm c (fun d => { d with
          metaWait := d.metaWait ++ [⟨metaPos l t, blocks.take 56⟩] }))

/-- One metadata write of records due together: type and payload (R119, R748). -/
def putMeta (c : Ch) (recs : List (Nat × List Byte)) (s : State) : State :=
  let q := (s.chan c).dcm.metaSeq
  let blocks := recs.zipIdx.flatMap (fun ((t, p), k) => metaBlocks t (q + k) s.tb.tod p)
  let s := s.onDcm c (fun d => { d with metaSeq := d.metaSeq + recs.length })
  placeMeta c (blocks.length / 56 + 1) blocks s

/-- Records fall due on a disc. They wait until the command that made them due ends, so that records due at the same
moment form one metadata write (R748), and further while the disc cannot be written (R750). -/
def writeMeta (c : Ch) (recs : List (Nat × List Byte)) (s : State) : State :=
  s.onDcm c (fun d => { d with heldRecs := d.heldRecs ++ recs.map (fun (t, p) => ⟨t, 0, p⟩) })

/-- The waiting records of a disc that can be written form one metadata write (R748, R750). -/
def releaseMeta (c : Ch) (s : State) : State :=
  let held := (s.chan c).dcm.heldRecs
  if held ≠ [] ∧ canWrite c s then
    putMeta c (held.map (fun r => (r.rtype, r.payload))) (s.onDcm c (fun d => { d with heldRecs := [] }))
  else s

/-- The records that a command made due, on every disc. -/
def releaseAll (s : State) : State := s.each allCh (fun s c => releaseMeta c s)

/-- A metadata tile of blocks (R99, R116). -/
def metaTile (m : MetaTile) (tag writer : Nat) : WTile :=
  buildTile m.pos tag writer (fun i => (m.blocks[i]?).map (fun b =>
    (4, b ++ sealBytes b ⟨metaRef m.pos.layer m.pos.tile (slotOfIdx i), 0xFFFF, writer, 0⟩, 0, 0, 0)))

/-- Hands the next metadata tile to the write channel while it has a free buffer. -/
def feedMeta (c : Ch) (s : State) : State :=
  match (s.chan c).dcm.metaWait with
  | [] => s
  | m :: r =>
    if 2 ≤ tilesHeld (s.chan c).wrc then s
    else
      let t := metaTile m (discTag c s) (partWriter s)
      handTile c t (s.onDcm c (fun d => { d with metaWait := r, metaOut := d.metaOut ++ [m] }))

/-- Takes the reports of metadata and spare tiles: a tile to be written again takes the next blank slot (R382). -/
def takeMeta (c : Ch) (s : State) : State :=
  let mine := (s.chan c).wrc.reports.filter (fun r => r.pos.region != 0)
  let s := s.onWrc c (fun w => { w with reports := w.reports.filter (fun r => r.pos.region == 0) })
  s.each mine (fun s r =>
    match (s.chan c).dcm.metaOut.find? (fun m => m.pos == r.pos) with
    | none => s
    | some m =>
      let s := s.onDcm c (fun d => { d with metaOut := d.metaOut.filter (fun k => k.pos != r.pos) })
      if r.outcome < 2 then s else placeMeta c 1 m.blocks s)

/-- Releases held records once the disc can be written again, and commits the checkpoint whose record has passed verify
(R524, R750). -/
def serveMeta (c : Ch) (s : State) : State :=
  let s := takeMeta c s
  let s := feedMeta c (releaseMeta c s)
  let d := (s.chan c).dcm
  match d.ckPend with
  | some (j, es) =>
    if d.metaWait = [] ∧ d.metaOut = [] ∧ d.heldRecs = [] then
      (markItems (discOf c s) es (s.onDcm c (fun d => { d with ckPend := none }))).onMap (fun m => { m with
        ready := m.ready ++ [{ changes := [.checkpointed j (discOf c s)] }] })
    else s
  | none => s

/-! ### Checkpoints (R524, R525, R527) -/

/-- The LINEAR entry that 16 bytes spell (R510). -/
def linearParse (l : List Byte) : Ext :=
  let d := field l 0 8
  let w := field l 8 8
  .linear d (bitsOf 5 2 w) (bitsOf 8 6 w) (bitsOf 23 9 w) (bitsOf 39 24 w) (bitsOf 45 40 w) (bitsOf 58 46 w)

/-- Patch entries of a page from a list of words, numbered from `n` (R513). -/
def patchParse : Nat → Nat → List Byte → List (Nat × Patch)
  | _, 0, _ => []
  | n, f + 1, l =>
    let w := field l 0 8
    let rest := patchParse (n + 1) f (l.drop 8)
    if w % 4 = 1 then (n, ⟨bitsOf 17 2 w, bitsOf 21 18 w, bitsOf 24 22 w, bitsOf 40 25 w, bitsOf 46 41 w⟩) :: rest else rest

/-- The item of an extent (R525). -/
def itemBytes (e : Nat) (s : State) : List Byte :=
  match nsOfExt e s, extOf e s with
  | some k, some (.patched _ page) =>
    let es := pageOf page s
    let ds := es.foldl (fun l (_, p) => let d := discAt p.idx s; if l.contains d then l else l ++ [d]) []
    let word := fun n => match keyFind n es with
      | some p => patchWord { p with idx := (ds.findIdx? (· == discAt p.idx s)).getD 0 }
      | none => 0
    [2, 0] ++ leBytes 2 k.nsid ++ leBytes 4 (e - k.extBase) ++ leBytes 8 k.createSeq ++ leBytes 2 ds.length ++ zeros 14 ++
      ds.flatMap (leBytes 8) ++ (List.range 4096).flatMap (fun n => leBytes 8 (word n))
  | some k, x => [1, 0] ++ leBytes 2 k.nsid ++ leBytes 4 (e - k.extBase) ++ leBytes 8 k.createSeq ++ extBytes x
  | none, _ => []

/-- Extents at home on a disc that have changed since its last checkpoint (R524). -/
def checkpointExts (d : Nat) (s : State) : List Nat :=
  s.map.dirty.foldl (fun l (e, _) => match extOf e s with
    | some (.absent _) => l
    | x => if homeOf x == d && !l.contains e then l ++ [e] else l) []

/-- The MAP_CHECKPOINT payload of a channel's disc (R524). -/
def checkpointPayload (c : Ch) (jseq : Nat) (es : List Nat) (s : State) : List Byte :=
  let next := fun r => (List.range 16).flatMap (fun l => (List.range 8).flatMap (fun z => leBytes 2 (nextBlank c r l z s)))
  leBytes 8 (discOf c s) ++ leBytes 8 jseq ++ leBytes 4 es.length ++ zeros 4 ++ next 0 ++ next 1 ++
    (List.range 16).flatMap (fun l => leBytes 2 (nextBlank c 2 l 0 s)) ++ zeros 8 ++ es.flatMap (fun e => itemBytes e s)

/-- A tombstone (R527). -/
def tombBytes (nsid cseq tod : Nat) : List Byte := leBytes 2 nsid ++ zeros 6 ++ leBytes 8 cseq ++ leBytes 8 tod ++ zeros 8

/-- The tombstones that wait for a disc. -/
def tombsOf (d : Nat) (s : State) : List (Nat × Nat × Nat × Nat) := s.map.tombs.filter (fun t => t.1 == d)

/-- Relocations not yet listed, as a record (R115, R221). -/
def spareRecord (c : Ch) (s : State) : List (Nat × List Byte) :=
  let l := (s.chan c).wrc.spareList
  if l = [] then [] else [(6, l.flatMap (leBytes 8))]

/-- Copies that a batch for a disc carries (R566): without OPEN records whose DONE is programmed and DONE records with
MISSING 0. -/
def copyBatch (d : Nat) (s : State) : List Welt :=
  (s.str.copies.filter (fun p => p.1 == d)).filterMap (fun (_, w) =>
    let closed := w.kind == 1 && s.str.welt.any (fun r => r.kind == 2 && r.link == w.wseq)
    if closed || (w.kind == 2 && w.missing == 0) then none else some w)

/-- The WELT_COPY record of the waiting copies. -/
def copyRecord (d : Nat) (s : State) : List (Nat × List Byte) :=
  let l := copyBatch d s
  if l = [] then [] else [(4, l.flatMap weltBytes)]

/-- Removes the copies written on a disc. -/
def copiesDone (d : Nat) (s : State) : State :=
  { s with str := { s.str with copies := s.str.copies.filter (fun p => p.1 != d) } }

/-- The records of a checkpoint on a channel's disc: tombstones, checkpoint, SPARE_LIST, WELT_COPY (R508, R524, R566). -/
def writeCheckpoint (c : Ch) (s : State) : State :=
  let d := discOf c s
  let jseq := s.map.nextSeq - 1
  let es := checkpointExts d s
  let tombs := tombsOf d s
  let recs := [(2, checkpointPayload c jseq es s)] ++
    (if tombs = [] then [] else [(5, tombs.flatMap (fun (_, n, q, t) => tombBytes n q t))]) ++ spareRecord c s ++ copyRecord d s
  let s := copiesDone d (s.onWrc c (fun w => { w with spareList := [] }))
  let s := s.onMap (fun m => { m with tombs := m.tombs.filter (fun t => t.1 != d) })
  writeMeta c recs (s.onDcm c (fun k => { k with ckPend := some (jseq, es) }))

/-- Is a checkpoint due on a channel's disc: JRNL_HI passed and the disc holds back a sector, or tombstones wait
(R508, R523, R524)? -/
def checkpointDue (c : Ch) (s : State) : Bool :=
  let d := discOf c s
  let pct := sectorsUsed s.map.jrnl * 100 / 96
  mounted c s && (s.chan c).dcm.ckPend.isNone &&
    ((decide (min 100 (s.get MAP_JRNL_JRNL_HI) < pct) && (holders s).contains d) || tombsOf d s != [])

/-- A checkpoint is written on the disc of a channel when one is due (R523, R524). -/
def execMapCheckpointWrite (c : Ch) (s : State) : Out := gate s <|
  .next (serveMeta c (if checkpointDue c s then writeCheckpoint c s else s))

/-- The waiting Welt copies of a channel's disc are written once 3,528 wait (R566). -/
def execWeltCopyWrite (c : Ch) (s : State) : Out := gate s <|
  let d := discOf c s
  .next (serveMeta c (if mounted c s && decide (3528 ≤ (s.str.copies.filter (fun p => p.1 == d)).length) then
      writeMeta c (copyRecord d s) (copiesDone d s)
    else s))

end Sys2Proof.Machine
end

