-- ==== Sys2Proof/Machine/Stripe.lean ====
section
/-! DEFINITION. The stripe engine (R542–R569, R578–R580): sets, open and closed stripes, parity, the Welt journal and the
rewrite queue. -/

namespace Sys2Proof.Machine

open Reg

/-- The STR block. -/
def strBlk : Blk := ⟨.str, 0⟩

/-- Changes the stripe engine. -/
def State.onStr (s : State) (f : Str → Str) : State := { s with str := f s.str }

/-! ### Layouts and sets (R542–R547) -/

/-- Data members of a layout (R542). -/
def layoutK (l : Nat) : Nat := l / 16
/-- Parity members of a layout. -/
def layoutM (l : Nat) : Nat := l % 16
/-- Members of a layout. -/
def layoutN (l : Nat) : Nat := layoutK l + layoutM l
/-- A valid LAYOUT code (R542). -/
def layoutOk (l : Nat) : Bool := [0x11, 0x21, 0x31, 0x41, 0x51, 0x22, 0x42].contains l

/-- A set by its ID. -/
def setOf (id : Nat) (s : State) : Option SSet := s.str.sets.find? (fun k => k.id == id)

/-- Changes a set. -/
def onSet (id : Nat) (f : SSet → SSet) (s : State) : State :=
  s.onStr (fun t => { t with sets := t.sets.map (fun k => if k.id = id then f k else k) })

/-- The current set of a layout (R545). -/
def currentSet (layout : Nat) (s : State) : Option SSet := s.str.sets.find? (fun k => k.current && k.layout == layout)

/-- The set a disc is a member of. -/
def setWith (d : Nat) (s : State) : Option SSet := s.str.sets.find? (fun k => k.members.contains d)

/-- May the disc of a channel join a set (R543)? -/
def mayJoin (c : Ch) (s : State) : Bool :=
  mounted c s && (setWith (discOf c s) s).isNone && (s.chan c).dcm.alloc.all (fun (k, n) => k.1 != 0 || n == 0)

/-- The channels a new set may take (R545). -/
def joinable (s : State) : List Ch :=
  allCh.filter (fun c => mayJoin c s && !s.getb (DCM_STAT_STOPPED.at c) && !s.getb (DCM_STAT_WRITE_BLOCK.at c) &&
    (unmounting c s).isNone)

/-- The STRIPE_SET payload for a member (R546). -/
def setPayload (k : SSet) (state index : Nat) : List Byte :=
  leBytes 8 k.id ++ leBytes 1 k.layout ++ leBytes 1 index ++ leBytes 1 state ++ zeros 5 ++
    (List.range 6).flatMap (fun i => leBytes 8 (k.members.getD i 0)) ++ leBytes 8 k.replaced

/-- Writes a STRIPE_SET record on each mounted member; the members not mounted are remembered. -/
def writeSetRecords (k : SSet) (state : Nat) (s : State) : State :=
  let away := (List.range k.members.length).filter (fun i => (chanOf (k.members.getD i 0) s).isNone)
  let s := s.each (List.range k.members.length) (fun s i => match chanOf (k.members.getD i 0) s with
    | some c => writeMeta c [(3, setPayload k state i)] s
    | none => s)
  onSet k.id (fun j => { j with fullDue := if state = 1 then away else j.fullDue }) s

/-- The write set is wanted (R545): the current set, or a new one; DETAIL-free outcomes of its absence. -/
inductive WriteSet where
  | have (id : Nat)
  | absent
  | noWriter
deriving DecidableEq, Repr

/-- Forms or finds the write set of a layout (R482, R488, R545). -/
def writeSet (layout : Nat) (s : State) : WriteSet × State :=
  match currentSet layout s with
  | some k => if k.members.all (fun d => match chanOf d s with
      | some c => (unmounting c s).isNone
      | none => false) then (.have k.id, s) else (.absent, s)
  | none =>
    let cs := (joinable s).take (layoutN layout)
    if s.fls.writer.isNone then (.noWriter, s)
    else if cs.length < layoutN layout then (.absent, s)
    else
      let n := s.str.setCount + 1
      let k : SSet := { id := discIdOf (partWriter s) n, layout, members := cs.map (fun c => discOf c s), current := true }
      let s := s.onStr (fun t => { t with setCount := n, sets := t.sets ++ [k] })
      (.have k.id, writeSetRecords k 0 s)

/-! ### Positions (R548) -/

/-- Zones of a layer in recording order (R75). -/
def zonesOf (layer : Nat) : List Nat := if layer % 2 = 0 then List.range 8 else (List.range 8).reverse

/-- Layer and zone pairs in the order of positions. -/
def regionsInOrder : List (Nat × Nat) := (List.range 16).flatMap (fun l => (zonesOf l).map (fun z => (l, z)))

/-- The order of a position as one number. -/
def posKey (layer zone tile : Nat) : Nat :=
  ((regionsInOrder.findIdx? (· == (layer, zone))).getD 0) * 65536 + tile

/-- The position of a number; tile numbers past the end of a region go on in the next. -/
def posAt (key : Nat) : Nat × Nat × Nat :=
  let (l, z) := regionsInOrder.getD (key / 65536) (16, 0)
  (l, z, key % 65536)

/-- The number of the first position at or after `key`. -/
def posNorm (key : Nat) : Nat :=
  let (_, z, t) := posAt key
  if dataSlots.getD z 0 ≤ t then (key / 65536 + 1) * 65536 else key

/-- Number of the next blank data tile slot of a channel's disc. -/
def memberNext (c : Ch) (s : State) : Nat :=
  (s.chan c).dcm.alloc.foldl (fun m (k, n) => if k.1 = 0 ∧ 0 < n then max m (posNorm (posKey k.2.1 k.2.2 n)) else m) 0

/-- The next position of a set: the latest of its members' next blank data tile slots. -/
def setNext (k : SSet) (s : State) : Nat :=
  k.members.foldl (fun m d => match chanOf d s with
    | some c => max m (memberNext c s)
    | none => m) 0

/-- Positions of a disc's data regions. -/
def posEnd : Nat := 128 * 65536

/-! ### The Welt journal (R563–R566) -/

/-- Sectors of the region in use; WELT_PCT counts them (log 166). -/
def weltUsed (l : List Welt) : Nat := ((List.range 32).filter (fun k => l.any (fun r => r.sector == k))).length

/-- The sector for the next record: that of the last record while it has room, else an erased one. -/
def weltSector (l : List Welt) : Option Nat :=
  let here := match l.getLast? with
    | some r => if (l.filter (fun (q : Welt) => q.sector == r.sector)).length < 512 then some r.sector else none
    | none => none
  here.or ((List.range 32).find? (fun k => !l.any (fun r => r.sector == k)))

/-- Enters a DONE record with MISSING set, or an ABANDONED record, into the exception table of 65,536 entries (R569). -/
def excAdd (w : Welt) (s : State) : State :=
  if w.kind != 3 && (w.kind != 2 || w.missing == 0) then s
  else if s.str.exc.length < 65536 then s.onStr (fun t => { t with exc := t.exc ++ [w] })
  else if s.getb STR_STAT_EXC_FULL then s
  else (s.putb STR_STAT_EXC_FULL true).raise strBlk 5

/-- Queues a copy of a record for every member of its set (R566). -/
def weltCopies (w : Welt) (s : State) : State :=
  let ds := ((setOf w.set s).map (·.members)).getD []
  s.onStr (fun t => { t with copies := t.copies ++ ds.map (fun d => (d, w)) })

/-- Programs a record, when the region has room, and queues its copies (R564, R566). -/
def weltProgram (w : Welt) (s : State) : Option State :=
  (weltSector s.str.welt).map (fun k =>
    let w := { w with wseq := s.str.nextW, sector := k }
    let s := s.onStr (fun t => { t with welt := t.welt ++ [w], nextW := t.nextW + 1 })
    excAdd w (weltCopies w ((s.bump FLS_CNT_OPS_PROGRAMS 4).put STR_STAT_WELT_PCT (weltUsed s.str.welt * 100 / 32))))

/-- The region has no room (R565). -/
def weltFull (s : State) : State :=
  if s.getb STR_STAT_WELT_WAIT then s else (s.putb STR_STAT_WELT_WAIT true).raise strBlk 4

/-- May a Welt sector be erased (R565)? -/
def weltDone (k : Nat) (l : List Welt) : Bool :=
  l.any (fun r => r.sector == k) && (l.filter (fun r => r.sector == k)).all (fun r =>
    match r.kind with
    | 1 => l.any (fun q => (q.kind == 2 || q.kind == 3) && q.link == r.wseq)
    | 4 => l.any (fun q => q.kind == 4 && q.set == r.set && decide (r.wseq < q.wseq))
    | _ => true)

/-- A Welt sector is erased (R565). -/
def execWeltSectorErase (k : Nat) (s : State) : Out := gate s <|
  .next (if weltDone k s.str.welt then
      let s := s.onStr (fun t => { t with welt := t.welt.filter (fun r => r.sector != k) })
      ((s.bump FLS_CNT_OPS_ERASES 1).put STR_STAT_WELT_PCT (weltUsed s.str.welt * 100 / 32)).putb STR_STAT_WELT_WAIT false
    else s)

/-! ### The parity code (R550, R551, R559) -/

/-- Lower coefficients of the generator of m parity members, highest first (R550). -/
def stripeGen (m : Nat) : List Nat := if m = 1 then [1] else [3, 2]

/-- Parity bytes of the data bytes of one codeword (R550). -/
def parityBytes (m : Nat) (data : List Nat) : List Nat := data.foldl (rsStep (stripeGen m)) (List.replicate m 0)

/-- Parity blocks of the data blocks at one data index (R550, R551). -/
def parityBlocks (m writer : Nat) (data : List (List Byte)) : List (List Byte) :=
  let col := fun j => parityBytes m (data.map (fun b => byteAt b j))
  let body := (List.range 4096).map col
  let tail := (List.range 6).map (fun j => col (4106 + j))
  (List.range m).map (fun r =>
    let bytes := fun (l : List (List Nat)) => l.map (fun p => BitVec.ofNat 8 (p.getD r 0))
    let b := bytes body
    b ++ leBytes 4 (crc32c b) ++ bytes tail ++ leBytes 2 0xFFFE ++ leBytes 2 writer ++ leBytes 2 0)

/-- Decodes one codeword of n bytes with erased members within e + 2u ≤ m (R559). -/
def stripeDecode (m : Nat) (er : List Nat) (w : List Nat) : Option (List Nat) :=
  let n := w.length
  let loc := fun t => alpha (n - 1 - t)
  let w := w.zipIdx.map (fun (x, t) => if er.contains t then 0 else x)
  let s0 := w.foldl (· ^^^ ·) 0
  let s1 := w.zipIdx.foldl (fun a (x, t) => a ^^^ gmul x (loc t)) 0
  let fix := fun (l : List (Nat × Nat)) => some (w.zipIdx.map (fun (x, t) => match keyFind t l with
    | some v => x ^^^ v
    | none => x))
  if m = 1 then
    match er with
    | [] => if s0 = 0 then some w else none
    | [a] => fix [(a, s0)]
    | _ => none
  else match er with
    | [] =>
      if s0 = 0 ∧ s1 = 0 then some w
      else match (List.range n).find? (fun t => s0 != 0 && gmul s0 (loc t) == s1) with
        | some t => fix [(t, s0)]
        | none => none
    | [a] => if gmul s0 (loc a) = s1 then fix [(a, s0)] else none
    | [a, b] =>
      let xb := gmul (s1 ^^^ gmul s0 (loc a)) (ginv (loc a ^^^ loc b))
      fix [(a, s0 ^^^ xb), (b, xb)]
    | _ => none

/-- Decodes the codewords at byte positions of the blocks at one data index; `at'` gives a member's byte at a position. -/
def decodeColumns (m : Nat) (er : List Nat) (blocks : List (Option (List Byte) × Nat)) (at' : Nat → Nat → List Byte → Nat) :
    List Nat → Option (List (List Nat))
  | [] => some []
  | j :: js =>
    match stripeDecode m er (blocks.map (fun (b, t) => match b with
        | some b => at' j t b
        | none => 0)), decodeColumns m er blocks at' js with
    | some x, some a => some (x :: a)
    | _, _ => none

/-- Bytes of a member in decoded codewords. -/
def memberBytes (l : List (List Nat)) (x : Nat) : List Byte := l.map (fun w => BitVec.ofNat 8 (w.getD x 0))

/-- Decodes the blocks at one data index (R559): by member the 4,112 bytes, absent when erased; the data and seal bytes
10 to 15 of every member. -/
def rebuildIndex (m : Nat) (blocks : List (Option (List Byte))) : Option (List (List Byte × List Byte)) :=
  let bs := blocks.zipIdx
  let er := (bs.filter (fun p => p.1.isNone)).map (·.2)
  let n := blocks.length
  (decodeColumns m er bs (fun j _ b => byteAt b j) (List.range 4096)).bind (fun body =>
    (decodeColumns m er bs (fun j t b => byteAt b (if t < n - m then 4106 + j else 4100 + j)) (List.range 6)).map (fun tail =>
      (List.range n).map (fun x => (memberBytes body x, memberBytes tail x))))

/-! ### Open stripes (R552) -/

/-- The open stripe of a set. -/
def openOf (id : Nat) (s : State) : OpenStripe := (s.str.opens.find? (fun o => o.set == id)).getD { set := id, queues := [] }

/-- Stores the open stripe of a set. -/
def setOpen (o : OpenStripe) (s : State) : State :=
  s.onStr (fun t => { t with opens := o :: t.opens.filter (fun p => p.set != o.set) })

/-- The data member with the fewest blocks waiting, the lower index on a tie (R552). -/
def leastMember (q : List (List SBlk)) : Nat :=
  (q.zipIdx.foldl (fun (m : Nat × Nat) (l, i) => if l.length < m.1 then (l.length, i) else m) ((q.headD []).length, 0)).2

/-- Binds an extent and appends a block to its member's queue (R552). -/
def placeBlock (k : SSet) (b : SBlk) (s : State) : State :=
  let o := openOf k.id s
  let q := if o.queues = [] then List.replicate (layoutK k.layout) [] else o.queues
  let e := ((s.map.ns.find? (fun j => j.nsid == b.nsid)).map (fun j => j.extBase + b.lba / 4096)).getD 0
  let (x, s) := match s.str.binds.find? (fun (i, f, _) => i == k.id && f == e) with
    | some (_, _, x) => (x, s)
    | none =>
      let x := leastMember q
      (x, s.onStr (fun t => { t with binds := t.binds ++ [(k.id, e, x)] }))
  let empty := q.all (· == [])
  setOpen { o with
    queues := q.modify x (· ++ [b])
    first := if empty then some s.now else o.first
    firstNs := if empty then b.nsid else o.firstNs } s

/-- Places blocks in a set's open stripe. -/
def placeBlocks (id : Nat) (bs : List SBlk) (s : State) : State :=
  match setOf id s with
  | none => s
  | some k => s.each bs (fun s b => placeBlock k b s)

/-- Marks an open stripe to close (R475, R476, R553). -/
def closeSoon (p : SBlk → Bool) (s : State) : State :=
  s.onStr (fun t => { t with opens := t.opens.map (fun o =>
    if o.queues.any (fun q => q.any p) then { o with closeNow := true } else o) })

/-- The COALESCE time of an open stripe is judged (R476). -/
def execCoalesceTimeout (id : Nat) (s : State) : Out := gate s <|
  let o := openOf id s
  .next (match o.first, s.map.ns.find? (fun k => k.nsid == o.firstNs) with
    | some t, some k => if t + k.coalesce * 400 ≤ s.now then setOpen { o with closeNow := true } s else s
    | some _, none => setOpen { o with closeNow := true } s
    | none, _ => s)

/-! ### The rewrite queue (R562) -/

/-- Queues a rebuilt block for rewrite when the map still names its slot (R562). -/
def queueRewrite (b : SBlk) (s : State) : State :=
  let named := match b.old, s.map.ns.find? (fun k => k.nsid == b.nsid) with
    | some o, some k => resolve k b.lba s == .at o
    | _, _ => false
  if !named || s.str.rewrite.any (fun r => r.nsid == b.nsid && r.lba == b.lba) then s
  else if s.str.rewrite.length < 4096 then s.onStr (fun t => { t with rewrite := t.rewrite ++ [b] })
  else s.bump STR_CNT_RECOV_REWRITE_DROP 1

/-- Places queued blocks in the current sets of their namespaces' layouts (R562). -/
def placeRewrites (s : State) : State :=
  let ready := s.str.rewrite.filterMap (fun b =>
    (s.map.ns.find? (fun k => k.nsid == b.nsid)).bind (fun k => (currentSet k.layout s).map (fun t => (t.id, b))))
  let s := s.onStr (fun t => { t with rewrite := t.rewrite.filter (fun b => !ready.any (fun r => r.2 == b)) })
  s.each ready (fun s (id, b) => placeBlocks id [b] s)

/-! ### Handing tiles to the write channels (R553, R556) -/

/-- The tile of a member of a stripe. -/
def memberTile (t : Stripe) (x : Nat) (c : Ch) (s : State) : WTile :=
  let p : TilePos := ⟨t.layer, t.zone, 0, t.tile⟩
  let k := t.tiles.length
  if x < k then
    buildTile p (discTag c s) (partWriter s) (fun i => (keyFind i (t.tiles.getD x [])).map (fun b => (1, b.bytes, 0, 0, 0)))
  else buildTile p (discTag c s) (partWriter s) (fun i => ((t.parity.getD i [])[x - k]?).map (fun b => (2, b, 0, 0, 0)))

/-- Changes a closed stripe. -/
def onStripe (w : Nat) (f : Stripe → Stripe) (s : State) : State :=
  s.onStr (fun t => { t with closed := t.closed.map (fun k => if k.wseq = w then f k else k) })

/-- Hands a member its tile while its channel has a free buffer; a member whose channel does not work is missing. -/
def feedMember (w : Nat) (x : Nat) (s : State) : State :=
  match s.str.closed.find? (fun t => t.wseq == w) with
  | none => s
  | some t =>
    if t.missing.contains x || t.verified.contains x then s
    else match ((setOf t.set s).map (fun k => k.members.getD x 0)).bind (fun d => chanOf d s) with
      | none => onStripe w (fun t => { t with missing := t.missing ++ [x] }) s
      | some c =>
        if !chanWorks c s then onStripe w (fun t => { t with missing := t.missing ++ [x] }) s
        else if t.handed.contains x || decide (2 ≤ tilesHeld (s.chan c).wrc) then s
        else handTile c (memberTile t x c s) (onStripe w (fun t => { t with handed := t.handed ++ [x] }) s)

/-- Hands out the tiles of closed stripes in order. -/
def feedStripes (s : State) : State :=
  s.each s.str.closed (fun s t => s.each (List.range (layoutN (((setOf t.set s).map (·.layout)).getD 0)))
    (fun s x => feedMember t.wseq x s))

/-! ### Spare tiles (R219) -/

/-- Has the channel a further data tile to write (R219): in its buffers, of a closed stripe, or of a rebuild? -/
def dataTileDue (c : Ch) (s : State) : Bool :=
  (s.chan c).wrc.bufs.any (fun t => t.pos.region == 0) ||
  s.str.closed.any (fun t => match setOf t.set s with
    | none => false
    | some k => k.members.zipIdx.any (fun (d, x) =>
        chanOf d s == some c && !t.handed.contains x && !t.missing.contains x && !t.verified.contains x)) ||
  s.str.rebuild.any (fun r => chanOf r.repl s == some c)

/-- SPARE_TILE_WRITE (R219): a spare tile is formed of waiting blocks on the next blank spare tile slot of its zone. -/
def execSpareTileWrite (c : Ch) (s : State) : Out := gate s <|
  let w := (s.chan c).wrc
  .next (match spareDue (!dataTileDue c s) (atLeast1 (WRC_RELOC_RELOC_HOLD.at c) s) w.flushing w.reloc with
  | none => s
  | some (layer, zone) =>
    if 2 ≤ tilesHeld w then s
    else if spareFull c layer zone s then spareFullRaise c layer zone s
    else
      let blocks := (waitingOf w.reloc layer zone).take 56
      let n := spareFull.allocNext (1, layer, zone) (s.chan c).dcm.alloc
      let p : TilePos := ⟨layer, zone, 1, n⟩
      let t := buildTile p (discTag c s) (partWriter s) (fun i => (blocks[i]?).map (fun b =>
        (3, b.data, b.homeTile, b.homeSlot + 64 * b.homeRegion, b.homeContent)))
      let s := s.onDcm c (fun d => { d with alloc := allocSet (1, layer, zone) (n + 1) d.alloc })
      showReloc c (s.onWrc c (fun k => { k with
        bufs := k.bufs ++ [{ t with blocks }], reloc := k.reloc.filter (fun b => !blocks.contains b) })))

/-- A set becomes FULL (R547): its binds end, and blocks that wait in its open stripe are placed anew. -/
def fillSet (id : Nat) (s : State) : State :=
  match setOf id s with
  | none => s
  | some k =>
    let s := onSet id (fun j => { j with state := 1, current := false }) s
    writeSetRecords { k with state := 1 } 1 (s.onStr (fun t => { t with binds := t.binds.filter (fun b => b.1 != id) }))

/-- A current set whose next position passes the last data tile slot, or with a member whose disc has no blank metadata tile
slot left, becomes FULL (R528, R547). -/
def fillSets (s : State) : State :=
  s.each (s.str.sets.filter (fun k => k.current && (decide (posEnd ≤ setNext k s) || k.members.any (fun d =>
    match chanOf d s with
    | some c => (metaLayer c s).isNone
    | none => false)))) (fun s k => fillSet k.id s)

/-- What the engine does whenever a channel may have become ready. -/
def serveChannels (s : State) : State :=
  let s := s.each allCh (fun s c => if mounted c s then serveMeta c s else s)
  let s := releaseAll (fillSets s)
  let s := if s.str.rewrite = [] then s else placeRewrites s
  if s.str.closed = [] then s else feedStripes s

/-! ### Closing (R547, R553) -/

/-- Is a set's open stripe to close (R553)? -/
def closeDue (k : SSet) (o : OpenStripe) (s : State) : Bool :=
  o.queues.any (· != []) &&
    (o.closeNow || !k.current || o.queues.all (fun q => decide (56 ≤ q.length)) ||
      k.members.any (fun d => match chanOf d s with
        | some c => (unmounting c s).isSome
        | none => true))

/-- Do held STRIPE_SET records hold back the first stripe of a set (R545, R750)? -/
def setHeld (k : SSet) (s : State) : Bool :=
  k.members.any (fun d => match chanOf d s with
    | some c => (s.chan c).dcm.heldRecs.any (fun r => r.rtype == 3)
    | none => false)

/-- Blocks waiting in the open stripe of a set that can take no more stripe go back to their commands or to the rewrite
queue. -/
def reopen (id : Nat) (s : State) : State :=
  let bs := (openOf id s).queues.flatten
  let s := s.onStr (fun t => { t with opens := t.opens.filter (fun o => o.set != id) })
  let s := s.onStr (fun t => { t with rewrite := t.rewrite ++ bs.filter (fun b => b.piece.isNone) })
  let ids := bs.foldl (fun l b => match b.piece with
    | some (i, _) => if l.contains i then l else l ++ [i]
    | none => l) []
  let s := s.each ids (fun s i => s.onStr (fun t => { t with opens := t.opens.map (fun o => { o with
    queues := o.queues.map (fun q => q.filter (fun b => (b.piece.map (·.1)) != some i)) }) }))
  s.each ids (fun s i => onCtx i (fun x => { x with placed := false }) s)

/-- Checks the blocks of a stripe at seal point 3 (R558): those that stay, and the state. -/
def checkOut (poison : List (Nat × Nat)) (x : Nat) : List (Nat × SBlk) → State → List (Nat × SBlk) × State
  | [], s => ([], s)
  | (i, b) :: r, s =>
    let (ok, s) := guardCheck 3 b.nsid (poison.contains (x, i)) b.bytes s
    let (rest, s) := checkOut poison x r s
    if ok then ((i, b) :: rest, s)
    else match b.piece with
      | some (id, lba) =>
        let n := (s.ctx id).map (fun c => b.lba - c.slba)
        (rest, failPiece id lba 0x22 (n.getD 0 % 65536) s)
      | none => (rest, s)

/-- `checkOut` over the data members. -/
def checkAll (poison : List (Nat × Nat)) : Nat → List (List SBlk) → State → List (List (Nat × SBlk)) × State
  | _, [], s => ([], s)
  | x, q :: qs, s =>
    let (t, s) := checkOut poison x (q.zipIdx.map (fun (b, i) => (i, b))) s
    let (ts, s) := checkAll poison (x + 1) qs s
    (t :: ts, s)

/-- Parity blocks of every data index of a stripe (R550, R551, R553). -/
def stripeParity (m writer : Nat) (tiles : List (List (Nat × SBlk))) : List (List (List Byte)) :=
  (List.range 56).map (fun i => parityBlocks m writer (tiles.map (fun t => match keyFind i t with
    | some b => b.bytes
    | none => fillBlock writer)))

/-- Takes a position on every member of a set (R548). -/
def takePos (k : SSet) (key : Nat) (s : State) : State :=
  let (l, z, t) := posAt key
  s.each k.members (fun s d => match chanOf d s with
    | some c => setBlank c 0 l z (t + 1) s
    | none => s)

/-- A stripe closes (R553); `poison`: blocks, by member and index, whose stored bytes come back uncorrectable (R590). -/
def execStripeClose (id : Nat) (poison : List (Nat × Nat)) (s : State) : Out := gate s <|
  .next (match setOf id s with
    | none => s
    | some k =>
      let o := openOf id s
      if !closeDue k o s || setHeld k s then s
      else
        let key := setNext k s
        let (l, z, t) := posAt key
        if posEnd ≤ key then releaseAll (reopen id (fillSet id s))
        else match weltProgram { wseq := 0, kind := 1, layout := k.layout, set := id, layer := l, zone := z, tile := t
                                 link := s.stamp } s with
          | none => weltFull s
          | some s =>
            let (tiles, s) := checkAll poison 0 (o.queues.map (·.take 56)) s
            let left := (openOf id s).queues.map (·.drop 56)
            let more := left.any (· != [])
            let fua := left.any (fun q => q.any (fun b => match b.piece with
              | some (i, _) => ((s.ctx i).map (·.fua)).getD false
              | none => false))
            let s := setOpen { o with
              queues := left, closeNow := fua, first := if more then some s.now else none } s
            let w := s.str.nextW - 1
            let stripe : Stripe := { wseq := w, set := id, layer := l, zone := z, tile := t, tiles
                                     parity := stripeParity (layoutM k.layout) (partWriter s) tiles }
            let s := s.onStr (fun t => { t with closed := t.closed ++ [stripe] })
            let s := s.bump STR_CNT_CLOSED_CLOSED 1
            let s := if tiles.any (fun t => decide (t.length < 56)) then s.bump STR_CNT_MISC_EARLY_CLOSE 1 else s
            serveChannels (takePos k key s))

/-! ### Completion (R549, R555, R556) -/

/-- The pieces with blocks in a stripe. -/
def stripePieces (t : Stripe) : List (Nat × Nat) :=
  t.tiles.flatten.foldl (fun l (_, b) => match b.piece with
    | some p => if l.contains p then l else l ++ [p]
    | none => l) []

/-- A stripe is abandoned for good: its pieces fail (R549, R556). -/
def abandonStripe (t : Stripe) (status detail : Nat) (s : State) : State :=
  let s := s.onStr (fun k => { k with closed := k.closed.filter (fun u => u.wseq != t.wseq) })
  let s := s.bump STR_CNT_MISC_ABANDONED 1
  s.each (stripePieces t) (fun s (id, lba) => failPiece id lba status detail s)

/-- Takes the verdict of a member's tile from its channel's reports (R216, R555). -/
def takeVerdict (t : Stripe) (x : Nat) (c : Ch) (s : State) : State :=
  match (s.chan c).wrc.reports.find? (fun r => r.pos == ⟨t.layer, t.zone, 0, t.tile⟩) with
  | none => s
  | some r =>
    let s := s.onWrc c (fun w => { w with reports := w.reports.filter (fun q => q.pos != r.pos) })
    onStripe t.wseq (fun t =>
      if r.outcome < 2 then { t with verified := t.verified ++ [x], awaits := t.awaits ++ r.relocated.map (fun i => (x, i)) }
      else { t with failed := t.failed ++ [x] }) s

/-- Takes the ends of relocations of a member's tile (R216, R219): a block handed back is placed as a block of its own
extent, and its slot is never mapped. -/
def takeRelocs (t : Stripe) (x : Nat) (c : Ch) (s : State) : State :=
  let mine := (s.chan c).wrc.relocDone.filter (fun (b, _) => b.homeRegion == 0 && b.layer == t.layer && b.zone == t.zone &&
    b.homeTile == t.tile && b.fromVerify)
  let s := s.onWrc c (fun w => { w with relocDone := w.relocDone.filter (fun p => !mine.contains p) })
  s.each mine (fun s (b, ok) =>
    let i := dataIdx b.homeSlot
    let back := if ok then none else keyFind i (t.tiles.getD x [])
    let s := onStripe t.wseq (fun t => { t with
      awaits := t.awaits.filter (fun p => p != (x, i))
      tiles := if ok then t.tiles else t.tiles.modify x (keyErase i) }) s
    match back with
    | some k => placeBlocks t.set [k] s
    | none => s)

/-- Blocks queued under R177 that relocation handed back go to the rewrite queue (R219). -/
def takeHandedBack (c : Ch) (s : State) : State :=
  let old := (s.chan c).wrc.relocDone.filter (fun (b, _) => !b.fromVerify)
  let s := s.onWrc c (fun w => { w with relocDone := w.relocDone.filter (fun p => p.1.fromVerify) })
  s.each old (fun s (b, ok) =>
    if ok || b.homeRegion != 0 || b.homeContent != 1 then s
    else
      let sl := sealOf b.data
      queueRewrite { nsid := sl.ns, lba := sl.ref, bytes := b.data
                     old := some ⟨discOf c s, b.layer, b.zone, b.homeTile, dataIdx b.homeSlot⟩ } s)

/-- Places a stripe again at the next position (R549). -/
def placeAgain (k : SSet) (t : Stripe) (s : State) : State :=
  let key := setNext k s
  let (l, z, tile) := posAt key
  if 3 ≤ t.tries then
    match weltProgram { wseq := 0, kind := 3, layout := k.layout, set := t.set, layer := t.layer, zone := t.zone
                        tile := t.tile, link := t.wseq } s with
    | none => weltFull s
    | some s => abandonStripe t 0x24 0 s
  else if posEnd ≤ key then
    match weltProgram { wseq := 0, kind := 3, layout := k.layout, set := t.set, layer := t.layer, zone := t.zone
                        tile := t.tile, link := t.wseq } s with
    | none => weltFull s
    | some s => releaseAll (fillSet k.id (abandonStripe t 0x25 0 s))
  else
    let gone : Welt := { wseq := 0, kind := 3, layout := k.layout, set := t.set, layer := t.layer, zone := t.zone
                         tile := t.tile, link := t.wseq }
    let fresh : Welt := { gone with kind := 1, layer := l, zone := z, tile := tile, link := s.stamp }
    match (weltProgram gone s).bind (weltProgram fresh) with
    | none => weltFull s
    | some s =>
      let w := s.str.nextW - 1
      let s := s.onStr (fun m => { m with closed := m.closed.map (fun u => if u.wseq = t.wseq then
        { u with wseq := w, layer := l, zone := z, tile := tile, verified := [], missing := [], failed := [], handed := []
                 awaits := [], tries := u.tries + 1 } else u) })
      serveChannels (takePos k key (s.bump STR_CNT_MISC_REPLACED 1))

/-- A block of a completed stripe, with its place. -/
def doneBlock (k : SSet) (t : Stripe) (x i : Nat) (b : SBlk) : PBlk :=
  { nsid := b.nsid, lba := b.lba, piece := b.piece, old := b.old, place := ⟨k.members.getD x 0, t.layer, t.zone, t.tile, i⟩ }

/-- The blocks of a completed stripe count for their pieces; pieces now complete form a commit group (R518). -/
def stripeDone (k : SSet) (t : Stripe) (s : State) : State :=
  let bs := t.tiles.zipIdx.flatMap (fun (l, x) => l.map (fun (i, b) => doneBlock k t x i b))
  let s := s.onStr (fun m => { m with closed := m.closed.filter (fun u => u.wseq != t.wseq), done := m.done ++ bs })
  let s := s.each bs (fun s b => match b.piece with
    | some (id, lba) => onPiece id lba (fun p => { p with left := p.left - 1 }) s
    | none => s)
  let full := (stripePieces t).filter (fun (id, lba) => match s.ctx id with
    | some x => x.pieces.any (fun p => p.lba == lba && p.left == 0 && !pieceFinal p)
    | none => false)
  let s := s.each full (fun s (id, lba) => onPiece id lba (fun p => { p with st := .ready }) s)
  let mine := fun (b : PBlk) => match b.piece with
    | some p => full.contains p
    | none => true
  let g := s.str.done.filter mine
  let s := s.onStr (fun m => { m with done := m.done.filter (fun b => !mine b && match b.piece with
    | some (id, _) => (s.ctx id).isSome
    | none => false) })
  if g = [] then s else s.onMap (fun m => { m with ready := m.ready ++ [{ blocks := g }] })

/-- DETAIL of DRIVE_UNAVAILABLE for a channel (R464). -/
def driveDetail (c : Ch) (s : State) : Nat := c.val + 256 * s.get (DCM_ERR_CAUSE.at c)

/-- The channel that held a disc, mounted or not. -/
def chanHolding (d : Nat) (s : State) : Option Ch := allCh.find? (fun c => discOf c s == d)

/-- Missing members a stripe may complete with (R556, R579). -/
def degMax (layout : Nat) (s : State) : Nat := min (s.get STR_CTL_DEG_MAX) (layoutM layout - 1)

/-- A closed stripe is judged (R549, R555, R556). -/
def execStripeComplete (w : Nat) (s : State) : Out := gate s <|
  let s := serveChannels (s.each allCh (fun s c => takeHandedBack c s))
  .next (match s.str.closed.find? (fun t => t.wseq == w) with
    | none => s
    | some t0 => match setOf t0.set s with
      | none => s
      | some k =>
        let n := layoutN k.layout
        let s := s.each (List.range n) (fun s x => match chanOf (k.members.getD x 0) s with
          | some c => takeRelocs t0 x c (takeVerdict t0 x c s)
          | none => s)
        match s.str.closed.find? (fun t => t.wseq == w) with
        | none => s
        | some t =>
          let ended := fun x => t.verified.contains x || t.failed.contains x || t.missing.contains x
          if t.failed ≠ [] then
            if t.handed.all ended then placeAgain k t s else s
          else if (List.range n).all ended && t.awaits.isEmpty then
            let miss := (List.range n).filter (fun x => !t.verified.contains x)
            let map := miss.foldl (fun a x => a + 2 ^ x) 0
            let rec' : Welt := { wseq := 0, kind := 2, layout := k.layout, missing := map, set := t.set, layer := t.layer
                                 zone := t.zone, tile := t.tile, link := w }
            if miss.length ≤ degMax k.layout s then
              match weltProgram rec' s with
              | none => weltFull s
              | some s => stripeDone k t s
            else match weltProgram { rec' with kind := 3, missing := 0 } s with
              | none => weltFull s
              | some s =>
                let d := match miss.findSome? (fun x => chanHolding (k.members.getD x 0) s) with
                  | some c => driveDetail c s
                  | none => 0
                abandonStripe t 0x26 d s
          else s)

/-- Counters of STR (R579) and of SEA (R582). -/
def strClear (s : State) : State :=
  s.clearAll [STR_CNT_CLOSED_CLOSED, STR_CNT_MISC, STR_CNT_RECON, STR_CNT_MEMBER, STR_CNT_RECOV]
/-- Counters of SEA. -/
def seaClear (s : State) : State := s.clearAll ((List.range 7).map (fun p => SEA_CNTp.i p))

end Sys2Proof.Machine
end

