-- ==== Sys2Proof/Machine/Io.lean ====
section
/-! DEFINITION. The I/O commands (R465–R477, R483–R493): where a read takes each block, rung 5 (R559–R562), the arrival and
placement of a write, FLUSH, QUERY_LOCATION and the Siding. -/

namespace Sys2Proof.Machine

open Reg

/-! ### Where a block comes from -/

/-- The set and member index of a disc; during a rebuild the failed disc keeps its index (R570). -/
def memberOf (d : Nat) (s : State) : Option (SSet × Nat) :=
  match s.str.rebuild with
  | some r =>
    if r.failed = d then (setOf r.set s).map (fun k => (k, r.member))
    else s.str.sets.findSome? (fun k => (k.members.findIdx? (· == d)).map (fun x => (k, x)))
  | none => s.str.sets.findSome? (fun k => (k.members.findIdx? (· == d)).map (fun x => (k, x)))

/-- Member index that the latest REBUILD record of a set names (R563). -/
def replacedIn (set : Nat) (s : State) : Option Nat :=
  ((s.str.welt.filter (fun (w : Welt) => w.kind == 4 && w.set == set)).getLast?).map (fun (w : Welt) => w.rstate % 8)

/-- Is a block on the lost-stripe list, and if so, does it lie on the replaced member (R574)? -/
def lostHere (p : Place) (s : State) : Option Bool :=
  match memberOf p.disc s with
  | none => none
  | some (k, x) =>
    if s.str.lost.any (fun (e : LostE) => e.set == k.id && e.layer == p.layer && e.zone == p.zone && e.tile == p.tile &&
        bitOf x e.members && bitOf p.data e.slots) then some (replacedIn k.id s == some x)
    else none

/-- The latest earlier write that holds a block in DRAM for a command (R486), and the block. -/
def heldBlock (x : Ctx) (lba : Nat) (s : State) : Option (List Byte) :=
  let ws := s.host.ctxs.filter (fun y => y.isWrite && decide (y.id < x.id) && decide (2 ≤ y.stage) && y.nsid == x.nsid &&
    decide (y.slba ≤ lba) && y.pieces.any (fun p => decide (p.lba ≤ lba ∧ lba < p.lba + p.n)) &&
    decide (lba - y.slba < y.blocks.length))
  (ws.foldl (fun (m : Option Ctx) (y : Ctx) => match m with
    | some z => if z.id < y.id then some y else m
    | none => some y) none).bind (fun y => y.blocks[lba - y.slba]?)

/-- A block that has never been written (R470). -/
def neverBlock (lba nsid : Nat) : List Byte := zeros 4096 ++ sealBytes (zeros 4096) ⟨lba, nsid, 0, 0⟩

/-- Where a command takes a block from: bytes in hand, the tile slot on a channel, rung 5 (with the channel that fell
back, if that is why), or nowhere, with status and the absent disc or DETAIL. -/
inductive BlkSrc where
  | data (b : List Byte)
  | read (c : Ch) (p : Place)
  | rung5 (p : Place) (drive : Option Ch)
  | lost (status aux : Nat)
deriving DecidableEq, Repr

/-- Has a channel fallen back or stopped since the command was fetched (R493)? -/
def fellBack (c : Ch) (x : Ctx) (s : State) : Bool :=
  s.getb (DCM_STAT_STOPPED.at c) || (s.chan c).dcm.falling.isSome || decide (x.falls.getD c.val 0 < (s.chan c).dcm.falls)

/-- A block on a disc, by the channel that holds it (R488, R493, R574). -/
def readSrc (x : Ctx) (p : Place) (s : State) : BlkSrc :=
  if lostHere p s = some true then .lost 0x23 0
  else match chanFor x p.disc s with
    | none => .lost 0x20 p.disc
    | some c => if fellBack c x s then .rung5 p (some c) else .read c p

/-- A block at a place, with the rebuild's frontier observed (R572). -/
def placeSrc (x : Ctx) (p : Place) (s : State) : BlkSrc :=
  match s.str.rebuild with
  | some r =>
    if r.failed = p.disc ∧ (chanOf p.disc s).isNone then
      if posKey p.layer p.zone p.tile < r.pos then readSrc x { p with disc := r.repl } s else .rung5 p none
    else readSrc x p s
  | none => readSrc x p s

/-- Where block `i` of a reading command comes from. -/
def blockSrc (x : Ctx) (k : Ns) (i : Nat) (s : State) : BlkSrc :=
  let lba := x.slba + i
  let e := k.extBase + lba / 4096
  match heldBlock x lba s, resolve k lba s with
  | some b, _ => .data b
  | none, .never => .data (neverBlock lba x.nsid)
  | none, .at p => placeSrc x p s
  | none, .absent d => match (if d = 0 then none else chanFor x d s) with
    | none => .lost 0x20 d
    | some _ => if heldChange e s then .lost 0x16 3 else .lost 0x30 (Config.orphanClass e % 64)

/-! ### The Siding (R488–R491) -/

/-- Commands parked. -/
def parkedCount (s : State) : Nat := (s.host.ctxs.filter (fun x => x.parked.isSome)).length

/-- May a command park (R488, R489)? -/
def mayPark (k : Ns) (s : State) : Bool := k.siding == 1 && decide (parkedCount s < 2048)

/-- Parks a command. -/
def park (id : Nat) (s : State) : State := onCtx id (fun x => { x with parked := some s.now }) s

/-- First block of a reading command that needs an absent disc. -/
def absentRead (x : Ctx) (k : Ns) (s : State) : Option (Nat × Nat) :=
  (List.range x.nlb).findSome? (fun i =>
    if x.got.any (fun g => g.1 == i) || x.lost.any (fun l => l.1 == i) then none
    else match blockSrc x k i s with
      | .lost st d => if st = 0x20 then some (i, d) else none
      | _ => none)

/-- First block of a write that covers part of an ABSENT extent whose home disc is in no drive (R517). -/
def absentWrite (x : Ctx) (k : Ns) (s : State) : Option Nat :=
  let first := x.slba / 4096
  let last := (x.slba + x.nlb - 1) / 4096
  (List.range (last + 1 - first)).findSome? (fun j =>
    let lo := (first + j) * 4096
    let hi := min (lo + 4096) k.size
    match extOf (k.extBase + first + j) s with
    | some (.absent d) =>
      if x.slba ≤ lo ∧ hi ≤ x.slba + x.nlb then none
      else if d ≠ 0 ∧ (chanFor x d s).isSome then none
      else some (lo - x.slba)
    | _ => none)

/-- Does a command need a disc that is absent (R488)? -/
def needsAbsent (x : Ctx) (s : State) : Bool :=
  match nsFind x.nsid s with
  | none => false
  | some k =>
    if x.isWrite then (writeSet k.layout s).1 == .absent || (absentWrite x k s).isSome
    else (absentRead x k s).isSome

/-- Every parked command that needs no absent disc leaves the Siding, in fetch order (R490). -/
def sidingRelease (s : State) : State :=
  s.each (s.host.ctxs.filter (fun x => x.parked.isSome)) (fun s x =>
    if needsAbsent x s then s
    else onCtx x.id (fun x => { x with parked := none, falls := allCh.map (fun c => (s.chan c).dcm.falls) }) s)

/-! ### Ending a read (R470–R472) -/

/-- Blocks in hand from the first block on. -/
def gotPrefix (x : Ctx) : Nat := ((List.range x.nlb).takeWhile (fun i => x.got.any (fun g => g.1 == i))).length

/-- Checks the first `n` blocks at seal point 7 (R558): the bytes delivered and the first block that fails. -/
def deliverBlocks (x : Ctx) : List Nat → State → List Byte × Option Nat × State
  | [], s => ([], none, s)
  | i :: r, s =>
    let b := (keyFind i x.got).getD []
    let (ok, s) := guardCheck 7 x.nsid false b s
    if ok then
      let (l, f, s) := deliverBlocks x r s
      (b.take x.unit ++ l, f, s)
    else ([], some i, s)

/-- DETAIL of a block a read failed to obtain (R464). -/
def lostDetail (i status aux : Nat) : Nat := if 0x20 ≤ status ∧ status ≤ 0x23 then i % 65536 else aux

/-- Ends a READ after `n` blocks with a failure, or with SUCCESS (R470–R472). -/
def endRead (x : Ctx) (n : Nat) (fail : Option (Nat × Nat)) (s : State) : State :=
  let (bytes, bad, s) := deliverBlocks x (List.range n) s
  let count := bytes.length
  let s := writeBuf x.fn x.buf 0 bytes s
  match bad, fail with
  | some i, _ => finish x 0x22 (i % 65536) count s
  | none, none => finish x 0 0 count s
  | none, some (st, aux) =>
    let s := if st = 0x20 then writeBuf x.fn x.buf count (leBytes 8 aux) s else s
    finish x st (lostDetail n st aux) count s

/-- Ends a VERIFY, which transfers nothing (R473). -/
def endVerify (x : Ctx) (n : Nat) (fail : Option (Nat × Nat)) (s : State) : State :=
  match fail with
  | none => finish x 0 0 0 s
  | some (st, aux) => finish x st (lostDetail n st aux) 0 s

/-- Ends a reading command once every block before its first failing one is in hand (R471). -/
def settleRead (id : Nat) (s : State) : State :=
  match s.ctx id with
  | none => s
  | some x =>
    let n := gotPrefix x
    let stop := if x.op = 3 then endVerify else endRead
    if n = x.nlb then stop x n none s
    else match keyFind n x.lost with
      | some f => stop x n (some f) s
      | none => s

/-! ### Media reads (R486, R558 point 4) -/

/-- The tile slot of a place. -/
def tileAt (p : Place) : TilePos := ⟨p.layer, p.zone, 0, p.tile⟩

/-- A seal mismatch at point 4 or 5: SILENT counts, and the member is reported (R558, R690). -/
def silent (c : Ch) (s : State) : State :=
  ((s.bump STR_CNT_MEMBER_SILENT 1).raise strBlk 3).fault 35 c.val strBlk

/-- A block is in hand. -/
def gotBlock (id i : Nat) (b : List Byte) (s : State) : State :=
  onCtx id (fun x => { x with got := keySet i b x.got, rung5 := x.rung5.filter (· != i) }) s

/-- A block cannot be had. -/
def lostBlock (id i status aux : Nat) (s : State) : State :=
  onCtx id (fun x => { x with lost := x.lost ++ [(i, status, aux)], rung5 := x.rung5.filter (· != i) }) s

/-- A block goes to rung 5, when its disc is a member of a set. -/
def toRung5 (x : Ctx) (i : Nat) (p : Place) (drive : Option Ch) (s : State) : State :=
  if x.rung5.contains i then s
  else if (memberOf p.disc s).isSome then onCtx x.id (fun x => { x with rung5 := x.rung5 ++ [i] }) s
  else match drive with
    | some c => lostBlock x.id i 0x26 (driveDetail c s) s
    | none => lostBlock x.id i 0x21 0 s

/-- Point 4 for a block that a read resolved (R558). -/
def takeBlock (x : Ctx) (i : Nat) (c : Ch) (p : Place) (b : List Byte) (s : State) : State :=
  let (ok, s) := guardCheck 4 x.nsid false b s
  let k := sealOf b
  if !ok then toRung5 x i p none s
  else if k.ns == x.nsid && k.ref == (x.slba + i) % 2 ^ 48 then gotBlock x.id i b s
  else toRung5 x i p none (silent c (sealMiss 4 x.nsid s))

/-- The tile slot and data index a channel reads a block from: the spare slot of its last relocation, which its home slot never
stands in for (R114, R115), else its home. -/
def srcOf (c : Ch) (p : Place) (s : State) : TilePos × Nat :=
  match ((s.chan c).dcm.spares.filter (fun e => bitsOf 3 0 e == p.layer && bitsOf 6 4 e == p.zone && bitsOf 31 30 e == 0 &&
      bitsOf 23 8 e == p.tile && bitsOf 29 24 e == slotOfIdx p.data)).getLast? with
  | some e => (⟨p.layer, p.zone, 1, bitsOf 47 32 e⟩, dataIdx (bitsOf 53 48 e))
  | none => (tileAt p, p.data)

/-- Asks the channel for data index `n` of tile slot `q`. -/
def wantTile (c : Ch) (q : TilePos) (n : Nat) (s : State) : State :=
  let add := fun (l : List Nat) => if l.contains n then l else l ++ [n]
  let join := fun (o : Option TileRead) => o.map (fun (t : TileRead) =>
    if t.pos = q ∧ !t.verify then { t with needed := add t.needed } else t)
  let busy := fun (o : Option TileRead) => o.any (fun (t : TileRead) => decide (t.pos = q) && !t.verify)
  s.onRdc c (fun r =>
    if busy r.tile ∨ busy r.prev then { r with tile := join r.tile, prev := join r.prev }
    else if r.wanted.any (fun w => w.1 == q) then
      { r with wanted := r.wanted.map (fun (w : TilePos × List Nat) => if w.1 = q then (w.1, add w.2) else w) }
    else { r with wanted := r.wanted ++ [(q, [n])] })

/-- A block to be read from a channel: taken from the output buffer, or asked for. A tile whose ladder still runs may deliver it
yet (R171). -/
def readBlock (x : Ctx) (i : Nat) (c : Ch) (p : Place) (s : State) : State :=
  let (q, n) := srcOf c p s
  let ask := fun (s : State) => wantTile c q n (onCtx x.id (fun x => { x with since := x.since.or (some s.now) }) s)
  match (s.chan c).rdc.outBuf.find? (fun t => t.pos == q) with
  | none => ask s
  | some t => match keyFind n t.blocks with
    | some l => takeBlock x i c p (l.take 4112) s
    | none =>
      if t.partly then ask s
      else if t.blank || t.failed.contains n then
        if x.rung5.contains i then s else lostBlock x.id i (if (lostHere p s).isSome then 0x23 else 0x21) 0 s
      else ask (s.onRdc c (fun r => { r with outBuf := r.outBuf.filter (fun u => u.pos != q) }))

/-- One block of a reading command goes on. -/
def stepBlock (id i : Nat) (s : State) : State :=
  match s.ctx id with
  | none => s
  | some x =>
    if x.got.any (fun g => g.1 == i) || x.lost.any (fun l => l.1 == i) then s
    else match nsFind x.nsid s with
      | none => s
      | some k => match blockSrc x k i s with
        | .data b => gotBlock id i b s
        | .lost st a => lostBlock id i st a s
        | .rung5 p d => toRung5 x i p d s
        | .read c p => readBlock x i c p s

/-- Does a reading command still need a tile of a channel? -/
def needsTile (c : Ch) (q : TilePos) (s : State) : Bool :=
  s.host.ctxs.any (fun x => (x.op == 1 || x.op == 3) && x.since.isSome && match nsFind x.nsid s with
    | none => false
    | some k => (List.range x.nlb).any (fun i => !x.got.any (fun g => g.1 == i) && !x.lost.any (fun l => l.1 == i) &&
        match blockSrc x k i s with
        | .read d p => d == c && (srcOf c p s).1 == q
        | _ => false))

/-- Drops tiles and wishes that no command needs any more (R14). -/
def pruneReads (c : Ch) (s : State) : State :=
  if (s.chan c).rdc.outBuf = [] ∧ (s.chan c).rdc.wanted = [] then s
  else s.onRdc c (fun r => { r with
    outBuf := r.outBuf.filter (fun t => needsTile c t.pos s), wanted := r.wanted.filter (fun w => needsTile c w.1 s) })

/-- A READ or VERIFY goes on (R485, R486, R488). -/
def readOn (id : Nat) (s : State) : State :=
  match s.ctx id with
  | none => s
  | some x =>
    if x.parked.isSome || !yardRead x s then s
    else match nsFind x.nsid s with
      | none => s
      | some k =>
        if (absentRead x k s).isSome && mayPark k s then park id s
        else
          let s := s.each (List.range x.nlb) (fun s i => stepBlock id i s)
          settleRead id (s.each allCh (fun s c => pruneReads c s))

/-- Runs a command's step when the context holds its opcode. -/
def withOp (op id : Nat) (s : State) (f : Ctx → State) : State :=
  match s.ctx id with
  | some x => if x.op = op then f x else s
  | none => s

/-- READ (R470, R486). -/
def execRead (id : Nat) (s : State) : Out := gate s <| .next (withOp 1 id s (fun _ => readOn id s))

/-- VERIFY (R473). -/
def execVerify (id : Nat) (s : State) : Out := gate s <| .next (withOp 3 id s (fun _ => readOn id s))

/-- The time of the member reads of a READ or VERIFY is judged (R561). -/
def execMemberTimeout (id : Nat) (s : State) : Out := gate s <|
  .next (match s.ctx id with
    | none => s
    | some x => match x.since, nsFind x.nsid s with
      | some t, some k =>
        if s.now < t + s.memberTmo * 400 then s
        else
          let slow := (List.range x.nlb).filter (fun i => !x.got.any (fun g => g.1 == i) && !x.lost.any (fun l => l.1 == i) &&
            !x.rung5.contains i && match blockSrc x k i s with
              | .read _ p => (memberOf p.disc s).isSome
              | _ => false)
          let s := s.bump STR_CNT_MEMBER_SLOW slow.length
          onCtx id (fun x => { x with rung5 := x.rung5 ++ slow }) s
      | _, _ => s)

/-! ### Rung 5 (R559–R562) -/

/-- The block that the map places at a place: namespace and LBA. -/
def lbaAt (p : Place) (s : State) : Option (Nat × Nat) :=
  s.map.exts.findSome? (fun (e, x) => match nsOfExt e s with
    | none => none
    | some k =>
      let lba := fun n => (k.nsid, (e - k.extBase) * 4096 + n)
      match x with
      | .linear d l z _ t st fill =>
        let n := (p.tile - t) * 56 + p.data - st
        if d = p.disc ∧ l = p.layer ∧ z = p.zone ∧ t ≤ p.tile ∧ st ≤ (p.tile - t) * 56 + p.data ∧ n < fill then some (lba n)
        else none
      | .patched _ page => ((pageOf page s).find? (fun (_, q) => patchPlace q s == p)).map (fun (n, _) => lba n)
      | .absent _ => none)

/-- MISSING of a position in the exception table (R569), by the record entered last: absent when it is not listed, `none`
within when it is abandoned. -/
def excAt (set layer zone tile : Nat) (s : State) : Option (Option Nat) :=
  ((s.str.exc.filter (fun (w : Welt) => w.set == set && w.layer == layer && w.zone == zone && w.tile == tile)).getLast?).map
    (fun (w : Welt) => if w.kind = 3 then none else some w.missing)

/-- Does member `y` of a set stand ready as a survivor? -/
def survivor (k : SSet) (y : Nat) (s : State) : Bool :=
  match chanOf (k.members.getD y 0) s with
  | some c => !s.getb (DCM_STAT_STOPPED.at c) && (s.chan c).dcm.falling.isNone
  | none => false

/-- The slots at data index `i` that survivors give for member `x` (R559): absent where one is erased; the members whose
tile came but whose slot failed point 5 (`true`) or stayed unreadable (`false`). -/
def survivorSlots (k : SSet) (x i : Nat) (miss : Nat) (tiles : List MemberTile) :
    List Nat → State → List (Option (List Byte)) × List (Nat × Bool) × State
  | [], s => ([], [], s)
  | y :: ys, s =>
    let given := if y = x || bitOf y miss || !survivor k y s then none else tiles.find? (fun (t : MemberTile) => t.member == y)
    let slot := given.bind (fun (t : MemberTile) => (t.slots.getD (slotOfIdx i) none).map (fun l => l.take 4112))
    let parity := decide (layoutK k.layout ≤ y)
    let (b, s) := match slot, chanOf (k.members.getD y 0) s with
      | some b, some c =>
        let (ok, s) := guardCheck 5 (sealOf b).ns false b s
        let fits := ((sealOf b).ns == 0xFFFE) == parity
        if ok && fits then (some b, s) else (none, silent c (if ok then sealMiss 5 (sealOf b).ns s else s))
      | _, _ => (none, s)
    let (l, bad, s) := survivorSlots k x i miss tiles ys s
    (b :: l, if given.isSome && b.isNone then (y, slot.isSome) :: bad else bad, s)

/-- A rebuilt block (R560): data and seal bytes 10 to 15 from the decode, Guard over the data, Reference given. -/
def rebuiltBlock (lba : Nat) (r : List Byte × List Byte) : List Byte :=
  r.1 ++ leBytes 4 (crc32c r.1) ++ leBytes 6 lba ++ r.2

/-- What rung 5 gives for data index `i` of member `x` at a position: data and seal tail, and the members whose slot was
bad. Survivor blocks erased though their tile came are rebuilt with it and queued for rewrite (R559, R562). -/
def rung5At (k : SSet) (x i layer zone tile : Nat) (tiles : List MemberTile) (s : State) :
    Option (List Byte × List Byte) × List (Nat × Bool) × State :=
  let n := layoutN k.layout
  match excAt k.id layer zone tile s with
  | some none => (none, [], s)
  | e =>
    let miss := (e.bind id).getD 0
    let (bs, bad, s) := survivorSlots k x i miss tiles (List.range n) s
    if (bs.filter (·.isSome)).length < layoutK k.layout then (none, bad, s)
    else match rebuildIndex (layoutM k.layout) bs with
      | none => (none, bad, s)
      | some r =>
        let s := s.each (bad.filter (fun y => decide (y.1 < layoutK k.layout))) (fun s y =>
          let p : Place := ⟨k.members.getD y.1 0, layer, zone, tile, i⟩
          match lbaAt p s, r[y.1]? with
          | some (nsid, lba), some v => queueRewrite { nsid, lba, bytes := rebuiltBlock lba v, old := some p } s
          | _, _ => s)
        (r[x]?, bad, s)

/-- Rung 5 for a block of a command (R559–R562). When it fails, a block whose own channel is merely slow goes on waiting
for it (R561). -/
def rung5Block (id i : Nat) (tiles : List MemberTile) (s : State) : State :=
  match s.ctx id with
  | none => s
  | some x =>
    match nsFind x.nsid s with
    | none => s
    | some ns =>
      let src := blockSrc x ns i s
      let at' := match src with
        | .read _ p => some (p, none)
        | .rung5 p d => some (p, some d)
        | _ => none
      match at' with
      | none => s
      | some (p, why) =>
        match memberOf p.disc s with
        | none => s
        | some (k, m) =>
          let lba := x.slba + i
          let (r, _, s) := rung5At k m p.data p.layer p.zone p.tile tiles s
          match r with
          | some v =>
            let b := rebuiltBlock lba v
            let (ok, s) := guardCheck 6 x.nsid false b s
            let fits := (sealOf b).ns == x.nsid
            if ok && fits then
              gotBlock id i b (queueRewrite { nsid := x.nsid, lba, bytes := b, old := some p } (s.bump STR_CNT_RECON_RECON_OK 1))
            else
              let s := if ok then sealMiss 6 x.nsid s else s
              lostBlock id i 0x22 0 (s.bump STR_CNT_RECON_RECON_FAIL 1)
          | none =>
            let s := s.bump STR_CNT_RECON_RECON_FAIL 1
            let away := ((List.range k.members.length).filter (fun y => y != m)).findSome? (fun y =>
              let d := k.members.getD y 0
              if (chanOf d s).isNone then some d else none)
            let rebuilding := s.str.rebuild.any (fun (r : Rebuild) => r.failed == p.disc)
            match why, away with
            | none, _ => s
            | some d, away =>
              if (lostHere p s).isSome then lostBlock id i 0x23 0 s
              else match d, away with
                | some c, _ => lostBlock id i 0x26 (driveDetail c s) s
                | none, some disc =>
                  if rebuilding then
                    if mayPark ns s then park id s else lostBlock id i 0x20 disc s
                  else lostBlock id i 0x21 0 s
                | none, none => lostBlock id i 0x21 0 s

/-- The home position that rung 5 reconstructs for data index `i` of a tile (R114, R174): of a data tile its own, of a spare tile that
of the block it holds, when that is homed in a data tile slot. -/
def rung5Place (c : Ch) (t : TilePos) (i : Nat) (s : State) : Option Place :=
  let d := discOf c s
  if t.region = 0 then some ⟨d, t.layer, t.zone, t.tile, i⟩
  else ((sparedAt t (s.chan c).dcm.spares).find? (fun p => p.1 == i && bitsOf 31 30 p.2 == 0)).map (fun p =>
    ⟨d, t.layer, t.zone, bitsOf 23 8 p.2, dataIdx (bitsOf 29 24 p.2)⟩)

/-- Rung 5 for the missing needed slots of a tile (R176, R559, R560). -/
def rung5Slots (c : Ch) (k : SSet) (m : Nat) (tiles : List MemberTile) : List Nat → TileRead → State → TileRead × State
  | [], t, s => (t, s)
  | i :: r, t, s =>
    match rung5Place c t.pos i s with
    | none => rung5Slots c k m tiles r t s
    | some p =>
    let (v, _, s) := rung5At k m p.data p.layer p.zone p.tile tiles s
    match v with
    | none => rung5Slots c k m tiles r t (s.bump STR_CNT_RECON_RECON_FAIL 1)
    | some v =>
      let (nsid, lba) := (lbaAt p s).getD ((field v.2 0 2), 0)
      let b := rebuiltBlock lba v
      let (ok, s) := guardCheck 6 nsid false b s
      if ok && (sealOf b).ns == nsid then
        let s := queueRewrite { nsid, lba, bytes := b, old := some p } (s.bump STR_CNT_RECON_RECON_OK 1)
        rung5Slots c k m tiles r (onSlot (slotOfIdx i) (fun x => { x with st := .accepted, content := b, rung := 5 }) t) s
      else
        let s := if ok then sealMiss 6 nsid s else s
        rung5Slots c k m tiles r t (s.bump STR_CNT_RECON_RECON_FAIL 1)

/-- Rung 5 for the tile of a channel that waits there (R174, R176, R178). -/
def rung5Tile (c : Ch) (tiles : List MemberTile) (s : State) : State :=
  match (s.chan c).rdc.prev with
  | none => s
  | some t =>
    if t.rung ≠ 5 then s
    else
      let er := erasedSlots t
      match memberOf (discOf c s) s with
      | none => finishTile c t 0 er s
      | some (k, m) =>
        let (t, s) := rung5Slots c k m tiles (missing t) t s
        finishTile c t 0 er s

/-- STRIPE_RECONSTRUCT (R559): for a command's block at rung 5, or for the tile of a channel at rung 5. -/
def execStripeReconstruct (id : Option Nat) (k : Nat) (c : Ch) (tiles : List MemberTile) (s : State) : Out := gate s <|
  .next (match id with
    | some j => match s.ctx j with
      | some x => if x.rung5.contains k && x.parked.isNone then settleRead j (rung5Block j k tiles s) else s
      | none => s
    | none => rung5Tile c tiles s)

/-! ### Writes (R449, R469, R477, R488) -/

/-- The blocks of a write that are to be placed, each with its piece. -/
def blocksOf (x : Ctx) : List SBlk :=
  x.blocks.zipIdx.filterMap (fun (b, i) =>
    let lba := x.slba + i
    (x.pieces.find? (fun p => decide (p.lba ≤ lba ∧ lba < p.lba + p.n) && !pieceFinal p)).map (fun p =>
      { nsid := x.nsid, lba, bytes := b, piece := some (x.id, p.lba) }))

/-- A write that needs an absent disc parks or ends (R488, R489). -/
def writeAbsent (x : Ctx) (k : Ns) (i : Nat) (s : State) : State :=
  if mayPark k s then park x.id s else finish x 0x20 (i % 65536) (transferred x s) s

/-- Places a write whose data have been accepted in its write set (R475, R476, R482, R488, R545, R552). -/
def placeWrite (id : Nat) (s : State) : State :=
  match s.ctx id with
  | none => s
  | some x =>
    match nsFind x.nsid s with
    | none => s
    | some k =>
      match (writeSet k.layout s).1, absentWrite x k s with
      | .absent, _ => writeAbsent x k 0 s
      | _, some i => writeAbsent x k i s
      | .noWriter, none => finish x 0x25 0 (transferred x s) s
      | .have w, none =>
        if x.stage < 2 then s
        else
          let s := placeBlocks w (blocksOf x) (releaseAll (writeSet k.layout s).2)
          let s := onCtx id (fun x => { x with
            placed := true
            pieces := x.pieces.map (fun p => if p.st = .waiting then { p with st := .placed } else p) }) s
          if x.fua then closeSoon (fun b => b.piece.map (·.1) == some id) s else s

/-- WRITE (R477, R488): the write set is judged; accepted blocks are placed; a write whose pieces are final ends. -/
def execWrite (id : Nat) (s : State) : Out := gate s <|
  .next (withOp 2 id s (fun x =>
    if x.silent then settle id s
    else if x.parked.isSome then s
    else if x.placed then settle id s
    else settle id (placeWrite id s)))

/-- Has a command reads of host memory outstanding or waiting? -/
def readsLeft (id : Nat) (s : State) : Bool :=
  let left := fun (p : Port) => p.reqs.any (fun q => q.ctx == id) || p.queue.any (fun q => q.ctx == id)
  left s.host.ports[0] || left s.host.ports[1]

/-- The stored block of block `i` of a write (R469): checked at point 1 when SEALED, else sealed by the part. -/
def hostBlock (x : Ctx) (i : Nat) (b : List Byte) (s : State) : Bool × List Byte × State :=
  let data := b.take 4096
  let (g, s) := guardAt 1 data s
  let ref := (x.slba + i) % 2 ^ 48
  let store := fun (app : Nat) (g : Nat) =>
    data ++ leBytes 4 g ++ leBytes 6 ref ++ leBytes 2 x.nsid ++ leBytes 2 (partWriter s) ++ leBytes 2 app
  if x.sealed then
    let k := sealOf b
    if g == field b 4096 4 && k.ref == ref && k.ns == x.nsid then (true, store k.appTag (field b 4096 4), s)
    else (false, [], sealMiss 1 x.nsid s)
  else (true, store (field x.entry 28 2) g, s)

/-- Takes the blocks of a write (R469, R558 points 1 and 2): the stored blocks, the first that failed point 1, and the
blocks that failed point 2. -/
def hostBlocks (x : Ctx) (data : List Byte) : List Nat → State → List (List Byte) × Option Nat × List Nat × State
  | [], s => ([], none, [], s)
  | i :: r, s =>
    let (ok, b, s) := hostBlock x i ((data.drop (i * x.unit)).take x.unit) s
    if !ok then ([], some i, [], s)
    else
      let (ok2, s) := guardCheck 2 x.nsid false b s
      let (l, f, bad, s) := hostBlocks x data r s
      (b :: l, f, if ok2 then bad else i :: bad, s)

/-- Fails the pieces that hold blocks which failed point 2. -/
def failBlocks (x : Ctx) (bad : List Nat) (s : State) : State :=
  s.each bad (fun s i => match x.pieces.find? (fun p => decide (p.lba ≤ x.slba + i ∧ x.slba + i < p.lba + p.n)) with
    | some p => failPiece x.id p.lba 0x22 (i % 65536) s
    | none => s)

/-- DATA_RECEIVED (R449, R469, R558): ACCEPTED is written and the blocks are placed. -/
def execDataReceived (id : Nat) (data : List Byte) (s : State) : Out := gate s <|
  .next (withOp 2 id s (fun x =>
    if !x.receiving || readsLeft id s || data.length != x.nlb * x.unit then s
    else
      let (bs, f, bad, s) := hostBlocks x data (List.range x.nlb) s
      match f with
      | some i => finish x 0x22 (i % 65536) 0 s
      | none =>
        let s := onCtx id (fun x => { x with receiving := false, blocks := bs }) s
        let s := stageRecord x 2 data.length s
        let s := failBlocks x bad s
        match s.ctx id with
        | some x => if x.pieces.all pieceFinal then settle id s else placeWrite id s
        | none => s))

/-! ### FLUSH, QUERY_LOCATION, the Siding's time limit -/

/-- Writes that a FLUSH covers and that have no final record (R475, R500). -/
def flushCovers (x : Ctx) (s : State) : List Ctx :=
  s.host.ctxs.filter (fun y => y.isWrite && decide (y.id < x.id) && !y.silent &&
    (y.nsid == x.nsid || (x.nsid == 0 && match nsFind y.nsid s with
      | some k => bitOf x.fn k.owners
      | none => false)))

/-- FLUSH (R475). -/
def execFlush (id : Nat) (s : State) : Out := gate s <|
  .next (withOp 4 id s (fun x =>
    let ids := (flushCovers x s).map (·.id)
    if ids = [] then finish x 0 0 0 s
    else closeSoon (fun b => match b.piece with
      | some (i, _) => ids.contains i
      | none => false) s))

/-- Where QUERY_LOCATION finds a block: state, disc, channel, layer and zone (R474). -/
def locate (x : Ctx) (k : Ns) (i : Nat) (s : State) : Nat × Nat × Nat × Nat × Nat :=
  let lba := x.slba + i
  match heldBlock x lba s, resolve k lba s with
  | some _, _ => (2, 0, 0xFF, 0, 0)
  | none, .at p => (if (lostHere p s).isSome then 3 else 1, p.disc, (match chanOf p.disc s with
      | some c => c.val
      | none => 0xFF), p.layer, p.zone)
  | none, _ => (0, 0, 0xFF, 0, 0)

/-- Runs of blocks that share disc and state: first LBA, blocks, and the first block's place. -/
def locRuns : List (Nat × (Nat × Nat × Nat × Nat × Nat)) → List (Nat × Nat × (Nat × Nat × Nat × Nat × Nat))
  | [] => []
  | (lba, v) :: r => match locRuns r with
    | (f, n, w) :: q => if w.1 = v.1 ∧ w.2.1 = v.2.1 ∧ f = lba + 1 then (lba, n + 1, v) :: q else (lba, 1, v) :: (f, n, w) :: q
    | [] => [(lba, 1, v)]

/-- A record of QUERY_LOCATION (R474). -/
def locRecord : Nat × Nat × (Nat × Nat × Nat × Nat × Nat) → List Byte
  | (f, n, st, d, c, l, z) => leBytes 6 f ++ zeros 2 ++ leBytes 4 n ++ leBytes 1 st ++ leBytes 1 c ++ leBytes 1 l ++
      leBytes 1 z ++ leBytes 8 d ++ zeros 8

/-- First block of a QUERY_LOCATION whose extent only an absent disc can place (R512, R488). -/
def absentQuery (x : Ctx) (k : Ns) (s : State) : Option (Nat × BlkSrc) :=
  (List.range x.nlb).findSome? (fun i => match resolve k (x.slba + i) s, blockSrc x k i s with
    | .absent _, .lost st a => some (i, .lost st a)
    | _, _ => none)

/-- QUERY_LOCATION (R474, R485). -/
def execQueryLocation (id : Nat) (s : State) : Out := gate s <|
  .next (withOp 5 id s (fun x =>
    if x.parked.isSome || !yardRead x s then s
    else match nsFind x.nsid s with
      | none => s
      | some k => match absentQuery x k s with
        | some (i, .lost st a) =>
          if st = 0x20 ∧ mayPark k s then park id s else finish x st (lostDetail i st a) 0 s
        | _ =>
          let runs := locRuns ((List.range x.nlb).map (fun i => (x.slba + i, locate x k i s)))
          let out := ((runs.take (x.dataLen / 32)).map locRecord).flatten
          finish x 0 (min 65535 runs.length) out.length (writeBuf x.fn x.buf 0 out s)))

/-- The time of a parked command is judged (R491). -/
def execSidingTimeout (id : Nat) (s : State) : Out := gate s <|
  .next (match s.ctx id with
    | none => s
    | some x => match x.parked, nsFind x.nsid s with
      | some t, some k =>
        if k.sidingTmo = 0 ∨ s.now < t + k.sidingTmo * 400000 then s
        else if x.isWrite then finish x 0x20 (((absentWrite x k s).getD 0) % 65536) (transferred x s) s
        else
          let (i, d) := (absentRead x k s).getD (gotPrefix x, 0)
          if x.op = 1 then endRead x (min i (gotPrefix x)) (some (0x20, d)) s else finish x 0x20 (i % 65536) 0 s
      | _, _ => s)

end Sys2Proof.Machine
end

