-- ==== Sys2Proof/Machine/Resole.lean ====
section
/-! DEFINITION. Resole, the rebuild of a failed member onto a blank disc (R570–R577). -/

namespace Sys2Proof.Machine

open Reg

/-- What the STR registers show of a running rebuild (R579). -/
def showRebuild (s : State) : State :=
  match s.str.rebuild with
  | none => (s.putb STR_STAT_REB_RUN false).putb STR_STAT_REB_PAUSED false
  | some r =>
    let (l, z, t) := posAt r.pos
    let s := (s.putb STR_STAT_REB_RUN true).put STR_REB_POS_TILE t
    let s := ((s.put STR_REB_POS_LAYER (l % 16)).put STR_REB_POS_ZONE z).put STR_REB_POS_MEMBER r.member
    (s.put STR_REB_SET_LO_SET (r.set % 2 ^ 32)).put STR_REB_SET_HI_SET (r.set / 2 ^ 32)

/-- Changes the running rebuild. -/
def onRebuild (f : Rebuild → Rebuild) (s : State) : State :=
  showRebuild (s.onStr (fun t => { t with rebuild := t.rebuild.map f }))

/-- The REBUILD record of a rebuild (R563). -/
def rebuildRecord (k : SSet) (r : Rebuild) (finished : Bool) : Welt :=
  let (l, z, t) := posAt r.pos
  { wseq := 0, kind := 4, layout := k.layout, set := k.id, layer := l, zone := z, tile := t, link := r.failed
    repl := r.repl, rstate := r.member + 128 * b2n finished }

/-- Programs the REBUILD record of the running rebuild. -/
def programRebuild (finished : Bool) (s : State) : State :=
  match s.str.rebuild with
  | none => s
  | some r => match setOf r.set s with
    | none => s
    | some k => (weltProgram (rebuildRecord k r finished) s).getD (weltFull s)

/-- Other members of a set whose discs are mounted. -/
def othersMounted (k : SSet) (failed : Nat) (s : State) : Nat :=
  (k.members.filter (fun d => d != failed && (chanOf d s).isSome)).length

/-- The checks of REBUILD_START (R570): status and DETAIL of the first that fails. -/
def rebuildFault (c : Ch) (failed : Nat) (s : State) : Option (Nat × Nat) :=
  match setWith failed s with
  | none => some (0x11, 24)
  | some k =>
    let n := othersMounted k failed s
    if n = 0 ∨ (chanOf failed s).isSome ∨ n < layoutK k.layout then some (0x11, 24)
    else if !mayJoin c s || s.str.rebuild.isSome then some (0x11, 16)
    else if s.getb (DCM_STAT_STOPPED.at c) then some (0x26, driveDetail c s)
    else none

/-- Do stripes of a set still wait to close or to complete? -/
def setBusy (id : Nat) (s : State) : Bool :=
  (openOf id s).queues.any (· != []) || s.str.closed.any (fun (t : Stripe) => t.set == id)

/-- The replacement takes the failed disc's place (R570). -/
def beginRebuild (k : SSet) (c : Ch) (failed : Nat) (s : State) : State :=
  let m := (k.members.findIdx? (· == failed)).getD 0
  let repl := discOf c s
  let k := { k with members := k.members.set m repl, replaced := failed, state := 2, current := false }
  let s := onSet k.id (fun _ => k) s
  let s := writeSetRecords k 2 s
  let s := s.onStr (fun t => { t with rebuild := some { set := k.id, member := m, chan := c.val, failed, repl } })
  showRebuild (programRebuild false s)

/-- REBUILD_START (R570). The set first becomes FULL; its stripes that wait or run end before the members change. -/
def execRebuildStart (id : Nat) (s : State) : Out := gate s <|
  .next (releaseAll (withOp 0x89 id s (fun x =>
    let c : Ch := ⟨field x.entry 16 1 % 6, Nat.mod_lt _ (by decide)⟩
    let failed := field x.entry 24 8
    match rebuildFault c failed s, setWith failed s with
    | some (st, d), _ => finish x st d 0 s
    | none, none => s
    | none, some k =>
      let s := onCtx id (fun x => { x with begun := true }) s
      let s := if k.state = 0 then fillSet k.id s else s
      if setBusy k.id s then s
      else if (weltSector s.str.welt).isNone then weltFull s
      else
        let k := (setOf k.id s).getD k
        finish x 0 0 0 (beginRebuild k c failed s))))

/-! ### Positions (R571–R576) -/

/-- What one data index of a rebuilt tile becomes: the block (absent for a fill block), and what was bad when it cannot
be rebuilt. -/
structure RebIdx where
  block : Option (List Byte)
  lost : Bool
  bad : List (Nat × Bool)
deriving DecidableEq, Repr

/-- The block of the replaced member at a data index (R571). -/
def rebuildAt (k : SSet) (r : Rebuild) (i layer zone tile : Nat) (tiles : List MemberTile) (s : State) : RebIdx × State :=
  let (v, bad, s) := rung5At k r.member i layer zone tile tiles s
  match v with
  | none => (⟨none, true, bad⟩, s)
  | some v =>
    if layoutK k.layout ≤ r.member then
      (⟨some (v.1 ++ leBytes 4 (crc32c v.1) ++ v.2 ++ leBytes 2 0xFFFE ++ leBytes 2 (partWriter s) ++ leBytes 2 0), false, bad⟩, s)
    else if field v.2 0 2 = 0xFFFD then (⟨none, false, bad⟩, s)
    else
      let lba := match lbaAt ⟨r.failed, layer, zone, tile, i⟩ s with
        | some (_, l) => l
        | none => 0
      (⟨some (rebuiltBlock lba v), false, bad⟩, s)

/-- `rebuildAt` over a list of data indices. -/
def rebuildAll (k : SSet) (r : Rebuild) (layer zone tile : Nat) (tiles : List MemberTile) :
    List Nat → State → List (Nat × RebIdx) × State
  | [], s => ([], s)
  | i :: is, s =>
    let (x, s) := rebuildAt k r i layer zone tile tiles s
    let (l, s) := rebuildAll k r layer zone tile tiles is s
    ((i, x) :: l, s)

/-- The lost-stripe entry for the indices that cannot be rebuilt (R574, R575). Of several causes a seal mismatch comes
first, an unreadable slot next (log 46). -/
def lostEntry (k : SSet) (r : Rebuild) (layer zone tile : Nat) (l : List (Nat × RebIdx)) (s : State) : LostE :=
  let gone := l.filter (fun p => p.2.lost)
  let bad := gone.flatMap (fun p => p.2.bad)
  let away := (List.range (layoutK k.layout)).filter (fun y => y != r.member && !survivor k y s)
  let ms := ([r.member] ++ bad.map (·.1) ++ away).foldl (fun a m => if a.contains m then a else a ++ [m]) []
  { set := k.id, layer, zone, tile, tick := s.stamp
    members := ms.foldl (fun a m => a + 2 ^ m) 0
    slots := gone.foldl (fun a p => a + 2 ^ p.1) 0
    cause := if bad.any (·.2) then 3 else if bad ≠ [] then 2 else 1 }

/-- Resole has handled a position: the frontier moves on, and a REBUILD record is due at each change of layer or zone and
after every 256 positions (R576). -/
def advance (s : State) : State :=
  match s.str.rebuild with
  | none => s
  | some r =>
    let next := posNorm (r.pos + 1)
    let due := next / 65536 != r.pos / 65536 || r.since == 255
    let s := onRebuild (fun r => { r with pos := next, since := if due then 0 else r.since + 1, out := false }) s
    if due then programRebuild false s else s

/-- The replacement counts as missing for a stripe (R571, R576): the DONE record is copied with MISSING updated, and the
tile's mapped data blocks are queued for rewrite. -/
def replMissing (k : SSet) (r : Rebuild) (blocks : List (Nat × List Byte)) (s : State) : State :=
  let (l, z, t) := posAt r.pos
  let here := fun (w : Welt) => w.set == k.id && w.layer == l && w.zone == z && w.tile == t && w.kind == 2
  let done : Welt := (((s.str.welt ++ s.str.exc).filter here).getLast?).getD
    { wseq := 0, kind := 2, layout := k.layout, set := k.id, layer := l, zone := z, tile := t, link := 0 }
  let miss := if bitOf r.member done.missing then done.missing else done.missing + 2 ^ r.member
  let done := { done with missing := miss }
  let s := weltCopies done (excAdd done s)
  s.each blocks (fun s (i, b) =>
    let p : Place := ⟨r.failed, l, z, t, i⟩
    match lbaAt p s with
    | some (nsid, lba) => queueRewrite { nsid, lba, bytes := b, old := some p } s
    | none => s)

/-- Ends Resole with the event record of R577. -/
def endRebuild (code : Nat) (r : Rebuild) (s : State) : State :=
  let s := showRebuild (s.onStr (fun t => { t with rebuild := none }))
  postEvent (afFunc s) 2 code r.added 0xFFFF (s.raise strBlk 1)

/-- The records that end a rebuild on every path (R577 steps 3 to 5): the exception records of the set, its STRIPE_SET record
and the final REBUILD record. -/
def rebuildClose (k : SSet) (c : Ch) (s : State) : State :=
  let exc := s.str.exc.filter (fun (w : Welt) => w.set == k.id)
  let s := if exc = [] then s else writeMeta c [(4, exc.flatMap weltBytes)] s
  let s := writeSetRecords { k with state := 1 } 1 (onSet k.id (fun j => { j with state := 1 }) s)
  programRebuild true (releaseAll s)

/-- The tile at the frontier is handed to the replacement's channel, `xs` being what its data indices become, and the
indices that cannot be rebuilt enter the lost-stripe list (R571, R574, R575). A full list stops Resole, which then leaves out
step 1 of R577 and with it the checkpoint of the extents that step 1 changes (log 104). -/
def handRebuilt (k : SSet) (r : Rebuild) (c : Ch) (xs : List (Nat × RebIdx)) (s : State) : State :=
  let (l, z, t) := posAt r.pos
  let lost := xs.any (fun p => p.2.lost)
  if lost && decide (65536 ≤ s.str.lost.length) then endRebuild 1 r (rebuildClose k c (s.fault 20 0 strBlk))
  else
    let s := if lost then
        let s := s.onStr (fun m => { m with lost := m.lost ++ [lostEntry k r l z t xs s] })
        onRebuild (fun r => { r with added := r.added + 1 }) (((s.bump FLS_CNT_OPS_PROGRAMS 2).put STR_LOST_ENTRIES s.str.lost.length).raise strBlk 2)
      else s
    let kind := if layoutK k.layout ≤ r.member then 2 else 1
    let tile := buildTile ⟨l, z, 0, t⟩ (discTag c s) (partWriter s) (fun i =>
      ((keyFind i xs).bind (fun (x : RebIdx) => x.block)).map (fun b => (kind, b, 0, 0, 0)))
    let s := setBlank c 0 l z (t + 1) s
    onRebuild (fun r => { r with out := true }) (handTile c tile s)

/-- What the 56 data indices of the tile at the frontier become (R571). -/
def rebuiltIndices (k : SSet) (r : Rebuild) (tiles : List MemberTile) (s : State) : List (Nat × RebIdx) × State :=
  let (l, z, t) := posAt r.pos
  rebuildAll k r l z t tiles (List.range 56) s

/-- The tile at the frontier is formed and handed to the replacement's channel (R571, R574). -/
def rebuildTile (k : SSet) (r : Rebuild) (c : Ch) (tiles : List MemberTile) (s : State) : State :=
  let x := rebuiltIndices k r tiles s
  handRebuilt k r c x.1 x.2

/-- Survivors' blocks of the replaced member at the frontier, for the rewrite queue. -/
def rebuiltBlocks (k : SSet) (r : Rebuild) (tiles : List MemberTile) (s : State) : List (Nat × List Byte) × State :=
  if layoutK k.layout ≤ r.member then ([], s)
  else
    let x := rebuiltIndices k r tiles s
    (x.1.filterMap (fun (i, x) => x.block.map (fun b => (i, b))), x.2)

/-- The tile handed out is judged (R571). -/
def rebuildVerdict (k : SSet) (r : Rebuild) (c : Ch) (tiles : List MemberTile) (s : State) : State :=
  let (l, z, t) := posAt r.pos
  match (s.chan c).wrc.reports.find? (fun q => q.pos == ⟨l, z, 0, t⟩) with
  | none => s
  | some q =>
    let s := s.onWrc c (fun w => { w with reports := w.reports.filter (fun p => p.pos != q.pos) })
    if q.outcome < 2 then advance s
    else
      let (bs, s) := rebuiltBlocks k r tiles s
      advance (replMissing k r bs s)

/-! ### The end (R577) -/

/-- The changes of the last map group (R577). -/
def rebuildChanges (r : Rebuild) (s : State) : List Change :=
  let idx := match discIdx r.failed s.map.discs with
    | some k => [Change.discEntry k r.repl]
    | none => []
  idx ++ s.map.exts.filterMap (fun (e, x) => match x with
    | .linear d l z b t st fill => if d = r.failed then some (.extentSet e (some (.linear r.repl l z b t st fill))) else none
    | _ => none)

/-- The extents that the last map group changed are checkpointed on the replacement (R577 steps 1 and 2). -/
def rebuildHome (r : Rebuild) (c : Ch) (s : State) : State :=
  let s := moveHome r.failed r.repl s
  let mine := s.map.exts.filter (fun (_, x) => homeOf (some x) == r.repl)
  let es := mine.filterMap (fun (e, x) => match x with
    | .absent _ => none
    | _ => some e)
  let orphans := mine.length - es.length
  let s := if orphans = 0 then s else (s.bump MAP_CNT_MISC_ORPHANS orphans).raise mapBlk 2
  let jseq := s.map.nextSeq - 1
  let s := writeMeta c ([(2, checkpointPayload c jseq es s)] ++ spareRecord c s) s
  (s.onDcm c (fun d => { d with ckPend := some (jseq, es) })).onWrc c (fun w => { w with spareList := [] })

/-- Every position has been handled (R577). -/
def rebuildEnd (k : SSet) (r : Rebuild) (c : Ch) (s : State) : State :=
  match r.group with
  | none =>
    let cs := rebuildChanges r s
    let s := onRebuild (fun r => { r with group := some cs }) s
    if cs = [] then s else s.onMap (fun m => { m with ready := m.ready ++ [{ changes := cs }] })
  | some cs =>
    if cs ≠ [] ∧ (s.map.ready ++ s.map.busy.toList).any (fun g => g.changes == cs) then s
    else endRebuild 0 r (rebuildClose k c (rebuildHome r c s))

/-- REBUILD_POSITION (R571–R577). -/
def execRebuildPosition (tiles : List MemberTile) (kept : Bool) (s : State) : Out := gate s <|
  .next (match s.str.rebuild with
    | none => s
    | some r => match setOf r.set s, chanOf r.repl s with
      | some k, some c =>
        let n := ((List.range k.members.length).filter (fun y => y != r.member && survivor k y s)).length
        if n < layoutK k.layout then s.putb STR_STAT_REB_PAUSED true
        else
          let s := s.putb STR_STAT_REB_PAUSED false
          if (weltSector s.str.welt).isNone then weltFull s
          else if r.out then rebuildVerdict k r c tiles s
          else if setNext k s ≤ r.pos then rebuildEnd k r c s
          else
            let (l, z, t) := posAt r.pos
            if excAt k.id l z t s = some none then advance s
            else if t < nextBlank c 0 l z s then
              if kept then advance s
              else
                let (bs, s) := rebuiltBlocks k r tiles s
                advance (replMissing k r bs s)
            else if !chanWorks c s || decide (2 ≤ tilesHeld (s.chan c).wrc) then s
            else rebuildTile k r c tiles s
      | some _, none => s
      | _, _ => s)

end Sys2Proof.Machine
end

