-- ==== Sys2Proof/Machine/Mount.lean ====
section
/-! DEFINITION. Mounting and unmounting a disc (R121, R122, R381–R383, R479, R480, R490, R526, R529, R546, R547,
R567–R569, R576). -/

namespace Sys2Proof.Machine

open Reg

/-- The channel a MOUNT_NOTIFY, UNMOUNT, REBUILD_START or CALIBRATE names in byte 16. -/
def chanArg (x : Ctx) : Ch := ⟨field x.entry 16 1 % 6, Nat.mod_lt _ (by decide)⟩

/-- Forgets the disc of a channel: DISC_LOADED and DCM_DISC are cleared (R383, R479, R480). -/
def dropDisc (c : Ch) (s : State) : State :=
  let s := setDisc c 0 (setLoaded c false s)
  let s := s.onDcm c (fun d => { d with
    mount := none, alloc := [], spares := [], metaSeq := 1, heldRecs := [], metaWait := [], metaOut := [], ckPend := none
    unmountStep := 0, unmountDark := false })
  let s := s.onWrc c (fun w => { w with spareList := [], flushing := false, fullSpares := [], rewrites := 0 })
  s.onRdc c (fun r => { r with outBuf := [], wanted := [] })

/-! ### What a mount reads (R119, R381, R382) -/

/-- The accepted records among metadata blocks: SEQ, type and payload, in increasing SEQ (R119). -/
def recordsIn (blocks : List (List Byte)) : List (Nat × Nat × List Byte) :=
  let found := blocks.filterMap metaParse
  let seqs := found.foldl (fun (l : List (Nat × Unit)) f => keySet f.1 () l) []
  seqs.filterMap (fun (q, _) => (metaGather found q).map (fun (t, p) => (q, t, p)))

/-- The highest SEQ found on a disc. -/
def topSeq (blocks : List (List Byte)) : Nat := (blocks.filterMap metaParse).foldl (fun m f => max m f.1) 0

/-- The last record of a type. -/
def lastOf (t : Nat) (rs : List (Nat × Nat × List Byte)) : Option (Nat × List Byte) :=
  ((rs.filter (fun r => r.2.1 == t)).getLast?).map (fun r => (r.1, r.2.2))

/-- Every region of a disc: code, layer and zone. -/
def allRegions : List (Nat × Nat × Nat) :=
  (List.range 16).flatMap (fun l => (List.range 8).flatMap (fun z => [(0, l, z), (1, l, z)])) ++
    (List.range 16).map (fun l => (2, l, 0))

/-- Next blank tile slot that a MAP_CHECKPOINT payload gives for a region (R524). -/
def ckNext (p : List Byte) : Nat × Nat × Nat → Nat
  | (0, l, z) => field p (24 + 2 * (8 * l + z)) 2
  | (1, l, z) => field p (280 + 2 * (8 * l + z)) 2
  | (_, l, _) => field p (536 + 2 * l) 2

/-- Rebuilds the allocation of a disc (R382): the next blank tile slots and the slots probed. -/
def allocFrom (ck : Option (List Byte)) (probes : List ProbeIn) : List ((Nat × Nat × Nat) × Nat) × Nat :=
  allRegions.foldl (fun (a, n) k =>
    let start := (ck.map (fun p => ckNext p k)).getD 0
    let next := match probes.find? (fun (q : ProbeIn) => (q.region, q.layer, q.zone) == k) with
      | some q => max start q.next
      | none => start
    let more := if next < regionSlots k.1 k.2.2 then 1 else 0
    (allocSet k next a, n + (next - start) + more)) ([], 0)

/-- 8-byte entries of a payload; on fuel. -/
def words8 : Nat → List Byte → List Nat
  | 0, _ => []
  | f + 1, l => if l.length < 8 then [] else field l 0 8 :: words8 f (l.drop 8)

/-- Relocations listed on a disc, with those the spare rings alone show (R115, R750). -/
def sparesOf (rs : List (Nat × Nat × List Byte)) : List Nat :=
  (rs.filter (fun r => r.2.1 == 6)).flatMap (fun r => words8 (r.2.2.length / 8) r.2.2)

/-! ### Checkpoints (R525, R526, R529) -/

/-- The items of a MAP_CHECKPOINT payload; on fuel. -/
def itemsOf (jseq : Nat) : Nat → List Byte → List CkItem
  | 0, _ => []
  | f + 1, l =>
    let head (entry : Option Ext) (page : List (Nat × Patch × Nat)) : CkItem :=
      { nsid := field l 2 2, ext := field l 4 4, createSeq := field l 8 8, entry, page, jseq }
    if l.length < 32 then []
    else if field l 0 1 = 1 then head (some (linearParse (l.drop 16))) [] :: itemsOf jseq f (l.drop 32)
    else
      let n := field l 16 2
      let ds := words8 n (l.drop 32)
      let body := (l.drop (32 + 8 * n)).take 32768
      let es := patchParse 0 4096 body
      head none (es.map (fun (k, p) => (k, p, ds.getD p.idx 0))) :: itemsOf jseq f (l.drop (32 + 8 * n + 32768))

/-- Items of every accepted MAP_CHECKPOINT of a disc, in increasing record SEQ; JSEQ is that of the record. -/
def allItems (rs : List (Nat × Nat × List Byte)) : List CkItem :=
  (rs.filter (fun r => r.2.1 == 2)).flatMap (fun r => itemsOf (field r.2.2 8 8) (field r.2.2 16 4) (r.2.2.drop 576))

/-- NSID and CREATE_SEQ of the tombstones of a disc (R527); on fuel. -/
def tombsIn : Nat → List Byte → List (Nat × Nat)
  | 0, _ => []
  | f + 1, l => if l.length < 32 then [] else (field l 0 2, field l 8 8) :: tombsIn f (l.drop 32)

/-- The items that count: of existing namespaces, within their extents, not under a tombstone, the last of each extent
(R526). -/
def goodItems (rs : List (Nat × Nat × List Byte)) (s : State) : List (Nat × CkItem) :=
  let tombs := (rs.filter (fun r => r.2.1 == 5)).flatMap (fun r => tombsIn (r.2.2.length / 32) r.2.2)
  (allItems rs).foldl (fun l (i : CkItem) =>
    match s.map.ns.find? (fun k => k.nsid == i.nsid && k.createSeq == i.createSeq) with
    | some k =>
      if i.ext < extCount k && !tombs.contains (i.nsid, i.createSeq) then keySet (k.extBase + i.ext) i l else l
    | none => l) []

/-- Loads an item into an extent (R526): `none` when no patch page or disc index is free. -/
def loadItem (e disc : Nat) (i : CkItem) (s : State) : Option State :=
  match i.entry with
  | some x => some (storeExt e (some x) s)
  | none =>
    let s := dropPage e s
    let ids := i.page.foldl (fun (o : Option State) (_, p, d) => o.bind (fun s => (ensureDisc p.idx d s).map (·.2))) (some s)
    ids.bind (fun s =>
      let page := i.page.map (fun (n, p, d) => (n, { p with idx := (discIdx d s.map.discs).getD 0 }))
      (takePage e disc page s).map (·.2))

/-- A pending change is applied to an extent that has been loaded (R521). -/
def applyPending (e : Nat) (c : Change) (s : State) : Option State :=
  match c with
  | .extentSet _ x => some (storeExt e x s)
  | .patchSet _ n p d => storePatch e n p d s
  | _ => some s

/-- Applies the pending changes of an extent, oldest first (R521, R526). -/
def applyHeld (e : Nat) (s : State) : Option State :=
  let mine := s.map.held.filter (fun p => match p.2 with
    | .extentSet f _ => f == e
    | .patchSet f _ _ _ => f == e
    | _ => false)
  let s := s.onMap (fun m => { m with held := m.held.filter (fun p => !mine.contains p) })
  mine.foldl (fun (o : Option State) p => o.bind (applyPending e p.2)) (some s)

/-- Loads one ABSENT extent at home on a disc (R526). Without room for it PATCH_FULL is raised and it stays ABSENT. -/
def loadExtent (disc e : Nat) (item : Option CkItem) (s : State) : State :=
  let pend := heldChange e s
  if item.isNone && !pend then (s.bump MAP_CNT_MISC_ORPHANS 1).raise mapBlk 2
  else
    let s0 := match item with
      | some i => loadItem e disc i s
      | none => some (setExt e none s)
    ((s0.bind (applyHeld e))).getD (s.raise mapBlk 3)

/-- Loads the checkpoint items of a disc for an open import (R529). -/
def loadImport (disc : Nat) (items : List (Nat × CkItem)) (k : Ns) (s : State) : State :=
  s.each items (fun s (e, i) =>
    if i.nsid ≠ k.nsid then s
    else
      let n := i.ext
      let known := match extOf e s with
        | some (.absent 0) => false
        | _ => true
      let old := match s.map.ns.find? (fun j => j.nsid == k.nsid) with
        | some j => (keyFind n j.table).getD 0
        | none => 0
      if known && decide (i.jseq ≤ old) then s
      else match loadItem e disc i s with
        | none => s.raise mapBlk 3
        | some s => onNs k.nsid (fun j => { j with table := keySet n i.jseq j.table }) s)

/-- The checkpoint load of a mount (R526, R529). -/
def loadCheckpoint (disc : Nat) (rs : List (Nat × Nat × List Byte)) (s : State) : State :=
  let items := goodItems rs s
  let open' := s.map.ns.filter (·.importOpen)
  let inOpen := fun (e : Nat) => open'.any (fun (k : Ns) => decide (k.extBase ≤ e ∧ e < k.extBase + extCount k))
  let home := s.map.exts.filterMap (fun (e, x) => match x with
    | .absent d => if d = disc && !inOpen e then some e else none
    | _ => none)
  let s := markItems disc (items.map (·.1)) s
  let s := s.each home (fun s e => loadExtent disc e (keyFind e items) s)
  showMap (s.each open' (fun s k => loadImport disc items k s))

/-! ### Sets (R545–R547) -/

/-- The set a STRIPE_SET payload describes (R546). -/
def setOfRecord (p : List Byte) : SSet :=
  let layout := field p 8 1
  { id := field p 0 8, layout, state := field p 10 1, replaced := field p 64 8
    members := (List.range (layoutN layout)).map (fun i => field p (16 + 8 * i) 8) }

/-- Does a set's ID carry this part's writer ID and generation (R547)? A part without a writer ID formed no set (R482). -/
def ownSet (id : Nat) (s : State) : Bool := s.fls.writer.isSome && id / 2 ^ 48 == discIdOf (partWriter s) 0 / 2 ^ 48

/-- Takes the governing STRIPE_SET record of a disc (R546, R547). -/
def takeSet (p : Option (List Byte)) (s : State) : State :=
  match p with
  | none => s
  | some p =>
    let k := setOfRecord p
    if !layoutOk k.layout then s
    else match setOf k.id s with
      | none => s.onStr (fun t => { t with sets := t.sets ++ [k] })
      | some j => if j.state = 0 ∧ k.state ≠ 0 ∧ !j.current then onSet k.id (fun _ => k) s else s

/-- A set all of whose members are mounted becomes current again, or is marked FULL (R547). -/
def judgeSet (id : Nat) (s : State) : State :=
  match setOf id s with
  | none => s
  | some k =>
    if k.state ≠ 0 || k.current || !k.members.all (fun d => (chanOf d s).isSome) || !ownSet id s then s
    else if (currentSet k.layout s).isSome then fillSet id s
    else onSet id (fun j => { j with current := true }) s

/-- Writes the STRIPE_SET record of a disc anew when the one it holds differs from its set (R547, R750). -/
def refreshSet (c : Ch) (p : Option (List Byte)) (s : State) : State :=
  let d := discOf c s
  match setWith d s with
  | none => s
  | some k =>
    let i := (k.members.findIdx? (· == d)).getD 0
    let want := setPayload k k.state i
    let s := onSet k.id (fun j => { j with fullDue := j.fullDue.filter (· != i) }) s
    if p = some want then s else writeMeta c [(3, want)] s

/-! ### Welt recovery (R567–R569) -/

/-- The record that 64 bytes hold (R563), when its RCRC checks. -/
def weltParse (l : List Byte) : Option Welt :=
  if l.take 4 = [0x57, 0x4C, 0x54, 0x4A] ∧ field l 60 4 = crc32c (l.take 60) then
    some { wseq := field l 4 8, kind := field l 12 1, layout := field l 13 1, missing := field l 14 1, set := field l 16 8
           layer := field l 24 1, zone := field l 25 1, tile := field l 26 2, link := field l 28 8, repl := field l 36 8
           rstate := field l 44 1 }
  else none

/-- Records of a WELT_COPY payload; on fuel. -/
def weltsIn : Nat → List Byte → List Welt
  | 0, _ => []
  | f + 1, l => if l.length < 64 then [] else (weltParse (l.take 64)).toList ++ weltsIn f (l.drop 64)

/-- The copies on a disc. -/
def copiesIn (rs : List (Nat × Nat × List Byte)) : List Welt :=
  (rs.filter (fun r => r.2.1 == 4)).flatMap (fun r => weltsIn (r.2.2.length / 64) r.2.2)

/-- Records that stay unresolved. -/
def unresolved (s : State) : Nat := (s.str.welt.filter (fun (w : Welt) => !w.readable)).length

/-- The copies of a disc vote on the unreadable records (R568): two discs whose copies agree govern. -/
def weltVote (disc : Nat) (cs : List Welt) (s : State) : State :=
  let asked := cs.filter (fun (w : Welt) => ownSet w.set s && s.str.welt.any (fun (r : Welt) => !r.readable && r.wseq == w.wseq))
  let s := s.onStr (fun t => { t with votes := t.votes ++ asked.map (fun w => (disc, w)) })
  let s := s.each (s.str.welt.filter (fun (w : Welt) => !w.readable)) (fun s r =>
    match s.str.votes.find? (fun v => v.2.wseq == r.wseq && s.str.votes.any (fun u => u.1 != v.1 && u.2 == v.2)) with
    | none => s
    | some (_, w) => (s.onStr (fun t => { t with welt := t.welt.map (fun (q : Welt) =>
        if q = r then { w with sector := r.sector } else q) })).bump STR_CNT_RECOV_VOTED 1)
  s.put STR_STAT_UNRESOLVED (min 255 (unresolved s))

/-- Enters the exceptions a disc holds for its set (R569). -/
def loadExceptions (disc : Nat) (cs : List Welt) (s : State) : State :=
  match setWith disc s with
  | none => s
  | some k => s.each (cs.filter (fun (w : Welt) => w.set == k.id)) (fun s w =>
      if s.str.exc.any (fun (e : Welt) => { e with sector := 0 } == w) then s else excAdd w s)

/-- Stripes in flight after a start (R567): OPEN records with neither DONE nor ABANDONED that no closed stripe holds. -/
def inFlight (s : State) : List Welt :=
  s.str.welt.filter (fun (w : Welt) => w.kind == 1 && w.readable && !s.str.closed.any (fun (t : Stripe) => t.wseq == w.wseq) &&
    !s.str.welt.any (fun (q : Welt) => (q.kind == 2 || q.kind == 3) && q.readable && q.link == w.wseq))

/-- Stripes in flight whose set is wholly mounted are rolled forward or abandoned (R567). -/
def recoverFlight (flight : List (Nat × Nat)) (s : State) : State :=
  s.each (inFlight s) (fun s w => match setOf w.set s with
    | none => s
    | some k =>
      if !k.members.all (fun d => (chanOf d s).isSome) then s
      else
        let all := (List.range k.members.length).all (fun m => flight.contains (w.wseq, m))
        match weltProgram { w with kind := if all then 2 else 3, missing := 0, link := w.wseq } s with
        | none => weltFull s
        | some s => if all then s.bump STR_CNT_RECOV_ROLLED_FWD 1 else s)

/-- A rebuild cut short by a chip reset goes on once k survivors and the replacement are mounted (R576). -/
def resumeRebuild (s : State) : State :=
  if s.str.rebuild.isSome then s
  else
    let due := s.str.sets.findSome? (fun k =>
      match (s.str.welt.filter (fun (w : Welt) => w.kind == 4 && w.readable && w.set == k.id)).getLast? with
      | none => none
      | some w =>
        let m := w.rstate % 8
        let n := ((List.range k.members.length).filter (fun y => y != m && survivor k y s)).length
        if 128 ≤ w.rstate then none
        else match chanOf w.repl s with
          | some c => if layoutK k.layout ≤ n then
              some ({ set := k.id, member := m, chan := c.val, failed := w.link, repl := w.repl
                      pos := posKey w.layer w.zone w.tile } : Rebuild) else none
          | none => none)
    match due with
    | none => s
    | some r => showRebuild (s.onStr (fun t => { t with rebuild := some r }))

/-! ### MOUNT_NOTIFY (R381, R479) -/

/-- The checks of MOUNT_NOTIFY (R479, R482): status and DETAIL. -/
def mountFault (x : Ctx) (s : State) : Option (Nat × Nat) :=
  let c := chanArg x
  let d := field x.entry 24 8
  let m := s.mode c
  if d ≠ 0 ∧ allCh.any (fun k => k != c && s.getb (DCM_CTL_DISC_LOADED.at k) && discOf k s == d) then some (0x11, 24)
  else if d = 0 ∧ s.fls.writer.isNone then some (0x11, 24)
  else if s.getb (DCM_STAT_STOPPED.at c) || s.getb (DCM_CTL_DISC_LOADED.at c) || decide (1 < m) then some (0x26, driveDetail c s)
  else none

/-- Steps 1 and 2 (R381): the disc is loaded and the channel heads for IDLE_TRACK at L0 band 0. -/
def mountBegin (x : Ctx) (s : State) : State :=
  let c := chanArg x
  let d := field x.entry 24 8
  let s := onCtx x.id (fun x => { x with begun := true, falls := allCh.map (fun k => (s.chan k).dcm.falls) }) s
  let s := setDisc c d (setLoaded c true s)
  let s := s.onDcm c (fun k => { k with mount := some { ctx := x.id, blank := d == 0 }, taps := [] })
  let s := (s.seqPut (dcmOrigin c) (DCM_TGT_LAYER.at c) 0).seqPut (dcmOrigin c) (DCM_TGT_BAND.at c) 0
  headTo c mIDLE s

/-- A blank disc is initialised (R121, R122, R382). -/
def initDisc (c : Ch) (s : State) : State :=
  let n := s.str.discCount + 1
  let id := discIdOf (partWriter s) n
  let p := identityPayload id (partWriter s) s.tb.tod
  let tiles := (List.range 16).map (fun l => ({ pos := metaPos l 0, blocks := metaBlocks 1 1 s.tb.tod p } : MetaTile))
  let s := setDisc c id (s.onStr (fun t => { t with discCount := n }))
  s.onDcm c (fun d => { d with
    alloc := (List.range 16).map (fun l => ((2, l, 0), 1)), metaWait := tiles, metaSeq := 2
    initTod := s.tb.tod, discWriter := partWriter s })

/-- Steps 5 and 6 for a known disc (R381, R382, R526, R547, R568, R569). -/
def readDisc (c : Ch) (ident : List Byte) (d : DiscIn) (s : State) : State :=
  let rs := recordsIn d.blocks
  let (alloc, probed) := allocFrom ((lastOf 2 rs).map (·.2)) d.probes
  let s := s.onDcm c (fun k => { k with
    alloc, metaSeq := topSeq d.blocks + 1, spares := sparesOf rs ++ d.unlisted
    initTod := field ident 16 8, discWriter := field ident 8 2 })
  let s := s.onWrc c (fun w => { w with spareList := w.spareList ++ d.unlisted })
  let s := s.bump (DCM_CNT2_PROBED.at c) probed
  let disc := discOf c s
  let s := takeSet ((lastOf 3 rs).map (·.2)) s
  let cs := copiesIn rs
  loadCheckpoint disc rs (loadExceptions disc cs (weltVote disc cs s))

/-- What follows the last step of a mount (R381 step 7, R490, R547, R567, R576). -/
def mountEnd (x : Ctx) (c : Ch) (d : DiscIn) (s : State) : State :=
  let s := s.seqPut (dcmOrigin c) (WRC_CTL_WR_EN.at c) 1
  let s := s.onDcm c (fun k => { k with mount := none })
  let rs := recordsIn d.blocks
  let s := refreshSet c ((lastOf 3 rs).map (·.2)) s
  let s := match setWith (discOf c s) s with
    | some k => judgeSet k.id s
    | none => s
  let s := resumeRebuild (recoverFlight d.flight s)
  sidingRelease (finish x 0 0 0 (serveChannels s))

/-- The identity copy of a layer: the DISC_IDENTITY record accepted among the blocks of its slot 0 (R119, R121). -/
def layerIdentity (d : DiscIn) (layer : Nat) : Option (List Byte) :=
  (keyFind layer d.identity).bind (fun blocks =>
    ((recordsIn blocks).find? (fun r => r.2.1 == 1)).map (fun r => r.2.2))

/-- The identity a mount accepts (R121, R381): the copy of the lowest layer whose record is accepted; absent when slot 0 of
L0 is blank or no copy is accepted. -/
def identityOf (d : DiscIn) : Option (List Byte) :=
  if d.blank then none else (List.range 16).findSome? (layerIdentity d)

/-- Steps 3 to 7, once IDLE_TRACK is reached (R381). -/
def mountRead (x : Ctx) (c : Ch) (d : DiscIn) (s : State) : State :=
  let named := discOf c s
  let fail := fun (s : State) =>
    let s := fallback c 14 false s
    finish x 0x26 (driveDetail c s) 0 (dropDisc c s)
  match identityOf d with
  | some p => if identityOk p && field p 0 8 == named && named != 0 then mountEnd x c d (readDisc c p d s) else fail s
  | none => if d.blank && named == 0 then mountEnd x c { d with blocks := [], flight := [] } (initDisc c s) else fail s

/-- MOUNT_NOTIFY (R381, R479): the command begins; its disc is read once the channel stands in IDLE_TRACK; a channel that
falls back or stops ends it. -/
def execMountNotify (id : Nat) (d : DiscIn) (s : State) : Out := gate s <|
  .next (withOp 0x83 id s (fun x =>
    let c := chanArg x
    if !x.begun then match mountFault x s with
      | some (st, dt) => finish x st dt 0 s
      | none => mountBegin x s
    else if (s.chan c).dcm.mount.map (·.ctx) ≠ some id then s
    else if fellBack c x s then finish x 0x26 (driveDetail c s) 0 (dropDisc c s)
    else if s.mode c ≠ mIDLE then s
    else mountRead x c d s))

/-! ### UNMOUNT (R383, R480) -/

/-- Does media work begun before the UNMOUNT still go on at a disc (R480, R553)? -/
def mediaBusy (c : Ch) (u : Ctx) (s : State) : Bool :=
  let d := discOf c s
  let inSet := match setWith d s with
    | some k => setBusy k.id s
    | none => false
  let reads := s.host.ctxs.any (fun x => (x.op == 1 || x.op == 3) && decide (x.id < u.id) && x.since.isSome &&
    match nsFind x.nsid s with
    | none => false
    | some k => (List.range x.nlb).any (fun i => !x.got.any (fun g => g.1 == i) && !x.lost.any (fun l => l.1 == i) &&
        match blockSrc x k i s with
        | .read e _ => e == c
        | _ => false))
  inSet || reads || slotUnder c s

/-- Blocks of the relocation buffer when nothing can be written (R383). -/
def relocsDark (c : Ch) (s : State) : State :=
  let w := (s.chan c).wrc
  let back := w.reloc.filter (·.fromVerify)
  let s := s.bump (WRC_CNT_RELOC_READ_DROP.at c) (w.reloc.length - back.length)
  showReloc c (s.onWrc c (fun k => { k with reloc := [], relocDone := k.relocDone ++ back.map (fun b => (b, false)) }))

/-- The channel brakes to PARKED (R383). -/
def unmountBrake (c : Ch) (dark : Bool) (s : State) : State :=
  headTo c mPARKED (s.onDcm c (fun d => { d with unmountStep := 3, unmountDark := dark }))

/-- The START taps that the mount has learnt replace the stored ones, and a TABLE record is stored when any changed (R669). A layer and zone without an entry gets one with
empty lead and trail tables (log 49). -/
def storeTaps (c : Ch) (s : State) : State :=
  let new := (s.chan c).dcm.taps
  let s := s.onDcm c (fun d => { d with taps := [] })
  let old := s.cal.chans[c].tables
  let put := new.foldl (fun (l : List (Nat × List Nat)) p =>
    keySet p.1 (p.2.map (ofSigned 12) ++ ((keyFind p.1 l).getD (List.replicate 19 0)).drop 15) l) old
  if put = old then s
  else storeTable c { s with cal := { s.cal with chans := s.cal.chans.set c { s.cal.chans[c] with tables := put } } }

/-- The last step of UNMOUNT, in PARKED (R383). -/
def unmountEnd (x : Ctx) (c : Ch) (s : State) : State :=
  let dark := (s.chan c).dcm.unmountDark
  let s := storeTaps c s
  let s := dropDisc c (s.seqPut (dcmOrigin c) (WRC_CTL_WR_EN.at c) 0)
  if dark then finish x 0x26 (driveDetail c s) 0 s else finish x 0 0 0 s

/-- UNMOUNT of a mounted disc (R383). -/
def unmountOn (x : Ctx) (c : Ch) (s : State) : State :=
  let d := (s.chan c).dcm
  if d.mount.isSome then s
  else if d.unmountStep ≤ 1 then
    let s := s.onDcm c (fun k => { k with unmountStep := 1 })
    if mediaBusy c x s || s.getb (WRC_STAT_LSAFE.at c) then s
    else if !s.getb (WRC_CTL_WR_EN.at c) || s.getb (DCM_STAT_WRITE_BLOCK.at c) || s.profile c == 3 then
      unmountBrake c true (relocsDark c s)
    else
      let s := s.onWrc c (fun w => { w with flushing := true })
      if (s.chan c).wrc.reloc ≠ [] ∨ (s.chan c).wrc.bufs ≠ [] ∨ (s.chan c).wrc.judging ≠ [] then s
      else serveMeta c (writeCheckpoint c (s.onDcm c (fun k => { k with unmountStep := 2 })))
  else if d.unmountStep = 2 then
    let s := serveMeta c s
    let k := s.chan c
    if k.dcm.metaWait = [] ∧ k.dcm.metaOut = [] ∧ k.dcm.heldRecs = [] ∧ k.wrc.bufs = [] then unmountBrake c false s else s
  else if s.mode c = mPARKED ∨ s.mode c = mOFF then unmountEnd x c s
  else s

/-- UNMOUNT (R383, R480). -/
def execUnmount (id : Nat) (s : State) : Out := gate s <|
  .next (withOp 0x84 id s (fun x =>
    let c := chanArg x
    let s := if x.begun then s
      else onCtx id (fun x => { x with begun := true, falls := allCh.map (fun k => (s.chan k).dcm.falls) }) s
    let x := (s.ctx id).getD x
    let m := s.mode c
    if s.getb (DCM_STAT_STOPPED.at c) && decide ((s.chan c).dcm.unmountStep = 0) then
      finish x 0x26 (driveDetail c s) 0 (dropDisc c (s.seqPut (dcmOrigin c) (WRC_CTL_WR_EN.at c) 0))
    else if !s.getb (DCM_CTL_DISC_LOADED.at c) then
      if m = mOFF ∨ m = mPARKED then finish x 0 0 0 s
      else if s.get (DCM_CTL_MODE_REQ.at c) ≤ 1 then s else headTo c mPARKED s
    else if fellBack c x s then
      finish x 0x26 (driveDetail c s) 0 (dropDisc c (s.seqPut (dcmOrigin c) (WRC_CTL_WR_EN.at c) 0))
    else unmountOn x c s))

end Sys2Proof.Machine
end

