-- ==== Sys2Proof/Machine/Calib.lean ====
section
/-! DEFINITION. Calibration and ageing (R650–R688): runs, trims, ageing measurements, storage and margin re-planning. -/

namespace Sys2Proof.Machine

open Reg

/-- The CAL block. -/
def calBlk : Blk := ⟨.cal, 0⟩

/-- The calibration sequencer as origin (R684). -/
def calOrigin : Origin := .seqr none 0x000D

/-- Changes calibration. -/
def State.onCal (s : State) (f : Cal → Cal) : State := { s with cal := f s.cal }

/-- What calibration keeps of a channel. -/
def State.calCh (s : State) (c : Ch) : CalCh := s.cal.chans[c]

/-- Changes what calibration keeps of a channel. -/
def State.onCalCh (s : State) (c : Ch) (f : CalCh → CalCh) : State :=
  s.onCal (fun k => { k with chans := k.chans.set c (f k.chans[c]) })

/-! ### Runs (R656–R659, R663) -/

/-- The measurements of a run, in order (R656). -/
def measures (m : Nat) : List Nat :=
  match m with
  | 0x0F => [2, 3, 4, 5]
  | 0x1F => [0x10, 0x11, 0x12, 0x13, 0x14]
  | 0x20 => [0x10, 0x11, 0x12, 0x13, 0x14]
  | m => [m]

/-- Is MEASURE a trim run: one that needs PARKED? -/
def isTrim (m : Nat) : Bool := [2, 3, 4, 5, 0x0F].contains m

/-- Is MEASURE an ageing run? -/
def isAgeing (m : Nat) : Bool := [0x10, 0x11, 0x12, 0x13, 0x14, 0x1F, 0x20].contains m

/-- The check of CHANNEL and MEASURE (R657): the failing byte. -/
def calArgFault (chan m : Nat) : Option Nat :=
  if 5 < chan ∧ chan ≠ 255 then some 16
  else if m = 1 then (if chan = 255 then none else some 16)
  else if isTrim m ∨ isAgeing m ∨ m = 0x30 then (if chan = 255 then some 16 else none)
  else some 17

/-- The run in progress on a channel (6 for REF). -/
def runOn (chan : Nat) (s : State) : Option CalRun := s.cal.runs.find? (fun r => r.begun && r.chan == chan)

/-- Changes the run in progress on a channel. -/
def onRun (chan : Nat) (f : CalRun → CalRun) (s : State) : State :=
  s.onCal (fun k => { k with runs := k.runs.map (fun r => if r.begun && r.chan == chan then f r else r) })

/-- Channel of a run; none for REF. -/
def runChan (r : CalRun) : Option Ch := if h : r.chan < 6 then some ⟨r.chan, h⟩ else none

/-- RUNNING and MEASURE of a run that begins, or RUNNING of one that ends (R687, R688). -/
def showRun (r : CalRun) (on : Bool) (s : State) : State :=
  match runChan r with
  | none => s.putb CAL_STAT_REF_RUN on
  | some c =>
    let s := s.put CAL_STAT_RUNNING (setBits c.val c.val (s.get CAL_STAT_RUNNING) (b2n on))
    let s := s.putb (CAL_CH_STAT_RUNNING.i c.val) on
    if on then s.put (CAL_CH_STAT_MEASURE.i c.val) r.measure else s

/-- Returns MODE_REQ to its value before an ageing run, unless it was written in the meantime: to another value (R659, log
157). -/
def giveBack (r : CalRun) (s : State) : State :=
  match runChan r with
  | none => s
  | some c =>
    if isAgeing r.measure ∧ s.get (DCM_CTL_MODE_REQ.at c) = mCAL then
      let m := (s.calCh c).reqBefore
      (s.seqPut calOrigin (DCM_CTL_MODE_REQ.at c) m).put (DCM_STAT_HEADING.at c) m
    else s

/-- A run ends with a status and DETAIL (R657, R687). -/
def endRun (r : CalRun) (status detail : Nat) (s : State) : State :=
  let s := s.onCal (fun k => { k with runs := k.runs.filter (fun q => !(q.begun && q.chan == r.chan)) })
  let s := giveBack r (showRun r false s)
  let s := (s.bump CAL_CNT_RUNS 1).raise calBlk 1
  match r.ctx with
  | some id => finishId id status detail 0 s
  | none => s

/-- A run ends by its outcome (R657). -/
def endByOutcome (chan : Nat) (s : State) : State :=
  match runOn chan s with
  | none => s
  | some r => if r.rejected = [] then endRun r 0 0 s else endRun r 0x30 30 s

/-- A rejection (R663). -/
def calReject (chan measure reason : Nat) (s : State) : State :=
  let s := (s.put CAL_LAST_REJ_CHANNEL (if chan < 6 then chan else 15)).put CAL_LAST_REJ_MEASURE measure
  let s := ((s.put CAL_LAST_REJ_REASON reason).bump CAL_CNT_REJECTED 1).raise calBlk 2
  s.fault 30 chan calBlk

/-- Has the channel of a run fallen back or stopped since the run began (R657)? -/
def runLost (r : CalRun) (s : State) : Bool :=
  match runChan r with
  | none => false
  | some c => s.getb (DCM_STAT_STOPPED.at c) || decide (r.falls < (s.chan c).dcm.falls)

/-- Ends a run whose channel fell back or stopped (R657). -/
def loseRun (r : CalRun) (s : State) : State :=
  match runChan r with
  | none => s
  | some c => endRun r 0x26 (driveDetail c s) s

/-- May a run begin (R658)? -/
def mayBegin (r : CalRun) (s : State) : Bool :=
  let before := s.cal.runs.takeWhile (fun q => q != r)
  !before.any (fun q => q.chan == r.chan) &&
    s.cal.runs.all (fun q => !q.begun || (q.chan != r.chan && decide (r.chan < 6) && decide (q.chan < 6)))

/-- Removes a run that has not begun, and ends its command. -/
def refuseRun (r : CalRun) (status detail : Nat) (s : State) : State :=
  let s := s.onCal (fun k => { k with runs := k.runs.filter (fun q => q != r) })
  match r.ctx with
  | some id => finishId id status detail 0 s
  | none => s

/-- The mode a run needs at the moment it would begin (R656). -/
def runModeOk (r : CalRun) (c : Ch) (s : State) : Bool :=
  if isTrim r.measure then s.mode c == mPARKED
  else if isAgeing r.measure then s.getb (DCM_CTL_DISC_LOADED.at c)
  else true

/-- An ageing run asks for CALIBRATE at the band under the spots (R659). -/
def askCalibrate (c : Ch) (s : State) : State :=
  let s := s.onCalCh c (fun k => { k with reqBefore := s.get (DCM_CTL_MODE_REQ.at c) })
  let s := s.seqPut calOrigin (DCM_TGT_LAYER.at c) (s.get (DCM_STAT_LAYER.at c))
  let s := s.seqPut calOrigin (DCM_TGT_BAND.at c) (s.chan c).dcm.band
  (s.seqPut calOrigin (DCM_CTL_MODE_REQ.at c) mCAL).put (DCM_STAT_HEADING.at c) mCAL

/-- A run begins (R657–R659). -/
def beginRun (r : CalRun) (s : State) : State :=
  let start := fun (falls : Nat) (res : Ageing) (s : State) =>
    let s := s.onCal (fun k => { k with runs := k.runs.map (fun q => if q = r then { q with begun := true, falls, res } else q) })
    let s := match r.ctx with
      | some id => onCtx id (fun x => { x with begun := true }) s
      | none => s
    showRun r true s
  match runChan r with
  | none => start 0 {} s
  | some c =>
    if !runModeOk r c s then refuseRun r 0x11 17 s
    else if s.getb (DCM_STAT_STOPPED.at c) then refuseRun r 0x26 (driveDetail c s) s
    else
      let latest := (s.calCh c).latest
      let res := if isAgeing r.measure then { latest with
          tod := s.tb.tod, valid := (measures r.measure).foldl (fun l m => l.set (m - 0x10) false) latest.valid } else latest
      let s := start (s.chan c).dcm.falls res (s.onDcm c (fun d => { d with calHits := 0 }))
      if isAgeing r.measure then askCalibrate c s else s

/-- Drops runs whose command is gone before they began. -/
def pruneRuns (s : State) : State :=
  s.onCal (fun k => { k with runs := k.runs.filter (fun r => r.begun || match r.ctx with
    | some id => (s.ctx id).isSome
    | none => true) })

/-- Begins a run when it may. -/
def tryBegin (r : CalRun) (s : State) : State := if mayBegin r s then beginRun r s else s

/-- CALIBRATE (R657, R658): checked, then waiting, begun when it may; a run whose channel falls back ends. -/
def execCalibrate (id : Nat) (s : State) : Out := gate s <|
  .next (withOp 0x8A id s (fun x =>
    let chan := field x.entry 16 1
    let m := field x.entry 17 1
    let s := pruneRuns s
    match s.cal.runs.find? (fun r => r.ctx == some id) with
    | some r => if r.begun then (if runLost r s then loseRun r s else s) else tryBegin r s
    | none => match calArgFault chan m with
      | some o => finish x 0x11 o 0 s
      | none =>
        let r : CalRun := { ctx := some id, chan := min 6 chan, measure := m }
        tryBegin r (s.onCal (fun k => { k with runs := k.runs ++ [r] }))))

/-- Ends every run at step 4 of a firmware activation, without storing or applying results (R664). -/
def abortRuns (s : State) : State :=
  s.each (s.cal.runs.filter (fun r => r.begun)) (fun s r => endRun { r with ctx := none } 0 0 s)

/-! ### Results (R666, R667, R688) -/

/-- A quotient; with divisor 0 a free value (log 50). -/
def quot (a b : Rat) : Rat := if b = 0 then Config.calQuot a else a / b

/-- A result in 16 bits; outside them a free value (log 50). -/
def fit16 (z : Int) : Nat := if 0 ≤ z ∧ z ≤ 65535 then z.toNat else Config.calOver z % 65536

/-- Shows the latest results and the Last (R688). Ratios to the Last change only while there is one. -/
def showResults (c : Ch) (s : State) : State :=
  let k := s.calCh c
  let a := k.latest
  let n := c.val
  let s := (s.put (CAL_DECEL_DECEL.i n) a.decel).put (CAL_DECEL_DECEL_L.i n) k.last.decel
  let s := ((s.put (CAL_WIN_FWIN.i n) a.fwin).put (CAL_WIN_TWIN.i n) a.twin).put (CAL_BER_BER0.i n) a.ber0
  let s := s.each (List.range 8) (fun s b =>
    (s.put (CAL_LASb_ITH.ij n b) (a.ith.getD b 0)).put (CAL_LASb_ETA.ij n b) (a.eta.getD b 0))
  let s := (s.putb (CAL_CH_STAT_LAST_VALID.i n) k.lastValid).put CAL_STAT_LAST_VALID
    (setBits n n (s.get CAL_STAT_LAST_VALID) (b2n k.lastValid))
  if !k.lastValid then s
  else
    let of4096 := fun (q : Rat) => fit16 (rndQ (q * 4096))
    let sens := fun (j : Nat) => of4096 (quot (a.sens.getD j 0 : Nat) (k.last.sens.getD j 0 : Nat))
    let s := s.each (List.range 8) (fun s b => s.put (CAL_RESPb_RHO.ij n b) (of4096 (quot
      ((a.amp.getD b 0 * k.last.rmean : Nat) : Rat) ((k.last.amp.getD b 0 * a.rmean : Nat) : Rat))))
    ((s.put (CAL_SENS_FT_S_FOCUS.i n) (sens 0)).put (CAL_SENS_FT_S_TRACK.i n) (sens 1)).put (CAL_SENS_T_S_TILT.i n) (sens 2)

/-- The results of the run in progress become the channel's latest. -/
def takeResults (c : Ch) (r : CalRun) (s : State) : State := showResults c (s.onCalCh c (fun k => { k with latest := r.res }))

/-- A run of one ageing measurement stores its result beside those it did not measure (R667, R672; log 156). -/
def storeResults (r : CalRun) (s : State) : State := match runChan r with
  | none => s
  | some c => storeMain c [] (takeResults c r s)

/-! ### Measurements -/

/-- The reference check (R651): is the reference good, and what it shows. -/
def refCheck (ref : RefIn) (s : State) : Bool × State :=
  let good := decide (1225000 ≤ ref.vref ∧ ref.vref ≤ 1275000 ∧ 121250 ≤ ref.iref ∧ ref.iref ≤ 128750)
  if good then
    let s := (s.putb CAL_STAT_REF_OK true).put CAL_REFV_VREF (rnd ref.vref 100).toNat
    (true, (s.put CAL_REFV_IREF (rnd ref.iref 10).toNat).onCal (fun k => { k with vref := ref.vref, iref := ref.iref }))
  else (false, (s.putb CAL_STAT_REF_OK false).fault 29 0 calBlk)

/-- The measurement that a run makes next. -/
def nextMeasure (r : CalRun) : Option Nat := (measures r.measure).find? (fun m => !r.done.contains m)

/-- Does the channel stand as a run needs it? -/
def runReady (r : CalRun) (s : State) : Bool :=
  match runChan r with
  | none => true
  | some c =>
    if isTrim r.measure then s.mode c == mPARKED
    else if isAgeing r.measure then s.mode c == mCAL
    else true

/-- A measurement of a run ends, accepted or rejected with a reason (R657, R663). A run of one measurement ends with it. -/
def measureEnd (chan m : Nat) (reason : Option Nat) (s : State) : State :=
  let s := match reason with
    | some k => onRun chan (fun r => { r with rejected := r.rejected ++ [m] }) (calReject chan m k s)
    | none => s
  let s := onRun chan (fun r => { r with done := r.done ++ [m] }) s
  match runOn chan s with
  | none => s
  | some r =>
    if measures r.measure ≠ [r.measure] then s
    else endByOutcome chan (if isAgeing m ∧ reason = none then storeResults r s else s)

/-- Runs a measurement when the run in progress on a channel makes it next: the reference is checked first (R651), a
second interruption rejects it (R664). -/
def measure (chan m : Nat) (ref : RefIn) (f : State → Option Nat × State) (s : State) : State :=
  match runOn chan s with
  | none => s
  | some r =>
    if nextMeasure r ≠ some m then s
    else if runLost r s then loseRun r s
    else if !runReady r s then s
    else
      let (good, s) := if r.refDone then (true, s) else refCheck ref s
      let s := onRun chan (fun r => { r with refDone := true }) s
      if !good then
        let s := calReject chan r.measure 1 s
        endByOutcome chan (onRun chan (fun r => { r with rejected := [m] }) s)
      else
        let hits := match runChan r with
          | some c => (s.chan c).dcm.calHits
          | none => 0
        let (k, s) := if 2 ≤ hits then (some 5, s) else f s
        let s := match runChan r with
          | some c => s.onDcm c (fun d => { d with calHits := 0 })
          | none => s
        measureEnd chan m k s

/-- CAL_REF (R651, R658). -/
def execCalRef (ref : RefIn) (s : State) : Out := gate s <| .next (measure 6 1 ref (fun s => (none, s)) s)

/-! ### Trim measurements (R653, R660–R662) -/

/-- One item of a trim measurement: the trim, its step times that of the item, the two results, their limits, and the
change that a result asks of the trim (R662). -/
structure TrimItem where
  fld : Fld
  r1 : Rat
  r2 : Rat
  most : Rat
  agree : Rat
  change : Rat
  steps : Rat

/-- The mean of the two results. -/
def TrimItem.mean (i : TrimItem) : Rat := (i.r1 + i.r2) / 2

/-- The new trim value of an item. -/
def TrimItem.new (i : TrimItem) (s : State) : Int := s.geti i.fld + rndQ (i.mean * i.steps)

/-- Absolute value. -/
def absQ (q : Rat) : Rat := if q < 0 then -q else q

/-- The first check of an item that fails, by its reason (R662, R663; log 51 for the order). -/
def itemReason (c : Ch) (i : TrimItem) (s : State) : Option Nat :=
  let n := i.new s
  let far := match storedTrim c i.fld s with
    | some o => decide (i.change * absQ i.steps < absQ ((n - o : Int) : Rat))
    | none => false
  if i.most < absQ i.mean then some 2
  else if i.agree < absQ (i.r1 - i.r2) then some 3
  else if far then some 4
  else if n < -128 ∨ 127 < n then some 6
  else none

/-- Applies the items of a trim measurement, or none of them (R662, R663). -/
def applyTrims (c : Ch) (l : List TrimItem) (s : State) : Option Nat × State :=
  match l.findSome? (fun i => itemReason c i s) with
  | some k => (some k, s)
  | none => (none, s.each (l.map (fun i => (i.fld, i.new s))) (fun s p => s.seqPut calOrigin p.1 (ofSigned 8 p.2)))

/-- Gain correction wanted / measured − 1; with nothing measured no correction is within the limits. -/
def gainOff (want : Rat) (d : Rat) : Rat := if d = 0 then -1 else want / d - 1

/-- A code in 1/4,096. -/
def code4096 (z : Int) : Rat := (z : Rat) / 4096

/-- The items of AFE for one signal (R660). -/
def afeItems (c : Ch) (g : Nat) (p : AfeIn × AfeIn) : List TrimItem :=
  let gain := fun (f : Fld) (a b : Int) => ({ fld := f, r1 := gainOff 160 (code4096 a), r2 := gainOff 160 (code4096 b), most := 1 / 20, agree := 1 / 500, change := 1 / 100, steps := 2000 } : TrimItem)
  [{ fld := (RDC_TRIM_OFS.at c).i g, r1 := code4096 p.1.m0, r2 := code4096 p.2.m0, most := 24, agree := 1 / 2, change := 8, steps := -2 },
   gain ((RDC_TRIM_ADC_GAIN.at c).i g) (p.1.aPlus - p.1.aMinus) (p.2.aPlus - p.2.aMinus),
   gain (CAL_RFGAINg_RF_GAIN.ij c.val g) (p.1.bPlus - p.1.bMinus) (p.2.bPlus - p.2.bMinus)]

/-- CAL_AFE (R660). -/
def execCalAfe (c : Ch) (ref : RefIn) (l : List (AfeIn × AfeIn)) (s : State) : Out := gate s <|
  .next (measure c.val 2 ref (applyTrims c (((l.take 10).zipIdx).flatMap (fun p => afeItems c p.2 p.1))) s)

/-- CAL_SERVO_OFS (R661). -/
def execCalServoOfs (c : Ch) (ref : RefIn) (l : List (Int × Int)) (s : State) : Out := gate s <|
  .next (measure c.val 3 ref (applyTrims c (((l.take 9).zipIdx).map (fun p =>
    { fld := CAL_SDOFSk_SD_OFS.ij c.val p.2, r1 := code4096 p.1.1, r2 := code4096 p.1.2, most := 96, agree := 4, change := 32, steps := -1 }))) s)

/-- CAL_MONITOR (R661). -/
def execCalMonitor (c : Ch) (ref : RefIn) (lm rm : Int × Int) (s : State) : Out := gate s <|
  let item := fun (f : Fld) (p : Int × Int) => ({ fld := f.i c.val, r1 := gainOff 1280 (code4096 p.1), r2 := gainOff 1280 (code4096 p.2), most := 1 / 10, agree := 1 / 200, change := 1 / 50, steps := 1000 } : TrimItem)
  .next (measure c.val 4 ref (applyTrims c [item CAL_MON_LMON_GAIN lm, item CAL_MON_RMON_GAIN rm]) s)

/-- CAL_SHUNT (R661). -/
def execCalShunt (c : Ch) (ref : RefIn) (a b : ShuntIn) (s : State) : Out := gate s <|
  .next (measure c.val 5 ref (applyTrims c
    [{ fld := SPN_TRIM_SH_OFS.at c, r1 := code4096 a.z, r2 := code4096 b.z, most := 24, agree := 1, change := 8, steps := -2 },
     { fld := SPN_TRIM_SH_GAIN.at c, r1 := gainOff 1024 (code4096 (a.plus - a.minus)), r2 := gainOff 1024 (code4096 (b.plus - b.minus)), most := 1 / 20, agree := 1 / 500, change := 1 / 100, steps := 2000 }]) s)

/-- Has a composite run made all its measurements? -/
def runAllDone (r : CalRun) : Bool := (measures r.measure).all r.done.contains

/-- CAL_TRIMS (R656): the run ends. -/
def execCalTrims (c : Ch) (s : State) : Out := gate s <|
  .next (match runOn c.val s with
    | some r =>
      if r.measure ≠ 0x0F then s
      else if runLost r s then loseRun r s
      else if runAllDone r then endByOutcome c.val s
      else s
    | none => s)

/-! ### Ageing measurements (R673–R677) -/

/-- Stores results of a measurement in the run. -/
def gather (chan k : Nat) (f : Ageing → Ageing) (s : State) : State :=
  onRun chan (fun r =>
    let a := f r.res
    { r with res := { a with valid := a.valid.set k true } }) s

/-- Threshold and slope of one emitter from its readings (R673): absent when fewer than 4 points fit. -/
def laserFit (bias : Nat) (l : List Nat) : Option (Nat × Nat) :=
  let top := l.getD 63 0
  let pts := ((l.take 64).zipIdx.filter (fun p => decide (2 * top ≤ 10 * p.1 ∧ 10 * p.1 ≤ 9 * top))).map (fun p =>
    ((rnd ((bias * p.2 : Nat) : Int) 63 : Rat), (p.1 : Rat) / 16))
  if pts.length < 4 then none
  else
    let n : Rat := pts.length
    let sum := fun (f : Rat × Rat → Rat) => (pts.map f).sum
    let e := quot (n * sum (fun p => p.1 * p.2) - sum (·.1) * sum (·.2)) (n * sum (fun p => p.1 * p.1) - sum (·.1) * sum (·.1))
    let a := (sum (·.2) - e * sum (·.1)) / n
    some (fit16 (rndQ (quot (((l.getD 0 0 : Nat) : Rat) / 16 - a) e)), fit16 (rndQ (1024 * e)))

/-- CAL_LASER (R673). -/
def execCalLaser (c : Ch) (ref : RefIn) (l : List (List Nat)) (s : State) : Out := gate s <|
  .next (measure c.val 0x10 ref (fun s =>
    let fits := (List.range 8).map (fun b => laserFit (s.get ((WRC_LEVEL_BIAS_BASE.at c).i b)) (l.getD b []))
    if fits.any (·.isNone) then (some 2, s)
    else
      let ok := fits.filterMap id
      (none, gather c.val 0 (fun a => { a with ith := ok.map (·.1), eta := ok.map (·.2) }) s)) s)

/-- CAL_RESPONSE (R674). -/
def execCalResponse (c : Ch) (ref : RefIn) (amp : List Nat) (rmean : Nat) (s : State) : Out := gate s <|
  .next (measure c.val 0x11 ref (fun s =>
    (none, gather c.val 1 (fun a => { a with amp := (List.range 8).map (fun b => amp.getD b 0 % 65536), rmean := rmean % 65536 }) s)) s)

/-- CAL_ACTUATOR (R675). -/
def execCalActuator (c : Ch) (ref : RefIn) (l : List (Nat × Nat)) (s : State) : Out := gate s <|
  .next (measure c.val 0x12 ref (fun s =>
    let sens := (List.range 3).map (fun k =>
      let p := l.getD k (0, 0)
      fit16 (rndQ (quot (4096 * (p.1 : Rat)) (p.2 : Rat))))
    (none, gather c.val 2 (fun a => { a with sens }) s)) s)

/-- The spots stand over radial band 1,180 of the present layer, in Z0, and the target names it (R676). -/
def frictionSeek (c : Ch) (s : State) : State :=
  let band := radialOf (s.get (DCM_STAT_LAYER.at c)) 1180
  let s := (s.seqPut calOrigin (DCM_TGT_BAND.at c) band).put (DCM_STAT_ZONE.at c) 0
  let s := s.onSrv c (fun v => { v with expTrack := 1180, addr := v.addr.map (fun a => { a with track := 1180 }) })
  s.onDcm c (fun d => { d with band })

/-- CAL_FRICTION (R676). The coast and the start are over when it ends (log 157). -/
def execCalFriction (c : Ch) (ref : RefIn) (t1 t2 v2 : Nat) (s : State) : Out := gate s <|
  .next (measure c.val 0x13 ref (fun s =>
    let d := quot ((57000 - (v2 : Rat)) * 400000) ((t2 : Rat) - (t1 : Rat))
    (none, gather c.val 3 (fun a => { a with decel := fit16 (rndQ d) }) (frictionSeek c s))) s)

/-- BER of one read of MARGIN (R677). -/
def berOf (p : Nat × Nat) : Rat := ((p.1 + 3000 * p.2 : Nat) : Rat) / 2377728

/-- A BER in units of 10⁻⁹, in 32 bits. -/
def berUnits (q : Rat) : Nat := (rndQ (q * 1000000000)).toNat % 2 ^ 32

/-- The window of one axis from its reads at +1 … +4 and −1 … −4 (R677), in steps. -/
def windowSteps (lim : Nat) (l : List (Nat × Nat)) : Nat :=
  let ok := fun (p : Nat × Nat) => decide (berOf p * 1000000 ≤ (lim : Rat))
  ((l.take 4).takeWhile ok).length + (((l.drop 4).take 4).takeWhile ok).length

/-- The tile that MARGIN reads (R677): the last written data tile slot of the layer and zone under the spots. -/
def marginTile (c : Ch) (s : State) : Option Nat :=
  match nextBlank c 0 (s.get (DCM_STAT_LAYER.at c)) (s.get (DCM_STAT_ZONE.at c)) s with
  | 0 => none
  | n => some (n - 1)

/-- CAL_MARGIN (R677). -/
def execCalMargin (c : Ch) (ref : RefIn) (l : List (Nat × Nat)) (s : State) : Out := gate s <|
  .next (measure c.val 0x14 ref (fun s =>
    if (marginTile c s).isNone then (none, s)
    else
      let lim := s.get CAL_AGE_LIM2_BER_LIM
      let w := fun (k : Nat) (f : Fld) => (windowSteps lim ((l.drop k).take 8) * s.get (f.at c)) % 65536
      (none, gather c.val 4 (fun a => { a with
        ber0 := berUnits (berOf (l.getD 0 (0, 0))), berw := berUnits (berOf (l.getD 1 (0, 0)))
        fwin := w 2 DET_LADDER_FOCUS_STEP, twin := w 10 DET_LADDER_TRACK_STEP }) s)) s)

/-! ### Margin re-planning (R679–R684) -/

/-- What re-planning finds: register values to write, and the fault classes it raises. -/
structure Replan where
  writes : List (Fld × Nat) := []
  faults : List Nat := []

/-- One base re-planned (R680). -/
def newBase (ith ithL eta etaL base : Nat) : Int :=
  (ith : Int) + rndQ (quot ((((base : Int) - (ithL : Int)) * (etaL : Int) : Int) : Rat) (eta : Rat))

/-- Re-planning of one emitter (R680). -/
def planEmitter (c : Ch) (b : Nat) (a l : Ageing) (base : Nat × Nat × Nat) : Replan :=
  let ith := a.ith.getD b 0
  let ithL := l.ith.getD b 0
  let eta := a.eta.getD b 0
  let etaL := l.eta.getD b 0
  let new := newBase ith ithL eta etaL
  let peak := new base.1
  if 130 * ithL < 100 * ith ∨ 100 * eta < 70 * etaL ∨ ((125 * base.1 : Nat) : Int) < 100 * peak ∨ 65535 < peak then { faults := [32] }
  else { writes := [((WRC_LEVEL_PEAK_BASE.at c).i b, fit16 peak), ((WRC_LEVEL_BIAS_BASE.at c).i b, fit16 (new base.2.1)), ((WRC_READLVL_READ_BASE.at c).i b, fit16 (new base.2.2))] }

/-- Re-planning of the read level (R681). -/
def planRead (c : Ch) (a l : Ageing) (base : Nat) : Replan :=
  let rho := (List.range 8).map (fun b =>
    quot ((a.amp.getD b 0 * l.rmean : Nat) : Rat) ((l.amp.getD b 0 * a.rmean : Nat) : Rat))
  let mean := rho.sum / 8
  if mean < 7 / 10 ∨ rho.any (fun q => decide (q < 6 / 10)) then { faults := [33] }
  else
    let f := if mean < 1 then (if 1 / mean < 115 / 100 then 1 / mean else 115 / 100) else 1
    { writes := [(WRC_RLASER_RREAD_BASE.at c, fit16 (rndQ ((base : Rat) * f)))] }

/-- GAIN and GSHIFT, or KI and KI_SHIFT, after a scaling (R682): absent when they cannot be adjusted. -/
def scaled (v : Int) (shift top : Nat) (up : Bool) (q : Rat) : Option (Int × Nat) :=
  let n := rndQ ((v : Rat) * q)
  if n.natAbs ≤ 32767 then some (n, shift)
  else if up ∧ top ≤ shift ∨ ¬up ∧ shift = 0 ∨ 32767 < (rnd n 2).natAbs then none
  else some (rnd n 2, if up then shift + 1 else shift - 1)

/-- SC register of an axis. -/
def scFld (c : Ch) (k : Nat) : Fld := match k with
  | 0 => CAL_SCALE_FT_SC_FOCUS.i c.val
  | 1 => CAL_SCALE_FT_SC_TRACK.i c.val
  | _ => CAL_SCALE_T_SC_TILT.i c.val

/-- The bank writes of an axis whose SC changes, and the swap (R682). -/
def bankWrites (c : Ch) (k : Nat) (g i : Int × Nat) (s : State) : List (Fld × Nat) :=
  let copy := (List.range 48).map (fun j =>
    let f : Fld := { (BK_GAIN.at c).i k with base := ((BK_GAIN.at c).i k).base + 4 * j }
    (f, (s.rd (((BA_GAIN.at c).i k).base + 4 * j)).toNat))
  copy ++ [((BK_GAIN_GAIN.at c).i k, ofSigned 16 g.1), ((BK_GAIN_GSHIFT.at c).i k, g.2), ((BK_KI_KI.at c).i k, ofSigned 16 i.1),
    ((BK_KI_KI_SHIFT.at c).i k, i.2), ((LOOP_CTL_SWAP.at c).i k, 1)]

/-- Re-planning of one axis (R682): its SC, and the writes to its loop. -/
def planAxis (c : Ch) (k : Nat) (a l : Ageing) (s : State) : Replan × List (Fld × Nat) :=
  let sens := a.sens.getD k 0
  let sensL := l.sens.getD k 0
  if 2 * sens < sensL ∨ 2 * sensL < sens then ({ faults := [34] }, [])
  else
    let old := s.get (scFld c k)
    let new := fit16 (rndQ (quot ((16384 * sensL : Nat) : Rat) (sens : Rat)))
    if new = old then ({}, [])
    else
      let b := readBank true c k s
      let q := quot (new : Rat) (old : Rat)
      match scaled b.gain b.gshift (2 ^ BK_GAIN_GSHIFT.width - 1) true q, scaled b.ki b.kiShift 0 false q with
      | some g, some i => ({ writes := [(scFld c k, new)] }, bankWrites c k g i s)
      | _, _ => ({ faults := [34] }, [])

/-- Profiles withdrawn (R683): SPRINT, BALANCED. -/
def withdrawn (a l : Ageing) (s : State) : Bool × Bool :=
  let both := fun (k : Nat) => a.valid.getD k false && l.valid.getD k false
  let f := fun (lim : Nat) => both 3 && decide (lim * l.decel < 16 * a.decel)
  let w := fun (lim : Nat) => both 4 && decide (256 * a.fwin < l.fwin * lim ∨ 256 * a.twin < l.twin * lim)
  let b := fun (lim : Nat) => both 4 && decide (lim * l.ber0 < a.ber0)
  let bal := f (s.get CAL_AGE_LIM_F_BAL) || w (s.get CAL_AGE_LIM_W_BAL) || b (s.get CAL_AGE_LIM2_B_BAL)
  (bal || f (s.get CAL_AGE_LIM_F_SPRINT) || w (s.get CAL_AGE_LIM_W_SPRINT) || b (s.get CAL_AGE_LIM2_B_SPRINT), bal)

/-- The parts of a plan together. -/
def joinPlans (l : List Replan) : Replan := { writes := l.flatMap (·.writes), faults := l.flatMap (·.faults) }

/-- What a register keeps when one of its fields is written: its RW and RWL bits. -/
def heldBits (a : Nat) (s : State) : Nat := match regRow a with
  | some (r, _, _) => (s.rd a &&& BitVec.ofNat 32 (r.rw ||| r.rwl)).toNat
  | none => 0

/-- The registers that a list of field values writes, each once, addresses rising. -/
def fieldWrites (l : List (Fld × Nat)) (s : State) : List (Nat × Nat) :=
  l.foldl (fun (m : List (Nat × Nat)) p =>
    keySet p.1.base (setBits p.1.hi p.1.lo ((keyFind p.1.base m).getD (heldBits p.1.base s)) p.2) m) []

/-- The calibration sequencer's writes to one block, opened for them (R684): by the latch of the channel, or at once in CAL. -/
def calWrites (c : Ch) (l : List (Fld × Nat)) (s : State) : State :=
  match l.head?.bind (fun p => blkOf p.1.base) with
  | none => s
  | some b => s.expert calOrigin b (fun s => s.each (fieldWrites l s) (fun s p =>
      if p.1 < 0x1000000 then s.seqWrite calOrigin p.1 p.2
      else s.stageReg c ⟨p.1, BitVec.ofNat 32 p.2, calOrigin⟩))

/-- The plan of one channel from its latest results and the Last (R680–R683). -/
def planOf (c : Ch) (r : CalRun) (s : State) : Replan × List (Fld × Nat) :=
  let k := s.calCh c
  let a := k.latest
  let has := fun (m : Nat) => !r.rejected.contains m
  let las := if has 0x10 then (List.range 8).map (fun b => planEmitter c b a k.last (k.lastBases.getD b (0, 0, 0))) else []
  let rd := if has 0x11 then [planRead c a k.last k.lastRead] else []
  let axes := if has 0x12 then (List.range 3).map (fun j => planAxis c j a k.last s) else []
  let (sp, bal) := withdrawn a k.last s
  let allow := s.get (DCM_ALLOW.at c)
  let left := (if sp then setBits 0 0 allow 0 else allow)
  let left := if bal then setBits 1 1 left 0 else left
  let cut : Replan := if left = allow then {} else { writes := [(DCM_ALLOW.at c, left)] }
  (joinPlans (las ++ rd ++ axes.map (·.1) ++ [cut]), axes.flatMap (·.2))

/-- Re-planning, in the order of R684. -/
def replan (c : Ch) (r : CalRun) (s : State) : State :=
  let (p, banks) := planOf c r s
  let s := storeMain c p.writes s
  let s := s.each (p.faults.foldl (fun l k => if l.contains k then l else l ++ [k]) []) (fun s k =>
    (s.fault k c.val calBlk).raise calBlk 5)
  let isCal := fun (q : Fld × Nat) => decide (q.1.base < 0x1000000)
  let isAllow := fun (q : Fld × Nat) => q.1.base == (DCM_ALLOW.at c).base
  let s := calWrites c (p.writes.filter (fun q => !isCal q && !isAllow q)) s
  let s := calWrites c (p.writes.filter isCal) s
  let s := calWrites c banks s
  let s := calWrites c (p.writes.filter isAllow) s
  (s.bump CAL_CNT_REPLANS 1).raise calBlk 3

/-- CAL_AGEING (R672, R679): the results are stored, and margins re-planned against the Last. -/
def execCalAgeing (c : Ch) (s : State) : Out := gate s <|
  .next (match runOn c.val s with
    | some r =>
      if r.measure ≠ 0x1F then s
      else if runLost r s then loseRun r s
      else if !runAllDone r then s
      else
        let s := takeResults c r s
        let s := if (s.calCh c).lastValid && s.getb CAL_CTL_APPLY_EN then replan c r s else storeMain c [] s
        endByOutcome c.val s
    | none => s)

/-- Captures the Last (R672). -/
def captureLast (c : Ch) (r : CalRun) (s : State) : State :=
  let s := s.onCalCh c (fun k => { k with
    latest := r.res, last := r.res, lastValid := true, lastRead := s.get (WRC_RLASER_RREAD_BASE.at c)
    lastBases := (List.range 8).map (fun b => (s.get ((WRC_LEVEL_PEAK_BASE.at c).i b),
      s.get ((WRC_LEVEL_BIAS_BASE.at c).i b), s.get ((WRC_READLVL_READ_BASE.at c).i b))) })
  let s := s.each (List.range 3) (fun s k => s.seqPut calOrigin (scFld c k) 16384)
  let allow := (DCM_ALLOW.at c, setBits 1 0 (s.get (DCM_ALLOW.at c)) 3)
  showResults c (storeMain c [allow] (calWrites c [allow] s))

/-- CAL_LAST_CAPTURE (R672). -/
def execCalLastCapture (c : Ch) (s : State) : Out := gate s <|
  .next (match runOn c.val s with
    | some r =>
      if r.measure ≠ 0x20 then s
      else if runLost r s then loseRun r s
      else if !runAllDone r then s
      else endByOutcome c.val (if r.rejected = [] then captureLast c r s else s)
    | none => s)

/-- The per-layer values and tables that stand in the registers (R668): those of the layer and zone under the spots
replace its entry. -/
def tablesNow (c : Ch) (s : State) : List (Nat × List Nat) :=
  let key := 8 * s.get (DCM_STAT_LAYER.at c) + s.get (DCM_STAT_ZONE.at c)
  let ws := (List.range 15).map (fun k => s.get ((RDC_EQ_TAP_START.at c).ij 0 k)) ++
    [s.get ((WRC_LEAD_LO_ENTRIES.at c).i 0), s.get ((WRC_LEAD_HI_ENTRIES.at c).i 0), s.get ((WRC_TRAIL_LO_ENTRIES.at c).i 0),
     s.get ((WRC_TRAIL_HI_ENTRIES.at c).i 0)]
  keySet key ws (s.calCh c).tables

/-- CAL_STORE_TABLES (R668). -/
def execCalStoreTables (c : Ch) (ref : RefIn) (s : State) : Out := gate s <|
  .next (measure c.val 0x30 ref (fun s =>
    let s := s.onCalCh c (fun k => { k with
      tables := tablesNow c s, layers := (List.range 16).map (fun l => s.rd ((SRV_LAYERn_SA_POS.at c).i l).base) })
    (none, storeTable c s)) s)

/-! ### Scheduled runs (R678) -/

/-- Is TOD_VALID set? -/
def todValid (s : State) : Bool := s.getb TMB_TOD_CTL_TOD_VALID

/-- AGEING_DUE (R678). -/
def execAgeingDue (c : Ch) (s : State) : Out := gate s <|
  let h := s.get CAL_SCHED_AGE_HOURS
  let k := s.calCh c
  let has := k.latest.valid.any id
  let past := if has && todValid s then decide (k.latest.tod + h * 3600000000000 ≤ s.tb.tod)
    else decide (h * 1440000000 ≤ s.now)
  .next (if s.getb CAL_CTL_SCHED_EN && h != 0 && k.due.isNone && past && s.cal.runs.all (fun r => r.chan != c.val) then
      s.onCalCh c (fun k => { k with due := some s.now })
    else s)

/-- AGEING_START (R678): idle long enough, or 24 h due and at the end of a tile slot. A scheduled run whose channel fell
back ends; one that waits for a REF run begins when it may (R658). -/
def execAgeingStart (c : Ch) (s : State) : Out := gate s <|
  .next (match (s.calCh c).due with
    | none => match s.cal.runs.find? (fun r => r.chan == c.val && r.ctx.isNone) with
      | some r => if !r.begun then tryBegin r s else if runLost r s then loseRun r s else s
      | none => s
    | some t =>
      let loaded := s.getb (DCM_CTL_DISC_LOADED.at c)
      let idle := s.mode c == mIDLE && decide ((s.chan c).dcm.usedTick + s.get CAL_SCHED_IDLE_SEC * 400000 ≤ s.now)
      let late := decide (t + 34560000000 ≤ s.now) && !slotUnder c s && isWorking (s.mode c)
      if loaded && (idle || late) && s.cal.runs.all (fun r => r.chan != c.val) then
        let r : CalRun := { ctx := none, chan := c.val, measure := 0x1F }
        let s := s.onCalCh c (fun k => { k with due := none })
        tryBegin r (s.onCal (fun k => { k with runs := k.runs ++ [r] }))
      else s)

/-- Counters of CAL (R687). -/
def calClear (s : State) : State := s.clearAll [CAL_CNT_RUNS, CAL_CNT_REJECTED, CAL_CNT_REPLANS]

end Sys2Proof.Machine
end

