-- ==== Sys2Proof/Machine/Admin.lean ====
section
/-! DEFINITION. The admin commands besides mounting, rebuilding, calibration and recording (R478–R482, R498, R502–R508, R529,
R641–R643, R699–R702). -/

namespace Sys2Proof.Machine

open Reg

/-- A command begins: it has passed its commit point (R498). -/
def markBegun (id : Nat) (s : State) : State := onCtx id (fun x => { x with begun := true }) s

/-- Adds a ready group to the map manager. -/
def addGroup (g : Group) (s : State) : State := s.onMap (fun m => { m with ready := m.ready ++ [g] })

/-- The groups that are ready or being programmed. -/
def openGroups (s : State) : List Group := s.map.ready ++ s.map.busy.toList

/-- Does a group answer a command? -/
def answering (id : Nat) (s : State) : Bool := (openGroups s).any (fun g => g.answer.any (fun a => a.1 == id))

/-- Is a group on its way that creates or deletes a namespace? -/
def nsGroupOpen (s : State) : Bool := (openGroups s).any (fun g => g.changes.any (fun c => match c with
  | .nsCreate _ _ _ _ _ _ => true
  | .nsDelete _ => true
  | _ => false))

/-! ### Namespaces (R505–R508, R529) -/

/-- Is a run of `n` entries from `b` free? -/
def runFree (b n : Nat) (l : List Ns) : Bool :=
  decide (b + n ≤ mapEntries) && l.all (fun k => decide (b + n ≤ k.extBase ∨ k.extBase + extCount k ≤ b))

/-- The lowest base of a free run of `n` entries (R507). -/
def freeRun (n : Nat) (l : List Ns) : Option Nat :=
  ((0 :: l.map (fun k => k.extBase + extCount k)).filter (fun b => runFree b n l)).foldl (fun m b => match m with
    | some a => some (min a b)
    | none => some b) none

/-- The lowest NSID not in use (R505). -/
def freeNsid (l : List Ns) : Nat :=
  (((List.range 1025).map (· + 1)).find? (fun n => l.all (fun k => k.nsid != n))).getD 1

/-- NSID that an NS_CREATE gives its namespace. -/
def createNsid (x : Ctx) (s : State) : Nat := if x.nsid = 0 then freeNsid s.map.ns else x.nsid

/-- Is IMPORT set in an NS_CREATE? -/
def createImport (x : Ctx) : Bool := bitOf 0 (field x.entry 26 1)

/-- Extents that an NS_CREATE needs. -/
def createExts (x : Ctx) : Nat := (field x.entry 16 6 + 4095) / 4096

/-- The checks of NS_CREATE (R506, R529): status and DETAIL. -/
def createFault (x : Ctx) (s : State) : Option (Nat × Nat) :=
  if createImport x ∧ x.nsid = 0 then some (0x11, 4)
  else if field x.entry 16 6 = 0 then some (0x11, 16)
  else if !layoutOk (field x.entry 24 1) then some (0x11, 24)
  else if x.nsid ≠ 0 ∧ s.map.ns.any (fun k => k.nsid == x.nsid) then some (0x15, 0)
  else if 1024 ≤ s.map.ns.length then some (0x16, 1)
  else if (freeRun (createExts x) s.map.ns).isNone then some (0x16, 2)
  else if createImport x ∧ pagesTotal s < pagesUsed s + (createExts x + 4095) / 4096 then some (0x16, 3)
  else none

/-- The changes of an NS_CREATE (R520, R529). -/
def createChanges (x : Ctx) (base : Nat) (s : State) : List Change :=
  let n := createNsid x s
  .nsCreate base n (field x.entry 24 1) (field x.entry 25 1) (field x.entry 16 6) (field x.entry 48 8) ::
    (if createImport x then [.nsImport n true (field x.entry 32 8)] else [])

/-- NS_CREATE (R505–R507, R529): checked and handed to the map as one group. It waits for another creation or deletion on
its way. -/
def execNsCreate (id : Nat) (s : State) : Out := gate s <|
  .next (withOp 0x80 id s (fun x =>
    if nsGroupOpen s then s
    else match createFault x s, freeRun (createExts x) s.map.ns with
      | some (st, d), _ => finish x st d 0 s
      | none, some b => addGroup { changes := createChanges x b s, answer := some (id, createNsid x s) } s
      | none, none => s))

/-- Is an earlier command of a namespace still without its final record (R487)? -/
def nsBusy (x : Ctx) (s : State) : Bool :=
  s.host.ctxs.any (fun y => decide (y.id < x.id) && carriesNs y.entry && y.nsid == x.nsid)

/-- NS_DELETE (R487, R508): it waits for every earlier command of its namespace. -/
def execNsDelete (id : Nat) (s : State) : Out := gate s <|
  .next (withOp 0x81 id s (fun x =>
    if nsBusy x s || nsGroupOpen s then s
    else addGroup { changes := [.nsDelete x.nsid], answer := some (id, 0) } s))

/-- The record of a namespace in NS_LIST (R478). -/
def nsRecord (k : Ns) : List Byte :=
  leBytes 2 k.nsid ++ leBytes 1 k.layout ++ leBytes 1 k.siding ++ leBytes 6 k.size ++ leBytes 1 (b2n k.importOpen) ++
    zeros 5 ++ leBytes 8 k.owners ++ leBytes 8 k.createSeq

/-- Insertion of a namespace by NSID. -/
def insertNs (k : Ns) : List Ns → List Ns
  | [] => [k]
  | j :: l => if k.nsid ≤ j.nsid then k :: j :: l else j :: insertNs k l

/-- Ends a command with as many of a list of 32-byte records as its buffer holds. -/
def endList (x : Ctx) (l : List (List Byte)) (s : State) : State :=
  let out := (l.take (x.dataLen / 32)).flatten
  finish x 0 0 out.length (writeBuf x.fn x.buf 0 out s)

/-- NS_LIST (R478): a TENANT function receives the namespaces it owns. -/
def execNsList (id : Nat) (s : State) : Out := gate s <|
  .next (withOp 0x82 id s (fun x =>
    let l := s.map.ns.filter (fun k => x.fn == afFunc s || bitOf x.fn k.owners)
    endList x ((l.foldr insertNs []).map nsRecord) s))

/-! ### Logs (R418, R478, R575, R699–R702) -/

/-- Merges two lists by INDEX. -/
def mergeIdx : Nat → List (Nat × ViolEntry) → List (Nat × ViolEntry) → List (Nat × ViolEntry)
  | 0, _, _ => []
  | _ + 1, [], b => b
  | _ + 1, a, [] => a
  | f + 1, (i, x) :: a, (j, y) :: b =>
    if i ≤ j then (i, x) :: mergeIdx f a ((j, y) :: b) else (j, y) :: mergeIdx f ((i, x) :: a) b

/-- The violation log as a function sees it (R418). -/
def violView (f : Nat) (s : State) : List (Nat × ViolEntry) :=
  let a := s.hlt.viol0.held
  let b := s.hlt.viol1.held
  let l := mergeIdx (a.length + b.length + 1) a b
  if f = afFunc s then l else l.filter (fun p => p.2.fn.val == f)

/-- GET_LOG (R418, R478, R575, R700). -/
def execGetLog (id : Nat) (s : State) : Out := gate s <|
  .next (withOp 0x85 id s (fun x =>
    let start := field x.entry 24 8
    endList x (match field x.entry 16 1 with
      | 1 => (s.hlt.eventLog.held.filter (fun p => decide (start ≤ p.1))).map eventBytes
      | 2 => (s.hlt.changeLog.held.filter (fun p => decide (start ≤ p.1))).map changeBytes
      | 3 => ((violView x.fn s).filter (fun p => decide (start ≤ p.1))).map violBytes
      | _ => (s.str.lost.drop start).map lostBytes) s))

/-- SET_TIME (R26, R478): the value is applied at the next tick boundary. -/
def execSetTime (id : Nat) (s : State) : Out := gate s <|
  .next (withOp 0x86 id s (fun x =>
    let s := markBegun id { s with tb := { s.tb with todStaged := some (field x.entry 16 8) } }
    finishId id 0 0 0 s))

/-! ### Features (R481, R482, R529) -/

/-- FEATURE and VALUE of an entry. -/
def Ctx.feature (x : Ctx) : Nat := field x.entry 16 1
/-- VALUE of an entry. -/
def Ctx.value (x : Ctx) : Nat := field x.entry 24 8

/-- SET_FEATURE of a namespace feature or of MEMBER_TIMEOUT (R481). -/
def execSetFeature (id : Nat) (s : State) : Out := gate s <|
  .next (withOp 0x8D id s (fun x =>
    if x.begun || answering id s then s
    else if x.feature = 4 then finishId id 0 0 0 { markBegun id s with memberTmo := x.value }
    else if x.feature ≤ 3 then
      addGroup { changes := [.featureSet x.nsid x.feature x.value], answer := some (id, 0) } (markBegun id s)
    else s))

/-- SET_FEATURE of WRITER_ID (R482). -/
def execSetWriterId (id : Nat) (s : State) : Out := gate s <|
  .next (withOp 0x8D id s (fun x =>
    if x.feature ≠ 5 then s
    else if allCh.any (fun c => s.getb (DCM_CTL_DISC_LOADED.at c)) || s.str.rebuild.isSome then finish x 0x11 24 0 s
    else
      let s := (markBegun id s).onFls (fun f => { f with writer := some x.value })
      finishId id 0 0 0 { s with writer := x.value }))

/-- The changes that close an import (R529). -/
def closeChanges (k : Ns) (s : State) : List Change :=
  (List.range (extCount k)).map (fun i => match homeOf (extOf (k.extBase + i) s) with
    | 0 => .extentSet (k.extBase + i) none
    | d => .extentSet (k.extBase + i) (some (.absent d))) ++ [.nsImport k.nsid false k.createSeq]

/-- SET_FEATURE of IMPORT (R529): the extents whose home is still not known become UNMAPPED, and the closing group is
committed. -/
def execImportClose (id : Nat) (s : State) : Out := gate s <|
  .next (withOp 0x8D id s (fun x =>
    if x.feature ≠ 6 ∨ x.begun ∨ answering id s then s
    else match nsFind x.nsid s with
      | none => s
      | some k =>
        if !k.importOpen then finishId id 0 0 0 (markBegun id s)
        else
          let cs := closeChanges k s
          let s := s.each (List.range (extCount k)) (fun s i =>
            if homeOf (extOf (k.extBase + i) s) = 0 then setExt (k.extBase + i) none s else s)
          addGroup { changes := cs, answer := some (id, 0) } (markBegun id s)))

/-- The value of a feature (R481, R482). -/
def featureValue (x : Ctx) (s : State) : Nat :=
  let ns := fun (f : Ns → Nat) => ((nsFind x.nsid s).map f).getD 0
  match x.feature with
  | 1 => ns (·.coalesce)
  | 2 => ns (·.siding)
  | 3 => ns (·.sidingTmo)
  | 4 => s.memberTmo
  | 5 => s.fls.writer.getD (2 ^ 64 - 1)
  | _ => ns (fun k => b2n k.importOpen)

/-- GET_FEATURE (R481). -/
def execGetFeature (id : Nat) (s : State) : Out := gate s <|
  .next (withOp 0x8E id s (fun x => finish x 0 0 8 (writeBuf x.fn x.buf 0 (leBytes 8 (featureValue x s)) s)))

/-! ### FW_DOWNLOAD (R641) -/

/-- The running image. -/
def runImage (s : State) : Nat := s.get FLS_STAT_RUN_IMAGE

/-- The check of a piece (R641). -/
def pieceOk (off len : Nat) (s : State) : Bool :=
  let d := s.fls.down
  decide (off + len ≤ 2097152) && (off == 0 || (d.started &&
    d.pieces.all (fun p => decide (p.1 + p.2 ≤ off ∨ off + len ≤ p.1))))

/-- Erases the slot that does not hold the running image. -/
def eraseSlot (slot : Nat) (s : State) : State :=
  s.each (List.range 64) (fun s k => (eraseSector (256 * slot + k) false s).bump FLS_CNT_OPS_ERASES 1)

/-- Programs the words of a piece into a slot; when a word fails its verify, what the words hold is free (log 40). -/
def programPiece (slot off : Nat) (data : List Byte) (bad : Bool) (s : State) : State :=
  s.each (List.range (data.length / 16)) (fun s k =>
    let w := slot * 2 ^ 19 + off / 16 + k
    (flashPut w (if bad then Config.flashBad w s.now % 2 ^ 128 else field data (16 * k) 16) s).bump FLS_CNT_OPS_PROGRAMS 1)

/-- A piece is written (R641). -/
def writePiece (x : Ctx) (off : Nat) (data : List Byte) (bad : Bool) (s : State) : State :=
  let slot := 1 - runImage s
  let s := markBegun x.id s
  let s := if off = 0 then (eraseSlot slot s).onFls (fun f => { f with down := {} }) else s
  let s := programPiece slot off data bad s
  let s := s.onFls (fun f => { f with down := { f.down with pieces := f.down.pieces ++ [(off, data.length)] } })
  if bad then finishId x.id 0x30 27 data.length ((s.bump FLS_CNT_ECC_VERIFY_FAIL 1).fault 27 0 flsBlk)
  else finishId x.id 0 0 data.length (s.onFls (fun f => { f with down := { f.down with started := f.down.started || off == 0 } }))

/-- FW_DOWNLOAD (R641): the piece is checked, read from the host and written. Its erases and programs wait while
PWRFAIL_N is low (R627). -/
def execFwDownload (id : Nat) (data : List Byte) (bad : Bool) (s : State) : Out := gate s <|
  .next (withOp 0x87 id s (fun x =>
    let off := field x.entry 16 4
    if !pieceOk off x.dataLen s then finish x 0x11 16 0 s
    else if !x.receiving then readBuf x x.dataLen (onCtx id (fun x => { x with receiving := true }) s)
    else if readsLeft id s || data.length != x.dataLen || powerHold s then s
    else writePiece x off data bad s))

/-! ### Firmware activation (R502–R504, R642, R643) -/

/-- Shows the check of one slot (R642, R646). -/
def showCheck (slot code : Nat) (s : State) : State :=
  let s := if slot = 0 then s.put FLS_IMGSTAT_CHECK_A code else s.put FLS_IMGSTAT_CHECK_B code
  s.put (FLS_IMGx_VERSION.i slot) (if code = 0 then imageVersion slot s else 0)

/-- FW_ACTIVATE (R502 steps 1 and 2, R504, R642). A second activation waits for the first. -/
def execFwActivate (id : Nat) (s : State) : Out := gate s <|
  .next (withOp 0x88 id s (fun x =>
    let slot := field x.entry 16 1
    if s.host.act.isSome then s
    else if slot ≠ runImage s ∧ s.host.ctxs.any (fun y => y.op == 0x87 && !y.silent) then finish x 0x11 16 0 s
    else
      let code := imageCode slot s
      let s := showCheck slot code s
      if code ≠ 0 then finish x 0x11 16 0 s
      else (selectImage slot (markBegun id s)).onHost (fun h => { h with act := some { ctx := id, image := slot, since := s.now } })))

/-- Have none of a write's bytes arrived yet? -/
def nothingYet (x : Ctx) (s : State) : Bool :=
  let mine := fun (p : Port) => (p.reqs.filter (fun q => q.ctx == x.id)).length + (p.queue.filter (fun q => q.ctx == x.id)).length
  let all := (readRuns (min 4096 (s.hfn (govFn x.fn)).mrrs) x.buf (x.nlb * x.unit)).length
  mine s.host.ports[0] + mine s.host.ports[1] == all

/-- Is a command kept across an activation (R502 step 4)? -/
def keptOver (x : Ctx) (s : State) : Bool :=
  if x.silent || x.op == 0x88 || x.parked.isSome then true
  else if x.isWrite then !x.receiving || nothingYet x s
  else isIoOp x.op

/-- Ends a command with ABORTED_ACTIVATION; what an admin command other than CALIBRATE has begun runs on without a record
(R664, log 48). -/
def endActivation (x : Ctx) (s : State) : State :=
  let s := finish x 3 0 0 s
  if x.begun && x.op != 0x8A then putCtxs x.ring (s.host.ctxs ++ [{ x with silent := true }]) s else s

/-- The cores run an image's slot: FETCH_BANK and RUN_IMAGE (R643). -/
def fetchSlot (k : Nat) (s : State) : State := (s.put FLS_STAT_FETCH_BANK k).put FLS_STAT_RUN_IMAGE k

/-- Step 4 of an activation: commands that remain are kept or ended, and kept reads begin again (R502); then the cores leave
the old image, and FETCH_BANK and RUN_IMAGE take the new image's slot (R40, R643). -/
def settleActivation (a : Activation) (s : State) : State :=
  let s := abortRuns s
  let s := s.each (s.host.ctxs.filter (fun x => x.id != a.ctx)) (fun s x =>
    if keptOver x s then
      if x.isReader && x.parked.isNone then onCtx x.id (fun x => { x with got := [], lost := [], rung5 := [], since := none }) s
      else s
    else endActivation x s)
  let old := runImage s
  ((fetchSlot a.image s).onFls (fun f => { f with coreGap := true })).onHost
    (fun h => { h with act := some { a with settled := true, old } })

/-- The drain time of the activation is judged: 2 s, or no other command left (R502 steps 3 and 4). -/
def execActivationDrainTimeout (s : State) : Out := gate s <|
  .next (match s.host.act with
    | none => s
    | some a =>
      if a.settled || (decide (s.now < a.since + 800000) && s.host.ctxs.any (fun x => x.id != a.ctx && !x.silent)) then s
      else settleActivation a s)

/-- Fetching resumes: recorded staging doorbells are acted on (R502 step 6, R503). -/
def resumeFetch (s : State) : State :=
  let rings := s.host.rings
  let s := s.onHost (fun h => { h with act := none, rings := h.rings.map (fun r => (r.1, { r.2 with stagedLater := [] })) })
  s.each rings (fun s r => match ringOwner r.1 s with
    | none => s
    | some f => s.each r.2.stagedLater (fun s p =>
        if ringState r.1 s = 1 ∨ ringState r.1 s = 4 then stagedDoorbell f r.1 (r.1 - ringFirst f s) p.1 p.2 s else s))

/-- Steps 5 and 6 of an activation (R502, R504, R643): the new image starts, or the part goes back to the old one. -/
def execActivationImageStart (starts : Bool) (s : State) : Out := gate s <|
  .next (match s.host.act with
    | none => s
    | some a =>
      if !a.settled then s
      else
        let s := s.onFls (fun f => { f with down := {}, coreGap := false })
        if starts then finishId a.ctx 0 0 0 (resumeFetch s)
        else
          let s := selectImage a.old (fetchSlot a.old s)
          finishId a.ctx 0x30 (Config.startClass s.now % 64) 0 (resumeFetch s))

end Sys2Proof.Machine
end

