-- ==== Sys2Proof/Machine/Mem.lean ====
section
/-! DEFINITION. DRAM and its protection (R583–R602, R607), and the repair of on-chip memories (R603–R606). -/

namespace Sys2Proof.Machine

open Reg

/-- The MEM block. -/
def memBlk : Blk := ⟨.mem, 0⟩

/-- Changes the memories. -/
def State.onMem (s : State) (f : Mem → Mem) : State := { s with mem := f s.mem }

/-- Size of DRAM in GiB by the straps (R583, R584). -/
def dramGib (t : Straps) : Nat :=
  2 * (if t.dramR then 2 else 1) * (if t.dramW then 2 else 4) * (t.dramD.toNat + 1)

/-- Lines of DRAM. -/
def dramLines (s : State) : Nat := dramGib s.straps * 2 ^ 24

/-! ### The codeword (R588, R589) -/

/-- The generator polynomial of the DRAM code, lowest coefficient first. -/
def dramGen : List Nat := (List.range 16).foldl (fun g k => pmul g [alpha k, 1]) [1]

/-- The six address symbols of a line, coefficient of x⁸⁵ first. -/
def addrSyms (line : Nat) : List Nat := (List.range 6).map (fun k => ((line ^^^ 0xA5A5A5A5A5A5) / 256 ^ k) % 256)

/-- The check bytes of a line's 64 data bytes. -/
def dramCheck (line : Nat) (data : List Byte) : List Byte :=
  ((addrSyms line ++ data.map (·.toNat)).foldl (rsStep (dramGen.take 16).reverse) (List.replicate 16 0)).map
    (BitVec.ofNat 8)

/-- The codeword of a line: 64 data bytes and 16 check bytes. -/
def dramEncode (line : Nat) (data : List Byte) : List Byte := data ++ dramCheck line data

/-- Syndromes of a word of 86 symbols. -/
def dramSyn (r : List Nat) : List Nat := (List.range 16).map (fun k => peval r.reverse (alpha k))

/-- Berlekamp–Massey over 16 syndromes with `e` erasures, from step e + 1 on (fuel 16 − e). -/
def dramBm (syn : List Nat) (e : Nat) : Nat → List Nat → List Nat → Nat → List Nat
  | 0, l, _, _ => l
  | f + 1, l, b, n =>
    let r := 16 - f
    let d := (l.zipIdx).foldl (fun a (c, i) => if i < r then a ^^^ gmul c (syn.getD (r - 1 - i) 0) else a) 0
    let xb := 0 :: b
    if d = 0 then dramBm syn e f l xb n
    else if 2 * n ≤ r + e - 1 then dramBm syn e f (padd l (pscale d xb)) (pscale (ginv d) l) (r + e - n)
    else dramBm syn e f (padd l (pscale d xb)) xb n

/-- The codeword within e + 2u ≤ 16 of a received word of 86 symbols with erased positions, if there is one. -/
def dramSolve (er : List Nat) (r : List Nat) : Option (List Nat) :=
  let e := er.length
  if 16 < e then none
  else
    let syn := dramSyn r
    let gam := er.foldl (fun p k => pmul p [1, alpha (85 - k)]) [1]
    let lam := dramBm syn e (16 - e) gam gam e
    let om := (pmul syn lam).take 16
    let dl := lam.zipIdx.map (fun (c, i) => if i % 2 = 1 then c else 0) |>.drop 1
    let fix := r.zipIdx.map (fun (c, k) =>
      let x := alpha (85 - k)
      let xi := ginv x
      if peval lam xi = 0 then c ^^^ gmul (gmul x (peval om xi)) (ginv (peval dl xi)) else c)
    let roots := ((List.range 86).filter (fun k => peval lam (ginv (alpha (85 - k))) == 0)).length
    if roots = pdeg lam ∧ (dramSyn fix).all (· == 0) ∧ 2 * pdeg lam ≤ 16 + e then some fix else none

/-- Outcome of a read (R589). -/
inductive DramEnd where
  | clean
  /-- The corrected 80 bytes; whether only bytes of a marked device changed. -/
  | corrected (word : List Byte) (markedOnly : Bool)
  | address
  | uncorrectable
deriving DecidableEq, Repr

/-- Decodes the 80 bytes read for a line, with erased byte positions (R589). -/
def dramDecode (line : Nat) (er : List Nat) (word : List Byte) : DramEnd :=
  let r := addrSyms line ++ word.map (·.toNat)
  if (dramSyn r).all (· == 0) then .clean
  else match dramSolve (er.map (· + 6)) r with
    | none => .uncorrectable
    | some w =>
      if w.take 6 ≠ r.take 6 then DramEnd.address
      else
        let new := (w.drop 6).map (BitVec.ofNat 8)
        let diff := (List.range 80).filter (fun k => new.getD k 0 != word.getD k 0)
        .corrected new (diff.all er.contains)

/-- Byte positions of the marked device of a line's rank (R593). -/
def markedBytes (line : Nat) (s : State) : List Nat :=
  let rank := if s.straps.dramR then Config.rankOf line % 2 else 0
  let d := bitsOf (3 * (2 * (line % 2) + rank) + 2) (3 * (2 * (line % 2) + rank)) (s.get MEM_MARK_MARK)
  if d = 4 then (List.range 16).map (· + 64)
  else if d < 4 && !s.straps.dramW then (List.range 16).map (fun k => 4 * k + d)
  else []

/-! ### Lines and the remap table (R585, R599) -/

/-- The remap entry in effect for a line (R599, R600). -/
def remapOf (line : Nat) (s : State) : Option Nat :=
  (List.range 16).find? (fun k => s.getb (MEM_REMAPk_VALID.i k) && s.get (MEM_REMAPk_LINE.i k) == line &&
    s.mem.copying != some k)

/-- Where a line's codeword is stored. -/
def physLine (line : Nat) (s : State) : Nat := match remapOf line s with
  | some k => dramLines s - 64 + k
  | none => line

/-- The entry at position `q` of a log's ring of `size` entries (R699), zeros when none stands there. -/
def ringSlot {α : Type} (size q : Nat) (r : LogRing α) (f : Nat × α → List Byte) : List Byte :=
  match r.held[(q + r.held.length + size - r.pos % size) % size]? with
  | some p => f p
  | none => zeros 32

/-- Entry `e` of the log area, over the rings of the four logs (R699). -/
def logSlot (e : Nat) (s : State) : List Byte :=
  if e < 65536 then ringSlot 65536 e s.hlt.changeLog changeBytes
  else if e < 81920 then ringSlot 16384 (e - 65536) s.hlt.eventLog eventBytes
  else if e < 82944 then ringSlot 1024 (e - 81920) s.hlt.viol0 violBytes
  else if e < 83968 then ringSlot 1024 (e - 82944) s.hlt.viol1 violBytes
  else zeros 32

/-- The 64 data bytes of a line that lies in an area whose content the model keeps in a form of its own (log 155): the extent map
and the patch pool (R509, R510, R513), the lost-stripe list (R575), the log area (R699) and the recording area (R706); zeros
elsewhere, as the fill left them (R592). -/
def lineView (line : Nat) (s : State) : List Byte :=
  let a := 64 * line
  let lost := s.get STR_LOST_HI_BASE * 2 ^ 32 + s.get STR_LOST_LO_BASE * 2 ^ 21
  let logs := s.get HLT_LOG_HI_BASE * 2 ^ 32 + s.get HLT_LOG_LO_BASE * 2 ^ 22
  let area := s.get TMB_AREA_HI_BASE * 2 ^ 32 + s.get TMB_AREA_LO_BASE * 2 ^ 20
  if inMap line s then (List.range 4).flatMap (fun j => extBytes (keyFind (4 * (line - mapLine s) + j) s.map.exts))
  else if inPool line s then
    let n := line - poolLine s
    (List.range 8).flatMap (fun k => leBytes 8 (((keyFind (n / 512) s.map.pages).bind (keyFind (n % 512 * 8 + k))).elim 0 patchWord))
  else if lost ≤ a ∧ a < lost + 2 ^ 21 then
    (List.range 2).flatMap (fun k => (s.str.lost[(a - lost) / 32 + k]?).elim (zeros 32) lostBytes)
  else if s.hlt.joined ∧ logs ≤ a ∧ a < logs + 2 ^ 22 then
    (List.range 2).flatMap (fun k => logSlot ((a - logs) / 32 + k) s)
  else if area ≤ a ∧ a < area + areaSize s then areaRead s (a - area) 64
  else zeros 64

/-- The 80 bytes stored for a line. -/
def dramGet (line : Nat) (s : State) : List Byte :=
  let p := physLine line s
  (keyFind p s.mem.lines).getD (dramEncode p (lineView p s))

/-- Stores 80 bytes for a line; what an unlisted line holds is not listed. -/
def dramPut (line : Nat) (w : List Byte) (s : State) : State :=
  let p := physLine line s
  let clean := w == dramEncode p (lineView p s)
  s.onMem (fun m => { m with lines := if clean then keyErase p m.lines else keySet p w m.lines })

/-- Do requests to a line wait for its copy (R600)? -/
def lineWaits (line : Nat) (s : State) : Bool := match s.mem.copying with
  | some k => s.get (MEM_REMAPk_LINE.i k) == line
  | none => false

/-- Does the line lie in the reserved region (R585)? -/
def lineReserved (line : Nat) (s : State) : Bool := decide (dramLines s - 64 ≤ line)

/-- The bytes that arrive: those stored, changed by `err`. -/
def arrive (w : List Byte) (err : List (Nat × Byte)) : List Byte :=
  err.foldl (fun w (k, x) => w.modify k (· ^^^ x)) w

/-! ### Remapping (R600–R602) -/

/-- Is a write of `v` to remap entry `k` refused (R601)? -/
def remapRefused (k : Nat) (v : W32) (s : State) : Bool :=
  let line := bitsOf 28 0 v.toNat
  s.getb (MEM_REMAPk_VALID.i k) || lineReserved line s || s.mem.copying.isSome ||
    (List.range 16).any (fun j => j != k && s.getb (MEM_REMAPk_VALID.i j) && s.get (MEM_REMAPk_LINE.i j) == line)

/-- An entry has been written: when it is valid the copy starts, and the resident firmware keeps the line in its list in
flash (R600, R601). -/
def remapEffect (k : Nat) (s : State) : State :=
  if s.getb (MEM_REMAPk_VALID.i k) then
    let line := s.get (MEM_REMAPk_LINE.i k)
    let s := { s with fls := { s.fls with remaps := if s.fls.remaps.contains line then s.fls.remaps else s.fls.remaps ++ [line] } }
    (s.onMem (fun m => { m with copying := some k })).putb MEM_STAT_COPY_BUSY true
  else s

/-- A corrected line is counted in the CE tracker (R602). -/
def ceTrack (line : Nat) (s : State) : State :=
  let hit := (List.range 8).find? (fun k => s.mem.tracked.contains k && s.get (MEM_CE_LINEk_LINE.i k) == line)
  let k := hit.getD (s.mem.order.headD 0)
  let n := if hit.isSome then s.get (MEM_CE_TRACKk_COUNT.i k) + 1 else 1
  let s := if hit.isSome then s else (s.put (MEM_CE_LINEk_LINE.i k) line).putb (MEM_CE_TRACKk_REMAPPED.i k) false
  let s := s.put (MEM_CE_TRACKk_COUNT.i k) (min 31 n)
  let s := s.onMem (fun m => { m with
    order := m.order.filter (· != k) ++ [k], tracked := if m.tracked.contains k then m.tracked else m.tracked ++ [k] })
  if n = max 1 (s.get MEM_REPAIR_REMAP_THR) ∧ s.getb MEM_CTL_AUTO_REMAP then
    match (List.range 16).find? (fun j => !s.getb (MEM_REMAPk_VALID.i j)) with
    | none => s.fault 23 0 memBlk
    | some j =>
      let v := BitVec.ofNat 32 (2 ^ 31 + line)
      if remapRefused j v s then s
      else
        let s := remapEffect j (s.seqWrite (.seqr none 0x000B) (MEM_REMAPk.i j).base v.toNat)
        s.putb (MEM_CE_TRACKk_REMAPPED.i k) true
  else s

/-- Counts a corrected read and writes the line back (R589, R591). -/
def ceDone (line : Nat) (w : List Byte) (markedOnly : Bool) (s : State) : State :=
  let s := (s.bump MEM_CNT_CE_CE 1).fault 21 0 memBlk
  let s := if markedOnly then s else dramPut line w s
  ceTrack line s

/-- Notes an uncorrectable read (R589, R590). -/
def ueDone (line : Nat) (addr : Bool) (s : State) : State :=
  let s := s.bump (if addr then MEM_CNT_MISC_ADDR_ERR else MEM_CNT_MISC_UE) 1
  ((s.put MEM_LAST_UE_LINE line).raise memBlk 1).fault 22 0 memBlk

/-- Reads a line: its data and whether it is good (R589–R591). -/
def dramRead (line : Nat) (err : List (Nat × Byte)) (s : State) : List Byte × Bool × State :=
  let w := arrive (dramGet line s) err
  match dramDecode line (markedBytes line s) w with
  | .clean => (w.take 64, true, s)
  | .corrected v m => (v.take 64, true, ceDone line v m s)
  | .address => (w.take 64, false, ueDone line true s)
  | .uncorrectable => (w.take 64, false, ueDone line false s)

/-- After chip reset the resident firmware writes the lines of its list into the table again, one copy after the other
(R601). -/
def remapRestore (s : State) : State :=
  if s.getb HLT_SB_CORES_RUN && s.getb MEM_STAT_FILL_DONE && s.mem.copying.isNone then
    let held := fun (line : Nat) => (List.range 16).any (fun j =>
      s.getb (MEM_REMAPk_VALID.i j) && s.get (MEM_REMAPk_LINE.i j) == line)
    match s.fls.remaps.find? (fun l => !held l), (List.range 16).find? (fun j => !s.getb (MEM_REMAPk_VALID.i j)) with
    | some l, some k => remapEffect k (s.seqWrite (.core 0) (MEM_REMAPk.i k).base (2 ^ 31 + l))
    | _, _ => s
  else s

/-! ### Training, fill, scrubber (R586, R592, R596–R598) -/

/-- Training ends (R584, R586). -/
def execDramTrainingDone (trains : List (Bool × Bool)) (s : State) : Out := gate s <|
  let gib := dramGib s.straps
  let at' := fun k => trains.getD k (false, false)
  let s := s.put MEM_STAT_SIZE_GIB gib
  .next (if s.get MEM_STAT_RATE ≠ 0 ∨ s.get MEM_STAT_TRAIN_FAIL ≠ 0 then s
    else if gib < 4 ∨ 32 < gib then
      ((s.put MEM_STAT_TRAIN_FAIL 3).put HLT_SB_TRAIN_FAIL 3).logEvent (.dramTrain 3)
    else match (List.range 3).find? (fun k => (at' k).1 && (at' k).2) with
      | some k => s.put MEM_STAT_RATE (3 - k)
      | none =>
        let any0 := (List.range 3).any (fun k => (at' k).1)
        let any1 := (List.range 3).any (fun k => (at' k).2)
        let f := if any0 && any1 then b2n (!(at' 2).1) + 2 * b2n (!(at' 2).2) else b2n (!any0) + 2 * b2n (!any1)
        ((s.put MEM_STAT_TRAIN_FAIL f).put HLT_SB_TRAIN_FAIL f).logEvent (.dramTrain f))

/-- The fill ends (R592). -/
def execDramFillDone (s : State) : Out := gate s <|
  .next (if s.get MEM_STAT_RATE = 0 || s.getb MEM_STAT_FILL_DONE then s
    else
      let s := s.onMem (fun m => { m with lines := [], filled := true, passStart := s.now })
      (s.putb MEM_STAT_FILL_DONE true).putb HLT_SB_FILL_DONE true)

/-- Ticks of a scrub pass (R596). -/
def passTicks (s : State) : Nat := clampN 1 720 (s.get MEM_SCRUB_PASS_HOURS) * 1440000000

/-- SCRUB_LATE: behind schedule by more than 1 % of the pass time. From then until it is back on schedule the scrubber runs
in class 2 (R36, R597). -/
def scrubJudge (s : State) : State :=
  if !s.getb MEM_STAT_FILL_DONE then s
  else
    let lines := dramLines s
    let pos := s.get MEM_SCRUB_POS_POS
    let want := lines * (s.now - s.mem.passStart) / passTicks s
    let late := decide (pos + lines / 100 < want)
    (s.putb MEM_STAT_SCRUB_LATE late).onMem (fun m => { m with scrubUp := late || (m.scrubUp && decide (pos < want)) })

/-- The line whose address the scrubber requests at a position: a spare line in use holds the codeword of the line that it
replaces, and is read as that line (R588, R589, R599; DEDUCED, log 167). -/
def scrubLine (pos : Nat) (s : State) : Nat :=
  match (List.range 16).find? (fun k => pos == dramLines s - 64 + k && s.getb (MEM_REMAPk_VALID.i k) && s.mem.copying != some k) with
  | some k => s.get (MEM_REMAPk_LINE.i k)
  | none => pos

/-- A read of the scrubber, which then moves on (R596, R598, R602). -/
def scrubServe (pos : Nat) (err : List (Nat × Byte)) (s : State) : State :=
  let line := scrubLine pos s
  let (_, ok, s) := dramRead line err s
  let s := if ok then s else s.logEvent (.dramUe line)
  if pos + 1 < dramLines s then scrubJudge (s.put MEM_SCRUB_POS_POS (pos + 1))
  else
    let s := (s.put MEM_SCRUB_POS_POS 0).onMem (fun m => { m with passStart := s.now })
    let s := s.each (List.range 8) (fun s k => s.put (MEM_CE_TRACKk_COUNT.i k) 0)
    scrubJudge ((s.bump MEM_CNT_MISC_PASSES 1).raise memBlk 5)

/-! ### Test commands (R607) -/

/-- The 80 bytes in TDATA and TCHK. -/
def testBytes (s : State) : List Byte :=
  (List.range 16).flatMap (fun n => leBytes 4 (s.get (MEM_TDATAn.i n))) ++
    (List.range 4).flatMap (fun n => leBytes 4 (s.get (MEM_TCHKn.i n)))

/-- Loads TDATA and TCHK. -/
def testLoad (w : List Byte) (s : State) : State :=
  let s := s.each (List.range 16) (fun s n => s.put (MEM_TDATAn.i n) (field w (4 * n) 4))
  s.each (List.range 4) (fun s n => s.put (MEM_TCHKn.i n) (field w (64 + 4 * n) 4))

/-- Code of an outcome in TSTAT (R613). -/
def endCode : DramEnd → Nat
  | .clean => 0
  | .corrected _ _ => 1
  | .address => 2
  | .uncorrectable => 3

/-- A test command on a line (R607). -/
def testServe (line cmd : Nat) (s : State) : State :=
  let s := match cmd with
    | 1 =>
      let w := dramGet line s
      (testLoad w s).put MEM_TSTAT_OUTCOME (endCode (dramDecode line (markedBytes line s) w))
    | 2 => dramPut line (testBytes s) s
    | _ =>
      let w := dramEncode line ((testBytes s).take 64)
      (dramPut line w s).each (List.range 4) (fun s n => s.put (MEM_TCHKn.i n) (field w (64 + 4 * n) 4))
  s.putb MEM_TSTAT_DONE true

/-- The effect of a write to MEM_TCMD (R607): a command on a line whose copy runs waits as any request to it (R600). -/
def tcmdEffect (v : W32) (s : State) : State :=
  let line := s.get MEM_TADDR_LINE
  let cmd := bitsOf 1 0 v.toNat
  if !s.getb MEM_TCMD_TEST_EN || cmd == 0 || decide (dramLines s ≤ line) then s
  else if lineWaits line s then
    (s.putb MEM_TSTAT_DONE false).onMem (fun m => { m with waiting := m.waiting ++ [.test line cmd] })
  else testServe line cmd s

/-! ### On-chip memories (R603–R608) -/

/-- Is array `a` in WORDS mode (R606)? -/
def arrWords (a : Nat) (s : State) : Bool :=
  s.straps.sramRep ^^ (if a < 32 then bitOf a (s.get MEM_SRAM_MODE_LO_MODE) else bitOf (a - 32) (s.get MEM_SRAM_MODE_HI_MODE))

/-- A hard fault is repaired (R605). -/
def sramRepair (a : Nat) (s : State) : State :=
  if !arrWords a s then s.raise memBlk 4
  else if ((s.mem.arrs.getD a {}).used < 4) then
    (s.onMem (fun m => { m with arrs := m.arrs.modify a (fun r => { r with used := r.used + 1 }) })).bump
      MEM_CNT_SRAM_REPAIRS 1
  else (s.raise memBlk 4).fault 25 0 memBlk

/-- An injected word has been read: ARM reads 0 (R608, log 37). -/
def disarm (a : Nat) (s : State) : State :=
  if s.getb MEM_SRAM_INJ_ARM && s.get MEM_SRAM_INJ_ARRAY == a then s.putb MEM_SRAM_INJ_ARM false else s

/-- A word is corrected and written back (R604). -/
def sramCorrected (a : Nat) (again : Bool) (s : State) : State :=
  let s := disarm a (s.bump MEM_CNT_SRAM_CORRECTED 1)
  let s := s.onMem (fun m => { m with arrs := m.arrs.modify a (fun r => { r with corr := min 255 (r.corr + 1) }) })
  if again then sramRepair a s else s

/-- What MEM_SRAM_INFO shows (R612): FUSE_ROWS is fused in the part. -/
def sramInfo (s : State) : Nat :=
  let a := s.get MEM_SRAM_SEL_ARRAY
  if 43 < a then 0
  else
    let r := s.mem.arrs.getD a {}
    b2n (arrWords a s) * 2 ^ 31 + r.used * 2 ^ 16 + Config.fuseRows a % 256 * 2 ^ 8 + r.corr

/-- Counters of MEM (R610). -/
def memClear (s : State) : State :=
  let s := s.clearAll [MEM_CNT_CE_CE, MEM_CNT_MISC_UE, MEM_CNT_MISC_ADDR_ERR, MEM_CNT_MISC_PASSES, MEM_CNT_MISC_RMW,
    MEM_CNT_SRAM_CORRECTED, MEM_CNT_SRAM_UNCORR, MEM_CNT_SRAM_REPAIRS]
  s.onMem (fun m => { m with arrs := m.arrs.map (fun r => { r with corr := 0 }) })

end Sys2Proof.Machine
end

