-- ==== Sys2Proof/Machine/Health.lean ====
section
/-! DEFINITION. The health manager and the logs (R689–R703, R751): arrival and handling of faults, the class actions,
clearing, the junction temperature, and the persisted and the DRAM logs. -/

namespace Sys2Proof.Machine

open Reg

/-- The HLT block. -/
def hltBlk : Blk := ⟨.hlt, 0⟩

/-- The origin of the health manager's writes (R692): 0x4F03. -/
def hltOrigin : Origin := .seqr none 0x0003

/-! ### Counting and actions (R691–R694) -/

/-- What is counted for a class instance. -/
def classInst (cls inst : Nat) (s : State) : ClassInst :=
  (s.hlt.classes.find? (fun k => k.cls == cls && k.inst == inst)).getD { cls, inst }

/-- Stores what is counted for a class instance. -/
def setInst (k : ClassInst) (s : State) : State :=
  let same := fun (e : ClassInst) => e.cls == k.cls && e.inst == k.inst
  let l := s.hlt.classes
  let l := if l.any same then l.map (fun e => if same e then k else e) else l ++ [k]
  s.onHlt (fun h => { h with classes := l })

/-- W of a class, in ticks (R691, R717). -/
def classWindow (cls : Nat) (s : State) : Nat := clampN 1 3600000 (s.get (HLT_CLASSc_WINDOW_MS.i cls)) * 400

/-- H of a class (R691, R717). -/
def classThresh (cls : Nat) (s : State) : Nat := max 1 (s.get (HLT_CLASSc_THRESH.i cls))

/-- Is a class counted by bus instance (R689)? -/
def busClass (cls : Nat) : Bool := cls == 9 || cls == 10 || cls == 11

/-- Is a class counted by channel instance (R689)? -/
def chanClass (cls : Nat) : Bool :=
  (1 ≤ cls && cls ≤ 8) || (12 ≤ cls && cls ≤ 16) || cls == 30 || (32 ≤ cls && cls ≤ 36)

/-- The channels an action on an instance acts on (R692). -/
def classChans (cls inst : Nat) : List Ch :=
  if busClass cls then allCh.filter (fun c => (busOf c).val == inst)
  else if chanClass cls then allCh.filter (fun c => c.val == inst)
  else []

/-- WITHDRAW (R692): written by the latch of the channel. -/
def withdrawProfile (c : Ch) (s : State) : State :=
  let v := s.get (DCM_ALLOW.at c)
  if bitOf 0 v then s.stageSeq c (DCM_ALLOW.at c) (setBits 0 0 v 0) hltOrigin
  else if bitOf 1 v then s.stageSeq c (DCM_ALLOW.at c) (setBits 1 1 v 0) hltOrigin
  else s

/-- FAIL_MEMBER (R692). -/
def failMember (c : Ch) (s : State) : State :=
  let s := stopChan c 13 false (some (35, c.val)) s
  let s := s.logEvent (.memberFailed c.val (discOf c s))
  postEvent (afFunc s) 3 c.val 35 0xFFFF s

/-- The action of a class on one channel (R692); the rules that R689 names for the other classes stop the channel at
SPIN_START, SPIN_CATCH and TIMETABLE_OVERRUN (R251, R343, R353, R378). -/
def chanAction (cls inst : Nat) (zone : Option (Nat × Nat)) (c : Ch) (s : State) : State :=
  match cls with
  | 1 => stopChan c 9 false (some (cls, inst)) s
  | 2 | 3 | 4 => withdrawProfile c s
  | 5 | 6 | 9 | 11 | 13 => stopChan c 13 false (some (cls, inst)) s
  | 7 => stopChan c 4 false (some (cls, inst)) s
  | 8 => stopChan c 8 false (some (cls, inst)) (s.onSpn c (fun k => { k with lasting := true }))
  | 15 => blockWrite c s
  | 16 => match zone with
    | some (layer, z) => setBlank c 0 layer z (regionSlots 0 z) s
    | none => s
  | 35 => failMember c s
  | _ => s

/-- The action of a class on an instance. -/
def classAction (cls inst : Nat) (zone : Option (Nat × Nat)) (s : State) : State :=
  s.each (classChans cls inst) (fun s c => chanAction cls inst zone c s)

/-- Counts a fault (R691): whether it made its instance lasting, and the state after its action. -/
def countFault (r : FaultRec) (s : State) : Bool × State :=
  let k := classInst r.cls r.inst s
  let fresh := k.count == 0 || decide (k.start + classWindow r.cls s ≤ r.tick)
  let raisers := if k.raisers.contains r.blk then k.raisers else k.raisers ++ [r.blk]
  let k := { k with total := min (k.total + 1) 65535, raisers }
  if k.lasting then (false, setInst k s)
  else
    let k := if fresh then { k with start := r.tick, count := 1 } else { k with count := k.count + 1 }
    if classThresh r.cls s ≤ k.count then
      (true, classAction r.cls r.inst r.zone ((setInst { k with lasting := true } s).raise hltBlk 1))
    else (false, setInst k s)

/-! ### Arrival and handling (R696–R698) -/

/-- Does R697 count a fault on arrival? -/
def sameClass (r : FaultRec) (s : State) : Bool := match s.hlt.handling with
  | some h => h.cls == r.cls && !r.replay
  | none => false

/-- FAULT_REPORT (R696–R698). -/
def execFaultReport (s : State) : Out := gate s <|
  .next (match s.hlt.incoming with
    | [] => s
    | r :: rest =>
      let s := s.onHlt (fun h => { h with incoming := rest })
      match s.hlt.handling with
      | none => s.onHlt (fun h => { h with handling := some r })
      | some _ =>
        let same := sameClass r s
        let (made, s) := if same then countFault r s else (false, s)
        if s.hlt.fifo.length < 32 then
          s.onHlt (fun h => { h with fifo := h.fifo ++ [{ r with counted := same, madeLasting := made }] })
        else
          let s := ((s.putb HLT_STAT_FAULT_OVERRUN true).bump HLT_CNT_FIFO_LOST 1).raise hltBlk 2
          s.onHlt (fun h => { h with lostSince := h.lostSince + 1 }))

/-- BLK_FAULT shows a fault of its block (R56, R694). -/
def showFault (b : Blk) (cls : Nat) (s : State) : State :=
  let a := pageReg b 0x18
  let n := bitsOf 15 8 (s.rd a).toNat
  (s.wr a (BitVec.ofNat 32 (min (n + 1) 255 * 256 + 128 + cls % 64))).raise b 0

/-- The event log entry of a fault (R702), and its copy in flash when it made its instance lasting (R703). -/
def logFault (r : FaultRec) (made : Bool) (s : State) : State :=
  let e : EventData := .fault r.cls r.inst (blkType r.blk.ty) r.detail r.counted made r.replay
  let i := s.hlt.eventLog.next
  let t := s.stamp
  let s := s.logEvent e
  if made then s.persist (.event i ⟨t, e⟩) else s

/-- The health manager takes the next record of the FIFO; emptying it ends a loss (R696, R698). -/
def nextRecord (s : State) : State :=
  match s.hlt.fifo with
  | [] => s.onHlt (fun h => { h with handling := none })
  | r :: rest =>
    let s := s.onHlt (fun h => { h with handling := some r, fifo := rest })
    if rest = [] ∧ s.hlt.lostSince ≠ 0 then
      (s.logEvent (.fifoOverrun s.hlt.lostSince)).onHlt (fun h => { h with lostSince := 0 })
    else s

/-- FAULT_RECORD_HANDLE (R695, R696). -/
def execFaultRecordHandle (s : State) : Out := gate s <|
  .next (match s.hlt.handling with
    | none => s
    | some r =>
      let (made, s) := if r.counted || r.replay then (r.madeLasting, s) else countFault r s
      nextRecord (showFault r.blk r.cls (logFault r made s)))

/-! ### Clearing (R693) -/

/-- What clearing an instance of a class meets besides the lasting state: WRITE_BLOCK and the stop of writing clear
with WRITE_VERIFY (R217, R379), and the spindle's lasting catch ends (R353). -/
def clearMeets (cls : Nat) (c : Ch) (s : State) : State :=
  if cls = 15 then (s.putb (DCM_STAT_WRITE_BLOCK.at c) false).onWrc c (fun k => { k with stopped := false, rewrites := 0 })
  else if cls = 8 then s.onSpn c (fun k => { k with lasting := false })
  else s

/-- The effect of a write of `v` to HLT_CLR by origin `o` (R693). -/
def hltClrEffect (o : Origin) (v : W32) (s : State) : State :=
  let cls := bitsOf 5 0 v.toNat
  let inst := bitsOf 11 8 v.toNat
  if cls = 0 then s
  else
    let hit := fun (k : ClassInst) => k.cls == cls && (inst == 15 || k.inst == inst)
    let clr := fun (k : ClassInst) => if hit k then { k with lasting := false, count := 0 } else k
    let s := s.onHlt (fun h => { h with classes := h.classes.map clr })
    let chans := if inst = 15 then allCh else classChans cls inst
    let s := if cls = 15 ∨ cls = 8 then s.each chans (fun s c => clearMeets cls c s) else s
    s.logEvent (.cleared cls inst (originCode o false))

/-- The HLT counters but the window counts (R717). -/
def hltClear (s : State) : State :=
  (s.clearAll [HLT_CNT_FIFO_LOST, HLT_CNT_PERSIST_SKIPPED]).onHlt (fun h =>
    { h with classes := h.classes.map (fun k => { k with total := 0 }) })

/-! ### The junction temperature (R690) -/

/-- Judges TEMP > 16 × TEMP_LIM. -/
def tempCheck (s : State) : State :=
  let hot := decide (16 * (s.get HLT_TEMP_TEMP_LIM : Int) < s.geti HLT_TEMP_TEMP)
  if !hot then s.onHlt (fun h => { h with hotArmed := true })
  else if s.hlt.hotArmed then
    ((s.onHlt (fun h => { h with hotArmed := false })).raise hltBlk 3).fault 38 0 hltBlk
  else s

/-- JUNCTION_HOT (R690): the temperature measured. -/
def execJunctionHot (temp : Int) (s : State) : Out := gate s <| .next (tempCheck (s.puti HLT_TEMP_TEMP temp))

/-! ### The logs (R699–R703, R751) -/

/-- Entries the resident firmware wrote into the ring of log `l`, at most the ring's size (R752). -/
def restored (l size : Nat) (s : State) : Nat := min size (s.get (HLT_LOG_REST_RESTORED.i l))

/-- One above the INDEX at position RESTORED − 1 of a ring (R751). -/
def ringBase {α : Type} (l n : Nat) (area : List (Nat × α)) : Nat :=
  if n = 0 then 0 else match area[n - 1]? with
    | some (i, _) => i + 1
    | none => Config.ringIndex l (n - 1) + 1

/-- A log continued in its DRAM ring (R751). -/
def joinRing {α : Type} (size n base : Nat) (area : List (Nat × α)) (r : LogRing α) : LogRing α :=
  let l := area.take n ++ r.held.map (fun p => (p.1 + base, p.2))
  ⟨r.next + base, l.drop (l.length - size), l.length⟩

/-- The INDEX of a stored entry moved up (R751). -/
def Persisted.shift (c e v : Nat) : Persisted → Persisted
  | .change i x => .change (i + c) x
  | .event i x => .event (i + e) x
  | .viol i x => .viol (i + v) x

/-- LOG_EN is set for the first time since chip reset: the logs go to their DRAM rings (R699, R751, log 52). -/
def joinLogs (area : LogArea) (s : State) : State :=
  if s.hlt.joined then s
  else
    let n := fun l size => restored l size s
    let c := ringBase 0 (n 0 65536) area.change
    let e := ringBase 1 (n 1 16384) area.event
    let v := max (ringBase 2 (n 2 1024) area.viol0) (ringBase 3 (n 3 1024) area.viol1)
    s.onHlt (fun h => { h with
      changeLog := joinRing 65536 (n 0 65536) c area.change h.changeLog
      eventLog := joinRing 16384 (n 1 16384) e area.event h.eventLog
      viol0 := joinRing 1024 (n 2 1024) v area.viol0 h.viol0
      viol1 := joinRing 1024 (n 3 1024) v area.viol1 h.viol1
      violNext := h.violNext + v
      eventStored := h.eventStored + e
      violStored := h.violStored + v
      persisted := h.persisted.take (h.persisted.length - h.early) ++
        (h.persisted.drop (h.persisted.length - h.early)).map (Persisted.shift c e v)
      joined := true
      early := 0 })

/-- The effect of a write of `v` to HLT_CTL (R699, R717, R751); `area` is what the DRAM rings hold. -/
def hltCtlEffect (area : LogArea) (v : W32) (s : State) : State :=
  let s := if bitOf 1 v.toNat then hltClear (s.put HLT_CTL_CNT_CLEAR 0) else s
  if bitOf 0 v.toNat then joinLogs area s else s

/-- One event log entry judged for the persisted log region (R703). -/
def persistEvent (p : Nat × EventEntry) (s : State) : State :=
  let s := s.onHlt (fun h => { h with eventStored := p.1 + 1 })
  let atOnce := match p.2.data with
    | .fault _ _ _ _ _ made _ => made
    | _ => false
  if atOnce then s
  else
    let minute := p.2.tick / 24000000
    let s := if minute = s.hlt.persistMinute then s
      else s.onHlt (fun h => { h with persistMinute := minute, persistCount := 0 })
    if s.hlt.persistCount < 256 then
      (s.persist (.event p.1 p.2)).onHlt (fun h => { h with persistCount := h.persistCount + 1 })
    else (s.bump HLT_CNT_PERSIST_SKIPPED 1).raise hltBlk 4

/-- EVENT_LOG_PERSIST (R703): the entries made since the last batch, in increasing INDEX. -/
def execEventLogPersist (s : State) : Out := gate s <|
  .next (s.each (s.hlt.eventLog.held.filter (fun p => decide (s.hlt.eventStored ≤ p.1))) (fun s p => persistEvent p s))

/-- VIOLATION_LOG_PERSIST (R703): the entries added since the last copy, in increasing INDEX. -/
def execViolationLogPersist (s : State) : Out := gate s <|
  let a := s.hlt.viol0.held
  let b := s.hlt.viol1.held
  let l := (mergeIdx (a.length + b.length + 1) a b).filter (fun p => decide (s.hlt.violStored ≤ p.1))
  let s := s.each l (fun s p => s.persist (.viol p.1 p.2))
  .next (s.onHlt (fun h => { h with violStored := h.violNext }))

end Sys2Proof.Machine
end

