-- ==== Sys2Proof/Machine/Record.lean ====
section
/-! DEFINITION. The commands of the recorder (R704, R705), the begin, trigger and end of a recording (R705, R710), and the
preparation and end of a replay (R711, R712). -/

namespace Sys2Proof.Machine

open Reg

/-- Does a replay run (R705, R718)? -/
def replaying (s : State) : Bool := allCh.any (fun c => s.mode c == mREPLAY)

/-- Does a recording run or wait for its boundary (R705)? -/
def recording (s : State) : Bool := s.getb TMB_REC_STAT_RUN || s.rcd.waiting.isSome

/-- FLAGS of a recorder command (R704). -/
def Ctx.recFlag (x : Ctx) (k : Nat) : Bool := bitOf k (field x.entry 18 1)

/-- OFFSET of a recorder command (R704). -/
def Ctx.recOffset (x : Ctx) : Nat := field x.entry 24 8

/-- The first failing byte of RECORD_START with LOAD 0 (R705, log 53). -/
def startFault (x : Ctx) (s : State) : Option Nat :=
  let set := field x.entry 16 1 % 64
  let cls := field x.entry 17 1
  if set = 0 ∨ recording s ∨ areaSize s = 0 ∨ allCh.any (fun c => bitOf c.val set && s.mode c == mREPLAY) then some 16
  else if 38 < cls ∧ cls ≠ 0xFF then some 17
  else none

/-- RECORD_START (R705): the recording waits for its 64-tick boundary. -/
def execRecordStart (id : Nat) (s : State) : Out := gate s <|
  .next (withOp 0x8B id s (fun x =>
    if x.recFlag 1 ∨ x.begun then s
    else match startFault x s with
      | some b => finish x 0x11 b 0 s
      | none =>
        let s := areaWritten ((markBegun id s).put TMB_REC_STAT_RECORD_OVERFLOW 0)
        s.onRcd (fun r => { r with
          waiting := some (field x.entry 16 1 % 64, x.recFlag 0, field x.entry 20 4, field x.entry 17 1)
          startCtx := some id })))

/-- RECORD_LOAD (R704, R705). -/
def execRecordLoad (id : Nat) (data : List Byte) (s : State) : Out := gate s <|
  .next (withOp 0x8B id s (fun x =>
    if !x.recFlag 1 then s
    else if recording s ∨ replaying s then finish x 0x11 18 0 s
    else if areaSize s = 0 ∨ areaSize s < x.recOffset + x.dataLen then finish x 0x11 24 0 s
    else if !x.receiving then readBuf x x.dataLen (onCtx id (fun x => { x with receiving := true }) s)
    else if readsLeft id s || data.length != x.dataLen then s
    else
      let s := areaWritten ((markBegun id s).onRcd (fun r => { r with loaded := r.loaded ++ [(x.recOffset, data)] }))
      finishId id 0 0 data.length s))

/-- RECORD_STOP (R704): the header is written at once. -/
def execRecordStop (id : Nat) (s : State) : Out := gate s <|
  .next (withOp 0x8C id s (fun x =>
    if x.recFlag 1 then s
    else
      let s := markBegun id s
      finishId id 0 0 0 (if s.getb TMB_REC_STAT_RUN then recFinish 1 s else s)))

/-- RECORD_READ (R704, R705). -/
def execRecordRead (id : Nat) (s : State) : Out := gate s <|
  .next (withOp 0x8C id s (fun x =>
    if !x.recFlag 1 then s
    else if areaSize s = 0 ∨ areaSize s < x.recOffset + x.dataLen then finish x 0x11 24 0 s
    else finish x 0 0 x.dataLen (writeBuf x.fn x.buf 0 (areaRead s x.recOffset x.dataLen) s)))

/-- RECORDING_BEGIN (R705, R708): it comes before the TICK of a boundary N with N mod 64 = 0; the images hold the values
at that boundary. -/
def execRecordingBegin (s : State) : Out := gate s <|
  .next (match s.rcd.waiting with
    | none => s
    | some (set, snip, post, cls) =>
      if (s.now + 1) % 64 ≠ 0 then s
      else
        let chans := allCh.filter (fun c => bitOf c.val set)
        let s := (s.putb TMB_REC_STAT_RUN true).putb TMB_REC_STAT_TRIGGERED false
        let s := areaWritten (s.put TMB_REC_STAT_ACTIVE set)
        let area : Recording := {
          chans := chans.map (·.val), first := s.now + 1, tod := (s.tb.tod + 2500) % 2 ^ 64, trigClass := cls
          writer := s.writer, images := chans.map (fun c => imageOf c s), frames := chans.map (fun _ => []) }
        s.onRcd (fun r => { r with
          under := recPieces s, loaded := [], area, waiting := none, snipOn := snip, post, frameBytes := 0, onChip := [0, 0, 0, 0, 0, 0]
          acc := Vector.replicate 6 {} }))

/-- RECORD_START completes once the frames of tick N are captured (R705). -/
def recStarted (s : State) : State :=
  match s.rcd.startCtx with
  | some id =>
    if s.rcd.waiting.isNone ∧ s.rcd.area.first ≤ s.now then
      finishId id 0 0 0 (s.onRcd (fun r => { r with startCtx := none }))
    else s
  | none => s

/-- The effect of TRIG (R709, R710): the snippet is that of the lowest recorded channel. -/
def trigEffect (snip : List Byte) (v : W32) (s : State) : State :=
  if bitOf 0 v.toNat then (recTrigger (s.rcd.area.chans.headD 0) snip s).put TMB_TRIG_TRIG 0 else s

/-- RECORDING_END (R710): POST ticks after the trigger. -/
def execRecordingEnd (s : State) : Out := gate s <| .next (if recDue s then recFinish 2 s else s)

/-- The effect of PREP (R711). -/
def prepEffect (v : W32) (s : State) : State :=
  if bitOf 31 v.toNat then
    let ok := prepOk (s.get TMB_REPLAY_SRC) s
    ((s.put TMB_REPLAY_PREP 0).putb TMB_REPLAY_READY ok).putb TMB_REPLAY_CHECK_FAIL (!ok)
  else s

/-- REPLAY_END (R712): the channel returns to PARKED. -/
def execReplayEnd (c : Ch) (s : State) : Out := gate s <|
  .next (if s.mode c = mREPLAY ∧ s.rcd.replay = [] then setMode c mPARKED (headTo c mPARKED (replayLeave c s)) else s)

end Sys2Proof.Machine
end

