-- ==== Sys2Proof/Machine/MemFault.lean ====
section
/-! DEFINITION. What depends on a line of DRAM or on a word of an on-chip array: reads and read-modify-writes with the
answers to poisoned data (R590, R594, R595), and the answers to corrected and uncorrectable words (R526, R537, R603,
R604). -/

namespace Sys2Proof.Machine

open Reg

/-! ### Dropped lines of the map (R526, R537) -/

/-- Extents whose entry or patches a line of the map or of the patch pool holds. -/
def lineExtents (line : Nat) (s : State) : List Nat :=
  if inMap line s then (List.range 4).map (fun j => (line - mapLine s) * 4 + j)
  else if inPool line s then
    let page := (line - poolLine s) / 512
    s.map.exts.filterMap (fun (e, x) => match x with
      | .patched _ p => if p = page then some e else none
      | _ => none)
  else []

/-- The changes to an extent that no checkpoint holds, as the journal has them. -/
def uncovered (e : Nat) (s : State) : List (Nat × Change) :=
  s.map.jrnl.flatMap (fun r =>
    if s.map.dirty.contains (e, r.seq) then
      (r.changes.filter (fun c => match c with
        | .extentSet f _ => f == e
        | .patchSet f _ _ _ => f == e
        | _ => false)).map (fun c => (r.seq, c))
    else [])

/-- An extent whose entry was lost: reloaded under R526, which gives it the value it had, if its home disc is mounted,
and ABSENT with its uncovered changes pending otherwise (R537). -/
def reloadExtent (e : Nat) (s : State) : State :=
  match extOf e s with
  | none => s
  | some (.absent _) => s
  | some x =>
    let d := homeOf (some x)
    if (chanOf d s).isSome then s
    else
      let s := setExt e (some (.absent d)) (dropPage e s)
      s.onMap (fun m => { m with held := m.held ++ uncovered e s })

/-- The extents of a lost line (R537, R590). -/
def loseLine (line : Nat) (s : State) : State := showMap (s.each (lineExtents line s) (fun s e => reloadExtent e s))

/-! ### Poisoned data (R590) -/

/-- The block of a read fails point 7 (R558). -/
def poisonRead (id i : Nat) (s : State) : State :=
  match s.ctx id with
  | none => s
  | some x =>
    if x.op ≠ 1 then s
    else
      let (_, s) := guardCheck 7 x.nsid true ((keyFind i x.got).getD []) s
      onCtx id (fun x => { x with
        got := keyErase i x.got, lost := if x.lost.any (fun l => l.1 == i) then x.lost else x.lost ++ [(i, 0x22, 0)] }) s

/-- A closed stripe is written again for a tile that could not be filled, and the block's piece fails (R549, R590). -/
def poisonTile (w x i : Nat) (s : State) : State :=
  match s.str.closed.find? (fun t => t.wseq == w) with
  | none => s
  | some t =>
    let c := ((setOf t.set s).bind (fun k => chanOf (k.members.getD x 0) s))
    let pos : TilePos := ⟨t.layer, t.zone, 0, t.tile⟩
    if t.verified.contains x || t.missing.contains x then s
    else
      let s := match c with
        | some c => s.onWrc c (fun k => { k with bufs := k.bufs.filter (fun b => b.pos != pos) })
        | none => s
      let hit := (t.tiles[x]?).bind (fun l => keyFind i l)
      let s := onStripe w (fun t => { t with failed := t.failed ++ [x], tiles := t.tiles.modify x (keyErase i) }) s
      match hit.bind (fun b => b.piece.map (fun p => (b, p))) with
      | some (b, id, lba) =>
        let n := (s.ctx id).map (fun y => b.lba - y.slba)
        failPiece id lba 0x22 (n.getD 0 % 65536) s
      | none => s

/-- A replay ends with its frame lost (R590). -/
def replayLost (s : State) : State :=
  match allCh.find? (fun c => s.mode c == mREPLAY) with
  | some c => setMode c mPARKED (headTo c mPARKED (s.onRcd (fun r => { r with replay := [] })))
  | none => s

/-- The answer of a requester to poisoned data of a line. Stripe closing finds it at its own seal point (R553). -/
def poisoned (u : DramUser) (line : Nat) (s : State) : State :=
  match u with
  | .hostRead id i => poisonRead id i s
  | .stripeClose => s
  | .tileFill w x i => poisonTile w x i s
  | .mapCache => loseLine line s
  | .background (some id) => finishId id 0x30 22 0 s
  | .background none => s
  | .recorder => if s.getb TMB_REC_STAT_RUN then recFinish 5 s else s
  | .replay => replayLost s

/-! ### Requests (R35, R585, R594, R600) -/

/-- The line of a request. -/
def DramReq.line : DramReq → Nat
  | .read _ n _ => n
  | .rmw _ n _ _ => n
  | .scrub n _ => n
  | .test n _ => n
  | .store _ n _ _ => n

/-- The drive channel whose tile buffer a fill request serves. -/
def fillChan (w x : Nat) (s : State) : Nat :=
  (((s.str.closed.find? (fun t => t.wseq == w)).bind (fun t => setOf t.set s)).bind (fun k =>
    chanOf (k.members.getD x 0) s)).elim 6 (·.val)

/-- Class and number within the class of a requester (R35): drive channels; recorder and replay; host DMA, stripe engine,
map cache, map manager with the logs, management cores, scrubber (DEDUCED, log 138). The scrubber's class is 3, or 2 while it is
late (R36). -/
def dramUserOf (u : DramUser) (s : State) : Nat × Nat :=
  match u with
  | .tileFill w x _ => (0, fillChan w x s)
  | .recorder => (1, 0)
  | .replay => (1, 1)
  | .hostRead _ _ => (2, 0)
  | .stripeClose => (2, 1)
  | .mapCache => (2, 2)
  | .background _ => (2, 3)

/-- Class and requester of a request. -/
def DramReq.who (q : DramReq) (s : State) : Nat × Nat :=
  match q with
  | .read u _ _ => dramUserOf u s
  | .rmw u _ _ _ => dramUserOf u s
  | .test _ _ => (2, 4)
  | .store c _ _ _ => (0, c)
  | .scrub _ _ => (if s.mem.scrubUp then 2 else 3, 5)

/-- Are requests to a line served: the fill has ended, and no copy of the line runs (R592, R600)? -/
def lineServed (line : Nat) (s : State) : Bool :=
  s.getb MEM_STAT_FILL_DONE && decide (line < dramLines s) && !lineWaits line s

/-- What serving a request does (R585, R589–R591, R594–R596, R607). -/
def dramServe (q : DramReq) (s : State) : State :=
  match q with
  | .read u line err =>
    if lineReserved line s then poisoned u line (ueDone line false s)
    else
      let (_, ok, s) := dramRead line err s
      if ok then s else poisoned u line s
  | .rmw u line new err =>
    if lineReserved line s then s
    else
      let s := s.bump MEM_CNT_MISC_RMW 1
      let (d, ok, s) := dramRead line err s
      if ok then dramPut line (dramEncode line (new.foldl (fun d (k, x) => d.set k x) d)) s
      else poisoned u line s
  | .scrub line err => scrubServe line err s
  | .test line cmd => testServe line cmd s
  | .store _ line off b =>
    if lineReserved line s then s
    else if 64 ≤ b.length then dramPut line (dramEncode line (b.take 64)) s
    else
      let (d, ok, s) := dramRead line [] (s.bump MEM_CNT_MISC_RMW 1)
      if ok then dramPut line (dramEncode line (d.take off ++ b ++ d.drop (off + b.length))) s else s

/-- Serves a request, and notes its requester as the last served of its class (R35). -/
def dramRun (q : DramReq) (s : State) : State :=
  let (k, n) := q.who s
  dramServe q (s.onMem (fun m => { m with served := m.served.set k n }))

/-- The place of a waiting request in the order of service: class, then turn of its requester after the one last served, then
arrival (R35). A request whose line still waits, and a read-modify-write behind an earlier one to the same line (R594), have
no place. -/
def dramTurn (i : Nat) (q : DramReq) (s : State) : Option Nat :=
  let earlier := (s.mem.waiting.take i).any (fun p => match p, q with
    | .rmw _ a _ _, .rmw _ b _ _ | .rmw _ a _ _, .store _ b _ _ | .store _ a _ _, .rmw _ b _ _ | .store _ a _ _, .store _ b _ _ =>
      a == b
    | _, _ => false)
  if lineWaits q.line s || earlier then none
  else
    let (k, n) := q.who s
    some ((k * 8 + (n + 7 - s.mem.served.getD k 0) % 8) * 65536 + i)

/-- The waiting request that is served next. -/
def dramNext (s : State) : Option Nat :=
  let turns := s.mem.waiting.mapIdx (fun i q => (i, dramTurn i q s))
  (turns.foldl (fun best p => match best, p.2 with
    | none, some t => some (p.1, t)
    | some (i, b), some t => if t < b then some (p.1, t) else some (i, b)
    | _, none => best) none).map (·.1)

/-- Serves the waiting requests in their order, on fuel: those whose line no longer waits (R35, R600). -/
def dramDrain : Nat → State → State
  | 0, s => s
  | f + 1, s => match dramNext s with
    | none => s
    | some i => match s.mem.waiting[i]? with
      | none => s
      | some q => dramDrain f (dramRun q (s.onMem (fun m => { m with waiting := m.waiting.eraseIdx i })))

/-- A request reaches the controller: it is served, or it waits while its line is copied (R600). -/
def dramRequest (q : DramReq) (s : State) : State :=
  if !s.getb MEM_STAT_FILL_DONE || decide (dramLines s ≤ q.line) then s
  else if lineWaits q.line s then s.onMem (fun m => { m with waiting := m.waiting ++ [q] })
  else dramRun q s

/-! ### The verify log in DRAM (R218) -/

/-- The 288 bytes of a verify log record (R218). -/
def vlogBytes (r : VRecord) : List Byte :=
  leBytes 6 r.tick ++ leBytes 2 r.discTag ++ leBytes 1 (r.pos.layer + 16 * r.pos.zone) ++ leBytes 1 r.pos.region ++
    leBytes 2 r.pos.tile ++ leBytes 1 r.maxIter ++ leBytes 1 r.failed ++ leBytes 1 r.outcome ++ zeros 1 ++
    leBytes 8 r.failMap ++ zeros 8 ++ (List.range 64).flatMap (fun k => leBytes 4 (r.entries.getD k 0))

/-- Bytes that a drive channel writes to DRAM from byte address `a` on, line by line; on fuel. -/
def dramWrite (c : Nat) : Nat → Nat → List Byte → State → State
  | 0, _, _, s => s
  | f + 1, a, b, s =>
    if b = [] then s
    else
      let n := 64 - a % 64
      dramWrite c f (a + n) (b.drop n) (dramRequest (.store c (a / 64) (a % 64) (b.take n)) s)

/-- The verify log records on their way go to DRAM at the end of a tick (R218; DEDUCED, log 139). -/
def vlogFlush (s : State) : State :=
  s.each allCh (fun s c =>
    if (s.chan c).wrc.vlogDue = [] then s
    else
      let l := (s.chan c).wrc.vlogDue
      (s.onWrc c (fun w => { w with vlogDue := [] })).each l (fun s (a, r) => dramWrite c.val 6 a (vlogBytes r) s))

/-- DRAM_READ (R585, R589–R591). -/
def execDramRead (u : DramUser) (line : Nat) (err : List (Nat × Byte)) (s : State) : Out := gate s <|
  .next (dramRequest (.read u line err) s)

/-- DRAM_RMW (R594, R595). -/
def execDramRmw (u : DramUser) (line : Nat) (new : List (Nat × Byte)) (err : List (Nat × Byte)) (s : State) : Out := gate s <|
  .next (dramRequest (.rmw u line new err) s)

/-- SCRUB_READ (R596, R598, R602): a scrub read that waits for a copy is the only one under way. -/
def execScrubRead (err : List (Nat × Byte)) (s : State) : Out := gate s <|
  let under := s.mem.waiting.any (fun q => match q with
    | .scrub _ _ => true
    | _ => false)
  .next (if !s.getb MEM_CTL_SCRUB_EN || under then s
    else dramRequest (.scrub (s.get MEM_SCRUB_POS_POS) err) s)

/-- The copy of a line to its spare: corrected when the line decodes, the stored bytes otherwise (R600). -/
def copyDone (k : Nat) (s : State) : State :=
  let line := s.get (MEM_REMAPk_LINE.i k)
  let w := dramGet line s
  let new := match dramDecode line (markedBytes line s) w with
    | .corrected v _ => v
    | _ => w
  let p := dramLines s - 64 + k
  let s := s.onMem (fun m => { m with copying := none, lines := keySet p new m.lines })
  remapRestore ((s.putb MEM_STAT_COPY_BUSY false).raise memBlk 2)

/-- REMAP_COPY_DONE (R600): the entry takes effect, and the requests that waited are served in the order of R35. -/
def execRemapCopyDone (s : State) : Out := gate s <|
  .next (match s.mem.copying with
    | none => s
    | some k =>
      let s := copyDone k s
      dramDrain s.mem.waiting.length s)

/-! ### On-chip arrays (R603, R604) -/

/-- SRAM_CORRECTED (R537, R604, R605). -/
def execSramCorrected (a : Fin 44) (again : Bool) (s : State) : Out := gate s <|
  let s := sramCorrected a.val again s
  .next (if a.val < 16 then wayCorrected a.val s else s)

/-- The channel of an array of a channel. -/
def arrChan (a : Nat) : Ch := ⟨a % 6, Nat.mod_lt _ (by decide)⟩

/-- Slots of the tile being read that read an uncorrectable word are erased (R603). -/
def eraseSlots (l : List Nat) (t : TileRead) : TileRead :=
  { t with slots := l.foldl (fun q k => q.modify k (slotErased t.rung 8)) t.slots }

/-- The recording of a channel ends (R603). -/
def recordingLost (c : Ch) (s : State) : State :=
  if recActive c s && s.getb TMB_REC_STAT_RUN then
    let s := s.put TMB_REC_STAT_ACTIVE (setBits c.val c.val (s.get TMB_REC_STAT_ACTIVE) 0)
    if s.get TMB_REC_STAT_ACTIVE = 0 then recFinish 4 s else s
  else s

/-- A ring whose state word is lost enters FAULTED (R451, R603). -/
def ringLost (g : Nat) (s : State) : State :=
  match ringOwner g s with
  | none => s
  | some f =>
    if ringState g s ≠ 1 then s
    else
      let addr := entryAddr g (s.get (RC_PTR_HEAD.i g)) s
      let s := writeRecord f addr (s.getb (RC_PTR_PASS.i g)) 3 0x30 24 0 0 s
      let s := interrupt f (s.get (RC_CFG_VECTOR.i g)) s
      dropGrants g ((headNext g (s.put (RC_STAT_STATE.i g) 4)).raise hqeBlk 4)

/-- The answer of an array to an uncorrectable word (R603): `n` is the command, ring or DRAM line the word holds, `slots`
the slots that read it. -/
def arrayLost (a n : Nat) (slots : List Nat) (s : State) : State :=
  if a < 16 then
    let s := if wayDisabled a s then s else s.bump MCA_CNT_ECC_UNCORR 1
    match lineAt n s.mca.lines with
    | some k => if k.way = a ∧ k.dirty then loseLine n (disableWay a s) else disableWay a s
    | none => disableWay a s
  else if a = 16 then (match s.ctx n with
    | some x => finish x 0x30 24 (transferred x s) s
    | none => s)
  else if a = 17 then ringLost n s
  else
    let c := arrChan a
    if a < 24 then s.onTile c (eraseSlots slots)
    else if a < 30 then s.onWrc c (fun k => match k.writing with
      | some w => { k with writing := some { w with bad := w.bad ++ slots } }
      | none => { k with bufs := k.bufs.modify 0 (fun w => { w with bad := w.bad ++ slots }) })
    else if a < 32 then coreRestart s
    else if a < 38 then stopChan (arrChan (a - 2)) 13 false (some (24, 0)) s
    else recordingLost (arrChan (a - 2)) s

/-- SRAM_UNCORRECTABLE (R603, R604). -/
def execSramUncorrectable (a : Fin 44) (n : Nat) (slots : List Nat) (s : State) : Out := gate s <|
  let s := ((s.bump MEM_CNT_SRAM_UNCORR 1).raise memBlk 3).fault 24 0 memBlk
  .next (arrayLost a.val n slots (disarm a.val s))

end Sys2Proof.Machine
end

