-- ==== Sys2Proof/Machine/View.lean ====
section
/-! DEFINITION. What a read of a register shows (R28, R29, R43, R48–R57): the stored value, the views formed from other
state, the frozen read views, and the captures of the 64-bit counters. -/

namespace Sys2Proof.Machine

open Reg

/-! ### The common first page (R48–R57) -/

/-- Is a fault of the block lasting (R694)? -/
def blkLasting (b : Blk) (s : State) : Bool := s.hlt.classes.any (fun k => k.lasting && k.raisers.contains b)

/-- Does a write to the block wait in its channel's latch (R18, R53)? -/
def blkStaged (b : Blk) (s : State) : Bool :=
  blkIsChannel b.ty && (s.chan b.ch).stage.any (fun w => blkOf w.addr == some b)

/-- Is FREEZE of a block in effect (R51)? -/
def blkFrozen (b : Blk) (s : State) : Bool := s.frozen.any (fun p => p.1 == b)

/-- Has a block work in progress (R53)? Which work counts no chapter says (log 54). -/
def blkBusy (b : Blk) (s : State) : Bool :=
  let k := s.chan b.ch
  match b.ty with
  | .sys => false
  | .tmb => recording s || replaying s
  | .hlt => s.hlt.handling.isSome || !s.hlt.incoming.isEmpty
  | .hlk => s.host.ports.toList.any (fun p => !p.reqs.isEmpty || !p.queue.isEmpty)
  | .hqe => s.host.grant.isSome
  | .cmd => !s.host.ctxs.isEmpty
  | .map => s.map.busy.isSome || !s.map.ready.isEmpty
  | .mca => s.mca.fill.isSome || s.mca.evict.isSome
  | .str => !s.str.opens.isEmpty || !s.str.closed.isEmpty || s.str.rebuild.isSome
  | .sea => false
  | .mem => s.mem.copying.isSome || !s.mem.waiting.isEmpty
  | .fls => [(0 : Two), 1].any (fun x => bankState x s != 0 && bankState x s != 3)
  | .cal => s.cal.runs.any (·.begun)
  | .vmb => [0, 1].any (fun x => s.getb (VMB_STATx_CHOP_ON.i x))
  | .dcm => s.get (DCM_STAT_HEADING.at b.ch) != s.mode b.ch
  | .rdc | .det => k.rdc.tile.isSome || k.rdc.prev.isSome
  | .wrc => k.wrc.writing.isSome || !k.wrc.bufs.isEmpty || !k.wrc.judging.isEmpty
  | .srv => s.get (SRV_STAT_RECOVERY.at b.ch) != 0 || (k.srv.step != .idle && k.srv.step != .settled)
  | .mot => s.get (MOT_SEEK_KIND.at b.ch) != 0 || k.mot.axes.toList.any (fun a => a.vel != 0 || !a.runs.isEmpty)
  | .spn => spnSt b.ch s != 0 && spnSt b.ch s != 12

/-- BLK_STAT (R53). No chapter gives BLK_SPECIFIC. -/
def blkStat (b : Blk) (s : State) : Nat :=
  b2n (blkStaged b s) * 16 + b2n (blkFrozen b s) * 8 + b2n (blkLasting b s) * 4 + b2n (blkOpen b s) * 2 +
    b2n (blkBusy b s)

/-- A register of the common first page (R48–R57). -/
def firstPageView (b : Blk) (off : Nat) (s : State) : W32 :=
  match off with
  | 0x00 => BitVec.ofNat 32 (blkId b)
  | 0x04 => BitVec.ofNat 32 (blkCap b.ty)
  | 0x0C => BitVec.ofNat 32 (blkStat b s)
  | 0x18 => BitVec.ofNat 32 (setBits 16 16 (s.rd (pageReg b 0x18)).toNat (b2n (blkLasting b s)))
  | 0x1C => lockView b s
  | _ => s.rd (pageReg b off)

/-! ### Views formed from other state -/

/-- Is a class lasting in any instance (R717)? -/
def classLasting (cls : Nat) (s : State) : Bool := s.hlt.classes.any (fun k => k.lasting && k.cls == cls)

/-- Bits of a list of truth values, the first in bit 0. -/
def bitList : List Bool → Nat
  | [] => 0
  | b :: r => b2n b + 2 * bitList r

/-- HLT_CNTc for the instance selected (R717). -/
def classCount (cls : Nat) (s : State) : Nat :=
  let k := classInst cls (s.get HLT_SEL_INSTANCE) s
  min k.total 65535 * 65536 + b2n k.lasting * 256 + min k.count 255

/-- The straps as SYS_STRAP shows them (R730). -/
def strapView (t : Straps) : Nat :=
  b2n t.sramRep * 256 + t.sba.toNat * 32 + t.dramD.toNat * 8 + b2n t.dramR * 4 + b2n t.dramW * 2 + b2n t.afSel

/-- HLT_SB (R717). -/
def sidebandView (s : State) : Nat :=
  let v := (s.rd HLT_SB.base).toNat
  let v := setBits 21 16 v (bitList (allCh.map (fun c => s.getb (DCM_STAT_STOPPED.at c))))
  let v := setBits 10 10 v (s.get HLT_STAT_FAULT_OVERRUN)
  let v := setBits 9 9 v (b2n (s.hlt.classes.any (·.lasting)))
  setBits 6 5 v (s.get HLK_CTL_CFG_READY0 + 2 * s.get HLK_CTL_CFG_READY1)

/-- A capture of a reading origin, 0 when it has made none (R28). -/
def captureOf (o : Origin) (l : List (Origin × Nat)) : Nat := ((l.find? (fun p => p.1 == o)).map (·.2)).getD 0

/-- Does the last write of a loop's LOOP_CTL in the latch request a swap (R19, R259)? -/
def swapWaits (c : Ch) (l : Nat) (s : State) : Bool :=
  match ((s.chan c).stage.filter (fun w => w.addr == ((LOOP_CTL.at c).i l).base)).getLast? with
  | some w => bitOf 8 w.val.toNat
  | none => false

/-- LOOP_STAT, whose SWAP_PEND shows a swap that waits for its boundary (R259). -/
def loopView (a : Nat) (s : State) : Option Nat :=
  match blkOf a with
  | some ⟨.srv, c⟩ =>
    let off := a - chBase c
    if 0x81000 ≤ off ∧ off < 0x88000 ∧ off % 0x1000 = 4 then
      some (setBits 9 9 (s.rd a).toNat (b2n (swapWaits c ((off - 0x81000) / 0x1000) s)))
    else none
  | _ => none

/-- A register with an action bit whose action lasts: the bit reads 1 until it ends (R58): a Timetable swap (R248), a seek
(R311), the ABORT of an axis (R303). -/
def actionView (a : Nat) (s : State) : Option Nat :=
  match blkOf a with
  | some ⟨.srv, c⟩ => if a = (SRV_CTL.at c).base then some (setBits 0 0 (s.rd a).toNat (b2n (s.getb (SRV_STAT_TT_PEND.at c)))) else none
  | some ⟨.mot, c⟩ =>
    if a = (MOT_SEEK.at c).base then
      some (setBits 31 31 (s.rd a).toNat (b2n (s.get (MOT_SEEK_KIND.at c) != 0 || (s.chan c).mot.seekWait.isSome)))
    else if a = (axF AX_CTL c 0).base then some (setBits 8 8 (s.rd a).toNat (b2n (s.axis c 0).aborting))
    else if a = (axF AX_CTL c 1).base then some (setBits 8 8 (s.rd a).toNat (b2n (s.axis c 1).aborting))
    else none
  | _ => none

/-- The register at an address of SYS, TMB, HLT, HLK, MEM, FLS, SRV or MOT whose view is formed from other state. -/
def formedView (o : Origin) (a : Nat) (s : State) : Option Nat :=
  if a = SYS_STRAP.base then some (strapView s.straps)
  else if a = TMB_TICK_LO.base then some (s.tb.tick % 2 ^ 32)
  else if a = TMB_TICK_HI.base then some (captureOf o s.tb.tickCap / 2 ^ 32)
  else if a = TMB_TOD_LO.base then some (s.tb.tod % 2 ^ 32)
  else if a = TMB_TOD_HI.base then some (captureOf o s.tb.todCap / 2 ^ 32)
  else if a = HLT_STAT.base then
    some (setBits 5 0 (setBits 6 6 (s.rd a).toNat (b2n s.hlt.handling.isSome)) s.hlt.fifo.length)
  else if a = HLT_SB.base then some (sidebandView s)
  else if a = HLT_LASTING_LO.base then some (bitList ((List.range 32).map (fun k => classLasting k s)))
  else if a = HLT_LASTING_HI.base then some (bitList ((List.range 32).map (fun k => classLasting (32 + k) s)))
  else if HLT_CLASSc.base ≤ a ∧ a < HLT_CLASSc.base + 256 then
    some (setBits 31 31 (s.rd a).toNat (b2n (classLasting ((a - HLT_CLASSc.base) / 4) s)))
  else if HLT_CNTc.base ≤ a ∧ a < HLT_CNTc.base + 256 then some (classCount ((a - HLT_CNTc.base) / 4) s)
  else if a = HLK_STAT.base then some (setBits 5 0 (s.rd a).toNat (afFunc s))
  else if a = MEM_STAT.base then
    some (setBits 31 24 (setBits 17 17 (s.rd a).toNat (b2n s.straps.sramRep)) (dramGib s.straps))
  else if a = MEM_SRAM_INFO.base then some (sramInfo s)
  else if (a = FLS_RESb.base ∨ a = FLS_RESb.base + FLS_RESb.s1) ∧ !s.getb FLS_STAT_SCAN_DONE then
    some (setBits 23 20 (s.rd a).toNat 5)
  else (loopView a s).or (actionView a s)

/-- The addresses of the views formed from other state, but for the captures. -/
def formedAddrs : List Nat :=
  [SYS_STRAP.base, TMB_TICK_LO.base, TMB_TOD_LO.base, HLT_STAT.base, HLT_SB.base, HLT_LASTING_LO.base,
   HLT_LASTING_HI.base, HLK_STAT.base, MEM_STAT.base, MEM_SRAM_INFO.base, FLS_RESb.base, FLS_RESb.base + FLS_RESb.s1] ++
  (List.range 64).map (fun c => HLT_CLASSc.base + 4 * c) ++ (List.range 64).map (fun c => HLT_CNTc.base + 4 * c) ++
  allCh.flatMap (fun c => (List.range 7).map (fun l => ((LOOP_STAT.at c).i l).base))

/-- Is a register one of a signal's PLL registers that signals 8 and 9 lack (R182)? -/
def pllAbsent (a : Nat) : Bool :=
  match blkOf a with
  | some ⟨.rdc, c⟩ =>
    let off := a - chBase c
    decide (0x29000 ≤ off ∧ off < 0x2B000) && (off % 0x1000 == 0x00C || off % 0x1000 == 0x010 || off % 0x1000 == 0x018 ||
      off % 0x1000 == 0x01C)
  | _ => false

/-- Is a register an event-queue register of a ring that is no admin ring (R459)? -/
def evqAbsent (a : Nat) (s : State) : Bool :=
  decide (0x02000000 ≤ a ∧ a < 0x02100000) && (a % 64 == 0x20 || a % 64 == 0x24 || a % 64 == 0x28) &&
    !isAdminRing ((a - 0x02000000) / 64) s

/-- What a register shows to a reading origin while its block is not frozen (R48–R58). -/
def liveView (o : Origin) (a : Nat) (s : State) : W32 :=
  match regRow a with
  | none => 0
  | some _ =>
    if pllAbsent a || evqAbsent a s then 0
    else match blkOf a with
      | none => s.rd a
      | some b =>
        if a - blkBase b < 0x40 then firstPageView b (a - blkBase b) s
        else match formedView o a s with
          | some v => BitVec.ofNat 32 v
          | none => s.rd a

/-! ### FREEZE (R51, R52) -/

/-- The bits of a register that FREEZE holds: its RO fields (R51). -/
def heldMask (r : RegRow) : W32 := ~~~(BitVec.ofNat 32 (r.rw ||| r.rwl ||| r.w1c ||| r.w1s ||| r.wo))

/-- The values of a block at offsets 0x040 and above, as the read view holds them. -/
def blkSnapshot (b : Blk) (s : State) : List (Nat × W32) :=
  let here := fun (a : Nat) => blkOf a == some b && decide (blkBase b + 0x40 ≤ a)
  let formed := formedAddrs.filter here
  let extra := if b.ty == .tmb then
      [(TMB_TICK_HI.base, BitVec.ofNat 32 (s.tb.tick / 2 ^ 32)), (TMB_TOD_HI.base, BitVec.ofNat 32 (s.tb.tod / 2 ^ 32))] else []
  (s.regs.filter (fun p => here p.1 && !formed.contains p.1)) ++ formed.map (fun a => (a, liveView (.core 0) a s)) ++ extra

/-- The read view: RO fields of a frozen block show what they held when it was frozen; TICK_HI and TOD_HI show the
reading origin's capture (R28, R51). -/
def State.view (o : Origin) (a : Nat) (s : State) : W32 :=
  let v := liveView o a s
  if a = TMB_TICK_HI.base ∨ a = TMB_TOD_HI.base then v
  else match regRow a, blkOf a with
    | some (r, _, _), some b =>
      if a - blkBase b < 0x40 then v
      else match s.frozen.find? (fun p => p.1 == b) with
        | none => v
        | some (_, l) =>
          let m := heldMask r
          (((regFind a l).getD (resetValue a)) &&& m) ||| (v &&& ~~~m)
    | _, _ => v

/-- The 64-bit counter that a read of its low half captures (R28, R29): as the read view shows it (log 56). -/
def captured (lo hi live : Nat) (s : State) : Nat :=
  match s.frozen.find? (fun p => p.1 == (⟨.tmb, 0⟩ : Blk)) with
  | none => live
  | some (_, l) => ((regFind hi l).getD 0).toNat * 2 ^ 32 + ((regFind lo l).getD 0).toNat

/-- Stores a capture of an origin. -/
def setCapture (o : Origin) (v : Nat) (l : List (Origin × Nat)) : List (Origin × Nat) :=
  l.filter (fun p => p.1 != o) ++ [(o, v)]

/-- A read of the low half of a counter captures the whole of it for the reading origin (R28, R29). -/
def readCapture (o : Origin) (a : Nat) (s : State) : State :=
  if a = TMB_TICK_LO.base then
    { s with tb := { s.tb with tickCap := setCapture o (captured a TMB_TICK_HI.base s.tb.tick s) s.tb.tickCap } }
  else if a = TMB_TOD_LO.base then
    { s with tb := { s.tb with todCap := setCapture o (captured a TMB_TOD_HI.base s.tb.tod s) s.tb.todCap } }
  else s

/-! ### Addresses (R41–R47, R426) -/

/-- Where an address leads. -/
inductive Target where
  /-- A register, at its own address (R68). -/
  | reg (a : Nat)
  /-- The alias of a ring control page that the function does not have (R426). -/
  | absent
  /-- The doorbell or staging doorbell of a local ring of a function. -/
  | bell (f : Fn) (r : Nat) (staging : Bool)
  /-- No register (R43). -/
  | none
deriving DecidableEq, Repr

/-- Decodes an address (R41, R47). -/
def targetOf (a : Nat) (s : State) : Target :=
  if h : 0x03000000 ≤ a ∧ a < 0x04000000 then
    let f : Fn := ⟨(a - 0x03000000) / 0x40000, by omega⟩
    let off := a % 0x40000
    if off < 0x2000 then .bell f (off / 8) (off % 8 == 4)
    else if 0x10000 ≤ off ∧ off < 0x20000 then
      match ringOf f.val ((off - 0x10000) / 64) s with
      | some g =>
        let b := 0x02000000 + 64 * g + off % 64
        if (regRow b).isSome then .reg b else .none
      | Option.none => .absent
    else .none
  else if (regRow a).isSome then .reg a else .none

/-- What a register read returns (R28, R29, R43, R64, R403), and the state after it. -/
def busRead (o : Origin) (a : Nat) (s : State) : W32 × State :=
  match targetOf a s with
  | .reg b => (s.view o b, readCapture o b s)
  | _ => (0, s)

/-- A read of `len` bytes from byte `first` of the register at an address on: the addressed bytes, and of more than a register
two accesses, the lower address first (R44). -/
def busReadBytes (o : Origin) (a first len : Nat) (s : State) : List Byte × State :=
  let (lo, s) := busRead o a s
  if first + len ≤ 4 then (((leBytes 4 lo.toNat).drop first).take len, s)
  else
    let (hi, s) := busRead o (a + 4) s
    (((leBytes 4 lo.toNat ++ leBytes 4 hi.toNat).drop first).take len, s)

end Sys2Proof.Machine
end

