-- ==== Sys2Proof/Machine/Effects.lean ====
section
/-! DEFINITION. Register writes (R18, R19, R43, R44, R57–R70): acceptance by class and lock, the latches, what a write
that takes effect stores and starts, and the change log. -/

namespace Sys2Proof.Machine

open Reg

/-- What a register write's effect needs from outside the register bus: what the DRAM rings of the logs hold (R751), the
snippet a trigger captures (R709), the bits a flash read finds wrong (R616), and what the part reads of the entry that a
staging doorbell names (R433). -/
structure WriteData where
  area : LogArea := { change := [], event := [], viol0 := [], viol1 := [] }
  snip : Option (List Byte) := none
  err : List Nat := []
  staged : FetchEnd := .failed 8

/-! ### Refusals by rule (R67) -/

/-- The global ring and the offset within its page of an address in the ring control pages. -/
def ringReg (a : Nat) : Option (Nat × Nat) :=
  if 0x02000000 ≤ a ∧ a < 0x02100000 then some ((a - 0x02000000) / 64, a % 64) else none

/-- May BASE and LOG_DEPTH of a ring change (R429)? -/
def ringQuiet (g : Nat) (s : State) : Bool := ringState g s == 0 || ringState g s == 3

/-- The low bit of the number of an array's element at an offset: axis, bus or bank. -/
def elemOf (off first stride : Nat) : Two := if off < first + stride then 0 else 1

/-- Would STOP_CLR clear STOPPED (R379)? -/
def stopClrActs (c : Ch) (s : State) : Bool := s.getb (DCM_STAT_STOPPED.at c) && stopCleared c s

/-- Does a write of `v` to DCM_CTL leave the register as it is, because its request is refused or its STOP_CLR has no
effect (R374, R379)? -/
def dcmCtlVoid (c : Ch) (v : W32) (s : State) : Bool :=
  let old := (s.rd (DCM_CTL.at c).base).toNat
  let n := v.toNat
  let newReq := bitsOf 3 0 n != bitsOf 3 0 old
  let same := bitsOf 13 12 n == bitsOf 13 12 old && bitsOf 9 8 n == bitsOf 9 8 old && bitOf 4 n == bitOf 4 old
  same && !bitOf 30 n && (newReq || bitOf 31 n) &&
    (!newReq || requestRefused c (bitsOf 3 0 n) (bitOf 4 n) s) && (!bitOf 31 n || !stopClrActs c s)

/-- Would SAFE_CLR release LSAFE_N (R223)? -/
def safeClrActs (c : Ch) (s : State) : Bool :=
  !s.pwr.pwrfailLow && decide (s.pwr.highSince + 4000 ≤ s.now) && (s.chan c).wrc.lanesRead

/-- Does a write of `v` to WRC_CTL leave the register as it is, because its SAFE_CLR has no effect (R223)? -/
def wrcCtlVoid (c : Ch) (v : W32) (s : State) : Bool :=
  bitOf 6 v.toNat && !bitOf 7 v.toNat && !safeClrActs c s &&
    bitsOf 5 0 v.toNat == bitsOf 5 0 (s.rd (WRC_CTL.at c).base).toNat

/-- Does a write of `v` to MCA_WAY ask only for locks that are refused (R535)? -/
def lockVoid (v : W32) (s : State) : Bool :=
  let old := s.get MCA_WAY_LOCK
  v.toNat % 65536 != old && (mcaLockEffect old v s).get MCA_WAY_LOCK == old

/-- Does a rule ignore or refuse a write of `v` as a whole because of the state of the part (R67)? -/
def ruleRefuses (a : Nat) (v : W32) (s : State) : Bool :=
  match ringReg a with
  | some (g, off) => ((off == 0 || off == 4) && !ringQuiet g s) || evqAbsent a s
  | none => match blkOf a with
    | none => false
    | some b =>
      let off := a - blkBase b
      match b.ty with
      | .mot => (off == 0x1014 || off == 0x2014) && pushRefused b.ch (elemOf off 0x1000 0x1000) v s
      | .vmb => (off == 0x40 || off == 0x50) && bitOf 1 v.toNat && !bitOf 0 v.toNat && busBraking (elemOf off 0x40 0x10) s
      | .dcm => (off == 0x40 && dcmCtlVoid b.ch v s) || (off == 0x44 && tgtRefused v)
      | .wrc => off == 0x40 && wrcCtlVoid b.ch v s
      | .hqe => decide (0x100 ≤ off ∧ off < 0x200) && !assignOk ((off - 0x100) / 4) v s
      | .hlt =>
        if 0x100 ≤ off ∧ off < 0x200 then
          s.getb (HLT_CLASSc_FIXED.i ((off - 0x100) / 4)) || decide (38 < (off - 0x100) / 4)
        else (decide (0x70 ≤ off ∧ off < 0x80) || off == 0x800 || off == 0x804) && s.getb HLT_CTL_LOG_EN
      | .tmb => (off == 0x800 || off == 0x804 || off == 0x808) && (recording s || replaying s)
      | .map => decide (0x800 ≤ off) && s.getb MAP_CTL_MAP_EN
      | .str => decide (0x800 ≤ off) && s.getb MAP_CTL_MAP_EN
      | .mem =>
        if 0x840 ≤ off ∧ off < 0x880 then remapRefused ((off - 0x840) / 4) v s
        else (off == 0x880 || off == 0x884) && s.getb MEM_REPAIR_SRAM_SEAL
      | .mca => off == 0x44 && lockVoid v s
      | _ => false

/-- What a write that a rule refuses still does: the events and counts of its refusal (R300, R374, R425, R535). -/
def refusedEffect (a : Nat) (v : W32) (s : State) : State :=
  match blkOf a with
  | none => s
  | some b =>
    let off := a - blkBase b
    match b.ty with
    | .mot => if off = 0x1014 ∨ off = 0x2014 then axQcmdEffect b.ch (elemOf off 0x1000 0x1000) v s else s
    | .dcm =>
      if off = 0x44 ∨ bitsOf 3 0 v.toNat ≠ bitsOf 3 0 (s.rd (DCM_CTL.at b.ch).base).toNat then modeFail b.ch 1 s else s
    | .hqe => s.raise hqeBlk 3
    | .mca => s.raise mcaBlk 2
    | _ => s

/-- The bits of a register that keep their value whatever is written: LOG_DEPTH of a ring in use (R429). -/
def keptBits (a : Nat) (s : State) : W32 :=
  match ringReg a with
  | some (g, off) => if off = 8 ∧ !ringQuiet g s then 0xF else 0
  | none => 0

/-- The action bits that stay 1 once written: CFG_READY (R422), SRAM_SEAL (R612), and RESTART until the wedge boundary
(R132). Every other action ends in the step that takes the write. -/
def stickyBits (a : Nat) : W32 :=
  if a = HLK_CTL.base then 3
  else if a = MEM_REPAIR.base then 0x100
  else match blkOf a with
    | some ⟨.rdc, c⟩ => if (a - chBase c) % 0x1000 = 0x008 then 0x80 else 0
    | _ => 0

/-! ### What a write starts -/

/-- FREEZE (R51, R52). -/
def freezeEffect (b : Blk) (old v : W32) (s : State) : State :=
  match bitOf 1 old.toNat, bitOf 1 v.toNat with
  | false, true => { s with frozen := s.frozen ++ [(b, blkSnapshot b s)] }
  | true, false => { s with frozen := s.frozen.filter (fun p => p.1 != b) }
  | _, _ => s

/-- TOD_APPLY (R26, R30). -/
def todApplyEffect (v : W32) (s : State) : State :=
  if bitOf 1 v.toNat then
    { s with tb := { s.tb with todStaged := some (s.get TMB_TOD_SET_HI * 2 ^ 32 + s.get TMB_TOD_SET_LO) } }
  else s

/-- CFG_READY of a port is set: its configuration space takes HLK_SUBSYS (R422). -/
def readyEffect (p : Two) (bit : Nat) (old v : W32) (s : State) : State :=
  if bitOf bit v.toNat && !bitOf bit old.toNat then takeSubsys p s else s

/-- The HLK counters (R423). -/
def hlkClear (s : State) : State :=
  s.each [0, 1] (fun s p => s.clearAll [HLK_VCNTp.i p, HLK_DCNTp.i p])

/-- A write of HLK_SUBSYS: the resident firmware copies the value into the system records (R422). -/
def subsysEffect (s : State) : State :=
  if s.getb HLT_SB_CORES_RUN then s.onFls (fun k => { k with subsys := s.rd HLK_SUBSYS.base }) else s

/-- The snippet of a trigger: the one given, else what the signals show then (log 27). -/
def snipOf (x : WriteData) (s : State) : List Byte :=
  x.snip.getD ((List.range 40960).map (fun k => BitVec.ofNat 8 (Config.snippet s.tb.tick k)))

/-- The effect of a write to a chip-wide block at an offset of 0x040 or above. -/
def chipEffect (o : Origin) (t : BlkT) (off : Nat) (old v : W32) (x : WriteData) (s : State) : State :=
  match t with
  | .tmb =>
    if off = 0x58 then todApplyEffect v s
    else if off = 0x64 then trigEffect (snipOf x s) v s
    else if off = 0x68 then prepEffect v s
    else s
  | .hlt =>
    if off = 0x40 then hltCtlEffect x.area v s
    else if off = 0x48 then hltClrEffect o v s
    else if off = 0x64 then tempCheck s
    else s
  | .hlk =>
    if off = 0x40 then
      let s := if bitOf 2 v.toNat then hlkClear s else s
      readyEffect 1 1 old v (readyEffect 0 0 old v s)
    else if off = 0x48 then subsysEffect s
    else s
  | .hqe => if off = 0x40 ∧ bitOf 0 v.toNat then hqeClear s else s
  | .map => if off = 0x40 ∧ bitOf 1 v.toNat then mapClear s else s
  | .mca =>
    if off = 0x40 then (if bitOf 7 v.toNat then mcaClear s else s)
    else if off = 0x44 then mcaLockEffect (old.toNat % 65536) v s
    else if off = 0x48 then mcaOpEffect v s
    else s
  | .str => if off = 0x40 ∧ bitOf 0 v.toNat then strClear s else s
  | .sea => if off = 0x40 ∧ bitOf 0 v.toNat then seaClear s else s
  | .mem =>
    if off = 0x40 then (if bitOf 2 v.toNat then memClear s else s)
    else if 0x840 ≤ off ∧ off < 0x880 then remapEffect ((off - 0x840) / 4) s
    else if off = 0x900 then tcmdEffect v s
    else s
  | .fls =>
    if off = 0x40 then (if bitOf 0 v.toNat then flsClear s else s)
    else if off = 0x50 ∨ off = 0x70 then flashCmd o (elemOf off 0x50 0x20) (bitsOf 3 0 v.toNat) x.err s
    else if off = 0x800 then divertEffect s
    else s
  | .cal => if off = 0x40 ∧ bitOf 2 v.toNat then calClear s else s
  | .vmb => if off = 0x40 ∨ off = 0x50 then vmbCtlEffect (elemOf off 0x40 0x10) v s else s
  | _ => s

/-- The effect of a write to RDC (R127, R132, R190). -/
def rdcEffect (c : Ch) (off : Nat) (v : W32) (s : State) : State :=
  if off = 0x40 then (if bitOf 0 v.toNat then s.clearAll (rdcCounters c) else s)
  else if h : 0x1000 ≤ off ∧ off < 0xB000 then
    let g : Fin 10 := ⟨(off - 0x1000) / 0x1000, by omega⟩
    if off % 0x1000 = 0 then s.put (sigF RDC_STAT_GAIN_NOW c g.val) (min 120 (s.get (sigF RDC_AFE_GAIN c g.val)))
    else if off % 0x1000 = 8 ∧ bitOf 7 v.toNat then
      s.onRdc c (fun r => { r with restart := if r.restart.contains g then r.restart else r.restart ++ [g] })
    else s
  else s

/-- The effect of a write to a drive-channel block at an offset of 0x040 or above; `s0` is the state before the write. -/
def chanEffect (t : BlkT) (c : Ch) (off : Nat) (old v : W32) (s0 s : State) : State :=
  match t with
  | .rdc => rdcEffect c off v s
  | .wrc => if off = 0x40 then wrcCtlEffect c v s else s
  | .srv =>
    if off = 0x40 then
      let s := if bitOf 1 v.toNat then s.clearAll (srvCounters c) else s
      if bitOf 0 v.toNat then ttSwapEffect c s.now s else s
    else if h : 0x1000 ≤ off ∧ off < 0x8000 then
      if off % 0x1000 = 0 then loopCtlEffect c ⟨(off - 0x1000) / 0x1000, by omega⟩ v s else s
    else s
  | .mot =>
    if off = 0x40 then (if bitOf 0 v.toNat then s.clearAll (motCounters c) else s)
    else if off = 0x44 then motSeekEffect c v s
    else if off = 0x1000 ∨ off = 0x2000 then axCtlEffect c (elemOf off 0x1000 0x1000) old v s
    else if off = 0x1014 ∨ off = 0x2014 then axQcmdEffect c (elemOf off 0x1000 0x1000) v s
    else s
  | .spn =>
    if off = 0x40 then
      spnCommand c (bitsOf 2 0 v.toNat) (if bitOf 7 v.toNat then s.clearAll (spnCounters c) else s)
    else s
  | .dcm =>
    if off = 0x40 then dcmCtlEffect c old v s
    else if off = 0x800 then allowEffect c (wantProfile c s0) (old.toNat % 4) s
    else if 0x840 ≤ off ∧ off < 0x880 then profileValueEffect c ((off - 0x840) / 16) s
    else if 0x880 ≤ off ∧ off < 0x890 then profileValueEffect c ((off - 0x880) / 4) s
    else s
  | _ => s

/-- What a write of `v`, stored over `old`, starts; `s0` is the state before it. -/
def writeEffect (o : Origin) (a : Nat) (old v : W32) (x : WriteData) (s0 s : State) : State :=
  match ringReg a with
  | some (g, off) =>
    if off = 0x0C then rcCtlEffect g v s
    else if off = 0x20 then evqEffect g old v s
    else s
  | none => match blkOf a with
    | none => s
    | some b =>
      let off := a - blkBase b
      if off = 0x08 then freezeEffect b old v s
      else if off < 0x40 then s
      else if blkIsChannel b.ty then chanEffect b.ty b.ch off old v s0 s
      else chipEffect o b.ty off old v x s

/-! ### A write that takes effect (R58, R67, R68) -/

/-- The channel a register belongs to, for the recorder. -/
def noteChange (a : Nat) (new old : W32) (s : State) : State :=
  match blkOf a with
  | some b => if blkIsChannel b.ty then recChange b.ch a new old s else s
  | none => s

/-- A write takes effect: it is stored by the access codes, entered in the change log, and starts what it starts; or a
rule refuses it as a whole, which is entered too (R58, R67, R68). -/
def applyWrite (o : Origin) (a : Nat) (v : W32) (x : WriteData) (s : State) : State :=
  match regRow a with
  | none => s
  | some (r, _, _) =>
    let shown := liveView o a s
    if ruleRefuses a v s then (refusedEffect a v s).logChange s.now a shown v o true (r.rwl != 0)
    else
      let old := s.rd a
      let kept := keptBits a s
      let acts := BitVec.ofNat 32 r.w1s &&& ~~~(stickyBits a)
      let v' := (v &&& ~~~kept) ||| (old &&& kept)
      let new := BitVec.ofNat 32 (mergeWrite r old.toNat (v' &&& ~~~acts).toNat)
      let t := s.wr a new
      let log := loggedValue r (liveView o a t).toNat v.toNat
      let t := (t.logChange s.now a shown log o false (r.rwl != 0))
      writeEffect o a old v x s (noteChange a log shown t)

/-- A write that a later write to the same register within the tick replaces: it is only entered (R19). -/
def logReplaced (w : Staged) (s : State) : State :=
  match regRow w.addr with
  | none => s
  | some (r, _, _) =>
    let old := s.rd w.addr
    s.logChange s.now w.addr (liveView w.org w.addr s)
      (loggedValue r (mergeWrite r old.toNat w.val.toNat) w.val.toNat) w.org false (r.rwl != 0)

/-- Applies the writes of a latch in order of arrival; of several to one register the last takes effect (R19). -/
def applyStaged : List Staged → State → State
  | [], s => s
  | w :: r, s =>
    if r.any (fun q => q.addr == w.addr) then applyStaged r (logReplaced w s)
    else applyStaged r (applyWrite w.org w.addr w.val {} s)

/-! ### The calibration trims (R653–R655) -/

/-- When a CAL trim takes effect (R653). -/
inductive TrimAt where
  | wedge | boundary | idle
deriving DecidableEq, Repr

/-- The channel and the time of effect of a CAL trim register (R653). -/
def calTrim (a : Nat) : Option (Ch × TrimAt) :=
  if h : 0xC01000 ≤ a ∧ a < 0xC07000 then
    let c : Ch := ⟨(a - 0xC01000) / 0x1000, by omega⟩
    let off := a % 0x1000
    if 0x800 ≤ off ∧ off < 0x828 then some (c, .wedge)
    else if 0x840 ≤ off ∧ off < 0x864 then some (c, .boundary)
    else if off = 0x870 then some (c, .idle)
    else none
  else none

/-- TRIM_PEND of a channel: a CAL trim write waits (R654). -/
def showTrim (c : Ch) (s : State) : State :=
  let k := s.chan c
  s.putb (CAL_CH_STAT_TRIM_PEND.i c.val) ((k.stage ++ k.rdc.pend ++ k.dcm.trimPend).any (fun w => (calTrim w.addr).isSome))

/-! ### Acceptance (R18, R43, R44, R57–R64) -/

/-- The access classes of an origin that R63 gives to functions: is it the administrative function? -/
def fnAdmin (f : Fn) (s : State) : Bool := f.val == afFunc s

/-- May an origin write an address (R64)? -/
def mayWrite (o : Origin) (a : Nat) (s : State) : Bool :=
  match o with
  | .fn f => fnAdmin f s || decide (windowOf f.val ≤ a ∧ a < windowOf f.val + 0x40000)
  | .core _ => true
  | .seqr _ _ => true
  | .i2c => blkOf a == some ⟨.hlt, 0⟩
  | .jtag => true

/-- REFUSED_CNT of the block of an address counts one (R57). -/
def bumpRefused (a : Nat) (s : State) : State :=
  match blkOf a with
  | some b => s.bump ⟨pageReg b 0x1C, 15, 8, 0, 0⟩ 1
  | none => s

/-- A write refused under R59 or R64: counted and entered with the attempted value (R57, R67, R68). -/
def refuseWrite (o : Origin) (a : Nat) (v : W32) (rwl : Bool) (s : State) : State :=
  (bumpRefused a s).logChange s.now a (liveView o a s) v o true rwl

/-- A write to a CAL trim waits for its time (R653, R654). -/
def stageTrim (c : Ch) (k : TrimAt) (w : Staged) (s : State) : State :=
  showTrim c (match k with
    | .wedge => stageWrite c w s
    | .boundary => stageWrite c w s
    | .idle => s.onDcm c (fun d => { d with trimPend := d.trimPend ++ [w] }))

/-- Can any bit of the register be written (R58)? -/
def writable (r : RegRow) : Bool := (r.rw ||| r.rwl ||| r.w1c ||| r.w1s ||| r.wo) != 0

/-- A write that the origin's class allows reaches a register (R18, R59, R60). -/
def acceptWrite (o : Origin) (a : Nat) (v : W32) (x : WriteData) (s : State) : State :=
  match regRow a with
  | none => s
  | some (r, _, _) =>
    if !writable r || pllAbsent a then s
    else match blkOf a with
      | none => applyWrite o a v x s
      | some b =>
        let off := a - blkBase b
        if off = 0x1C then lockWrite o b v s
        else if r.rwl ≠ 0 ∧ !blkOpen b s then refuseWrite o a v true s
        else
          let latched := blkIsChannel b.ty && decide (0x40 ≤ off)
          let s := if r.rwl ≠ 0 ∧ (latched ∨ !ruleRefuses a v s) then touchLock b (if latched then s.now + 1 else s.now) s else s
          if latched then stageWrite b.ch ⟨a, v, o⟩ s
          else match calTrim a with
            | some (c, k) => stageTrim c k ⟨a, v, o⟩ s
            | none => applyWrite o a v x s

/-- Is an access of a function discarded before it reaches the registers (R398, R411)? -/
def accessDead (o : Origin) (s : State) : Bool :=
  match o with
  | .fn f => fnResetting f.val s || !fnExists f.val s
  | _ => false

/-- SYS_UNMAPPED_CNT counts an access (R43, R44). -/
def countUnmapped (s : State) : State := s.bump SYS_UNMAPPED_CNT_COUNT 1

/-- The address a change-log entry of a refused write shows (R68). -/
def loggedAddr (a : Nat) (s : State) : Nat := match targetOf a s with
  | .reg b => b
  | _ => a

/-- A register write (R43, R44, R58–R67, R403, R426); at a doorbell it is the doorbell write of the window's function (R47,
R434). -/
def regAccess (o : Origin) (a : Nat) (be : BitVec 4) (v : W32) (x : WriteData) (s : State) : State :=
  if accessDead o s then s
  else if !mayWrite o a s then
    if be ≠ 0xF then countUnmapped s
    else
    let s := refuseWrite o (loggedAddr a s) v false s
    match o with
    | .fn f => violation f.val 0x0C 0xFFFF a s
    | _ => s
  else match targetOf a s with
    | .bell f r staging => if staging then stagingWrite f r be v x.staged s else bellWrite f r be v s
    | .reg b => if be ≠ 0xF then countUnmapped s else acceptWrite o b v x s
    | .absent => if be ≠ 0xF then countUnmapped s else s
    | .none => countUnmapped s

/-- Was a write at an address refused under R59 or R64 (R746)? -/
def writeRefused (o : Origin) (a : Nat) (s : State) : Bool :=
  !mayWrite o a s || (match targetOf a s with
    | .reg b => (match regRow b, blkOf b with
      | some (r, _, _), some k => r.rwl != 0 && !blkOpen k s
      | _, _ => false)
    | _ => false)

end Sys2Proof.Machine
end

