-- ==== Sys2Proof/Machine/Writes.lean ====
section
/-! DEFINITION. The commands that are register accesses (R18, R19, R26–R30, R43, R44, R51, R55, R57–R70): each puts one
write or read on the register bus, at the address its rule names. -/

namespace Sys2Proof.Machine

open Reg

/-! ### The register bus -/

/-- A register write of a full word (R44). -/
def busWrite (o : Origin) (a : Nat) (v : W32) (x : WriteData) (s : State) : Out := .next (regAccess o a 0xF v x s)

/-- The address at which an origin reaches a register of a ring's control page: an owner of the TENANT class uses the
alias page in its own window (R47, R64). -/
def ringAddr (o : Origin) (g off : Nat) (s : State) : Nat :=
  match o with
  | .fn f =>
    if fnAdmin f s || ringOwner g s != some f.val then 0x02000000 + 64 * g + off
    else windowOf f.val + 0x10000 + 64 * (g - ringFirst f.val s) + off
  | _ => 0x02000000 + 64 * g + off

/-- A register write at any address, with byte enables; a 64-bit access acts as two, the lower address first (R18, R19, R44,
R58–R70). -/
def execRegisterWrite (o : Origin) (addr : Nat) (be : BitVec 4) (v : W32) (high : Option (BitVec 4 × W32)) (e : FetchEnd)
    (s : State) : Out := gate s <|
  let s := regAccess o addr be v { staged := e } s
  .next (match high with
    | none => s
    | some (be, v) => regAccess o (addr + 4) be v { staged := e } s)

/-! ### The common first page and the captures -/

/-- A write of BLK_LOCK (R57, R60). -/
def execExpertUnlock (o : Origin) (b : Blk) (v : W32) (s : State) : Out := gate s <| busWrite o (pageReg b 0x1C) v {} s

/-- 400,000 ticks without an accepted write to an RWL register close an open block (R60). -/
def execExpertLockTimeout (b : Blk) (s : State) : Out := gate s <|
  .next { s with locks := s.locks.filter (fun k => k.blk != b || decide (s.now < k.last + 400000)) }

/-- A write of BLK_CTL (R51, R52). -/
def execFreezeWrite (o : Origin) (b : Blk) (v : W32) (s : State) : Out := gate s <| busWrite o (pageReg b 0x08) v {} s

/-- The register and bit of a block's CNT_CLEAR (R55). A detector's counters are those of its read channel; SYS, CMD and
TMB have none. -/
def cntClear (b : Blk) (bus : Two) : Option (Nat × Nat) :=
  match b.ty with
  | .rdc => some ((RDC_CTL.at b.ch).base, 0)
  | .det => some ((RDC_CTL.at b.ch).base, 0)
  | .wrc => some ((WRC_CTL.at b.ch).base, 7)
  | .srv => some ((SRV_CTL.at b.ch).base, 1)
  | .mot => some ((MOT_CTL.at b.ch).base, 0)
  | .spn => some ((SPN_CTL.at b.ch).base, 7)
  | .vmb => some ((VMB_CTLx.i bus.val).base, 0)
  | .dcm => some ((DCM_CTL.at b.ch).base, 30)
  | .hlk => some (HLK_CTL.base, 2)
  | .hqe => some (HQE_CTL.base, 0)
  | .map => some (MAP_CTL.base, 1)
  | .mca => some (MCA_CTL.base, 7)
  | .str => some (STR_CTL.base, 0)
  | .sea => some (SEA_CTL.base, 0)
  | .mem => some (MEM_CTL.base, 2)
  | .fls => some (FLS_CTL.base, 0)
  | .cal => some (CAL_CTL.base, 2)
  | .hlt => some (HLT_CTL.base, 1)
  | _ => none

/-- A write of 1 to a block's CNT_CLEAR bit, the other bits rewritten with what they hold (R55). -/
def execCounterClear (o : Origin) (b : Blk) (bus : Two) (s : State) : Out := gate s <|
  match cntClear b bus with
  | none => .next s
  | some (a, k) =>
    let held := match regRow a with
      | some (r, _, _) => s.rd a &&& BitVec.ofNat 32 (r.rw ||| r.rwl)
      | none => 0
    busWrite o a (held ||| BitVec.ofNat 32 (2 ^ k)) {} s

/-- What a function's read of a register is answered with (R44, R64, R403). -/
def answerRead (o : Origin) (b : List Byte) (s : State) : State :=
  match o with
  | .fn f => s.send (.complete f.val b)
  | _ => s

/-- A read of `len` bytes from byte `first` of a register on by an origin: TENANT functions and resetting functions read 0 and change nothing
(R64, R403, R411); a function that does not exist is not answered here. -/
def originRead (o : Origin) (a first len : Nat) (s : State) : State :=
  match o with
  | .fn f =>
    if !fnExists f.val s then s
    else if fnResetting f.val s || !(fnAdmin f s || tenantMayRead f.val a) then
      answerRead o (zeros len) (if fnResetting f.val s then s
        else s.bump (HLK_DCNTp_DENIED_RD.i (fnPort f.val).val) (if first + len ≤ 4 then 1 else 2))
    else
      let (b, t) := busReadBytes o a first len s
      answerRead o b t
  | _ => (busReadBytes o a first len s).2

/-- A read of TMB_TICK_LO captures the tick counter for the origin (R28). -/
def execTickCaptureRead (o : Origin) (first len : Nat) (s : State) : Out := gate s <|
  .next (originRead o TMB_TICK_LO.base first len s)

/-- A read of TMB_TOD_LO captures time of day for the origin (R29). -/
def execTodCaptureRead (o : Origin) (first len : Nat) (s : State) : Out := gate s <|
  .next (originRead o TMB_TOD_LO.base first len s)

/-! ### Writes to one register -/

/-- A write of TMB_TOD_CTL (R26, R30) (R30). -/
def execTodApplyWrite (o : Origin) (v : W32) (s : State) : Out := gate s <|
  busWrite o TMB_TOD_CTL.base v {} s

/-- A write of RDC_EQ_CTL with RESTART (R132). -/
def execEqRestart (o : Origin) (c : Ch) (g : Fin 10) (v : W32) (s : State) : Out := gate s <|
  busWrite o (sigF RDC_EQ_CTL c g.val).base v {} s

/-- A write of WRC_CTL with SAFE_CLR (R223). -/
def execSafeClr (o : Origin) (c : Ch) (v : W32) (s : State) : Out := gate s <|
  busWrite o (WRC_CTL.at c).base v {} s

/-- A write of SRV_CTL with TT_SWAP (R248). -/
def execTtSwap (o : Origin) (c : Ch) (v : W32) (s : State) : Out := gate s <|
  busWrite o (SRV_CTL.at c).base v {} s

/-- A write of LOOP_CTL with SWAP (R259). -/
def execLoopSwap (o : Origin) (c : Ch) (l : Fin 7) (v : W32) (s : State) : Out := gate s <|
  busWrite o ((LOOP_CTL.at c).i l.val).base v {} s

/-- A write of LOOP_CTL with CMD close (R265). -/
def execLoopClose (o : Origin) (c : Ch) (l : Fin 7) (v : W32) (s : State) : Out := gate s <|
  busWrite o ((LOOP_CTL.at c).i l.val).base v {} s

/-- A write of LOOP_CTL with CMD open (R284). -/
def execLoopOpen (o : Origin) (c : Ch) (l : Fin 7) (v : W32) (s : State) : Out := gate s <|
  busWrite o ((LOOP_CTL.at c).i l.val).base v {} s

/-- A write of LOOP_CTL with CMD hold (R284). -/
def execLoopHold (o : Origin) (c : Ch) (l : Fin 7) (v : W32) (s : State) : Out := gate s <|
  busWrite o ((LOOP_CTL.at c).i l.val).base v {} s

/-- A write of LOOP_CTL with CMD release (R284). -/
def execLoopRelease (o : Origin) (c : Ch) (l : Fin 7) (v : W32) (s : State) : Out := gate s <|
  busWrite o ((LOOP_CTL.at c).i l.val).base v {} s

/-- A write of AX_CTL with a MODE (R289). -/
def execAxisModeWrite (o : Origin) (c : Ch) (x : Two) (v : W32) (s : State) : Out := gate s <|
  busWrite o (axF AX_CTL c x).base v {} s

/-- A write of AX_CTL with a DIR_INV (R290). -/
def execDirInvWrite (o : Origin) (c : Ch) (x : Two) (v : W32) (s : State) : Out := gate s <|
  busWrite o (axF AX_CTL c x).base v {} s

/-- A write of AX_QCMD (R300). -/
def execAxisPush (o : Origin) (c : Ch) (x : Two) (v : W32) (s : State) : Out := gate s <|
  busWrite o (axF AX_QCMD c x).base v {} s

/-- A write of AX_CTL with ABORT (R303). -/
def execAxisAbort (o : Origin) (c : Ch) (x : Two) (v : W32) (s : State) : Out := gate s <|
  busWrite o (axF AX_CTL c x).base v {} s

/-- A write of AX_CTL with MODE 3 (R307). -/
def execHomingStart (o : Origin) (c : Ch) (x : Two) (v : W32) (s : State) : Out := gate s <|
  busWrite o (axF AX_CTL c x).base v {} s

/-- A write of MOT_SEEK (R311). -/
def execSeekGo (o : Origin) (c : Ch) (v : W32) (s : State) : Out := gate s <|
  busWrite o (MOT_SEEK.at c).base v {} s

/-- A write of SPN_CTL with CMD start (R340). -/
def execSpindleStart (o : Origin) (c : Ch) (v : W32) (s : State) : Out := gate s <|
  busWrite o (SPN_CTL.at c).base v {} s

/-- A write of SPN_CTL with CMD brake (R355). -/
def execSpindleBrake (o : Origin) (c : Ch) (v : W32) (s : State) : Out := gate s <|
  busWrite o (SPN_CTL.at c).base v {} s

/-- A write of SPN_CTL with CMD coast (R367). -/
def execSpindleCoast (o : Origin) (c : Ch) (v : W32) (s : State) : Out := gate s <|
  busWrite o (SPN_CTL.at c).base v {} s

/-- A write of DCM_CTL that requests a mode (R373). -/
def execModeRequest (o : Origin) (c : Ch) (v : W32) (s : State) : Out := gate s <|
  busWrite o (DCM_CTL.at c).base v {} s

/-- A write of DCM_TGT (R373). -/
def execTargetWrite (o : Origin) (c : Ch) (v : W32) (s : State) : Out := gate s <|
  busWrite o (DCM_TGT.at c).base v {} s

/-- A write of DCM_CTL that requests a profile (R387). -/
def execProfileRequest (o : Origin) (c : Ch) (v : W32) (s : State) : Out := gate s <|
  busWrite o (DCM_CTL.at c).base v {} s

/-- A write of DCM_CTL with STOP_CLR (R379). -/
def execStopClr (o : Origin) (c : Ch) (v : W32) (s : State) : Out := gate s <|
  busWrite o (DCM_CTL.at c).base v {} s

/-- A write of DCM_ALLOW (R389). -/
def execAllowWrite (o : Origin) (c : Ch) (v : W32) (s : State) : Out := gate s <|
  busWrite o (DCM_ALLOW.at c).base v {} s

/-- A write of VMB_CTL of a bus (R362). -/
def execChopClr (o : Origin) (b : Two) (v : W32) (s : State) : Out := gate s <|
  busWrite o (VMB_CTLx.i b.val).base v {} s

/-- A write of HLK_CTL (R422). -/
def execCfgReadyWrite (o : Origin) (v : W32) (s : State) : Out := gate s <|
  busWrite o HLK_CTL.base v {} s

/-- A write of HQE_FRINGf (R425). -/
def execRingAssignWrite (o : Origin) (f : Fn) (v : W32) (s : State) : Out := gate s <|
  busWrite o (HQE_FRINGf.i f.val).base v {} s

/-- A write of RC_CTL with ENABLE (R428). -/
def execRingEnable (o : Origin) (g : Nat) (v : W32) (s : State) : Out := gate s <|
  busWrite o (ringAddr o g (RC_CTL.base % 64) s) v {} s

/-- A write of RC_CTL with SHUTDOWN (R452). -/
def execRingShutdown (o : Origin) (g : Nat) (v : W32) (s : State) : Out := gate s <|
  busWrite o (ringAddr o g (RC_CTL.base % 64) s) v {} s

/-- A write of RC_EVQ_LO (R459). -/
def execEvqEnable (o : Origin) (g : Nat) (v : W32) (s : State) : Out := gate s <|
  busWrite o (ringAddr o g (RC_EVQ_LO.base % 64) s) v {} s

/-- A write of MCA_OP with OP 1 (R535). -/
def execMcaPreload (o : Origin) (v : W32) (s : State) : Out := gate s <|
  busWrite o MCA_OP.base v {} s

/-- A write of MCA_OP with OP 2 (R534). -/
def execMcaInvalidate (o : Origin) (v : W32) (s : State) : Out := gate s <|
  busWrite o MCA_OP.base v {} s

/-- A write of MCA_OP with OP 3 (R530). -/
def execMcaWriteback (o : Origin) (v : W32) (s : State) : Out := gate s <|
  busWrite o MCA_OP.base v {} s

/-- A write of MCA_WAY (R535). -/
def execMcaLockWrite (o : Origin) (v : W32) (s : State) : Out := gate s <|
  busWrite o MCA_WAY.base v {} s

/-- A write of SEA_INJ (R582). -/
def execSealInjectArm (o : Origin) (v : W32) (s : State) : Out := gate s <|
  busWrite o SEA_INJ.base v {} s

/-- A write of MEM_REMAPk (R600). -/
def execRemapWrite (o : Origin) (k : Fin 16) (v : W32) (s : State) : Out := gate s <|
  busWrite o (MEM_REMAPk.i k.val).base v {} s

/-- A write of MEM_SRAM_MODE (R606). -/
def execSramModeWrite (o : Origin) (hi : Bool) (v : W32) (s : State) : Out := gate s <|
  busWrite o (if hi then MEM_SRAM_MODE_HI.base else MEM_SRAM_MODE_LO.base) v {} s

/-- A write of MEM_REPAIR (R606). -/
def execSramSeal (o : Origin) (v : W32) (s : State) : Out := gate s <|
  busWrite o MEM_REPAIR.base v {} s

/-- A write of MEM_SRAM_INJ (R608). -/
def execSramInjectArm (o : Origin) (v : W32) (s : State) : Out := gate s <|
  busWrite o MEM_SRAM_INJ.base v {} s

/-- A write of MEM_TCMD with CMD 1 (R607). -/
def execTestRawRead (o : Origin) (v : W32) (s : State) : Out := gate s <|
  busWrite o MEM_TCMD.base v {} s

/-- A write of MEM_TCMD with CMD 2 (R607). -/
def execTestRawWrite (o : Origin) (v : W32) (s : State) : Out := gate s <|
  busWrite o MEM_TCMD.base v {} s

/-- A write of MEM_TCMD with CMD 3 (R607). -/
def execTestEncodedWrite (o : Origin) (v : W32) (s : State) : Out := gate s <|
  busWrite o MEM_TCMD.base v {} s

/-- A write of FLS_CMDb that reads (R619). -/
def execFlashRead (o : Origin) (b : Two) (v : W32) (err : List Nat) (s : State) : Out := gate s <|
  busWrite o (FLS_CMDb.i b.val).base v { err := err } s

/-- A write of FLS_CMDb: program (R621). -/
def execFlashProgram (o : Origin) (b : Two) (v : W32) (s : State) : Out := gate s <|
  busWrite o (FLS_CMDb.i b.val).base v {} s

/-- A write of FLS_CMDb: erase (R624). -/
def execFlashErase (o : Origin) (b : Two) (v : W32) (s : State) : Out := gate s <|
  busWrite o (FLS_CMDb.i b.val).base v {} s

/-- A write of FLS_CMDb: suspend (R626). -/
def execFlashSuspend (o : Origin) (b : Two) (v : W32) (s : State) : Out := gate s <|
  busWrite o (FLS_CMDb.i b.val).base v {} s

/-- A write of FLS_CMDb: resume (R623). -/
def execFlashResume (o : Origin) (b : Two) (v : W32) (s : State) : Out := gate s <|
  busWrite o (FLS_CMDb.i b.val).base v {} s

/-- A write of FLS_DIVERT (R630). -/
def execFetchDivertWrite (o : Origin) (v : W32) (s : State) : Out := gate s <|
  busWrite o FLS_DIVERT.base v {} s

/-- A write of HLT_CLR (R693). -/
def execHltClr (o : Origin) (v : W32) (s : State) : Out := gate s <|
  busWrite o HLT_CLR.base v {} s

/-- A write of HLT_CTL with LOG_EN (R751). -/
def execLogEnable (o : Origin) (v : W32) (area : LogArea) (s : State) : Out := gate s <|
  busWrite o HLT_CTL.base v { area := area } s

/-- A write of TMB_TRIG (R710). -/
def execTrigWrite (o : Origin) (v : W32) (snip : List Byte) (s : State) : Out := gate s <|
  busWrite o TMB_TRIG.base v { snip := some snip } s

/-- A write of TMB_REPLAY (R711). -/
def execReplayPrep (o : Origin) (v : W32) (s : State) : Out := gate s <|
  busWrite o TMB_REPLAY.base v {} s

end Sys2Proof.Machine
end

