-- ==== Sys2Proof/Machine/Boot.lean ====
section
/-! DEFINITION. Chip reset and the start (R625, R638–R640, R671, R685, R739–R742), the I²C sideband (R715) and the
boundary-scan port (R745, R746). -/

namespace Sys2Proof.Machine

open Reg

/-! ### What chip reset leaves (R66) -/

/-- The flash at chip reset: words, flag cells and what the system records hold stay; a word whose program is cut short
holds what the free value says (log 40). -/
def flsReset (now : Nat) (f : Fls) : Fls :=
  let cut := f.banks.toList.filterMap (·.prog)
  { words := cut.foldl (fun l (p : Nat × Nat) => keySet p.1 (Config.flashBad p.1 now % 2 ^ 128) l) f.words
    flags := f.flags, subsys := f.subsys, writer := f.writer, remaps := f.remaps }

/-- The stripe engine at chip reset: the Welt journal, the counts and the lost-stripe list stand in flash (R563, R575). -/
def strReset (t : Str) : Str :=
  { welt := t.welt, nextW := t.nextW, discCount := t.discCount, setCount := t.setCount, lost := t.lost }

/-- What chip reset leaves, but for the registers that show what flash and fuses hold: nothing is kept but what stands in
flash and fuses, the levels of the pins, and the commands that wait at the part's door (R66). -/
def resetCore (s : State) : State :=
  { State.reset with
    fls := flsReset s.now s.fls, str := strReset s.str
    map := { jrnl := s.map.jrnl, base := s.map.base }
    hlt := { persisted := s.hlt.persisted, logFirst := s.hlt.logFirst }
    writer := s.writer, straps := s.straps
    pwr := { pwrfailLow := s.pwr.pwrfailLow }
    pins := { inReset := true, porst := s.pins.porst, low := s.pins.low
              jtagData := s.pins.jtagData, jtagStat := s.pins.jtagStat, cells := s.pins.cells }
    pending := s.pending }

/-- Chip reset (R66): every register takes its reset value and every block closes; SEC_MIN, the count of lost stripes and
the Welt use show what fuses and flash hold. -/
def chipReset (s : State) : State :=
  (((resetCore s).wr FLS_SECMIN.base (s.rd FLS_SECMIN.base)).put STR_LOST_ENTRIES s.str.lost.length).put
    STR_STAT_WELT_PCT (weltUsed s.str.welt * 100 / 32)

/-- Changes the state of the pins. -/
def State.onPins (s : State) (f : Pins → Pins) : State := { s with pins := f s.pins }

/-- Chip reset is released: the straps are sampled and the tick counter starts at 0 (R23, R742). -/
def release (t : Straps) (s : State) : State :=
  { s with straps := t, tb := { s.tb with tick := 0 }, pins := { s.pins with inReset := false } }

/-- PORST_ASSERT (R739). -/
def execPorstAssert (s : State) : Out := .next ((chipReset s).onPins (fun p => { p with porst := true }))

/-- CHIP_RESET_RELEASE (R742): the part stays in reset while a supply is low (R740). -/
def execChipResetRelease (t : Straps) (s : State) : Out :=
  .next (if !s.pins.inReset then s
    else
      let s := s.onPins (fun p => { p with porst := false })
      if s.pins.low then s else release t s)

/-- SUPPLY_LOW (R740). -/
def execSupplyLow (s : State) : Out := .next ((chipReset s).onPins (fun p => { p with low := true }))

/-- SUPPLY_RESTORED (R740): the part stays in reset while PORST_N holds it (R739). -/
def execSupplyRestored (t : Straps) (s : State) : Out :=
  .next (if !s.pins.inReset then s
    else
      let s := s.onPins (fun p => { p with low := false })
      if s.pins.porst then s else release t s)

/-! ### The start of the cores (R586, R592, R625, R638–R640) -/

/-- The resident firmware puts a register write into the place the register's block gives it, its block opened for it (log 120). -/
def fwWrite (a : Nat) (v : W32) (s : State) : State :=
  match calTrim a with
  | some (c, k) => s.expertAt (.core 0) a s.now true (stageTrim c k ⟨a, v, .core 0⟩)
  | none => match blkOf a with
    | some b => if blkIsChannel b.ty then s.stageReg b.ch ⟨a, v, .core 0⟩ else s.seqWrite (.core 0) a v.toNat
    | none => s

/-- The newest MAIN record's section of a channel is taken: its register values are written, its results kept (R666, R685). -/
def mainRestore (l : List Byte) (c : Ch) (s : State) : State :=
  let b := sectionOf c l
  let vals := sectionValues c b ++ [({ DCM_ALLOW.at c with hi := 1 }, field b 108 1)]
  let s := (fieldWrites vals s).foldl (fun s p => fwWrite p.1 (BitVec.ofNat 32 p.2) s) s
  showResults c (s.onCalCh c (sectionKeep b))

/-- The newest TABLE record of a channel is taken (R668, R685). -/
def tableRestore (l : List Byte) (c : Ch) (s : State) : State :=
  let s := s.onCalCh c (fun k => { k with layers := layersOf l, tables := tablesOf l })
  (layersOf l).zipIdx.foldl (fun s (v, n) => fwWrite ((SRV_LAYERn.at c).i n).base v s) s

/-- The calibration area is read and written back, a missing copy first (R671, R685). -/
def calRestore (s : State) : State :=
  let s := calRepair s
  let s := match newestRec (1, 255) s with
    | none => ((s.putb CAL_STAT_CAL_LOST true).raise calBlk 4).fault 31 0 calBlk
    | some r => s.each allCh (fun s c => mainRestore r.payload c s)
        |>.onCal (fun k => { k with vref := field r.payload 0 4, iref := field r.payload 4 4 })
  s.each allCh (fun s c => match newestRec (2, c.val) s with
    | none => s
    | some r => tableRestore r.payload c s)

/-- The default Timetable (R249): start, end, routine, loop, rate, phase. -/
def defaultTt : List (Nat × Nat × Nat × Nat × Nat × Nat) :=
  [(0, 200, 1, 0, 0, 0), (200, 360, 4, 0, 0, 0), (360, 720, 2, 0, 0, 0), (720, 1080, 2, 1, 0, 0), (1080, 1200, 3, 0, 0, 0),
   (1200, 1560, 2, 2, 2, 0), (1200, 1560, 2, 3, 2, 4), (1200, 1560, 2, 4, 2, 8), (1200, 1560, 2, 6, 2, 12),
   (1200, 1560, 2, 5, 3, 2), (1560, 1640, 5, 0, 0, 0), (1640, 1740, 6, 0, 0, 0)]

/-- The resident firmware loads the default Timetable into a channel's shadow copy and requests the swap (R248, R249). -/
def loadTimetable (c : Ch) (s : State) : State :=
  s.expert (.core 0) ⟨.srv, c⟩ (fun s =>
    let s := s.each defaultTt.zipIdx (fun s ((start, stop, routine, loop, rate, phase), k) =>
      let s := s.stageReg c ⟨((TT_S0.at c).i k).base, BitVec.ofNat 32 (start + stop * 2 ^ 16), .core 0⟩
      s.stageReg c ⟨((TT_S1.at c).i k).base,
        BitVec.ofNat 32 (2 ^ 31 + phase * 2 ^ 16 + rate * 2 ^ 8 + loop * 2 ^ 4 + routine), .core 0⟩)
    s.stageReg c ⟨(SRV_CTL.at c).base, 1, .core 0⟩)

/-- The event log entries of the start (R625, R639). -/
def startEvents (x : Nat) (s : State) : State :=
  let s := s.each (List.range 16) (fun s k =>
    if s.getb (FLS_UNFINk_VALID.i k) then s.logEvent (.flashUnfinished (s.get (FLS_UNFINk_SECTOR.i k))) else s)
  if s.getb FLS_STAT_FALLBACK then s.logEvent (.fwStart x true (imageVersion x s)) else s

/-- The newest entries of the three logs that flash held at chip start, as many as each DRAM ring takes (R703, R751). -/
def storedLogs (s : State) : LogArea :=
  let l := s.hlt.persisted.take (s.hlt.persisted.length - s.hlt.early)
  let viol := fun (p : Nat) => l.filterMap (fun e => match e with
    | .viol i x => if x.fn.val / 32 = p then some (i, x) else none
    | _ => none)
  { change := newest 65536 (l.filterMap (fun e => match e with
      | .change i x => some (i, x)
      | _ => none))
    event := newest 16384 (l.filterMap (fun e => match e with
      | .event i x => some (i, x)
      | _ => none))
    viol0 := newest 1024 (viol 0), viol1 := newest 1024 (viol 1) }
where
  /-- The last `n` of a list. -/
  newest {α : Type} (n : Nat) (l : List α) : List α := l.drop (l.length - n)

/-- The resident firmware writes the stored entries into the DRAM rings, notes how many, and sets LOG_EN (R751). LOG_BASE keeps
its value (log 154). -/
def logsRestore (s : State) : State :=
  if !s.getb MEM_STAT_FILL_DONE || s.getb HLT_CTL_LOG_EN then s
  else
    let a := storedLogs s
    let s := [a.change.length, a.event.length, a.viol0.length, a.viol1.length].zipIdx.foldl (fun s (n, l) =>
      s.seqWrite (.core 0) (HLT_LOG_REST.i l).base n) s
    joinLogs a (s.seqPut (.core 0) HLT_CTL_LOG_EN 1)

/-- The resident firmware sets CFG_READY of both ports, which take HLK_SUBSYS, once the fill has ended (R396, R422). -/
def portsReady (s : State) : State :=
  if s.getb MEM_STAT_FILL_DONE then
    let old := s.get HLK_CTL
    let s := s.seqWrite (.core 0) HLK_CTL.base 3
    let s := if bitOf 0 old then s else takeSubsys 0 s
    if bitOf 1 old then s else takeSubsys 1 s
  else s

/-- CORE_RELEASE (R638, R640): once the images are checked and the fill has ended or training has failed. SEC_MIN is raised
first; then the resident firmware starts, as one event. Cores that restart resume with the same image (R40, R603, R616). -/
def execCoreRelease (s : State) : Out := gate s <|
  .next (match s.fls.start with
    | none => s
    | some x =>
      if s.getb HLT_SB_CORES_RUN then
        (if s.host.act.any (·.settled) then s else s.onFls (fun k => { k with coreGap := false }))
      else if !s.fls.checked || !(s.getb MEM_STAT_FILL_DONE || s.get MEM_STAT_TRAIN_FAIL != 0) then s
      else
        let s := s.put FLS_SECMIN_SEC_MIN (max (s.get FLS_SECMIN_SEC_MIN) (imageSecVer x s))
        let s := startEvents x (s.putb HLT_SB_CORES_RUN true)
        let s := if s.fls.subsys = 0 then s else s.seqWrite (.core 0) HLK_SUBSYS.base s.fls.subsys.toNat
        portsReady <| remapRestore (calRestore (s.each allCh (fun s c => loadTimetable c s)) |> logsRestore))

/-! ### The I²C sideband (R715) -/

/-- SIDEBAND_READY (R715, R742): 10 ms after the release. -/
def execSidebandReady (s : State) : Out := gate s <|
  .next (if 4000 ≤ s.now then s.onPins (fun p => { p with sbReady := true }) else s)

/-- Sets the register pointer, and reads the register at once (R715). -/
def sbPoint (a : Nat) (s : State) : State :=
  let a := a % 2 ^ 32 / 4 * 4
  let (v, s) := busRead .i2c a s
  s.onPins (fun p => { p with sbPtr := a, sbVal := v })

/-- I2C_POINTER_WRITE (R715). -/
def execI2cPointerWrite (addr : W32) (s : State) : Out := gate s <| .next (if s.pins.sbReady then sbPoint addr.toNat s else s)

/-- I2C_REGISTER_WRITE (R64, R715). -/
def execI2cRegisterWrite (addr v : W32) (e : FetchEnd) (s : State) : Out := gate s <|
  .next (if s.pins.sbReady then
      let a := addr.toNat / 4 * 4
      sbPoint (a + 4) (regAccess .i2c a 0xF v { staged := e } s)
    else s)

/-- The words of a sideband read of `n` registers (R715). -/
def sbReads : Nat → State → List W32 × State
  | 0, s => ([], s)
  | n + 1, s =>
    let v := s.pins.sbVal
    let (l, t) := sbReads n (sbPoint (s.pins.sbPtr + 4) s)
    (v :: l, t)

/-- I2C_READ (R715). -/
def execI2cRead (n : Nat) (s : State) : Out := gate s <|
  .next (if s.pins.sbReady then
      let (l, s) := sbReads n s
      s.send (.sideband l)
    else s)

/-- I2C_BUS_RESET (R715). -/
def execI2cBusReset (s : State) : Out := gate s <| .next (s.onPins (fun p => { p with sbPtr := 0, sbVal := 0 }))

/-! ### The boundary-scan port (R745, R746) -/

/-- JTAG_REGACC (R746): the scan shifts out the outcome of the access before; the access of this Update-DR runs. -/
def execJtagRegacc (write : Bool) (addr : Nat) (data : W32) (e : FetchEnd) (s : State) : Out := gate s <|
  let a := addr % 2 ^ 24 * 4
  let s := s.send (.jtag 64 (s.pins.jtagData.toNat * 2 ^ 32 + s.pins.jtagStat))
  .next (if write then
      let st := if writeRefused .jtag a s then 2 else 0
      (regAccess .jtag a 0xF data { staged := e } s).onPins (fun p => { p with jtagData := data, jtagStat := st })
    else
      let (v, s) := busRead .jtag a s
      s.onPins (fun p => { p with jtagData := v, jtagStat := 0 }))

/-- JTAG_EXTEST (R746): the boundary cells drive the balls, and the channels stop as on a timebase loss. -/
def execJtagExtest (load : List Bool) (s : State) : Out :=
  .next (
    let on := s.pins.extest
    let s := s.onPins (fun p => { p with extest := true, cells := load })
    if on then s else s.each allCh (fun s c => timebaseChan c s))

/-- JTAG_SAMPLE_PRELOAD (R745). -/
def execJtagSamplePreload (sample load : List Bool) (s : State) : Out :=
  .next ((s.send (.jtag sample.length (bitList sample))).onPins (fun p => { p with cells := load }))

/-- JTAG_IDCODE (R745). -/
def execJtagIdcode (s : State) : Out := .next (s.send (.jtag 32 0x06848001))

/-- JTAG_BYPASS (R745). -/
def execJtagBypass (s : State) : Out := .next (s.send (.jtag 1 0))

end Sys2Proof.Machine
end

