-- ==== Sys2Proof/Machine/Tick.lean ====
section
/-! DEFINITION. The tick boundary (R15–R27, R124, R279, R365, R653–R655, R707, R712–R714) and the wedge boundary (R124). -/

namespace Sys2Proof.Machine

open Reg

/-! ### Staged writes at a boundary (R18, R124, R369, R655) -/

/-- Does a write released from the latch wait for the wedge boundary (R124, R653)? -/
def waitsWedge (w : Staged) : Bool :=
  (match blkOf w.addr with
    | some b => b.ty == .rdc || b.ty == .det
    | none => false) ||
  (match calTrim w.addr with
    | some (_, .wedge) => true
    | _ => false)

/-- Does a write released from the latch wait for IDLE_TRACK or PARKED (R369)? -/
def waitsIdle (c : Ch) (w : Staged) : Bool := w.addr == (SPN_TRIM.at c).base

/-- The staged writes of a channel at a tick boundary: those of RDC, DET and the RF trims wait for the wedge boundary
while the wobble PLL is locked, SPN_TRIM waits for its modes, and the others take effect (R18, R124, R369, R655). -/
def stageBoundary (c : Ch) (s : State) : State :=
  let k := s.chan c
  let l := k.stage
  let locked := k.srv.pllLocked && s.mode c != mREPLAY
  let here := if locked then l.filter (fun w => !waitsWedge w && !waitsIdle c w)
    else k.rdc.pend ++ l.filter (fun w => !waitsIdle c w)
  let s := s.onChan c (fun k => { k with
    stage := []
    rdc := { k.rdc with pend := if locked then k.rdc.pend ++ l.filter waitsWedge else [] }
    dcm := { k.dcm with trimPend := k.dcm.trimPend ++ l.filter (waitsIdle c) } })
  applyStaged here s

/-- The trims that wait for IDLE_TRACK or PARKED (R369, R653). -/
def idleTrims (c : Ch) (s : State) : State :=
  if s.mode c = mIDLE ∨ s.mode c = mPARKED then
    applyStaged (s.chan c).dcm.trimPend (s.onDcm c (fun d => { d with trimPend := [] }))
  else s

/-- Cycle 0 of a tick for the DACs of the actuators: the outputs of the tick before reach them; in OFF, PARKED and REPLAY
every code is 0 (R17, R21, R233). They stand still once the timebase is lost (R33) or under EXTEST (R746). -/
def dacBoundary (c : Ch) (s : State) : State :=
  if s.halted then s
  else if s.mode c = mOFF ∨ s.mode c = mPARKED ∨ s.mode c = mREPLAY then s.onSrv c (fun v => { v with dac := [0, 0, 0, 0] })
  else s.onSrv c (fun v => { v with dac := v.out })

/-- A channel without inputs. -/
def noInput : ChIn := ⟨List.replicate 10 0, false, false, none, 0, false, false, false⟩

/-- The inputs latched at cycle 0: into the registers, and for the recorder (R17, R230, R707). -/
def latchTick (c : Ch) (i : ChIn) (vm : Nat) (s : State) : State :=
  let s := latchInputs c i.servo s
  s.onAcc c (fun a => { a with servo := i.servo, shunt := i.shunt, vm := vm % 4096, freq := (s.chan c).srv.pllFreq })

/-- The work of the engines of a channel in tick `n`, with the VM code and the shunt code (R17, R20). -/
def engineTick (c : Ch) (n vm : Nat) (i : ChIn) (s : State) : State :=
  let s := spindleTick c (Config.vmMilli (vm % 4096)) i.shunt s
  motionTick c n (seqTick c n (servoTick c n s))

/-- The spindle leaves ±0.1 % of its speed while a tile slot is written (R195 cause 5). -/
def speedLeft (before : Bool) (c : Ch) (s : State) : State :=
  if before && !s.getb (SRV_STAT_SPEED_OK.at c) && (s.chan c).wrc.writing.isSome && (s.chan c).wrc.abortPend.isNone then
    abortWrite c 5 s
  else s

/-- The first tick of a running spindle in SPIN_UP (R378 cause 3). -/
def runStart (c : Ch) (s : State) : State :=
  if s.mode c = mSPINUP ∧ (spnSt c s = 4 ∨ spnSt c s = 5) ∧ (s.chan c).dcm.runTick.isNone then
    s.onDcm c (fun d => { d with runTick := some s.now })
  else s

/-! ### A replayed tick (R279, R365, R712–R714) -/

/-- The address of a recorded change in the replaying channel (R712). -/
def relocated (c : Ch) (a : Nat) : Nat := match blkOf a with
  | some b => a - chBase b.ch + chBase c
  | none => a

/-- Applies a recorded change to the replaying channel: it is stored by the access codes and starts what it starts. It is
no access of the register bus, and enters no log (R712). -/
def replayChange (c : Ch) (a : Nat) (v : W32) (s : State) : State :=
  let a := relocated c a
  match regRow a with
  | none => s
  | some (r, _, _) =>
    if ruleRefuses a v s then s
    else
      let old := s.rd a
      let acts := BitVec.ofNat 32 r.w1s &&& ~~~(stickyBits a)
      let new := BitVec.ofNat 32 (mergeWrite r old.toNat (v &&& ~~~acts).toNat)
      writeEffect (.seqr (some c) 0x06) a old v {} s (s.wr a new)

/-- The recorded stop of the bus reaches the spindle (R359, R363, R365). -/
def replayBus (c : Ch) (stop : Bool) (s : State) : State :=
  if stop ∧ spnSt c s ≠ 11 then busStopSpindle c true s
  else if !stop ∧ spnSt c s = 11 then busFreeSpindle c s
  else s

/-- The recorded current limit ends the vector of the tick (R327, R365): before cycle 960 unless the next frame has a
sample. The cycle is a free value (log 55). -/
def replayLimit (c : Ch) (f : RFrame) (next : Option RFrame) (s : State) : State :=
  let ta := (s.chan c).spn.pat.ta
  if f.ilim ∧ 0 < ta then
    let k := Config.replayCut f.tick
    let sampled := match next with
      | some g => g.sample
      | none => false
    s.onSpn c (fun v => { v with cut := some (min (ta - 1) (if sampled then max 960 k else min 959 k)) })
  else s

/-- What the recording notes of the tick beside its inputs: the edges, the limit, NEG_CLAMP, the bus, and the events of
the read channel that reach the servo engine (R272, R365, R707). -/
def replayNotes (c : Ch) (f : RFrame) (next : Option RFrame) (s : State) : State :=
  let s := s.each ((List.finRange 3).zip f.edges) (fun s (p, e) => match e with
    | some (lvl, cyc) => stateOf s (execBemfEdge c p lvl cyc s)
    | none => s)
  let s := replayBus c f.busStop (replayLimit c f next s)
  let s := if f.negClamp ∧ !s.getb (SPN_STAT_NEG_CLAMP.at c) then chopperClamp c s
    else s.putb (SPN_STAT_NEG_CLAMP.at c) f.negClamp
  let s := s.onSrv c (fun v => { v with pllLocked := f.pll, slipSeen := v.slipSeen || f.armFail || f.unexpected })
  if f.readStop then detectBeam c s else s

/-- The events of the engines of a channel that a tick can bring, judged in order (R712: the engines compute as in the
recording). -/
def engineEvents (c : Ch) (s : State) : State :=
  let evs : List (State → Out) :=
    [execHoldResume c, execFocusCapture c, execFocusSweepEnd c, execTrackCapture c, execAcquireAddressTimeout c,
     execLayerJumpCorrectorDone c, execLayerJumpProfileEnd c, execLayerJumpCaptureTimeout c, execFocusDrop c,
     execServoBeamLoss c, execTrackSlip c, execOneBeamEnd c, execRecoveryAttemptTimeout c, execRecoveryDone c,
     execSeekCountTimeout c, execStartWatchTimeout c, execProbeEnd c, execStartTimeout c, execStartPauseEnd c,
     execSixStepCommutation c, execCommutationLost c, execCatchCoastEnd c, execCatchTimeout c, execShortV0Start c,
     execSpindleStopped c]
  let s := evs.foldl (fun s f => stateOf s (f s)) s
  (s.chan c).srv.cuts.foldl (fun s _ => stateOf s (execRoutineOverrun c s)) s

/-- One replayed tick with frame `f` (R712): every rule that depends on the tick number uses the frame's tick. -/
def replayFrame (c : Ch) (f : RFrame) (next : Option RFrame) (s : State) : State :=
  let real := s.tb.tick
  let s : State := { s with tb := { s.tb with tick := f.tick }, rcd := { s.rcd with live := true } }
  let s := if s.getb (SRV_STAT_TT_PEND.at c) ∧ f.tick % 64 = 0 then ttSwapNow c s else s
  let s := f.changes.foldl (fun s (a, v, _) => replayChange c a v s) s
  let s := s.onSrv c (fun v => { v with pllFreq := f.freq })
  let i : ChIn := ⟨f.servo, false, false, if f.sample then some f.shunt else none, 0, false, false, false⟩
  let s := engineTick c f.tick f.vm i (latchTick c i f.vm s)
  let s := engineEvents c (replayNotes c f next s)
  let d := frameDiff c f s
  let s := if d = 0 then s else replayMiss f.tick d s
  let s := s.bump TMB_REPLAY_CNT_FRAMES 1
  { s with tb := { s.tb with tick := real }, rcd := { s.rcd with live := false } }

/-- A tick of a channel in REPLAY (R712, R713): the next frame, or none when it has not arrived. -/
def replayTick (c : Ch) (late : Bool) (s : State) : State :=
  match s.rcd.replay with
  | [] => s
  | f :: rest =>
    if late then s.bump TMB_REPLAY_CNT_STALLS 1
    else replayFrame c f rest.head? (s.onRcd (fun r => { r with replay := rest }))

/-! ### The tick -/

/-- The tick counter and time of day at a boundary (R23–R27). -/
def clockTick (s : State) : State :=
  let s : State := { s with tb := { s.tb with tick := s.tb.tick + 1 } }
  match s.tb.todStaged with
  | none => { s with tb := { s.tb with tod := (s.tb.tod + 2500) % 2 ^ 64 } }
  | some v =>
    let old := s.tb.tod
    let s : State := { s with tb := { s.tb with tod := v % 2 ^ 64, todStaged := none } }
    (s.putb TMB_TOD_CTL_TOD_VALID true).logEvent (.timeSet old v)

/-- A channel at a tick boundary, up to its inputs (R17, R22). -/
def chanBoundary (s : State) (c : Ch) : State :=
  dacBoundary c (abortBoundary c (showTrim c (idleTrims c (stageBoundary c s))))

/-- The work of a channel in a tick. -/
def chanWork (i : TickIn) (s : State) (c : Ch) : State :=
  let x := i.chans.getD c.val noInput
  let s := bufferTick c x.filled (axisBoundary c 1 x.homeSac (axisBoundary c 0 x.homeSled s))
  if s.mode c = mREPLAY then replayTick c x.late s
  else
    let vm := if busOf c = 0 then i.vmA else i.vmB
    let ok := s.getb (SRV_STAT_SPEED_OK.at c)
    let s := seekResume c (ladderTick c x.wedge s)
    runStart c (speedLeft ok c (engineTick c s.now vm x (latchTick c x vm s)))

/-- Does a channel serve a command (R678)? -/
def chanUsed (c : Ch) (s : State) : Bool :=
  let k := s.chan c
  !k.rdc.wanted.isEmpty || k.rdc.tile.isSome || !k.rdc.outBuf.isEmpty || !k.wrc.bufs.isEmpty || k.wrc.writing.isSome ||
    !k.wrc.judging.isEmpty

/-- A channel at the end of the tick's work: what it no longer needs is dropped, and its last use is noted (R14, R678). -/
def chanAfter (s : State) (c : Ch) : State :=
  let s := pruneReads c s
  if chanUsed c s then s.onDcm c (fun d => { d with usedTick := s.now }) else s

/-- TICK up to the count: the frames of the tick that ends are captured, and the VM buses are sampled (R17, R358, R707). -/
def tickBefore (i : TickIn) (s : State) : State :=
  let s := recStarted (recTick (i.chans.map (·.drained)) s)
  busTick 1 (Config.vmMilli (i.vmB % 4096)) (busTick 0 (Config.vmMilli (i.vmA % 4096)) s)

/-- The log records stored since the last tick count as programmed, three words each, and their sector erases (R648, R703). -/
def logsCounted (s : State) : State :=
  if s.hlt.owed = 0 then s
  else ((s.bump FLS_CNT_OPS_PROGRAMS (3 * s.hlt.owed)).bump FLS_CNT_OPS_ERASES s.hlt.owedErases).onHlt
    (fun h => { h with owed := 0, owedErases := 0 })

/-- TICK after the count: the boundary and the work of the tick that begins (R17, R22). -/
def tickAfter (i : TickIn) (s : State) : State :=
  let s := (powerBoundary s).each allCh chanBoundary
  logsCounted <| scrubJudge (vlogFlush <| (serveChannels (s.each allCh (chanWork i))).each allCh chanAfter)

/-- TICK (R17). -/
def execTick (i : TickIn) (s : State) : Out := gate s <| .next (tickAfter i (clockTick (tickBefore i s)))

/-! ### The wedge boundary -/

/-- WEDGE_BOUNDARY (R124, R126, R127, R140): without a locked wobble PLL no write waits for it (R655). DEDUCED: while the synthesiser
holds its frequency the wedges are still counted, since reading continues through up to 4 of them (R137; log 143). There is none in
REPLAY, where the disc does not turn. -/
def execWedgeBoundary (c : Ch) (sigs : List SigWedge) (s : State) : Out := gate s <|
  let v := (s.chan c).srv
  .next (if !(v.pllLocked || v.holdover.any (fun n => decide (0 < n))) || s.mode c == mREPLAY then s
    else
      let (l, s) := wedgeWrites c s
      showTrim c (wedgeBoundaryRest c sigs (applyStaged l s)))

end Sys2Proof.Machine
end

