-- ==== Sys2Proof/Machine/Dispatch.lean ====
section
/-! DEFINITION. The dispatch: one arm per command. -/

namespace Sys2Proof.Machine

/-- The effect of a command on everything but the queue. -/
def exec (i : Instr) (s : State) : Host.Outcome State Fault Refusal :=
  match i with
  | .tick inp => Sys2Proof.Machine.execTick inp s
  | .routineOverrun c => Sys2Proof.Machine.execRoutineOverrun c s
  | .holdDelayExpiry c x => Sys2Proof.Machine.execHoldDelayExpiry c x s
  | .tickCaptureRead o first len => Sys2Proof.Machine.execTickCaptureRead o first len s
  | .todCaptureRead o first len => Sys2Proof.Machine.execTodCaptureRead o first len s
  | .todApplyWrite o v => Sys2Proof.Machine.execTodApplyWrite o v s
  | .registerWrite o addr be v high e => Sys2Proof.Machine.execRegisterWrite o addr be v high e s
  | .expertUnlock o b v => Sys2Proof.Machine.execExpertUnlock o b v s
  | .expertLockTimeout b => Sys2Proof.Machine.execExpertLockTimeout b s
  | .freezeWrite o b v => Sys2Proof.Machine.execFreezeWrite o b v s
  | .counterClear o b bus => Sys2Proof.Machine.execCounterClear o b bus s
  | .wedgeBoundary c sigs => Sys2Proof.Machine.execWedgeBoundary c sigs s
  | .eqRestart o c g v => Sys2Proof.Machine.execEqRestart o c g v s
  | .saAddress c sa sb => Sys2Proof.Machine.execSaAddress c sa sb s
  | .wobbleReadStop c => Sys2Proof.Machine.execWobbleReadStop c s
  | .tileReadStart c p => Sys2Proof.Machine.execTileReadStart c p s
  | .wedgeSync c b inp => Sys2Proof.Machine.execWedgeSync c b inp s
  | .sectorSync c b q adc => Sys2Proof.Machine.execSectorSync c b q adc s
  | .defectSpanStart c b pos y => Sys2Proof.Machine.execDefectSpanStart c b pos y s
  | .defectSpanEnd c b pos y => Sys2Proof.Machine.execDefectSpanEnd c b pos y s
  | .dropoutStart c outer pos y => Sys2Proof.Machine.execDropoutStart c outer pos y s
  | .dropoutEnd c outer pos y => Sys2Proof.Machine.execDropoutEnd c outer pos y s
  | .sectorRowComplete c q inp => Sys2Proof.Machine.execSectorRowComplete c q inp s
  | .ldpcDecodeDone c q b => Sys2Proof.Machine.execLdpcDecodeDone c q b s
  | .outerDecodeDone c => Sys2Proof.Machine.execOuterDecodeDone c s
  | .ladderReread c => Sys2Proof.Machine.execLadderReread c s
  | .tileWriteStart c p => Sys2Proof.Machine.execTileWriteStart c p s
  | .driverFrame c resp => Sys2Proof.Machine.execDriverFrame c resp s
  | .driverStatusPoll c => Sys2Proof.Machine.execDriverStatusPoll c s
  | .bankSwap c => Sys2Proof.Machine.execBankSwap c s
  | .apcUpdate c lmon sent bits => Sys2Proof.Machine.execApcUpdate c lmon sent bits s
  | .rapcUpdate c rmon => Sys2Proof.Machine.execRapcUpdate c rmon s
  | .tileVerifyJudge c => Sys2Proof.Machine.execTileVerifyJudge c s
  | .spareTileWrite c => Sys2Proof.Machine.execSpareTileWrite c s
  | .safeClr o c v => Sys2Proof.Machine.execSafeClr o c v s
  | .ttSwap o c v => Sys2Proof.Machine.execTtSwap o c v s
  | .ttSwapApply c => Sys2Proof.Machine.execTtSwapApply c s
  | .loopSwap o c l v => Sys2Proof.Machine.execLoopSwap o c l v s
  | .loopClose o c l v => Sys2Proof.Machine.execLoopClose o c l v s
  | .loopOpen o c l v => Sys2Proof.Machine.execLoopOpen o c l v s
  | .loopHold o c l v => Sys2Proof.Machine.execLoopHold o c l v s
  | .loopRelease o c l v => Sys2Proof.Machine.execLoopRelease o c l v s
  | .holdResume c => Sys2Proof.Machine.execHoldResume c s
  | .focusCapture c => Sys2Proof.Machine.execFocusCapture c s
  | .focusSweepEnd c => Sys2Proof.Machine.execFocusSweepEnd c s
  | .trackCapture c => Sys2Proof.Machine.execTrackCapture c s
  | .acquireAddressTimeout c => Sys2Proof.Machine.execAcquireAddressTimeout c s
  | .layerJumpCorrectorDone c => Sys2Proof.Machine.execLayerJumpCorrectorDone c s
  | .layerJumpProfileEnd c => Sys2Proof.Machine.execLayerJumpProfileEnd c s
  | .layerJumpCaptureTimeout c => Sys2Proof.Machine.execLayerJumpCaptureTimeout c s
  | .focusDrop c => Sys2Proof.Machine.execFocusDrop c s
  | .servoBeamLoss c => Sys2Proof.Machine.execServoBeamLoss c s
  | .trackSlip c => Sys2Proof.Machine.execTrackSlip c s
  | .oneBeamEnd c => Sys2Proof.Machine.execOneBeamEnd c s
  | .recoveryAttemptTimeout c => Sys2Proof.Machine.execRecoveryAttemptTimeout c s
  | .recoveryDone c => Sys2Proof.Machine.execRecoveryDone c s
  | .axisModeWrite o c x v => Sys2Proof.Machine.execAxisModeWrite o c x v s
  | .dirInvWrite o c x v => Sys2Proof.Machine.execDirInvWrite o c x v s
  | .axisPush o c x v => Sys2Proof.Machine.execAxisPush o c x v s
  | .axisAbort o c x v => Sys2Proof.Machine.execAxisAbort o c x v s
  | .homingStart o c x v => Sys2Proof.Machine.execHomingStart o c x v s
  | .homeInputChange c x => Sys2Proof.Machine.execHomeInputChange c x s
  | .homingPhaseFail c x => Sys2Proof.Machine.execHomingPhaseFail c x s
  | .seekGo o c v => Sys2Proof.Machine.execSeekGo o c v s
  | .seekCountTimeout c => Sys2Proof.Machine.execSeekCountTimeout c s
  | .currentLimit c cycle => Sys2Proof.Machine.execCurrentLimit c cycle s
  | .bemfEdge c ph rising cycle => Sys2Proof.Machine.execBemfEdge c ph rising cycle s
  | .spindleStart o c v => Sys2Proof.Machine.execSpindleStart o c v s
  | .spindleBrake o c v => Sys2Proof.Machine.execSpindleBrake o c v s
  | .spindleCoast o c v => Sys2Proof.Machine.execSpindleCoast o c v s
  | .startWatchTimeout c => Sys2Proof.Machine.execStartWatchTimeout c s
  | .probeEnd c => Sys2Proof.Machine.execProbeEnd c s
  | .startTimeout c => Sys2Proof.Machine.execStartTimeout c s
  | .startPauseEnd c => Sys2Proof.Machine.execStartPauseEnd c s
  | .sixStepCommutation c => Sys2Proof.Machine.execSixStepCommutation c s
  | .commutationLost c => Sys2Proof.Machine.execCommutationLost c s
  | .catchCoastEnd c => Sys2Proof.Machine.execCatchCoastEnd c s
  | .catchTimeout c => Sys2Proof.Machine.execCatchTimeout c s
  | .shortV0Start c => Sys2Proof.Machine.execShortV0Start c s
  | .spindleStopped c => Sys2Proof.Machine.execSpindleStopped c s
  | .chopperOn b mv => Sys2Proof.Machine.execChopperOn b mv s
  | .chopperOff b mv => Sys2Proof.Machine.execChopperOff b mv s
  | .chopperFault b noCurrent => Sys2Proof.Machine.execChopperFault b noCurrent s
  | .chopClr o b v => Sys2Proof.Machine.execChopClr o b v s
  | .bufferStop b mv => Sys2Proof.Machine.execBufferStop b mv s
  | .bufferStopRelease b => Sys2Proof.Machine.execBufferStopRelease b s
  | .undervoltStop b => Sys2Proof.Machine.execUndervoltStop b s
  | .undervoltRelease b => Sys2Proof.Machine.execUndervoltRelease b s
  | .modeRequest o c v => Sys2Proof.Machine.execModeRequest o c v s
  | .targetWrite o c v => Sys2Proof.Machine.execTargetWrite o c v s
  | .profileRequest o c v => Sys2Proof.Machine.execProfileRequest o c v s
  | .modeTransition c => Sys2Proof.Machine.execModeTransition c s
  | .spinupTimeout c => Sys2Proof.Machine.execSpinupTimeout c s
  | .seekTimeout c => Sys2Proof.Machine.execSeekTimeout c s
  | .brakeTimeout c => Sys2Proof.Machine.execBrakeTimeout c s
  | .busWaitTimeout c => Sys2Proof.Machine.execBusWaitTimeout c s
  | .transferResume c => Sys2Proof.Machine.execTransferResume c s
  | .stopClr o c v => Sys2Proof.Machine.execStopClr o c v s
  | .profileApply c => Sys2Proof.Machine.execProfileApply c s
  | .allowWrite o c v => Sys2Proof.Machine.execAllowWrite o c v s
  | .configRequest f q => Sys2Proof.Machine.execConfigRequest f q s
  | .cfgReadyWrite o v => Sys2Proof.Machine.execCfgReadyWrite o v s
  | .linkTrainingStart p => Sys2Proof.Machine.execLinkTrainingStart p s
  | .linkUp p speed width => Sys2Proof.Machine.execLinkUp p speed width s
  | .linkDown p k => Sys2Proof.Machine.execLinkDown p k s
  | .flrVf f => Sys2Proof.Machine.execFlrVf f s
  | .flrPf p => Sys2Proof.Machine.execFlrPf p s
  | .vfEnableClear p => Sys2Proof.Machine.execVfEnableClear p s
  | .numvfsWrite p n => Sys2Proof.Machine.execNumvfsWrite p n s
  | .d3hotToD0 f => Sys2Proof.Machine.execD3hotToD0 f s
  | .functionResetEnd f => Sys2Proof.Machine.execFunctionResetEnd f s
  | .bar2Access f off q => Sys2Proof.Machine.execBar2Access f off q s
  | .unsupportedRequest f isRead => Sys2Proof.Machine.execUnsupportedRequest f isRead s
  | .tenantReadDenied f addr => Sys2Proof.Machine.execTenantReadDenied f addr s
  | .msixUnmask f v => Sys2Proof.Machine.execMsixUnmask f v s
  | .dmaCompletion p n e => Sys2Proof.Machine.execDmaCompletion p n e s
  | .completionTimeout p n => Sys2Proof.Machine.execCompletionTimeout p n s
  | .ringAssignWrite o f v => Sys2Proof.Machine.execRingAssignWrite o f v s
  | .ringEnable o g v => Sys2Proof.Machine.execRingEnable o g v s
  | .ringShutdown o g v => Sys2Proof.Machine.execRingShutdown o g v s
  | .drainComplete g tags => Sys2Proof.Machine.execDrainComplete g tags s
  | .evqEnable o g v => Sys2Proof.Machine.execEvqEnable o g v s
  | .doorbell f r be v => Sys2Proof.Machine.execDoorbell f r be v s
  | .stagingDoorbell f r be v e => Sys2Proof.Machine.execStagingDoorbell f r be v e s
  | .entryFetched e => Sys2Proof.Machine.execEntryFetched e s
  | .dataReceived id data => Sys2Proof.Machine.execDataReceived id data s
  | .grantExpiry id => Sys2Proof.Machine.execGrantExpiry id s
  | .read id => Sys2Proof.Machine.execRead id s
  | .write id => Sys2Proof.Machine.execWrite id s
  | .verify id => Sys2Proof.Machine.execVerify id s
  | .flush id => Sys2Proof.Machine.execFlush id s
  | .queryLocation id => Sys2Proof.Machine.execQueryLocation id s
  | .nsCreate id => Sys2Proof.Machine.execNsCreate id s
  | .nsDelete id => Sys2Proof.Machine.execNsDelete id s
  | .nsList id => Sys2Proof.Machine.execNsList id s
  | .mountNotify id d => Sys2Proof.Machine.execMountNotify id d s
  | .unmount id => Sys2Proof.Machine.execUnmount id s
  | .getLog id => Sys2Proof.Machine.execGetLog id s
  | .setTime id => Sys2Proof.Machine.execSetTime id s
  | .fwDownload id data bad => Sys2Proof.Machine.execFwDownload id data bad s
  | .fwActivate id => Sys2Proof.Machine.execFwActivate id s
  | .activationImageStart starts => Sys2Proof.Machine.execActivationImageStart starts s
  | .rebuildStart id => Sys2Proof.Machine.execRebuildStart id s
  | .calibrate id => Sys2Proof.Machine.execCalibrate id s
  | .recordStart id => Sys2Proof.Machine.execRecordStart id s
  | .recordLoad id data => Sys2Proof.Machine.execRecordLoad id data s
  | .recordStop id => Sys2Proof.Machine.execRecordStop id s
  | .recordRead id => Sys2Proof.Machine.execRecordRead id s
  | .setFeature id => Sys2Proof.Machine.execSetFeature id s
  | .setWriterId id => Sys2Proof.Machine.execSetWriterId id s
  | .importClose id => Sys2Proof.Machine.execImportClose id s
  | .getFeature id => Sys2Proof.Machine.execGetFeature id s
  | .sidingTimeout id => Sys2Proof.Machine.execSidingTimeout id s
  | .mapCheckpointWrite c => Sys2Proof.Machine.execMapCheckpointWrite c s
  | .mapCacheAccess q line write => Sys2Proof.Machine.execMapCacheAccess q line write s
  | .mcaPreload o v => Sys2Proof.Machine.execMcaPreload o v s
  | .mcaInvalidate o v => Sys2Proof.Machine.execMcaInvalidate o v s
  | .mcaWriteback o v => Sys2Proof.Machine.execMcaWriteback o v s
  | .mcaLockWrite o v => Sys2Proof.Machine.execMcaLockWrite o v s
  | .stripeClose set poison => Sys2Proof.Machine.execStripeClose set poison s
  | .coalesceTimeout set => Sys2Proof.Machine.execCoalesceTimeout set s
  | .stripeComplete w => Sys2Proof.Machine.execStripeComplete w s
  | .weltSectorErase k => Sys2Proof.Machine.execWeltSectorErase k s
  | .weltCopyWrite c => Sys2Proof.Machine.execWeltCopyWrite c s
  | .stripeReconstruct id k c tiles => Sys2Proof.Machine.execStripeReconstruct id k c tiles s
  | .memberTimeout id => Sys2Proof.Machine.execMemberTimeout id s
  | .rebuildPosition tiles kept => Sys2Proof.Machine.execRebuildPosition tiles kept s
  | .sealInjectArm o v => Sys2Proof.Machine.execSealInjectArm o v s
  | .dramTrainingDone trains => Sys2Proof.Machine.execDramTrainingDone trains s
  | .dramRead u line err => Sys2Proof.Machine.execDramRead u line err s
  | .dramRmw u line new err => Sys2Proof.Machine.execDramRmw u line new err s
  | .scrubRead err => Sys2Proof.Machine.execScrubRead err s
  | .remapWrite o k v => Sys2Proof.Machine.execRemapWrite o k v s
  | .sramCorrected a again => Sys2Proof.Machine.execSramCorrected a again s
  | .sramUncorrectable a n slots => Sys2Proof.Machine.execSramUncorrectable a n slots s
  | .sramModeWrite o hi v => Sys2Proof.Machine.execSramModeWrite o hi v s
  | .sramSeal o v => Sys2Proof.Machine.execSramSeal o v s
  | .sramInjectArm o v => Sys2Proof.Machine.execSramInjectArm o v s
  | .testRawRead o v => Sys2Proof.Machine.execTestRawRead o v s
  | .testRawWrite o v => Sys2Proof.Machine.execTestRawWrite o v s
  | .testEncodedWrite o v => Sys2Proof.Machine.execTestEncodedWrite o v s
  | .flashRead o b v err => Sys2Proof.Machine.execFlashRead o b v err s
  | .flashProgram o b v => Sys2Proof.Machine.execFlashProgram o b v s
  | .flashProgramDone b bad => Sys2Proof.Machine.execFlashProgramDone b bad s
  | .flashErase o b v => Sys2Proof.Machine.execFlashErase o b v s
  | .flashEraseDone b bad => Sys2Proof.Machine.execFlashEraseDone b bad s
  | .flashSuspend o b v => Sys2Proof.Machine.execFlashSuspend o b v s
  | .flashSuspendAccept b => Sys2Proof.Machine.execFlashSuspendAccept b s
  | .flashResume o b v => Sys2Proof.Machine.execFlashResume o b v s
  | .flashCoreRead core addr fetch err => Sys2Proof.Machine.execFlashCoreRead core addr fetch err s
  | .fetchDivertWrite o v => Sys2Proof.Machine.execFetchDivertWrite o v s
  | .fetchStall core => Sys2Proof.Machine.execFetchStall core s
  | .calRef ref => Sys2Proof.Machine.execCalRef ref s
  | .calAfe c ref l => Sys2Proof.Machine.execCalAfe c ref l s
  | .calServoOfs c ref l => Sys2Proof.Machine.execCalServoOfs c ref l s
  | .calMonitor c ref lm rm => Sys2Proof.Machine.execCalMonitor c ref lm rm s
  | .calShunt c ref a b => Sys2Proof.Machine.execCalShunt c ref a b s
  | .calTrims c => Sys2Proof.Machine.execCalTrims c s
  | .calLaser c ref l => Sys2Proof.Machine.execCalLaser c ref l s
  | .calResponse c ref amp rmean => Sys2Proof.Machine.execCalResponse c ref amp rmean s
  | .calActuator c ref l => Sys2Proof.Machine.execCalActuator c ref l s
  | .calFriction c ref t1 t2 v2 => Sys2Proof.Machine.execCalFriction c ref t1 t2 v2 s
  | .calMargin c ref l => Sys2Proof.Machine.execCalMargin c ref l s
  | .calAgeing c => Sys2Proof.Machine.execCalAgeing c s
  | .calLastCapture c => Sys2Proof.Machine.execCalLastCapture c s
  | .calStoreTables c ref => Sys2Proof.Machine.execCalStoreTables c ref s
  | .ageingDue c => Sys2Proof.Machine.execAgeingDue c s
  | .ageingStart c => Sys2Proof.Machine.execAgeingStart c s
  | .hltClr o v => Sys2Proof.Machine.execHltClr o v s
  | .junctionHot temp => Sys2Proof.Machine.execJunctionHot temp s
  | .logEnable o v area => Sys2Proof.Machine.execLogEnable o v area s
  | .trigWrite o v snip => Sys2Proof.Machine.execTrigWrite o v snip s
  | .replayPrep o v => Sys2Proof.Machine.execReplayPrep o v s
  | .replayEnd c => Sys2Proof.Machine.execReplayEnd c s
  | .i2cPointerWrite addr => Sys2Proof.Machine.execI2cPointerWrite addr s
  | .i2cRegisterWrite addr v e => Sys2Proof.Machine.execI2cRegisterWrite addr v e s
  | .i2cRead n => Sys2Proof.Machine.execI2cRead n s
  | .chipResetRelease t => Sys2Proof.Machine.execChipResetRelease t s
  | .supplyRestored t => Sys2Proof.Machine.execSupplyRestored t s
  | .jtagRegacc write addr data e => Sys2Proof.Machine.execJtagRegacc write addr data e s
  | .jtagExtest load => Sys2Proof.Machine.execJtagExtest load s
  | .jtagSamplePreload sample load => Sys2Proof.Machine.execJtagSamplePreload sample load s
  | .wobblePllLock c freq => Sys2Proof.Machine.execWobblePllLock c freq s
  | .wobblePllLockLoss c => Sys2Proof.Machine.execWobblePllLockLoss c s
  | .flashSuspended b => Sys2Proof.Machine.execFlashSuspended b s
  | .aerError f e hdr => Sys2Proof.Machine.execAerError f e hdr s
  | .timebaseLost => Sys2Proof.Machine.execTimebaseLost s
  | .pwrfailAssert => Sys2Proof.Machine.execPwrfailAssert s
  | .pwrfailConfirmed => Sys2Proof.Machine.execPwrfailConfirmed s
  | .pwrfailDeassert => Sys2Proof.Machine.execPwrfailDeassert s
  | .pwrfailRestart => Sys2Proof.Machine.execPwrfailRestart s
  | .arbiterGrant => Sys2Proof.Machine.execArbiterGrant s
  | .bufferReservation => Sys2Proof.Machine.execBufferReservation s
  | .activationDrainTimeout => Sys2Proof.Machine.execActivationDrainTimeout s
  | .mapCommit => Sys2Proof.Machine.execMapCommit s
  | .journalRecordProgrammed => Sys2Proof.Machine.execJournalRecordProgrammed s
  | .mapRecovery badJ badW => Sys2Proof.Machine.execMapRecovery badJ badW s
  | .mapBaseRewrite => Sys2Proof.Machine.execMapBaseRewrite s
  | .cacheFillDone => Sys2Proof.Machine.execCacheFillDone s
  | .cacheEvictDone => Sys2Proof.Machine.execCacheEvictDone s
  | .dramFillDone => Sys2Proof.Machine.execDramFillDone s
  | .remapCopyDone => Sys2Proof.Machine.execRemapCopyDone s
  | .flashFlagScan => Sys2Proof.Machine.execFlashFlagScan s
  | .imageCheck => Sys2Proof.Machine.execImageCheck s
  | .coreRelease => Sys2Proof.Machine.execCoreRelease s
  | .fetchDivertEnd => Sys2Proof.Machine.execFetchDivertEnd s
  | .faultReport => Sys2Proof.Machine.execFaultReport s
  | .faultRecordHandle => Sys2Proof.Machine.execFaultRecordHandle s
  | .eventLogPersist => Sys2Proof.Machine.execEventLogPersist s
  | .violationLogPersist => Sys2Proof.Machine.execViolationLogPersist s
  | .recordingBegin => Sys2Proof.Machine.execRecordingBegin s
  | .recordingEnd => Sys2Proof.Machine.execRecordingEnd s
  | .i2cBusReset => Sys2Proof.Machine.execI2cBusReset s
  | .sidebandReady => Sys2Proof.Machine.execSidebandReady s
  | .porstAssert => Sys2Proof.Machine.execPorstAssert s
  | .supplyLow => Sys2Proof.Machine.execSupplyLow s
  | .jtagIdcode => Sys2Proof.Machine.execJtagIdcode s
  | .jtagBypass => Sys2Proof.Machine.execJtagBypass s

end Sys2Proof.Machine
end

