-- ==== Sys2Proof/Safety.lean ====
section
/-! DEFINITION. What a safe run is, and the words that statements about the part use: which parts of the state a command
may change, when a channel's events come from outside, and the canonical form of the register list. -/

namespace Sys2Proof

open Sys2Proof.Machine

/-- An outcome that is a next state. -/
def isNext (o : Out) : Prop := ∃ t, o = .next t

/-- A step that goes on. -/
def SafeStep (s : State) : Prop := isNext (step s)

/-- The register file is in canonical form (R48): addresses rising, no entry equal to its reset value. -/
def RegsCanonical (s : State) : Prop := regsWf s.regs = true

/-- The registers that show in chip reset what flash and fuses hold (R66). -/
def shownInReset : List Nat := [Reg.FLS_SECMIN.base, Reg.STR_LOST.base, Reg.STR_STAT.base]

/-- A command's meaning answers a next state, and that state has a property. -/
def Leads (i : Instr) (s : State) (P : State → Prop) : Prop := ∃ t, exec i s = .next t ∧ P t

/-- The part is not in chip reset (R739–R742). -/
def Awake (s : State) : Prop := s.pins.inReset = false

/-- Channel `c` takes its engines' events from outside: it is not in REPLAY, where the recording gives them (R279, R712). -/
def Engine (c : Ch) (s : State) : Prop := Awake s ∧ s.get (Reg.DCM_STAT_MODE.at c) ≠ 11

/-- A register write of an origin reaches the registers of the part: the part is not in chip reset, the origin exists and
is not being reset (R398, R411), and its access class allows the address (R63, R64). -/
def Reaches (o : Origin) (a : Nat) (s : State) : Prop :=
  Awake s ∧ accessDead o s = false ∧ mayWrite o a s = true

/-- A register read of an origin is answered with the register: the part is not in chip reset, and a function is the
administrative one and is not being reset (R64, R398, R411). -/
def ReadsAll (o : Origin) (s : State) : Prop :=
  Awake s ∧ accessDead o s = false ∧ ∀ f, o = .fn f → fnAdmin f s = true

/-- A command's register write waits in the latch of channel `c` (R18). -/
def Latches (i : Instr) (c : Ch) (o : Origin) (a : Nat) (v : W32) (s : State) : Prop :=
  Reaches o a s → exec i s = .next (stageWrite c ⟨a, v, o⟩ s)

/-- A command's register write takes effect at once, and the state it leaves has a property. -/
def Acts (i : Instr) (o : Origin) (a : Nat) (s : State) (P : State → Prop) : Prop := Reaches o a s → Leads i s P

/-- Every register outside a list of addresses reads as before. -/
def regsBut (l : List Nat) (s t : State) : Prop := ∀ a, a ∉ l → t.rd a = s.rd a

/-- The address of a block's BLK_IRQ_STAT (R48). -/
def irqStat (b : Blk) : Nat := pageReg b 0x10

/-- The event bit `k` of a block is pending (R54). -/
def eventSet (b : Blk) (k : Nat) (s : State) : Prop := bitOf k (s.rd (irqStat b)).toNat = true

/-- The last fault detected is of a class and an instance (R696). -/
def faulted (cls inst : Nat) (s t : State) : Prop :=
  ∃ r, t.hlt.incoming = s.hlt.incoming ++ [r] ∧ r.cls = cls ∧ r.inst = inst

/-- The crossing that an edge of the back-EMF marks (R338, R339). -/
def edgeCrossing (ph : Fin 3) (rising : Bool) (cycle : Int) (s : State) : Crossing :=
  ⟨((s.now * 2000 : Nat) + cycle).toNat, edgeAngle ph rising⟩

/-- A record of a command has been written over its entry, byte 0 last (R443, R444); a function whose reset runs gets no
record (R411). -/
def recorded (x : Ctx) (stage status detail count : Nat) (s t : State) : Prop :=
  fnResetting x.fn s = false → ∃ before after, t.host.sent = before ++
    [.write x.fn (entryAddr x.ring x.index s + 1) (recordTail status detail count x.tag) false,
     .write x.fn (entryAddr x.ring x.index s) (leBytes 1 (b2n x.phase + 2 * stage)) false] ++ after

/-- The final record of a command has been written and the command has ended (R447). -/
def ended (x : Ctx) (status detail count : Nat) (s t : State) : Prop :=
  t.ctx x.id = none ∧ (x.silent = false → recorded x 3 status detail count s t)

/-- The command of context `id` runs: its context is `x` and holds the opcode. -/
def Running (id op : Nat) (x : Ctx) (s : State) : Prop := s.ctx id = some x ∧ x.op = op

/-- A violation of a function has been entered as the last in its port's log (R417). -/
def violates (f code : Nat) (s t : State) : Prop :=
  eventSet hlkBlk 3 t ∧ t.hlt.violNext = s.hlt.violNext + 1 ∧
  ∃ e : ViolEntry, e.code = code ∧ e.fn.val = f % 64 ∧
    (if f < 32 then t.hlt.viol0 else t.hlt.viol1).held.getLast? = some (s.hlt.violNext, e)

/-- Run `r` of a channel (6: the reference) makes measurement `m` next: its channel stands ready and undisturbed, and the
reference has been checked (R651, R657, R664). -/
def Measuring (chan m : Nat) (r : CalRun) (s : State) : Prop :=
  runOn chan s = some r ∧ nextMeasure r = some m ∧ runLost r s = false ∧ runReady r s = true ∧ r.refDone = true ∧
  ∀ c, runChan r = some c → (s.chan c).dcm.calHits < 2

/-- A measurement has been made, accepted or rejected: a run of one measurement has ended with it, a composite run has
noted it (R656, R657). -/
def calMeasured (chan m : Nat) (ok : Bool) (r : CalRun) (t : State) : Prop :=
  (measures r.measure = [r.measure] → runOn chan t = none) ∧
  (measures r.measure ≠ [r.measure] → ∃ q, runOn chan t = some q ∧ q.done = r.done ++ [m] ∧
    q.rejected = if ok then r.rejected else r.rejected ++ [m])

/-- A trim measurement: when every check passes each trim takes its new value; else none changes and the measurement is
rejected with the reason of the first check that fails (R662, R663). -/
def Trims (i : Instr) (c : Ch) (m : Nat) (items : List TrimItem) (s : State) : Prop :=
  ∀ r, Measuring c.val m r s →
    (items.findSome? (fun it => itemReason c it s) = none → Leads i s (fun t =>
      calMeasured c.val m true r t ∧ ∀ it, it ∈ items → t.geti it.fld = it.new s)) ∧
    (∀ k, items.findSome? (fun it => itemReason c it s) = some k → Leads i s (fun t =>
      calMeasured c.val m false r t ∧ t.get Reg.CAL_LAST_REJ_REASON = k ∧ t.get Reg.CAL_LAST_REJ_MEASURE = m ∧
      eventSet calBlk 2 t ∧ faulted 30 c.val s t ∧ ∀ it, it ∈ items → t.rd it.fld.base = s.rd it.fld.base))

/-- The part has sent one message, after all it had sent before. -/
def sends (m : Msg) (s t : State) : Prop := t.host.sent = s.host.sent ++ [m]

/-- The parts of the state, each drive channel by itself. -/
inductive Part where
  | regs | tb | locks | frozen | hlt | straps | writer
  | chan (c : Ch)
  | buses | pwr | host | map | mca | str | mem | fls | cal | pins | memberTmo | rcd | pending
deriving DecidableEq, Repr

/-- Is a part of the state the same in two states? -/
def samePart (p : Part) (s t : State) : Prop :=
  match p with
  | .regs => t.regs = s.regs
  | .tb => t.tb = s.tb
  | .locks => t.locks = s.locks
  | .frozen => t.frozen = s.frozen
  | .hlt => t.hlt = s.hlt
  | .straps => t.straps = s.straps
  | .writer => t.writer = s.writer
  | .chan c => t.chan c = s.chan c
  | .buses => t.buses = s.buses
  | .pwr => t.pwr = s.pwr
  | .host => t.host = s.host
  | .map => t.map = s.map
  | .mca => t.mca = s.mca
  | .str => t.str = s.str
  | .mem => t.mem = s.mem
  | .fls => t.fls = s.fls
  | .cal => t.cal = s.cal
  | .pins => t.pins = s.pins
  | .memberTmo => t.memberTmo = s.memberTmo
  | .rcd => t.rcd = s.rcd
  | .pending => t.pending = s.pending

/-- The six drive channels as parts. -/
def everyChan : List Part := allCh.map Part.chan

/-- The parts that chip reset may change: the straps and the writer ID stay, as does the queue (R66, R730). -/
def resetParts : List Part :=
  [.regs, .tb, .locks, .frozen, .hlt, .buses, .pwr, .host, .map, .mca, .str, .mem, .fls, .cal, .pins, .memberTmo, .rcd] ++
    everyChan

/-- The parts that a command may change; whatever it does, every other part stays. A command that is a register access
may reach what any register starts; an event of a drive channel reaches that channel alone, but for the registers, the
faults, the recorder and what the rules hand on to the host side. -/
def mayChange (i : Instr) : List Part :=
  match i with
  | .holdDelayExpiry c _ | .driverStatusPoll c | .focusCapture c | .focusSweepEnd c | .layerJumpProfileEnd c
  | .currentLimit c _ | .wobblePllLock c _ | .wobblePllLockLoss c => [.chan c]
  | .ageingDue _ => [.cal]
  | .violationLogPersist => [.hlt]
  | .bar2Access _ _ _ | .unsupportedRequest _ _ | .msixUnmask _ _ | .aerError _ _ _ | .arbiterGrant | .jtagIdcode
  | .jtagBypass => [.host]
  | .expertLockTimeout _ => [.locks]
  | .nsDelete _ => [.map]
  | .i2cBusReset | .sidebandReady => [.pins]
  | .pwrfailAssert => [.pwr]
  | .apcUpdate _ _ _ _ | .ttSwapApply _ | .transferResume _ | .linkUp _ _ _ | .functionResetEnd _ => [.regs]
  | .bufferStopRelease _ | .undervoltRelease _ => [.regs] ++ everyChan
  | .sectorSync c _ _ _ | .defectSpanStart c _ _ _ | .defectSpanEnd c _ _ _ | .dropoutStart c _ _ _
  | .dropoutEnd c _ _ _ | .sectorRowComplete c _ _ | .ldpcDecodeDone c _ _ | .bankSwap c | .rapcUpdate c _
  | .holdResume c | .trackCapture c | .layerJumpCorrectorDone c | .layerJumpCaptureTimeout c | .oneBeamEnd c
  | .recoveryDone c | .homeInputChange c _ | .seekCountTimeout c | .startWatchTimeout c | .startPauseEnd c
  | .sixStepCommutation c | .catchCoastEnd c | .catchTimeout c | .shortV0Start c | .spindleStopped c =>
    [.regs, .chan c]
  | .coalesceTimeout _ => [.str]
  | .fetchStall _ => [.hlt, .fls]
  | .jtagSamplePreload _ _ => [.host, .pins]
  | .mapCheckpointWrite c | .weltCopyWrite c => [.map, .str, .chan c]
  | .chopperOn _ _ | .chopperOff _ _ => [.regs, .buses]
  | .flashSuspendAccept _ | .flashSuspended _ | .imageCheck | .fetchDivertEnd => [.regs, .fls]
  | .dramTrainingDone _ | .junctionHot _ | .eventLogPersist => [.regs, .hlt]
  | .undervoltStop _ => [.regs, .hlt] ++ everyChan
  | .configRequest _ _ | .linkTrainingStart _ | .numvfsWrite _ _ | .tenantReadDenied _ _ | .drainComplete _ _
  | .memberTimeout _ | .bufferReservation => [.regs, .host]
  | .mapBaseRewrite => [.regs, .map]
  | .mapCacheAccess _ _ _ | .cacheFillDone | .cacheEvictDone => [.regs, .mca]
  | .dramFillDone => [.regs, .mem]
  | .pwrfailConfirmed | .pwrfailDeassert | .pwrfailRestart => [.regs, .pwr] ++ everyChan
  | .recordingBegin => [.regs, .rcd]
  | .tileReadStart c _ | .tileWriteStart c _ => [.regs, .rcd, .chan c]
  | .weltSectorErase _ => [.regs, .str]
  | .i2cPointerWrite _ => [.tb, .pins]
  | .chopperFault _ _ | .bufferStop _ _ => [.regs, .hlt, .buses] ++ everyChan
  | .flashProgramDone _ _ | .flashCoreRead _ _ _ _ => [.regs, .hlt, .fls]
  | .doorbell _ _ _ _ => [.regs, .hlt, .host]
  | .recordingEnd => [.regs, .hlt, .rcd]
  | .routineOverrun c | .saAddress c _ _ | .wobbleReadStop c | .wedgeSync c _ _ | .driverFrame c _
  | .tileVerifyJudge c | .spareTileWrite c | .acquireAddressTimeout c | .focusDrop c | .servoBeamLoss c | .trackSlip c
  | .bemfEdge c _ _ _ | .probeEnd c | .startTimeout c | .commutationLost c => [.regs, .hlt, .rcd, .chan c]
  | .spinupTimeout c | .seekTimeout c | .brakeTimeout c | .busWaitTimeout c | .profileApply c | .replayEnd c =>
    [.regs, .locks, .hlt, .chan c]
  | .tickCaptureRead _ _ _ | .todCaptureRead _ _ _ => [.regs, .tb, .host]
  | .i2cRead _ => [.tb, .host, .pins]
  | .chipResetRelease _ | .supplyRestored _ => [.tb, .straps, .pins]
  | .sramCorrected _ _ => [.regs, .hlt, .mca, .mem]
  | .grantExpiry _ | .flush _ | .queryLocation _ | .nsCreate _ | .nsList _ | .getLog _ | .recordRead _
  | .importClose _ | .getFeature _ => [.regs, .host, .map, .str]
  | .write _ | .rebuildStart _ | .stripeComplete _ => [.regs, .host, .map, .str] ++ everyChan
  | .faultReport | .faultRecordHandle => [.regs, .locks, .hlt, .host] ++ everyChan
  | .jtagExtest _ => [.regs, .locks, .hlt, .pins] ++ everyChan
  | .outerDecodeDone c | .ladderReread c | .recoveryAttemptTimeout c | .homingPhaseFail c _ | .modeTransition c =>
    [.regs, .locks, .hlt, .rcd, .chan c]
  | .flashEraseDone _ _ | .flashFlagScan => [.regs, .map, .str, .fls]
  | .timebaseLost => [.regs, .tb, .locks, .hlt] ++ everyChan
  | .dmaCompletion _ _ _ | .completionTimeout _ _ | .stagingDoorbell _ _ _ _ _ | .entryFetched _ | .sidingTimeout _
  | .mapCommit => [.regs, .hlt, .host, .map, .str]
  | .dataReceived _ _ | .read _ | .verify _ | .stripeClose _ _ | .rebuildPosition _ _ =>
    [.regs, .hlt, .host, .map, .str] ++ everyChan
  | .fwActivate _ => [.regs, .host, .map, .str, .fls]
  | .setFeature _ => [.regs, .host, .map, .str, .memberTmo]
  | .recordStart _ | .recordLoad _ _ => [.regs, .host, .map, .str, .rcd]
  | .setTime _ => [.regs, .tb, .host, .map, .str]
  | .journalRecordProgrammed => [.regs, .hlt, .host, .map, .mca, .str]
  | .fwDownload _ _ _ | .activationImageStart _ => [.regs, .hlt, .host, .map, .str, .fls]
  | .recordStop _ => [.regs, .hlt, .host, .map, .str, .rcd]
  | .linkDown _ _ | .flrVf _ | .flrPf _ | .vfEnableClear _ | .d3hotToD0 _ => [.regs, .locks, .hlt, .host, .map, .str]
  | .mountNotify _ _ => [.regs, .locks, .hlt, .host, .map, .str] ++ everyChan
  | .mapRecovery _ _ => [.regs, .locks, .hlt, .map, .mca, .str]
  | .setWriterId _ => [.regs, .writer, .host, .map, .str, .fls]
  | .porstAssert | .supplyLow => [.regs, .hlt, .pwr, .map, .str, .fls, .pins]
  | .calTrims _ => [.regs, .locks, .hlt, .host, .map, .str, .cal]
  | .calibrate _ | .ageingStart _ => [.regs, .locks, .hlt, .host, .map, .str, .cal] ++ everyChan
  | .stripeReconstruct _ _ c _ => [.regs, .locks, .hlt, .host, .map, .str, .rcd, .chan c]
  | .activationDrainTimeout => [.regs, .locks, .hlt, .host, .map, .str, .fls, .cal]
  | .unmount _ | .calRef _ | .calAfe _ _ _ | .calServoOfs _ _ _ | .calMonitor _ _ _ _ | .calShunt _ _ _ _
  | .calLaser _ _ _ | .calResponse _ _ _ _ | .calActuator _ _ _ | .calFriction _ _ _ _ _ | .calMargin _ _ _
  | .calStoreTables _ _ => [.regs, .locks, .hlt, .host, .map, .str, .fls, .cal] ++ everyChan
  | .calAgeing c | .calLastCapture c => [.regs, .locks, .hlt, .host, .map, .str, .fls, .cal, .chan c]
  | .sramUncorrectable _ _ _ => [.regs, .locks, .hlt, .host, .map, .mca, .str, .fls, .rcd] ++ everyChan
  | .coreRelease => [.regs, .locks, .hlt, .host, .map, .str, .mem, .fls, .cal] ++ everyChan
  | .dramRead _ _ _ | .dramRmw _ _ _ _ | .scrubRead _ | .remapCopyDone =>
    [.regs, .locks, .hlt, .host, .map, .str, .mem, .fls, .rcd] ++ everyChan
  | .wedgeBoundary _ _ => [.regs, .tb, .frozen, .hlt, .host, .map, .mca, .str, .mem, .fls, .rcd] ++ everyChan
  | .todApplyWrite _ _ | .registerWrite _ _ _ _ _ _ | .expertUnlock _ _ _ | .freezeWrite _ _ _ | .counterClear _ _ _
  | .eqRestart _ _ _ _ | .safeClr _ _ _ | .ttSwap _ _ _ | .loopSwap _ _ _ _ | .loopClose _ _ _ _ | .loopOpen _ _ _ _
  | .loopHold _ _ _ _ | .loopRelease _ _ _ _ | .axisModeWrite _ _ _ _ | .dirInvWrite _ _ _ _ | .axisPush _ _ _ _
  | .axisAbort _ _ _ _ | .homingStart _ _ _ _ | .seekGo _ _ _ | .spindleStart _ _ _ | .spindleBrake _ _ _
  | .spindleCoast _ _ _ | .chopClr _ _ _ | .modeRequest _ _ _ | .targetWrite _ _ _ | .profileRequest _ _ _
  | .stopClr _ _ _ | .allowWrite _ _ _ | .cfgReadyWrite _ _ | .ringAssignWrite _ _ _ | .ringEnable _ _ _
  | .ringShutdown _ _ _ | .evqEnable _ _ _ | .mcaPreload _ _ | .mcaInvalidate _ _ | .mcaWriteback _ _
  | .mcaLockWrite _ _ | .sealInjectArm _ _ | .remapWrite _ _ _ | .sramModeWrite _ _ _ | .sramSeal _ _
  | .sramInjectArm _ _ | .testRawRead _ _ | .testRawWrite _ _ | .testEncodedWrite _ _ | .flashRead _ _ _ _
  | .flashProgram _ _ _ | .flashErase _ _ _ | .flashSuspend _ _ _ | .flashResume _ _ _ | .fetchDivertWrite _ _
  | .hltClr _ _ | .logEnable _ _ _ | .trigWrite _ _ _ | .replayPrep _ _ =>
    [.regs, .tb, .locks, .frozen, .hlt, .host, .map, .mca, .str, .mem, .fls, .rcd] ++ everyChan
  | .i2cRegisterWrite _ _ _ | .jtagRegacc _ _ _ _ =>
    [.regs, .tb, .locks, .frozen, .hlt, .host, .map, .mca, .str, .mem, .fls, .pins, .rcd] ++ everyChan
  | .tick _ =>
    [.regs, .tb, .locks, .frozen, .hlt, .buses, .pwr, .host, .map, .mca, .str, .mem, .fls, .rcd] ++ everyChan

end Sys2Proof
end

