-- ==== Sys2Proof/Certificates/Slice0/Obligations.lean ====
section
/-! DEFINITION. The statements for the provers. `Leads i s P` says that command `i` in state `s` answers a next state with
property `P`; `Awake`, `Engine` and `Reaches` are the conditions on state and operands alone under which a command acts;
`regsBut` and `mayChange` give frames. -/

open Sys2Proof Sys2Proof.Machine Sys2Proof.Machine.Reg

/-! ### The machine as a whole -/

/-- A step runs the command at the front of the queue on the state with the rest of the queue. Model's choices: logs
1, 66. -/
def Obligations.StepRunsFrontCommand : Prop :=
  ∀ (c : Instr) (rest : List Instr) (s : State), s.pending = c :: rest → step s = exec c { s with pending := rest }

/-- Every command of the table answers a next state on every state: there is no fault and no refusal. Model's
choices: logs 9, 60. -/
def Obligations.EveryCommandAnswersNext : Prop := ∀ (i : Instr) (s : State), isNext (exec i s)

/-- The state after reset has a canonical register list, and every register reads its reset value (R66). Model's
choices: logs 3, 5. -/
def Obligations.ResetStateIsCanonical : Prop :=
  RegsCanonical State.reset ∧ (∀ a, State.reset.rd a = resetValue a) ∧ State.reset.locks = [] ∧ State.reset.pending = []

/-- From every state with a canonical register list, whatever the step does, the register list of the next state is
canonical: addresses strictly rising, no entry equal to its reset value. Model's choices: log 1. -/
def Obligations.StepKeepsRegistersCanonical : Prop :=
  ∀ s t : State, RegsCanonical s → step s = .next t → RegsCanonical t

/-- A step takes the front command from the queue and leaves the rest as it is; no command sends a command. With no
command waiting the block idles: this is the model's choice (log 1). Model's choices: logs 1, 66. -/
def Obligations.QueueIsServedInOrder : Prop :=
  (∀ (c : Instr) (rest : List Instr) (s t : State), s.pending = c :: rest → step s = .next t → t.pending = rest) ∧
  (∀ s : State, s.pending = [] → step s = .next s)

/-- The frame of every command: each part of the state that `mayChange` does not name for the command is the same
after it. A channel's engine events change no other channel. Model's choices: logs 9, 60, 63. -/
def Obligations.CommandLeavesOtherParts : Prop :=
  ∀ (i : Instr) (s t : State), exec i s = .next t → ∀ p : Part, p ∉ mayChange i → samePart p s t

/-- The tick counter is 0 when chip reset is released, counts one in each TICK, and no other command out of chip reset
changes it: no function-level reset and no firmware activation does (R23). -/
def Obligations.TickCounterCountsTicks : Prop :=
  (∀ (x : TickIn) (s : State), Awake s → Leads (.tick x) s (fun t => t.tb.tick = s.tb.tick + 1)) ∧
  (∀ (z : Straps) (s : State), s.pins.inReset = true → s.pins.low = false →
    Leads (.chipResetRelease z) s (fun t => t.tb.tick = 0)) ∧
  (∀ (z : Straps) (s : State), s.pins.inReset = true → s.pins.porst = false →
    Leads (.supplyRestored z) s (fun t => t.tb.tick = 0)) ∧
  (∀ (i : Instr) (s t : State), Awake s → exec i s = .next t → (∀ x, i ≠ .tick x) → i ≠ .porstAssert → i ≠ .supplyLow →
    t.tb.tick = s.tb.tick)

/-- A lost timebase stays lost until chip reset (R33). -/
def Obligations.OnlyChipResetEndsTimebaseLoss : Prop :=
  ∀ (i : Instr) (s t : State), s.tb.lost = true → exec i s = .next t → i ≠ .porstAssert → i ≠ .supplyLow →
    t.tb.lost = true

/-- Chip reset begins with PORST_N low or a low supply and ends with their release, and with nothing else (R739,
R740). Model's choices: log 60. -/
def Obligations.OnlyPinsAndSuppliesMoveChipReset : Prop :=
  ∀ (i : Instr) (s t : State), exec i s = .next t →
    (Awake s → i ≠ .porstAssert → i ≠ .supplyLow → Awake t) ∧
    (s.pins.inReset = true → (∀ z, i ≠ .chipResetRelease z) → (∀ z, i ≠ .supplyRestored z) → t.pins.inReset = true)

/-- During chip reset only the reset pins, the supplies and the boundary-scan port act: every other command leaves
the state as it is. Model's choices: log 60. -/
def Obligations.ChipResetStopsTheRest : Prop :=
  ∀ (i : Instr) (s : State), s.pins.inReset = true → i ≠ .porstAssert → i ≠ .supplyLow →
    (∀ z, i ≠ .chipResetRelease z) → (∀ z, i ≠ .supplyRestored z) → (∀ l, i ≠ .jtagExtest l) →
    (∀ k l, i ≠ .jtagSamplePreload k l) → i ≠ .jtagIdcode → i ≠ .jtagBypass → exec i s = .next s

/-- PORST_N low and a low supply put the part into chip reset: every register takes its reset value, but for
SEC_MIN, the count of lost stripes and the Welt use, which show what flash and fuses hold; every block closes and
every view thaws; the drive channels are as after power-on; flash with no program under way keeps its words, and the
straps, the writer ID, the lost-stripe list, the Welt journal and the map journal stay (R66, R739, R740). Model's
choices: logs 7, 42. -/
def Obligations.ChipResetResetsThePart : Prop :=
  ∀ (i : Instr) (s : State), i = .porstAssert ∨ i = .supplyLow → Leads i s (fun t =>
    t.pins.inReset = true ∧ t.pins.porst = (decide (i = .porstAssert) || s.pins.porst) ∧
    t.pins.low = (decide (i = .supplyLow) || s.pins.low) ∧ t.locks = [] ∧ t.frozen = [] ∧
    (∀ a, a ∉ shownInReset → t.rd a = resetValue a) ∧
    t.chans = State.reset.chans ∧ t.buses = State.reset.buses ∧ t.host = State.reset.host ∧ t.mca = State.reset.mca ∧
    t.mem = State.reset.mem ∧ t.rcd = State.reset.rcd ∧ t.straps = s.straps ∧ t.writer = s.writer ∧
    ((∀ b : Two, s.fls.banks[b].prog = none) → t.fls.words = s.fls.words) ∧ t.fls.flags = s.fls.flags ∧
    t.str.lost = s.str.lost ∧ t.str.welt = s.str.welt ∧ t.map.jrnl = s.map.jrnl ∧ t.map.base = s.map.base ∧
    t.pending = s.pending)

/-- The release of PORST_N ends chip reset, unless a supply is low, and the return of the supplies ends it, unless
PORST_N holds it: the straps are sampled, the tick counter is 0, and nothing else changes (R23, R739, R740, R742).
Model's choices: log 5. -/
def Obligations.ReleaseStartsThePart : Prop :=
  (∀ (z : Straps) (s : State), s.pins.inReset = true → s.pins.low = false →
    exec (.chipResetRelease z) s = .next { s with
      straps := z, tb := { s.tb with tick := 0 }, pins := { s.pins with porst := false, inReset := false } }) ∧
  (∀ (z : Straps) (s : State), s.pins.inReset = true → s.pins.low = true →
    exec (.chipResetRelease z) s = .next { s with pins := { s.pins with porst := false } }) ∧
  (∀ (z : Straps) (s : State), s.pins.inReset = true → s.pins.porst = false →
    exec (.supplyRestored z) s = .next { s with
      straps := z, tb := { s.tb with tick := 0 }, pins := { s.pins with low := false, inReset := false } }) ∧
  (∀ (z : Straps) (s : State), s.pins.inReset = true → s.pins.porst = true →
    exec (.supplyRestored z) s = .next { s with pins := { s.pins with low := false } })


/-! ### Register accesses -/

/-- A write that does not cover all four bytes of a register, and a write to an address that no register occupies,
is ignored and counted in SYS_UNMAPPED_CNT. A 64-bit write is two 32-bit writes, the lower address first (R43, R44).
Model's choices: logs 3, 119. -/
def Obligations.IgnoredWritesAreCounted : Prop :=
  (∀ (o : Origin) (a : Nat) (be : BitVec 4) (v : W32) (e : FetchEnd) (s : State), Awake s → RegsCanonical s →
    accessDead o s = false → (∀ f r g, targetOf a s ≠ .bell f r g) →
    be ≠ 0xF ∨ (mayWrite o a s = true ∧ targetOf a s = .none) →
    Leads (.registerWrite o a be v none e) s (fun t =>
      t.get SYS_UNMAPPED_CNT_COUNT = min (s.get SYS_UNMAPPED_CNT_COUNT + 1) (2 ^ SYS_UNMAPPED_CNT_COUNT.width - 1) ∧
      regsBut [SYS_UNMAPPED_CNT_COUNT.base] s t ∧ ∀ p : Part, p ≠ .regs → samePart p s t)) ∧
  (∀ (o : Origin) (a : Nat) (be hb : BitVec 4) (v hv : W32) (e : FetchEnd) (s t : State),
    exec (.registerWrite o a be v none e) s = .next t →
    exec (.registerWrite o a be v (some (hb, hv)) e) s = exec (.registerWrite o (a + 4) hb hv none e) t)

/-- When a block is closed, a write to any of its RWL registers is refused and the register keeps its value: it neither
takes effect nor waits in a latch, and it is counted in the block's REFUSED_CNT (R59). -/
def Obligations.ClosedBlocksRefuse : Prop :=
  ∀ (o : Origin) (a : Nat) (v : W32) (e : FetchEnd) (s : State) (r : RegRow) (i j : Nat) (b : Blk), Reaches o a s →
    RegsCanonical s → targetOf a s = .reg a → regRow a = some (r, i, j) → r.rwl ≠ 0 → pllAbsent a = false →
    blkOf a = some b → blkOpen b s = false →
    Leads (.registerWrite o a 0xF v none e) s (fun t =>
      t.rd a = s.rd a ∧ regsBut [pageReg b 0x1C] s t ∧ (∀ c, t.chan c = s.chan c) ∧
      bitsOf 15 8 (t.rd (pageReg b 0x1C)).toNat = min (bitsOf 15 8 (s.rd (pageReg b 0x1C)).toNat + 1) 255)

/-- A write outside the access class of its origin is refused: no register of a block but HLK, which counts a
function's violation, takes a value, except REFUSED_CNT of the block addressed; and nothing waits in a latch (R64).
Model's choices: log 119. -/
def Obligations.ClassesBoundWrites : Prop :=
  ∀ (o : Origin) (a : Nat) (v : W32) (e : FetchEnd) (s : State), Awake s → accessDead o s = false →
    mayWrite o a s = false → Leads (.registerWrite o a 0xF v none e) s (fun t => (∀ c, t.chan c = s.chan c) ∧
      ∀ k d, blkOf k = some d → d.ty ≠ .hlk → (∀ b, blkOf (loggedAddr a s) = some b → k ≠ pageReg b 0x1C) →
        t.rd k = s.rd k)

/-- BLK_LOCK: a block is open after a write of its BLK_ID and closed after a write of any other value; no other
block opens or closes. 400,000 ticks after the last accepted RWL write it closes (R57, R60, R61). Model's choices:
logs 118, 120, 141. -/
def Obligations.ExpertLock : Prop :=
  (∀ (o : Origin) (b : Blk) (v : W32) (s : State), Reaches o (pageReg b 0x1C) s → blkOf (blkBase b) = some b →
    Leads (.expertUnlock o b v) s (fun t =>
      blkOpen b t = decide (v.toNat = blkId b) ∧ (∀ d, d ≠ b → blkOpen d t = blkOpen d s) ∧ t.regs = s.regs)) ∧
  (∀ (b : Blk) (s : State), Awake s → Leads (.expertLockTimeout b) s (fun t =>
    (∀ k ∈ t.locks, k.blk = b → s.now < k.last + 400000) ∧ (∀ k ∈ s.locks, k.blk ≠ b → k ∈ t.locks) ∧
    (∀ d, blkOpen d t = blkOpen d s)))

/-- The registers of the common first page act when the bus accepts them. FREEZE begins and ends the freezing of a block
and of no other; a write of BLK_IRQ_STAT clears the events written as 1, and BLK_IRQ_EN takes the value, both within the
events the block defines (R18, R48, R51, R54). -/
def Obligations.CommonPageActsAtOnce : Prop :=
  ∀ (o : Origin) (b : Blk) (v : W32) (e : FetchEnd) (s : State), RegsCanonical s → blkOf (blkBase b) = some b →
    (Reaches o (pageReg b 0x08) s → Leads (.freezeWrite o b v) s (fun t =>
      t.rd (pageReg b 0x08) &&& 3 = v &&& 3 ∧ regsBut [pageReg b 0x08] s t ∧
      (bitOf 1 v.toNat = bitOf 1 (s.rd (pageReg b 0x08)).toNat → t.frozen = s.frozen) ∧
      (bitOf 1 v.toNat = true → bitOf 1 (s.rd (pageReg b 0x08)).toNat = false → blkFrozen b t = true) ∧
      (bitOf 1 v.toNat = false → bitOf 1 (s.rd (pageReg b 0x08)).toNat = true → blkFrozen b t = false) ∧
      ∀ d, d ≠ b → blkFrozen d t = blkFrozen d s)) ∧
    (Reaches o (irqStat b) s → Leads (.registerWrite o (irqStat b) 0xF v none e) s (fun t =>
      t.rd (irqStat b) = s.rd (irqStat b) &&& ~~~(v &&& BitVec.ofNat 32 (2 ^ (blkEvents b.ty + 1) - 1)) ∧
      regsBut [irqStat b] s t)) ∧
    (Reaches o (pageReg b 0x14) s → Leads (.registerWrite o (pageReg b 0x14) 0xF v none e) s (fun t =>
      t.rd (pageReg b 0x14) &&& BitVec.ofNat 32 (2 ^ (blkEvents b.ty + 1) - 1) =
        v &&& BitVec.ofNat 32 (2 ^ (blkEvents b.ty + 1) - 1) ∧ regsBut [pageReg b 0x14] s t))

/-- CNT_CLEAR: in a chip-wide block every counter of the block reads 0 after the write; in a drive channel the write waits
in the latch with its CNT_CLEAR bit (R18, R55). -/
def Obligations.CountersClear : Prop :=
  ∀ (o : Origin) (b : Blk) (bus : Two) (s : State) (a k : Nat), RegsCanonical s → cntClear b bus = some (a, k) →
    Reaches o a s →
    (blkIsChannel b.ty = true → ∃ v : W32, bitOf k v.toNat = true ∧
      exec (.counterClear o b bus) s = .next (stageWrite b.ch ⟨a, v, o⟩ s)) ∧
    (blkIsChannel b.ty = false → Leads (.counterClear o b bus) s (fun t =>
      ∀ f ∈ (match b.ty with
        | .hlk => [HLK_VCNTp.i 0, HLK_DCNTp.i 0, HLK_VCNTp.i 1, HLK_DCNTp.i 1]
        | .hqe => [HQE_STALL_CTX_STALL, HQE_CNT_HEAD_WAITS, HQE_CNT_GRANT_EXPIRED]
        | .map => [MAP_CNT_COMMIT_COMMITS, MAP_CNT_MISC_CONVERSIONS, MAP_CNT_MISC_ORPHANS, MAP_CNT_MISC_NO_SPACE]
        | .mca => [MCA_CNT_HIT_HITS, MCA_CNT_MISS_MISSES, MCA_CNT_PF, MCA_CNT_MISC, MCA_CNT_ECC]
        | .str => [STR_CNT_CLOSED_CLOSED, STR_CNT_MISC, STR_CNT_RECON, STR_CNT_MEMBER, STR_CNT_RECOV]
        | .sea => (List.range 7).map (fun p => SEA_CNTp.i p)
        | .mem => [MEM_CNT_CE_CE, MEM_CNT_MISC_UE, MEM_CNT_MISC_ADDR_ERR, MEM_CNT_MISC_PASSES, MEM_CNT_MISC_RMW,
            MEM_CNT_SRAM_CORRECTED, MEM_CNT_SRAM_UNCORR, MEM_CNT_SRAM_REPAIRS]
        | .fls => [FLS_CNT_OPS_ERASES, FLS_CNT_OPS_PROGRAMS, FLS_CNT_REF_PROG_TWICE, FLS_CNT_REF_BANK_IN_USE,
            FLS_CNT_REF_READ_WHILE_BUSY, FLS_CNT_ECC_CORRECTED, FLS_CNT_ECC_UE, FLS_CNT_ECC_VERIFY_FAIL,
            FLS_CNT_SUSP_SUSPENDS, FLS_CNT_SUSP_SUSP_WAITS]
        | .cal => [CAL_CNT_RUNS, CAL_CNT_REJECTED, CAL_CNT_REPLANS]
        | .hlt => [HLT_CNT_FIFO_LOST, HLT_CNT_PERSIST_SKIPPED]
        | .vmb => [VMB_CNTx.i bus.val]
        | _ => []), t.get f = 0))

/-- A read of TMB_TICK_LO or TMB_TOD_LO captures the whole counter for the reading origin and for no other, and the
high half then shows that capture; TOD_APPLY stages TOD_SET for the next boundary (R28, R29, R30). Model's choices:
log 56. -/
def Obligations.CountersAreCaptured : Prop :=
  (∀ (o : Origin) (first len : Nat) (s : State), ReadsAll o s → s.frozen.find? (fun p => p.1 == (⟨.tmb, 0⟩ : Blk)) = none →
    Leads (.tickCaptureRead o first len) s (fun t =>
      captureOf o t.tb.tickCap = s.tb.tick ∧ (∀ q, q ≠ o → captureOf q t.tb.tickCap = captureOf q s.tb.tickCap) ∧
      t.view o TMB_TICK_HI.base = BitVec.ofNat 32 (s.tb.tick / 2 ^ 32) ∧ t.tb.todCap = s.tb.todCap ∧ t.regs = s.regs) ∧
    Leads (.todCaptureRead o first len) s (fun t =>
      captureOf o t.tb.todCap = s.tb.tod ∧ (∀ q, q ≠ o → captureOf q t.tb.todCap = captureOf q s.tb.todCap) ∧
      t.view o TMB_TOD_HI.base = BitVec.ofNat 32 (s.tb.tod / 2 ^ 32) ∧ t.tb.tickCap = s.tb.tickCap ∧ t.regs = s.regs)) ∧
  (∀ (o : Origin) (v : W32) (s : State), Reaches o TMB_TOD_CTL.base s → RegsCanonical s →
    Leads (.todApplyWrite o v) s (fun t =>
      t.tb.todStaged = (if bitOf 1 v.toNat then some (s.get TMB_TOD_SET_HI * 2 ^ 32 + s.get TMB_TOD_SET_LO)
        else s.tb.todStaged) ∧ t.tb.tod = s.tb.tod ∧ ∀ a, t.rd a = s.rd a))

/-- A write to a drive-channel block waits in that channel's latch, and nothing else changes; a write to the RWL
register DCM_ALLOW does so while its block is open, and keeps the block open (R18, R59, R60). Model's choices: logs
118, 119. -/
def Obligations.LatchedWritesWait : Prop :=
  ∀ (o : Origin) (c : Ch) (v : W32) (s : State),
    (∀ g : Fin 10, Latches (.eqRestart o c g v) c o (sigF RDC_EQ_CTL c g.val).base v s) ∧
    Latches (.safeClr o c v) c o (WRC_CTL.at c).base v s ∧
    Latches (.ttSwap o c v) c o (SRV_CTL.at c).base v s ∧
    (∀ l : Fin 7, Latches (.loopSwap o c l v) c o ((LOOP_CTL.at c).i l.val).base v s ∧
      Latches (.loopClose o c l v) c o ((LOOP_CTL.at c).i l.val).base v s ∧
      Latches (.loopOpen o c l v) c o ((LOOP_CTL.at c).i l.val).base v s ∧
      Latches (.loopHold o c l v) c o ((LOOP_CTL.at c).i l.val).base v s ∧
      Latches (.loopRelease o c l v) c o ((LOOP_CTL.at c).i l.val).base v s) ∧
    (∀ x : Two, Latches (.axisModeWrite o c x v) c o (axF AX_CTL c x).base v s ∧
      Latches (.dirInvWrite o c x v) c o (axF AX_CTL c x).base v s ∧
      Latches (.axisAbort o c x v) c o (axF AX_CTL c x).base v s ∧
      Latches (.homingStart o c x v) c o (axF AX_CTL c x).base v s ∧
      Latches (.axisPush o c x v) c o (axF AX_QCMD c x).base v s) ∧
    Latches (.seekGo o c v) c o (MOT_SEEK.at c).base v s ∧
    Latches (.spindleStart o c v) c o (SPN_CTL.at c).base v s ∧
    Latches (.spindleBrake o c v) c o (SPN_CTL.at c).base v s ∧
    Latches (.spindleCoast o c v) c o (SPN_CTL.at c).base v s ∧
    Latches (.modeRequest o c v) c o (DCM_CTL.at c).base v s ∧
    Latches (.profileRequest o c v) c o (DCM_CTL.at c).base v s ∧
    Latches (.stopClr o c v) c o (DCM_CTL.at c).base v s ∧
    Latches (.targetWrite o c v) c o (DCM_TGT.at c).base v s ∧
    (Reaches o (DCM_ALLOW.at c).base s → exec (.allowWrite o c v) s = .next
      (if blkOpen ⟨.dcm, c⟩ s then stageWrite c ⟨(DCM_ALLOW.at c).base, v, o⟩ (touchLock ⟨.dcm, c⟩ (s.now + 1) s)
       else refuseWrite o (DCM_ALLOW.at c).base v true s))

/-! ### Latched writes that take effect -/

/-- Of several writes to one register in a latch, the last takes effect; each of the others is only entered in the change
log (R19). -/
def Obligations.LastStagedWriteActs : Prop :=
  ∀ (w : Staged) (r : List Staged) (s : State), (regRow w.addr).isSome = true →
    ((∃ q ∈ r, q.addr = w.addr) → ∃ u, applyStaged (w :: r) s = applyStaged r u ∧ (∀ a, u.rd a = s.rd a) ∧
      (∀ c, u.chan c = s.chan c) ∧ u.hlt.changeLog.next = s.hlt.changeLog.next + 1) ∧
    ((∀ q ∈ r, q.addr ≠ w.addr) → applyStaged (w :: r) s = applyStaged r (applyWrite w.org w.addr w.val {} s))

/-- LOOP_CTL: a swap exchanges the two coefficient banks, changes BANK, and asks for a swap run unless the loop is
OPEN or in HOLD or a swap run was still due, and comes before CMD; CMD close acts on an OPEN loop, open and hold in
any state, release in HOLD. Until its boundary a swap shows in SWAP_PEND (R259, R260, R263, R284). Model's choices:
logs 127, 133. -/
def Obligations.LoopCommandsAct : Prop :=
  ∀ (o : Origin) (c : Ch) (l : Fin 7) (v : W32) (s : State), RegsCanonical s →
    let t := applyWrite o ((LOOP_CTL.at c).i l.val).base v {} s
    (bitOf 8 v.toNat = true → t.getb ((LOOP_STAT_BANK.at c).i l.val) = !s.getb ((LOOP_STAT_BANK.at c).i l.val) ∧
      t.getb ((LOOP_STAT_SWAP_RUN.at c).i l.val) = (!s.getb ((LOOP_STAT_SWAP_RUN.at c).i l.val) &&
        loopSt c l s != 0 && loopSt c l s != 3) ∧
      ∀ k : Fin 48, t.rd (((BA_GAIN.at c).i l.val).base + 4 * k.val) = s.rd (((BK_GAIN.at c).i l.val).base + 4 * k.val) ∧
        t.rd (((BK_GAIN.at c).i l.val).base + 4 * k.val) = s.rd (((BA_GAIN.at c).i l.val).base + 4 * k.val)) ∧
    (bitOf 8 v.toNat = false → t.getb ((LOOP_STAT_BANK.at c).i l.val) = s.getb ((LOOP_STAT_BANK.at c).i l.val)) ∧
    (bitsOf 2 0 v.toNat = 1 → loopSt c l t = loopSt c l s ∧
      (t.loop c l).closing = (decide (loopSt c l s = 0) || (s.loop c l).closing)) ∧
    (bitsOf 2 0 v.toNat = 2 → loopSt c l t = 0 ∧ (t.loop c l).closing = false ∧ (t.loop c l).openHeld = none ∧
      (t.loop c l).openRun = none) ∧
    (bitsOf 2 0 v.toNat = 3 → loopSt c l t = 3 ∧ (t.loop c l).heldByCmd = true ∧
      (loopSt c l s ≠ 3 → (t.loop c l).heldFrom = loopSt c l s)) ∧
    (bitsOf 2 0 v.toNat = 4 → loopSt c l t = if loopSt c l s = 3 then (s.loop c l).heldFrom % 8 else loopSt c l s)

/-- TT_SWAP: a valid shadow Timetable takes the place of the active one at the first boundary of 64 ticks, TT_PEND
showing the wait; an invalid one, then or at that boundary, is refused with TT_INVALID and the active one stays;
while TT_PEND is 1 the write has no further effect (R248). Model's choices: log 128. -/
def Obligations.TimetableSwaps : Prop :=
  (∀ (o : Origin) (c : Ch) (v : W32) (s : State), RegsCanonical s → bitOf 0 v.toNat = true →
    let t := applyWrite o (SRV_CTL.at c).base v {} s
    (s.getb (SRV_STAT_TT_PEND.at c) = true → t.getb (SRV_STAT_TT_PEND.at c) = true ∧
      t.getb (SRV_STAT_TT_BANK.at c) = s.getb (SRV_STAT_TT_BANK.at c) ∧
      readTt true c t = readTt true c s ∧ readTt false c t = readTt false c s) ∧
    (s.getb (SRV_STAT_TT_PEND.at c) = false → ttValid (readTt false c s) = false →
      eventSet ⟨.srv, c⟩ 6 t ∧ t.getb (SRV_STAT_TT_PEND.at c) = false ∧
      t.getb (SRV_STAT_TT_BANK.at c) = s.getb (SRV_STAT_TT_BANK.at c) ∧
      readTt true c t = readTt true c s) ∧
    (s.getb (SRV_STAT_TT_PEND.at c) = false → ttValid (readTt false c s) = true → s.now % 64 ≠ 0 →
      t.getb (SRV_STAT_TT_PEND.at c) = true ∧ t.getb (SRV_STAT_TT_BANK.at c) = s.getb (SRV_STAT_TT_BANK.at c) ∧
      readTt true c t = readTt true c s) ∧
    (s.getb (SRV_STAT_TT_PEND.at c) = false → ttValid (readTt false c s) = true → s.now % 64 = 0 →
      t.getb (SRV_STAT_TT_PEND.at c) = false ∧ t.getb (SRV_STAT_TT_BANK.at c) = !s.getb (SRV_STAT_TT_BANK.at c) ∧
      readTt true c t = readTt false c s ∧ readTt false c t = readTt true c s)) ∧
  (∀ (c : Ch) (s : State), Engine c s → RegsCanonical s → s.getb (SRV_STAT_TT_PEND.at c) = true → (s.now + 1) % 64 = 0 →
    (ttValid (readTt false c s) = true → Leads (.ttSwapApply c) s (fun t =>
      t.getb (SRV_STAT_TT_PEND.at c) = false ∧ t.getb (SRV_STAT_TT_BANK.at c) = !s.getb (SRV_STAT_TT_BANK.at c) ∧
      readTt true c t = readTt false c s ∧ readTt false c t = readTt true c s)) ∧
    (ttValid (readTt false c s) = false → Leads (.ttSwapApply c) s (fun t =>
      t.getb (SRV_STAT_TT_PEND.at c) = false ∧ t.getb (SRV_STAT_TT_BANK.at c) = s.getb (SRV_STAT_TT_BANK.at c) ∧
      eventSet ⟨.srv, c⟩ 6 t ∧ readTt true c t = readTt true c s)))


/-! ### The servo engine -/

/-- Wobble and addresses. At a wedge boundary the writes that wait for it take effect, the spots stand at the next
wedge and no restart waits. The address unit of any 28 bits is decoded to those bits. A valid address sets the
layer, the zone, the wedge and LOCK of the sum signals; an invalid one counts, and the third, or a lock loss, begins
a holdover for the rest of the wedge and four further ones, whose end stops the reading with a servo-beam loss (R84,
R124, R134, R136, R137). Model's choices: logs 9, 20, 75, 130, 142, 143. -/
def Obligations.WobbleAndAddresses : Prop :=
  (∀ (c : Ch) (sigs : List SigWedge) (s : State), Awake s → s.mode c ≠ mREPLAY →
    ((s.chan c).srv.pllLocked = true ∨ ∃ n, (s.chan c).srv.holdover = some (n + 1)) →
    let u := applyStaged (s.chan c).rdc.pend (s.onRdc c (fun r => { r with pend := [] }));
    Leads (.wedgeBoundary c sigs) s (fun t => (t.chan c).rdc.restart = [] ∧ ((u.chan c).rdc.jumpDue = false →
      (t.chan c).dcm = nextWedge (u.chan c).dcm ∧
      (t.chan c).srv = { (u.chan c).srv with holdover := (u.chan c).srv.holdover.map (· - 1) }))) ∧
  (∀ bits : BitVec 28, unitBits (addrUnit bits) = some bits) ∧
  (∀ (c : Ch) (sa : BitVec 64) (sb : Option (BitVec 64)) (a : SaAddr) (s : State), Engine c s → RegsCanonical s →
    (s.chan c).srv.pllLocked = true → (unitBits sa).bind addrFields = some a →
    wedgeFollows (s.chan c).srv a.wedge = true →
    (s.chan c).srv.step ≠ .addrWait → (s.chan c).srv.step ≠ .slipWait →
    Leads (.saAddress c sa sb) s (fun t =>
      (t.chan c).srv.addr = some a ∧ (t.chan c).srv.addrValid = true ∧ (t.chan c).srv.invalidRun = 0 ∧
      (t.chan c).srv.holdover = none ∧ (t.chan c).srv.wedgeNext = (a.wedge + 1) % 96 ∧
      t.get (SRV_STAT_LAYER.at c) = a.layer ∧ t.get (DCM_STAT_LAYER.at c) = a.layer ∧
      t.get (DCM_STAT_ZONE.at c) = zoneOfRadial (min a.track 18879) ∧ (t.chan c).dcm.wedge = a.wedge ∧
      (t.chan c).dcm.band = radialOf a.layer a.track ∧
      t.getb ((RDC_STAT_LOCK.at c).i 8) = true ∧ t.getb ((RDC_STAT_LOCK.at c).i 9) = true)) ∧
  (∀ (c : Ch) (sa : BitVec 64) (sb : Option (BitVec 64)) (a : SaAddr) (s : State), Engine c s → RegsCanonical s →
    (s.chan c).srv.pllLocked = true → (unitBits sa).bind addrFields = some a →
    wedgeFollows (s.chan c).srv a.wedge = true → s.get (SRV_STAT_RECOVERY.at c) = 0 →
    ((s.chan c).srv.step = .addrWait ∧ a.layer = (s.chan c).srv.expLayer ∨ (s.chan c).srv.step = .slipWait) →
    Leads (.saAddress c sa sb) s (fun t => (t.chan c).srv.addr = some a ∧ (t.chan c).srv.expTrack = a.track ∧ (t.chan c).srv.step = .settled ∧
      (t.chan c).srv.jumpTo = none)) ∧
  (∀ (c : Ch) (sa : BitVec 64) (sb : Option (BitVec 64)) (s : State), Engine c s → RegsCanonical s →
    ((s.chan c).srv.pllLocked = false ∨ (unitBits sa).bind addrFields = none ∨
      (∃ a, (unitBits sa).bind addrFields = some a ∧ wedgeFollows (s.chan c).srv a.wedge = false)) →
    Leads (.saAddress c sa sb) s (fun t =>
      (t.chan c).srv.addr = (s.chan c).srv.addr ∧ (t.chan c).srv.addrValid = false ∧
      (t.chan c).srv.invalidRun = (s.chan c).srv.invalidRun + 1 ∧
      ((s.chan c).srv.holdover = none → (t.chan c).srv.holdover = if (s.chan c).srv.invalidRun < 2 then none else some 5) ∧
      (∀ k, (s.chan c).srv.holdover = some k → (t.chan c).srv.holdover = some k) ∧
      t.getb ((RDC_STAT_LOCK.at c).i 8) = false ∧ t.getb ((RDC_STAT_LOCK.at c).i 9) = false)) ∧
  (∀ (c : Ch) (s : State), Engine c s → RegsCanonical s → (s.chan c).srv.holdover = some 0 →
    focusDropNow c s = false →
    Leads (.wobbleReadStop c) s (fun t =>
      (t.chan c).srv.holdover = none ∧ (t.chan c).srv.wedgeKnown = false ∧ (t.chan c).srv.invalidRun = 0 ∧
      t.get (SRV_CNT_REC_BEAM_LOSSES.at c) =
        min (s.get (SRV_CNT_REC_BEAM_LOSSES.at c) + 1) (2 ^ SRV_CNT_REC_BEAM_LOSSES.width - 1))) ∧
  (∀ (c : Ch) (freq : Nat) (s : State), Engine c s → Leads (.wobblePllLock c freq) s (fun t =>
    (t.chan c).srv.pllLocked = true ∧ (t.chan c).srv.pllFreq = freq)) ∧
  (∀ (c : Ch) (s : State), Engine c s → (s.chan c).srv.pllLocked = true → Leads (.wobblePllLockLoss c) s (fun t =>
    (t.chan c).srv.pllLocked = false ∧ (t.chan c).srv.pllFreq = (s.chan c).srv.pllFreq ∧
    (t.chan c).srv.holdover = some ((s.chan c).srv.holdover.getD 5)))

/-- The steps of ACQUIRE: a zero crossing of FE with light enough closes FOCUS, a slow zero crossing of TE closes
TRACK, a sweep that reaches FOC_END begins again, three times at most, and 8 wedges without an address fail the
attempt. A held loop that no command holds resumes after two ticks of light. A routine cut in its slot is counted
and reported (R250, R268, R271). Model's choices: logs 9, 18, 19. -/
def Obligations.AcquireAdvances : Prop :=
  ∀ (c : Ch) (s : State), Engine c s → RegsCanonical s →
    (∀ k rest, (s.chan c).srv.cuts = k :: rest → Leads (.routineOverrun c) s (fun t =>
      (t.chan c).srv.cuts = rest ∧ t.get (SRV_STAT_OVR_SLOT.at c) = k % 32 ∧ eventSet ⟨.srv, c⟩ 1 t ∧
      faulted 1 c.val s t)) ∧
    ((s.chan c).srv.holding = true → 2 ≤ (s.chan c).srv.goodTicks → Leads (.holdResume c) s (fun t =>
      (t.chan c).srv.holding = false ∧ (t.chan c).srv.holdTicks = 0 ∧
      ∀ l, loopSt c l t = if (s.loop c l).heldByCmd = false ∧ loopSt c l s = 3 then (s.loop c l).heldFrom % 8
        else loopSt c l s)) ∧
    ((s.chan c).srv.feCross = true → captureLight c s = true →
      (∀ r, (s.chan c).srv.step = .sweep r → Leads (.focusCapture c) s (fun t =>
        (t.chan c).srv.step = .focusClose ∧ (t.chan c).srv.stepTick = s.now ∧
        (loopSt c 0 s = 0 → (t.loop c 0).closing = true))) ∧
      ((s.chan c).srv.step = .jumpCapture → s.now ≤ (s.chan c).srv.stepTick + 400 →
        Leads (.focusCapture c) s (fun t => (t.chan c).srv.step = .trackWait ∧ (t.chan c).srv.stepTick = s.now ∧
          (loopSt c 0 s = 0 → (t.loop c 0).closing = true)))) ∧
    ((s.chan c).srv.step = .sweep false → (s.chan c).srv.sweepPos = ((s.geti (SRV_FOCR_FOC_END.at c) : Int) : Rat) →
      ((s.chan c).srv.sweeps < 3 → Leads (.focusSweepEnd c) s (fun t =>
        (t.chan c).srv.step = .sweep false ∧ (t.chan c).srv.sweeps = (s.chan c).srv.sweeps + 1 ∧
        (t.chan c).srv.sweepPos = ((s.geti (SRV_FOCR_FOC_START.at c) : Int) : Rat))) ∧
      (3 ≤ (s.chan c).srv.sweeps → Leads (.focusSweepEnd c) s (fun t =>
        (t.chan c).srv.step = .idle ∧ (t.chan c).srv.acqFailed = true))) ∧
    ((s.chan c).srv.step = .trackWait ∨ ((s.chan c).srv.step = .focusClose ∧ s.getb (SRV_STAT_FOCUS_LOCK.at c) = true) →
      (s.chan c).srv.teCross = true → s.get (SRV_TMON_TCAP_TICKS.at c) ≤ (s.chan c).srv.teGap →
      Leads (.trackCapture c) s (fun t => (t.chan c).srv.step = .trackClose ∧
        ∀ l ∈ [(1 : Fin 7), 2, 3], (loopSt c l s = 0 → (t.loop c l).closing = true) ∧
          (loopSt c l s = 3 → loopSt c l t = (s.loop c l).heldFrom % 8))) ∧
    ((s.chan c).srv.step = .addrWait ∨ (s.chan c).srv.step = .slipWait → 8 ≤ (s.chan c).srv.wedges →
      max 1 (s.get (SRV_STAT_ATTEMPT.at c)) < s.get (SRV_REC_REC_TRIES.at c) → s.get (SRV_STAT_RECOVERY.at c) = 0 →
      Leads (.acquireAddressTimeout c) s (fun t => (t.chan c).srv.wedges = 0 ∧ (t.chan c).srv.recTick = s.now ∧
        t.get (SRV_STAT_ATTEMPT.at c) = (max 1 (s.get (SRV_STAT_ATTEMPT.at c)) + 1) % 4))

/-- The steps of a layer jump, the detections of a loss of lock and the ends of a recovery. A detection counts, and
begins its recovery unless one of the same or a higher priority runs; the last attempt that fails raises
RECOVERY_FAIL (R269, R272–R277). Model's choices: logs 9, 18, 19, 20, 29. -/
def Obligations.JumpsAndRecoveries : Prop :=
  ∀ (c : Ch) (s : State), Engine c s → RegsCanonical s →
    ((s.chan c).srv.step = .jumpCorr → s.getb (axF AX_STAT_AT_TARGET c 1) = true →
      Leads (.layerJumpCorrectorDone c) s (fun t => (t.chan c).srv.step = .jumpProfile ∧
        (t.chan c).srv.stepTick = s.now ∧ loopSt c 0 t = 0 ∧ (t.loop c 0).openRun ≠ none)) ∧
    (∀ r, (s.chan c).srv.step = .jumpProfile → (s.loop c 0).openRun = some r → r.ended s.now = true →
      Leads (.layerJumpProfileEnd c) s (fun t => (t.chan c).srv.step = .jumpCapture ∧ (t.loop c 0).openRun = none ∧
        (t.loop c 0).openHeld = some r.target)) ∧
    ((s.chan c).srv.step = .jumpCapture → (s.chan c).srv.stepTick + 400 < s.now →
      Leads (.layerJumpCaptureTimeout c) s (fun t => (t.chan c).srv.step = .recOpen ∧
        t.get (SRV_STAT_RECOVERY.at c) = 1 ∧ t.get (SRV_STAT_ATTEMPT.at c) = 1)) ∧
    (focusDropNow c s = true → Leads (.focusDrop c) s (fun t =>
      t.get (SRV_CNT_LOCK_FOCUS_DROPS.at c) =
        min (s.get (SRV_CNT_LOCK_FOCUS_DROPS.at c) + 1) (2 ^ SRV_CNT_LOCK_FOCUS_DROPS.width - 1) ∧
      t.get (SRV_STAT_RECOVERY.at c) = 1 ∧
      (s.get (SRV_STAT_RECOVERY.at c) ≠ 1 → (t.chan c).srv.step = .recOpen ∧ t.get (SRV_STAT_ATTEMPT.at c) = 1 ∧
        t.getb (SRV_STAT_FOCUS_LOCK.at c) = false ∧ t.getb (SRV_STAT_TRACK_LOCK.at c) = false ∧
        t.getb (DCM_STAT_TRANSFER_WAIT.at c) = true ∧ eventSet ⟨.srv, c⟩ 2 t ∧ faulted 2 c.val s t))) ∧
    (beamLossNow c s = true → focusDropNow c s = false → Leads (.servoBeamLoss c) s (fun t =>
      t.get (SRV_CNT_REC_BEAM_LOSSES.at c) =
        min (s.get (SRV_CNT_REC_BEAM_LOSSES.at c) + 1) (2 ^ SRV_CNT_REC_BEAM_LOSSES.width - 1) ∧
      (s.get (SRV_STAT_RECOVERY.at c) = 0 ∨ s.get (SRV_STAT_RECOVERY.at c) = 2 →
        t.get (SRV_STAT_RECOVERY.at c) = (if s.getb (SRV_STAT_SA_OK.at c) = false then 3
          else if s.getb (SRV_STAT_SB_OK.at c) = false then 4 else 5) ∧
        eventSet ⟨.srv, c⟩ 4 t ∧ faulted 4 c.val s t))) ∧
    (trackSlipNow c s = true → focusDropNow c s = false → beamLossNow c s = false → Leads (.trackSlip c) s (fun t =>
      t.get (SRV_CNT_LOCK_TRACK_SLIPS.at c) =
        min (s.get (SRV_CNT_LOCK_TRACK_SLIPS.at c) + 1) (2 ^ SRV_CNT_LOCK_TRACK_SLIPS.width - 1) ∧
      (s.get (SRV_STAT_RECOVERY.at c) = 0 → t.get (SRV_STAT_RECOVERY.at c) = 2 ∧ (t.chan c).srv.step = .slipWait ∧
        eventSet ⟨.srv, c⟩ 3 t ∧ faulted 3 c.val s t))) ∧
    ((s.chan c).srv.oneBeam ≠ none → (s.chan c).dcm.rpmSet ≠ 0 → revTicks c s ≤ (s.chan c).srv.bothOk →
      Leads (.oneBeamEnd c) s (fun t => (t.chan c).srv.oneBeam = none ∧
        (s.get (SRV_STAT_RECOVERY.at c) = 3 ∨ s.get (SRV_STAT_RECOVERY.at c) = 4 → t.get (SRV_STAT_RECOVERY.at c) = 0))) ∧
    (attemptExpired c s = true → s.get (SRV_STAT_RECOVERY.at c) = 2 →
      max 1 (s.get (SRV_STAT_ATTEMPT.at c)) < s.get (SRV_REC_REC_TRIES.at c) → (s.chan c).srv.recFailed = false →
      Leads (.recoveryAttemptTimeout c) s (fun t => t.get (SRV_STAT_RECOVERY.at c) = 2 ∧
        (t.chan c).srv.step = .slipWait ∧ (t.chan c).srv.recTick = s.now)) ∧
    (s.get (SRV_STAT_RECOVERY.at c) = 1 ∨ s.get (SRV_STAT_RECOVERY.at c) = 2 ∨ s.get (SRV_STAT_RECOVERY.at c) = 5 →
      (s.chan c).srv.step = .settled → s.getb (SRV_STAT_TRACK_LOCK.at c) = true → (s.chan c).srv.addrValid = true →
      (s.chan c).srv.addr.map (fun a => (a.track, a.layer)) = some ((s.chan c).srv.expTrack, (s.chan c).srv.expLayer) →
      Leads (.recoveryDone c) s (fun t => t.get (SRV_STAT_RECOVERY.at c) = 0 ∧ t.get (SRV_STAT_ATTEMPT.at c) = 0 ∧
        (t.chan c).srv.step = .settled))


/-! ### The waiting writes of motion, spindle and mode, taking effect -/

/-- What the writes of an axis and MOT_SEEK do when they take effect: a push is queued, or refused with REFUSED and
event 2; ABORT empties the queue; MODE is taken by a homed axis at rest and waits for the moves in motion; homing
starts in phase 1, or in phase 2 where the home input is asserted; a change of DIR_INV ends HOMED; a seek of up to
64 bands is short, a longer one stops transfer and moves the sled, one that cannot run is refused, and one written
while the cores do not run waits for them (R40, R288–R290, R300, R303, R307, R311–R313). Model's choices: logs 15,
69, 122, 131, 137. -/
def Obligations.AxisAndSeekWritesAct : Prop :=
  ∀ (o : Origin) (c : Ch) (v : W32) (s : State), RegsCanonical s →
    (∀ x : Two, let t := applyWrite o (axF AX_QCMD c x).base v {} s;
      (pushRefused c x v s = true → (t.axis c x).queue = (s.axis c x).queue ∧ eventSet ⟨.mot, c⟩ 2 t ∧
        t.get (axF AX_CNT_REFUSED c x) = min (s.get (axF AX_CNT_REFUSED c x) + 1) 65535) ∧
      (bitOf 0 v.toNat = true → pushRefused c x v s = false → t.getb (axF AX_STAT_AT_TARGET c x) = false ∧
        t.get (axF AX_STAT_QCOUNT c x) = (s.axis c x).queue.length + 1 ∧
        (t.axis c x).queue = (s.axis c x).queue ++ [{ target := pushTarget c x (bitOf 1 v.toNat) s
                                                      set := bitsOf 4 4 v.toNat, noblend := bitOf 2 v.toNat }])) ∧
    (∀ x : Two, let t := applyWrite o (axF AX_CTL c x).base v {} s;
      (bitOf 8 v.toNat = true → (t.axis c x).queue = [] ∧ (t.axis c x).runs = [] ∧
        t.getb (axF AX_STAT_AT_TARGET c x) = false ∧ (t.axis c x).vel = (s.axis c x).vel ∧
        (axMode c x s = 1 → bitsOf 2 0 v.toNat = 1 → axMode c x t = 1 ∧
          (t.axis c x).aborting = decide ((s.axis c x).vel ≠ 0))) ∧
      (bitOf 16 v.toNat ≠ s.getb (axF AX_CTL_DIR_INV c x) → t.getb (axF AX_STAT_HOMED c x) = false) ∧
      (bitOf 8 v.toNat = false → bitsOf 2 0 v.toNat = 3 → axMode c x s ≠ 1 ∨ axIdle (s.axis c x) = true →
        axMode c x t = 3 ∧ t.getb (axF AX_STAT_HOMED c x) = false ∧ (t.axis c x).queue = [] ∧
        t.get (axF AX_STAT_HOME_PHASE c x) = if s.getb (axF AX_STAT_HOME_IN c x) then 2 else 1) ∧
      (bitOf 8 v.toNat = false → bitOf 16 v.toNat = s.getb (axF AX_CTL_DIR_INV c x) → bitsOf 2 0 v.toNat < 3 →
        (s.getb (axF AX_STAT_HOMED c x) = false → bitsOf 2 0 v.toNat ≠ 0 → axMode c x t = axMode c x s) ∧
        (s.getb (axF AX_STAT_HOMED c x) = true → axMode c x s = 1 → axIdle (s.axis c x) = false →
          axMode c x t = 1 ∧ (t.axis c x).modePend = if bitsOf 2 0 v.toNat = 1 then none else some (bitsOf 2 0 v.toNat)) ∧
        (s.getb (axF AX_STAT_HOMED c x) = true → axMode c x s ≠ 1 ∨ axIdle (s.axis c x) = true →
          axMode c x t = bitsOf 2 0 v.toNat))) ∧
    (bitOf 31 v.toNat = true → coresRun s = false → s.mode c ≠ mREPLAY →
      ((applyWrite o (MOT_SEEK.at c).base v {} s).chan c).mot.seekWait = some (toSigned 16 v.toNat)) ∧
    (bitOf 31 v.toNat = true → coresRun s = true → let t := applyWrite o (MOT_SEEK.at c).base v {} s;
      let d := toSigned 16 v.toNat;
      (seekRefused c d s = true → eventSet ⟨.mot, c⟩ 2 t ∧ t.get (MOT_SEEK_KIND.at c) = s.get (MOT_SEEK_KIND.at c)) ∧
      (seekRefused c d s = false → loopSt c 1 t = 4 ∧ (t.chan c).mot.seekDelta = d ∧ (t.chan c).srv.count = 0 ∧
        t.get (MOT_SEEK_KIND.at c) = (if d.natAbs ≤ 64 then 1 else 2) ∧
        (64 < d.natAbs → t.getb (DCM_STAT_TRANSFER_WAIT.at c) = true ∧ axMode c 0 t = 1 ∧
          (t.axis c 0).queue = [{ target := longTarget c d s, set := 0, noblend := true, seek := true }])))

/-- What the spindle commands do when they take effect: a start command begins the start watch, or is refused with event 3;
start and brake are held through a power failure and a bus stop; a brake command in RUN begins REGEN or SHORT; a coast
command ends in COAST (R325, R340, R354, R355, R364, R367). -/
def Obligations.SpindleCommandsAct : Prop :=
  ∀ (o : Origin) (c : Ch) (v : W32) (s : State), RegsCanonical s → let t := applyWrite o (SPN_CTL.at c).base v {} s;
    (∀ n, n = 1 ∨ n = 2 → bitsOf 2 0 v.toNat = n → spnHolds c s = true →
      (t.chan c).spn.held = some n ∧ spnSt c t = spnSt c s) ∧
    (bitsOf 2 0 v.toNat = 1 → spnHolds c s = false → spnSt c s = 0 ∨ spnSt c s = 10 → s.get (SPN_IND_IND.at c) ≠ 0 →
      s.get (SPN_IND_PSI_M.at c) ≠ 0 → s.get (SPN_FREF_PSI_REF.at c) ≠ 0 → s.get (SPN_TORQ_TMAX.at c) ≠ 0 →
      spnSt c t = 1 ∧ t.get (SPN_STAT_ATTEMPT.at c) = 1) ∧
    (bitsOf 2 0 v.toNat = 1 → spnHolds c s = false → spnSt c s ≠ 0 → spnSt c s ≠ 10 →
      spnSt c t = spnSt c s ∧ eventSet ⟨.spn, c⟩ 3 t) ∧
    (bitsOf 2 0 v.toNat = 2 → spnHolds c s = false → spnSt c s = 4 → spnSt c t = 8 ∨ spnSt c t = 9) ∧
    (bitsOf 2 0 v.toNat = 3 → spnSt c s ≠ 12 ∨ haltCleared c s = true → spnSt c t = 10 ∧ (t.chan c).spn.held = none)

/-- What the writes of the mode sequencer and of the read and write channels do when they take effect: a request
becomes MODE_REQ and HEADING, or is refused with cause 1 and event 2 while MODE_REQ stays; STOP_CLR ends STOPPED
once the class behind it is cleared; a profile that is not the effective one becomes due; a target beyond the last
band is refused; an ALLOW that changes the profile raises event 4; RESTART waits for the wedge boundary; SAFE_CLR
releases LSAFE_N only after 10 ms without a power failure (R132, R223, R373, R374, R379, R387, R389). Model's
choices: log 73. -/
def Obligations.ModeWritesAct : Prop :=
  ∀ (o : Origin) (c : Ch) (v : W32) (s : State), RegsCanonical s →
    (bitsOf 31 30 v.toNat = 0 → bitsOf 3 0 v.toNat ≠ s.get (DCM_CTL_MODE_REQ.at c) →
      let t := applyWrite o (DCM_CTL.at c).base v {} s;
      (requestRefused c (bitsOf 3 0 v.toNat) (bitOf 4 v.toNat) s = true →
        t.get (DCM_CTL_MODE_REQ.at c) = s.get (DCM_CTL_MODE_REQ.at c) ∧ t.get (DCM_ERR_CAUSE.at c) = 1 ∧
        t.get (DCM_ERR_MODE.at c) = s.mode c ∧ eventSet ⟨.dcm, c⟩ 2 t) ∧
      (requestRefused c (bitsOf 3 0 v.toNat) (bitOf 4 v.toNat) s = false →
        t.get (DCM_CTL_MODE_REQ.at c) = bitsOf 3 0 v.toNat ∧ t.get (DCM_STAT_HEADING.at c) = bitsOf 3 0 v.toNat)) ∧
    (bitsOf 3 0 v.toNat = s.get (DCM_CTL_MODE_REQ.at c) → let t := applyWrite o (DCM_CTL.at c).base v {} s;
      (bitOf 31 v.toNat = true → s.getb (DCM_STAT_STOPPED.at c) = true →
        t.getb (DCM_STAT_STOPPED.at c) = !stopCleared c s) ∧
      (bitsOf 31 30 v.toNat = 0 → t.get (DCM_CTL_PROFILE_REQ.at c) = bitsOf 9 8 v.toNat ∧
        (wantProfile c t ≠ t.profile c → (t.chan c).dcm.profPend = true))) ∧
    (let t := applyWrite o (DCM_TGT.at c).base v {} s;
      (18879 < bitsOf 19 4 v.toNat → t.rd (DCM_TGT.at c).base = s.rd (DCM_TGT.at c).base ∧
        t.get (DCM_ERR_CAUSE.at c) = 1 ∧ eventSet ⟨.dcm, c⟩ 2 t) ∧
      (bitsOf 19 4 v.toNat ≤ 18879 → t.get (DCM_TGT_BAND.at c) = bitsOf 19 4 v.toNat ∧
        t.get (DCM_TGT_LAYER.at c) = bitsOf 3 0 v.toNat)) ∧
    (let t := applyWrite o (DCM_ALLOW.at c).base v {} s;
      t.get (DCM_ALLOW_SPRINT.at c) = bitsOf 0 0 v.toNat ∧ t.get (DCM_ALLOW_BALANCED.at c) = bitsOf 1 1 v.toNat ∧
      (wantProfile c t ≠ wantProfile c s → eventSet ⟨.dcm, c⟩ 4 t)) ∧
    (∀ g : Fin 10, bitOf 7 v.toNat = true → let t := applyWrite o (sigF RDC_EQ_CTL c g.val).base v {} s;
      g ∈ (t.chan c).rdc.restart ∧ t.getb (sigF RDC_EQ_CTL_RESTART c g.val) = true) ∧
    (bitOf 6 v.toNat = true → let t := applyWrite o (WRC_CTL.at c).base v {} s;
      t.getb (WRC_STAT_LSAFE.at c) = if safeClrActs c s then false else s.getb (WRC_STAT_LSAFE.at c))


/-! ### Writes that act at once -/

/-- CFG_READY stays 1 once written, and the port's configuration space takes HLK_SUBSYS; HQE_FRINGf takes an
assignment of quiet, unshared rings and refuses any other with event 3; ENABLE starts a disabled or stopped ring
that has an owner, with its pointers at 0 and its pass at 1; SHUTDOWN drains a running or faulted one, whose
commands before their commit point are dropped; EVQ_EN starts an event queue (R422, R424–R428, R452, R459). Model's
choices: log 92. -/
def Obligations.HostRegistersAct : Prop :=
  ∀ (o : Origin) (v : W32) (s : State), RegsCanonical s →
    (∀ p : Two, Acts (.cfgReadyWrite o v) o HLK_CTL.base s (fun t =>
      bitOf p.val (t.rd HLK_CTL.base).toNat = (bitOf p.val (s.rd HLK_CTL.base).toNat || bitOf p.val v.toNat) ∧
      (bitOf p.val v.toNat = true → bitOf p.val (s.rd HLK_CTL.base).toNat = false →
        (t.host.ports[p]).subsys = s.rd HLK_SUBSYS.base))) ∧
    (∀ f : Fn, Acts (.ringAssignWrite o f v) o (HQE_FRINGf.i f.val).base s (fun t =>
      (assignOk f.val v s = true → t.get (HQE_FRINGf_BASE.i f.val) = bitsOf 13 0 v.toNat ∧
        t.get (HQE_FRINGf_COUNT.i f.val) = bitsOf 26 16 v.toNat) ∧
      (assignOk f.val v s = false → t.rd (HQE_FRINGf.i f.val).base = s.rd (HQE_FRINGf.i f.val).base ∧
        eventSet hqeBlk 3 t))) ∧
    (∀ g a : Nat, a = ringAddr o g 0x0C s → targetOf a s = .reg (RC_CTL.i g).base →
      (bitOf 0 v.toNat = true → ringState g s = 0 ∨ ringState g s = 3 → ringOwner g s ≠ none →
        Acts (.ringEnable o g v) o a s (fun t => ringState g t = 1 ∧ t.get (RC_PTR_HEAD.i g) = 0 ∧
          t.get (RC_PTR_TAIL.i g) = 0 ∧ t.get (RC_PTR_PASS.i g) = 1)) ∧
      (bitOf 1 v.toNat = true → ringState g s = 1 ∨ ringState g s = 4 →
        Acts (.ringShutdown o g v) o a s (fun t => ringState g t = 2 ∧
          (∀ x ∈ t.host.ctxs, x.ring = g → x.silent = true ∨ pastCommit x = true)))) ∧
    (∀ g a f : Nat, a = ringAddr o g 0x20 s → targetOf a s = .reg (RC_EVQ_LO.i g).base → isAdminRing g s = true →
      ringOwner g s = some f → bitOf 0 v.toNat = true → bitOf 0 (s.rd (RC_EVQ_LO.i g).base).toNat = false →
      Acts (.evqEnable o g v) o a s (fun t => t.get (RC_EVQ_PTR_EVQ_TAIL.i g) = 0 ∧ (t.hfn f).evSeq = 1 ∧
        (t.hfn f).evPhase = true))

/-- The commands of the map cache over its range of lines: a preload leaves each line of the range in the way, or
ends with RESULT 1 where the range is not within the map or the pool; an invalidate leaves none of them in the
cache; a write-back leaves none of them dirty; each raises event 3. A lock needs a loaded way that is not disabled,
and a refused one raises event 2 (R534, R535, R541). Model's choices: log 47. -/
def Obligations.CacheCommandsAct : Prop :=
  ∀ (o : Origin) (v : W32) (s : State) (n first : Nat), RegsCanonical s → n = max 1 (s.get MCA_OP_LEN_LINES) →
    first = s.get MCA_ADDR_HI_ADDR * 2 ^ 26 + s.get MCA_ADDR_LO_ADDR →
    (bitOf 31 v.toNat = true → bitsOf 29 28 v.toNat = 1 →
      (opRangeOk first n s = false → Acts (.mcaPreload o v) o MCA_OP.base s (fun t =>
        t.get MCA_OP_RESULT = 1 ∧ eventSet mcaBlk 3 t ∧ t.mca = s.mca)) ∧
      (opRangeOk first n s = true → wayDisabled (bitsOf 27 24 v.toNat) s = false →
        Acts (.mcaPreload o v) o MCA_OP.base s (fun t => t.get MCA_OP_RESULT = 0 ∧ eventSet mcaBlk 3 t ∧
          t.mca.loaded.contains (bitsOf 27 24 v.toNat) = true ∧
          ∀ l, first ≤ l → l < first + n → (lineAt l t.mca.lines).map (·.way) = some (bitsOf 27 24 v.toNat)))) ∧
    (bitOf 31 v.toNat = true → bitsOf 29 28 v.toNat = 2 → Acts (.mcaInvalidate o v) o MCA_OP.base s (fun t =>
      t.get MCA_OP_RESULT = 0 ∧ eventSet mcaBlk 3 t ∧ ∀ l, first ≤ l → l < first + n → lineAt l t.mca.lines = none)) ∧
    (bitOf 31 v.toNat = true → bitsOf 29 28 v.toNat = 3 → Acts (.mcaWriteback o v) o MCA_OP.base s (fun t =>
      t.get MCA_OP_RESULT = 0 ∧ eventSet mcaBlk 3 t ∧
      ∀ k ∈ t.mca.lines, first ≤ k.line → k.line < first + n → k.dirty = false)) ∧
    Acts (.mcaLockWrite o v) o MCA_WAY.base s (fun t =>
      (∀ w, w < 16 → bitOf w v.toNat = false → wayLocked w t = false) ∧
      (∀ w, w < 16 → bitOf w v.toNat = true → wayLocked w s = false → s.mca.loaded.contains w = false →
        wayLocked w t = false ∧ eventSet mcaBlk 2 t) ∧
      (∀ w, w < 16 → s.get MCA_WAY_LOCK = 0 → v.toNat % 65536 = 2 ^ w → s.mca.loaded.contains w = true →
        wayDisabled w s = false → t.get MCA_WAY_LOCK = 2 ^ w))

/-- The expert writes of SEA and MEM, while their block is open: an injection is armed; a remap entry starts its copy and
is kept in flash, or is refused and keeps its value; the modes of the arrays change until SRAM_SEAL; a test command reads
the 80 bytes of a line of the DRAM, writes them as they stand, or writes the encoding of 64 of them (R582, R600, R601, R606–R608,
R612). -/
def Obligations.MemoryCommandsAct : Prop :=
  ∀ (o : Origin) (v : W32) (s : State), RegsCanonical s →
    (blkOpen ⟨.sea, 0⟩ s = true → Acts (.sealInjectArm o v) o SEA_INJ.base s (fun t =>
      t.getb SEA_INJ_ARM = bitOf 31 v.toNat ∧ t.get SEA_INJ_POINT = bitsOf 2 0 v.toNat)) ∧
    (blkOpen memBlk s = true →
      (∀ k : Fin 16, Acts (.remapWrite o k v) o (MEM_REMAPk.i k.val).base s (fun t =>
        (remapRefused k.val v s = true → t.rd (MEM_REMAPk.i k.val).base = s.rd (MEM_REMAPk.i k.val).base) ∧
        (remapRefused k.val v s = false → bitOf 31 v.toNat = true → t.get (MEM_REMAPk_LINE.i k.val) = bitsOf 28 0 v.toNat ∧
          t.getb (MEM_REMAPk_VALID.i k.val) = true ∧ t.mem.copying = some k.val ∧ t.getb MEM_STAT_COPY_BUSY = true ∧
          t.fls.remaps.contains (bitsOf 28 0 v.toNat) = true))) ∧
      Acts (.sramModeWrite o false v) o MEM_SRAM_MODE_LO.base s (fun t =>
        t.rd MEM_SRAM_MODE_LO.base = if s.getb MEM_REPAIR_SRAM_SEAL then s.rd MEM_SRAM_MODE_LO.base else v) ∧
      (s.getb MEM_REPAIR_SRAM_SEAL = true → Acts (.sramModeWrite o true v) o MEM_SRAM_MODE_HI.base s (fun t =>
        t.rd MEM_SRAM_MODE_HI.base = s.rd MEM_SRAM_MODE_HI.base)) ∧
      Acts (.sramSeal o v) o MEM_REPAIR.base s (fun t =>
        t.getb MEM_REPAIR_SRAM_SEAL = (s.getb MEM_REPAIR_SRAM_SEAL || bitOf 8 v.toNat) ∧
        t.get MEM_REPAIR_REMAP_THR = bitsOf 7 0 v.toNat) ∧
      Acts (.sramInjectArm o v) o MEM_SRAM_INJ.base s (fun t => t.getb MEM_SRAM_INJ_ARM = bitOf 31 v.toNat ∧
        t.get MEM_SRAM_INJ_ARRAY = bitsOf 21 16 v.toNat) ∧
      (s.get MEM_TADDR_LINE < dramLines s → lineWaits (s.get MEM_TADDR_LINE) s = false →
      (bitsOf 2 0 v.toNat = 5 → Acts (.testRawRead o v) o MEM_TCMD.base s (fun t => t.getb MEM_TSTAT_DONE = true ∧
        (∀ n, n < 16 → t.get (MEM_TDATAn.i n) = field (dramGet (s.get MEM_TADDR_LINE) t) (4 * n) 4) ∧
        (∀ n, n < 4 → t.get (MEM_TCHKn.i n) = field (dramGet (s.get MEM_TADDR_LINE) t) (64 + 4 * n) 4) ∧ t.mem = s.mem)) ∧
      (bitsOf 2 0 v.toNat = 6 → Acts (.testRawWrite o v) o MEM_TCMD.base s (fun t => t.getb MEM_TSTAT_DONE = true ∧
        dramGet (s.get MEM_TADDR_LINE) t = testBytes s)) ∧
      (bitsOf 2 0 v.toNat = 7 → Acts (.testEncodedWrite o v) o MEM_TCMD.base s (fun t => t.getb MEM_TSTAT_DONE = true ∧
        dramGet (s.get MEM_TADDR_LINE) t = dramEncode (s.get MEM_TADDR_LINE) ((testBytes s).take 64)))))

/-- The commands of a flash bank once the flag scan is done. A read loads the word and its status; a program and an
erase of an idle bank begin, the erase with its flag cell programmed; a program that would raise a bit, and a
command held by the fetch guard, end with their status and change no word; a suspend is accepted 1 ms into an erase
and waits before; a resume of a suspended erase goes on. A write of FETCH_DIVERT begins the diversion, and ends it
where the fetch bank is idle (R619–R624, R626–R631). Model's choices: logs 95, 96, 97. -/
def Obligations.FlashCommandsAct : Prop :=
  ∀ (o : Origin) (b : Two) (v : W32) (s : State), RegsCanonical s → s.getb FLS_STAT_SCAN_DONE = true →
    (∀ err : List Nat, bitsOf 3 0 v.toNat = 1 → wordBank (cmdWord b s) = b → mayReadFlash o (cmdWord b s) s = true →
      readBusy (cmdWord b s) s = false → Acts (.flashRead o b v err) o (FLS_CMDb.i b.val).base s (fun t =>
        t.get (FLS_RESb_STATUS.i b.val) = (readWord (cmdWord b s) err s).1 ∧ eventSet flsBlk (1 + b.val) t ∧
        (∀ k, k < 4 → t.get (FLS_DATAb_n_DATA.ij b.val k) =
          (readWord (cmdWord b s) err s).2.1 / 2 ^ (32 * k) % 2 ^ 32) ∧ t.fls.words = s.fls.words)) ∧
    (bitsOf 3 0 v.toNat = 2 → bankState b s = 0 → wordBank (cmdWord b s) = b → mayWriteFlash o (cmdWord b s) s = true →
      Acts (.flashProgram o b v) o (FLS_CMDb.i b.val).base s (fun t => t.fls.words = s.fls.words ∧
        (fetchGuard b s = true → t.get (FLS_RESb_STATUS.i b.val) = 3 ∧ bankState b t = 0) ∧
        (fetchGuard b s = false → programOk (cmdWord b s) (cmdData b s) s = false →
          t.get (FLS_RESb_STATUS.i b.val) = 2 ∧ bankState b t = 0) ∧
        (fetchGuard b s = false → programOk (cmdWord b s) (cmdData b s) s = true →
          (t.fbank b).prog = some (cmdWord b s, cmdData b s) ∧ bankState b t = 1))) ∧
    (bitsOf 3 0 v.toNat = 3 → bankState b s = 0 → wordBank (cmdWord b s) = b → mayWriteFlash o (cmdWord b s) s = true →
      fetchGuard b s = false → powerHold s = false → Acts (.flashErase o b v) o (FLS_CMDb.i b.val).base s (fun t =>
        (t.fbank b).erasing = some (wordSector (cmdWord b s)) ∧ bankState b t = 2 ∧
        wordSector (cmdWord b s) ∈ t.fls.flags ∧ t.fls.words = s.fls.words)) ∧
    (bitsOf 3 0 v.toNat = 4 → bankState b s = 2 → (s.fbank b).accepted = false →
      Acts (.flashSuspend o b v) o (FLS_CMDb.i b.val).base s (fun t => bankState b t = 2 ∧
        (t.fbank b).accepted = suspendDue b s ∧
        (suspendDue b s = false → t.getb (FLS_RESb_SUSP_PEND.i b.val) = true))) ∧
    (bitsOf 3 0 v.toNat = 5 → bankState b s = 3 → fetchGuard b s = false → powerHold s = false →
      Acts (.flashResume o b v) o (FLS_CMDb.i b.val).base s (fun t => bankState b t = 2 ∧
        t.get (FLS_RESb_STATUS.i b.val) = 0 ∧ (t.fbank b).runSince = s.now)) ∧
    (blkOpen flsBlk s = true → Acts (.fetchDivertWrite o v) o FLS_DIVERT.base s (fun t =>
      (bitOf 0 v.toNat = true → t.getb FLS_STAT_DIVERTED = true) ∧
      (bitOf 0 v.toNat = false → fetchBankIdle s = true → t.getb FLS_STAT_DIVERTED = false ∧ t.fls.stall = [none, none])))

/-- HLT_CLR ends the lasting state of the instances it names, and with WRITE_VERIFY the block on writing, and is
entered in the event log; LOG_EN joins the logs with their DRAM rings; TRIG triggers a running recording once; PREP
judges the recording area; CHOP_CLR ends a chopper fault unless a spindle of the bus brakes (R217, R362, R379, R693,
R710, R711, R751). Model's choices: logs 28, 52, 111, 120. -/
def Obligations.HealthAndRecorderWritesAct : Prop :=
  ∀ (o : Origin) (v : W32) (s : State), RegsCanonical s →
    Acts (.hltClr o v) o HLT_CLR.base s (fun t =>
      (bitsOf 5 0 v.toNat = 0 → t.hlt.classes = s.hlt.classes) ∧
      (bitsOf 5 0 v.toNat ≠ 0 → t.hlt.eventLog.next = s.hlt.eventLog.next + 1 ∧
        ∀ k ∈ t.hlt.classes, k.cls = bitsOf 5 0 v.toNat → bitsOf 11 8 v.toNat = 15 ∨ k.inst = bitsOf 11 8 v.toNat →
          k.lasting = false ∧ k.count = 0) ∧
      (bitsOf 5 0 v.toNat = 15 → ∀ c : Ch, bitsOf 11 8 v.toNat = 15 ∨ c.val = bitsOf 11 8 v.toNat →
        t.getb (DCM_STAT_WRITE_BLOCK.at c) = false ∧ (t.chan c).wrc.stopped = false)) ∧
    (∀ area : LogArea, Acts (.logEnable o v area) o HLT_CTL.base s (fun t => t.getb HLT_CTL_LOG_EN = bitOf 0 v.toNat ∧
      t.hlt.joined = (s.hlt.joined || bitOf 0 v.toNat))) ∧
    (∀ snip : List Byte, bitOf 0 v.toNat = true → s.getb TMB_REC_STAT_RUN = true → s.getb TMB_REC_STAT_TRIGGERED = false →
      Acts (.trigWrite o v snip) o TMB_TRIG.base s (fun t => t.getb TMB_REC_STAT_TRIGGERED = true ∧
        t.rcd.area.trigTick = s.now ∧ t.rcd.area.snip = if s.rcd.snipOn then snip else [])) ∧
    (bitOf 31 v.toNat = true → Acts (.replayPrep o v) o TMB_REPLAY.base s (fun t =>
      t.getb TMB_REPLAY_READY = prepOk (bitsOf 10 8 v.toNat) s ∧
      t.getb TMB_REPLAY_CHECK_FAIL = !prepOk (bitsOf 10 8 v.toNat) s)) ∧
    (∀ b : Two, bitOf 1 v.toNat = true → Acts (.chopClr o b v) o (VMB_CTLx.i b.val).base s (fun t =>
      (busBraking b s = true → t.getb (vmF VMB_STATx_CHOPPER_FAULT b) = s.getb (vmF VMB_STATx_CHOPPER_FAULT b)) ∧
      (busBraking b s = false → t.getb (vmF VMB_STATx_CHOPPER_FAULT b) = false ∧
        t.get (vmF VMB_STATx_FAULT_CAUSE b) = 0 ∧
        ∀ c ∈ busChans b, s.mode c ≠ mREPLAY → t.getb (SPN_STAT_NEG_CLAMP.at c) = false)))


/-! ### The read channel and the detector -/

/-- Syncs and defects. A wedge sync found and named as expected moves the reference and ends a lost flywheel, a
missed one counts; a sector sync within 16 bits decides the alignment of its slot, and one that is missing is
inserted and counts; with the flywheel lost the slot is erased. A defect span or a dropout opens where the level of
its last 32 samples falls below its threshold and closes after it (R142–R150, R164–R166). Model's choices: logs 9,
58, 75, 82, 147, 148, 160, 163. -/
def Obligations.SyncsAndDefects : Prop :=
  ∀ (c : Ch) (b : Beam) (s : State), Awake s → RegsCanonical s →
    (∀ i : WedgeSyncIn, let k := s.sig c (beamSig b); let pred := if k.wide then 0 else k.wref;
      let u := noteClip c (beamSig b) (powered c (beamSig b) i.adc s).xs (pllPreamble c b i.phaseErr s);
      (∀ d, nearest (wedgeSyncs c b i u) = some d →
        d.natAbs ≤ (if k.wide then 64 else 24) ∧
        (∃ wn lz, i.names.find? (fun n => n.1 == d) = some (d, wn, lz) ∧ wedgeNamed c wn lz u = true) ∧
        Leads (.wedgeSync c b i) s (fun t => (t.sig c (beamSig b)).wide = false ∧
          (t.sig c (beamSig b)).wref = pred + d ∧ (t.sig c (beamSig b)).inserted = 0 ∧
          t.getb (sigF RDC_STAT_FLY_LOST c b.val) = false)) ∧
      (nearest (wedgeSyncs c b i u) = none → Leads (.wedgeSync c b i) s (fun t =>
        (t.sig c (beamSig b)).wref = pred ∧
        (t.sig c (beamSig b)).wide = (k.wide && s.getb (sigF RDC_STAT_FLY_LOST c b.val)) ∧
        t.get (sigF RDC_CNT_WEDGE_WSYNC_MISS c b.val) = min (s.get (sigF RDC_CNT_WEDGE_WSYNC_MISS c b.val) + 1)
          (2 ^ RDC_CNT_WEDGE_WSYNC_MISS.width - 1)))) ∧
    (∀ (q : Fin 8) (adc : Samples) (t0 : TileRead), (s.chan c).rdc.under = some t0 → t0.reading = true →
      slotNo q b < t0.slots.length → let pred := (s.sig c (beamSig b)).wref;
      let u := noteClip c (beamSig b) (powered c (beamSig b) adc s).xs (rowOpen c q.val s);
      let near := nearest (within 16 (candsAt c (beamSig b) sectorPat 64 adc pred u));
      (s.getb (sigF RDC_STAT_FLY_LOST c b.val) = true → Leads (.sectorSync c b q adc) s (fun t =>
        ∃ t1, (t.chan c).rdc.under = some t1 ∧ t1.slots.getD (slotNo q b) {} =
          { slotErased t0.rung 4 (t0.slots.getD (slotNo q b) {}) with base := pred })) ∧
      (∀ d, s.getb (sigF RDC_STAT_FLY_LOST c b.val) = false → near = some d →
        Leads (.sectorSync c b q adc) s (fun t => (t.sig c (beamSig b)).inserted = 0 ∧
          (t.sig c (beamSig b)).wref = (if d.natAbs ≤ 1 then pred + d else pred) ∧
          ∃ t1, (t.chan c).rdc.under = some t1 ∧ t1.slots.getD (slotNo q b) {} =
            { t0.slots.getD (slotNo q b) {} with sync := if d.natAbs ≤ 1 then 0 else 1, syncD := d, base := pred })) ∧
      (s.getb (sigF RDC_STAT_FLY_LOST c b.val) = false → near = none →
        Leads (.sectorSync c b q adc) s (fun t =>
          t.get (sigF RDC_CNT_SYNC_INSERTED c b.val) = min (s.get (sigF RDC_CNT_SYNC_INSERTED c b.val) + 1)
            (2 ^ RDC_CNT_SYNC_INSERTED.width - 1) ∧
          ∃ t1, (t.chan c).rdc.under = some t1 ∧ t1.insertedAny = true ∧ t1.slots.getD (slotNo q b) {} =
            { t0.slots.getD (slotNo q b) {} with sync := 2, syncD := 0, base := pred }))) ∧
    (∀ (pos : Nat) (y : List Int), spanOpen c (beamSig b) s = false →
      8 * envelope y < atLeast1 (DET_DEFECT_DROP_THR.at c) s * s.get (sigF RDC_STAT_ENV_REF c b.val) →
      Leads (.defectSpanStart c b pos y) s (fun t =>
        (t.sig c (beamSig b)).spans = (s.sig c (beamSig b)).spans ++ [⟨pos - 31 - s.get (DET_DEFECT_GUARD.at c), none⟩] ∧
        t.getb (sigF RDC_STAT_DEFECT c b.val) = true ∧
        t.get (DET_CNT_MISC_DEFECT_SPANS.at c) = min (s.get (DET_CNT_MISC_DEFECT_SPANS.at c) + 1)
          (2 ^ DET_CNT_MISC_DEFECT_SPANS.width - 1))) ∧
    (∀ (pos : Nat) (y : List Int), spanOpen c (beamSig b) s = true → 64 ≤ upperRun c b s y.length y →
      Leads (.defectSpanEnd c b pos y) s (fun t => spanOpen c (beamSig b) t = false ∧ (t.sig c (beamSig b)).spans =
        closeSpan (pos + 1 - upperRun c b s y.length y + s.get (DET_DEFECT_GUARD.at c)) (s.sig c (beamSig b)).spans)) ∧
    (∀ (outer : Bool) (pos : Nat) (y : List Int),
      (spanOpen c (sumSig outer) s = false → isDropout c (sumSig outer) (sumLevel y) s = true →
        Leads (.dropoutStart c outer pos y) s (fun t => spanOpen c (sumSig outer) t = true ∧
          t.getb (sigF RDC_STAT_DEFECT c (sumSig outer).val) = true)) ∧
      (spanOpen c (sumSig outer) s = true → isDropout c (sumSig outer) (sumLevel y) s = false →
        Leads (.dropoutEnd c outer pos y) s (fun t => spanOpen c (sumSig outer) t = false)))

/-- The read of a tile slot. A wanted slot is armed where the address before it is the expected one, and fails its
arming otherwise; a completed row is stored and joins the queue, that of a re-read waits; a decode settles its slot,
and an accepted content passes its checks; the outer decode empties the place of the tile and delivers what it has,
in WRITE mode too; an attempt of the ladder delivers anew, and the offsets of a re-read leave with its slot's last
wedge (R14, R138, R148, R160, R161, R170–R176, R257). Model's choices: logs 9, 32, 77, 78, 79, 80, 82, 123, 144,
145, 146, 149, 150, 158, 159, 161, 162, 164, 165. -/
def Obligations.TileSlotsAreRead : Prop :=
  ∀ (c : Ch) (s : State), Awake s → RegsCanonical s →
    (∀ p : TilePos, readMode c s = true → coresRun s = true → leaving c s = false →
      s.getb (DCM_STAT_TRANSFER_WAIT.at c) = false → readsOn c s = true →
      (∀ needed, (s.chan c).rdc.prev = none → wantOf p (s.chan c).rdc.wanted = some needed → readRoom c s = true →
        (armed c p s = true → Leads (.tileReadStart c p) s (fun t => (t.chan c).rdc.prev = (s.chan c).rdc.tile ∧
          (t.chan c).rdc.tile = some { freshRead p needed (relocHomes p (s.chan c).dcm.spares) false with arm := true } ∧
          wantOf p (t.chan c).rdc.wanted = none)) ∧
        (armed c p s = false → Leads (.tileReadStart c p) s (fun t => (t.chan c).rdc.tile = (s.chan c).rdc.tile ∧
          (t.chan c).srv.slipSeen = true ∧ t.get (DET_CNT_MISC_ARM_FAIL.at c) =
            min (s.get (DET_CNT_MISC_ARM_FAIL.at c) + 1) (2 ^ DET_CNT_MISC_ARM_FAIL.width - 1)))) ∧
      (∀ t0, (s.chan c).rdc.prev = some t0 → t0.pos = p → 2 ≤ t0.rung → t0.rung ≤ 4 → t0.rereading = false →
        (s.chan c).rdc.jumpDue = false → (s.chan c).rdc.tile = none →
        armed c p s = true → Leads (.tileReadStart c p) s (fun t => (t.chan c).rdc.prev = some { t0 with
          rereading := true, arm := true, stopped := false, rowsDone := 0, rowsEnd := 8, lineOnly := [], rows := []
          queue := [], slots := t0.slots.map (fun x => if x.st = .accepted ∨ x.st = .erased 7 then x else {}) }))) ∧
    (∀ (q : Fin 8) (i : RowIn) (t0 : TileRead), whichTile c (rowOfPrev (s.chan c).rdc q.val) s = some t0 →
      t0.arm = false → t0.rowsDone = q.val → q.val < t0.rowsEnd → Leads (.sectorRowComplete c q i) s (fun t =>
        ∃ t1, whichTile c (rowOfPrev (s.chan c).rdc q.val) t = some t1 ∧ t1.rowsDone = q.val + 1 ∧
          (∃ r ∈ t1.rows, r.q = q.val) ∧ (t0.rereading = false → q.val ∈ t1.queue) ∧
          (t0.rereading = true → t1.queue = []) ∧
          ∀ b : Beam, slotNo q b < t0.slots.length → (t1.slots.getD (slotNo q b) {}).st ≠ .waiting)) ∧
    (∀ (q : Fin 8) (b : Beam) (t0 : TileRead), let prev := decodesPrev c (slotNo q b) s; let x := t0.slots.getD (slotNo q b) {};
      whichTile c prev s = some t0 → x.st = .decoding → Leads (.ldpcDecodeDone c q b) s (fun t =>
        (∃ t1, whichTile c prev t = some t1 ∧ t1.slots.getD (slotNo q b) {} =
          slotResult c t0.pos (slotNo q b) 0 (slotDecode c t0 q b false s) x s ∧
          (t1.slots.getD (slotNo q b) {}).st ≠ .decoding ∧ ((t1.slots.getD (slotNo q b) {}).st = .accepted →
            slotGood t0.pos (slotNo q b) (discTag c s) (t1.slots.getD (slotNo q b) {}).content = true)) ∧
        (slotDecode c t0 q b false s = none → t.get (DET_CNT_LDPC_FAIL_INLINE.at c) =
          min (s.get (DET_CNT_LDPC_FAIL_INLINE.at c) + 1) (2 ^ DET_CNT_LDPC_FAIL_INLINE.width - 1)))) ∧
    (∀ t0 : TileRead, (s.chan c).rdc.prev = none → (s.chan c).rdc.tile = some t0 → t0.verify = false → t0.arm = false →
      tileSettled t0 = true → t0.rowsEnd ≤ t0.rowsDone → Leads (.outerDecodeDone c) s (fun t =>
        (t.chan c).rdc.tile = none ∧ ∃ o ∈ (t.chan c).rdc.outBuf, o.pos = t0.pos ∧
        ((outerTile t0).1.decoded = true ∨ isBlank t0 = true ∨ missing (outerTile t0).1 = [] →
          (t.chan c).rdc.prev = none ∧ o.partly = false))) ∧
    (∀ t0 : TileRead, (s.chan c).rdc.prev = some t0 → s.mode c ≠ mWRITE →
      t0.rung = 1 ∨ (2 ≤ t0.rung ∧ t0.rung ≤ 4 ∧ t0.rereading = true ∧ t0.arm = false ∧ t0.reading = false ∧
        t0.rowsEnd ≤ t0.rowsDone) → Leads (.ladderReread c) s (fun t =>
        (∃ o ∈ (t.chan c).rdc.outBuf, o.pos = t0.pos) ∧
        ∀ t1, (t.chan c).rdc.prev = some t1 → t1.rereading = false)) ∧
    (∀ (sigs : List SigWedge) (t0 : TileRead), s.mode c ≠ mREPLAY →
      ((s.chan c).srv.pllLocked = true ∨ ∃ n, (s.chan c).srv.holdover = some (n + 1)) →
      let u := applyStaged (s.chan c).rdc.pend (s.onRdc c (fun r => { r with pend := [] }));
      (u.chan c).rdc.jumpDue = false → (u.chan c).rdc.prev = some t0 → t0.reading = true → t0.arm = false →
      tileT t0.pos ≤ t0.wedges → Leads (.wedgeBoundary c sigs) s (fun t =>
        t.get (SRV_LADDER_LADDER_F.at c) = 0 ∧ t.get (SRV_LADDER_LADDER_T.at c) = 0 ∧
        ∃ t1, (t.chan c).rdc.prev = some t1 ∧ t1.reading = false))


/-! ### The write channel -/

/-- The write of a tile slot. The tile at the head of the buffers is armed under the conditions of R193, STATE
showing 1, and its codes go out from the first wedge, STATE showing 2; without them nothing is armed, an incomplete
tile counts an underrun and an unexpected address a failed arming. Its verify reports the outcome; waiting blocks
form a spare tile on the next blank slot where the buffers hold fewer than two tiles. The scales of the laser powers
stay within 0.8 and 1.25, the read level moves by at most 0.5 % (R13, R193, R194, R211, R212, R216, R219, R221,
R225). Model's choices: logs 9, 33, 78, 81, 93, 134, 135, 136, 139, 151. -/
def Obligations.TilesAreWritten : Prop :=
  ∀ (c : Ch) (s : State), Awake s → RegsCanonical s →
    (∀ (t0 : WTile) (rest : List WTile), (s.chan c).wrc.bufs = t0 :: rest → (s.chan c).wrc.writing = none →
      (s.chan c).wrc.abortPend = none → (s.chan c).wrc.stopped = false → s.mode c = mWRITE → coresRun s = true → leaving c s = false →
      s.getb (DCM_STAT_TRANSFER_WAIT.at c) = false → s.get (SRV_STAT_RECOVERY.at c) = 0 →
      (s.chan c).rdc.tile = none ∨ (s.chan c).rdc.prev = none →
      (t0.whole = false → Leads (.tileWriteStart c t0.pos) s (fun t => (t.chan c).wrc.writing = none ∧
        t.get (WRC_CNT_MISC_UNDERRUN.at c) = min (s.get (WRC_CNT_MISC_UNDERRUN.at c) + 1)
          (2 ^ WRC_CNT_MISC_UNDERRUN.width - 1))) ∧
      (t0.whole = true → writeReady c s = false → exec (.tileWriteStart c t0.pos) s = .next s) ∧
      (t0.whole = true → writeReady c s = true → armed c t0.pos s = false → Leads (.tileWriteStart c t0.pos) s (fun t =>
        (t.chan c).wrc = (s.chan c).wrc ∧ (t.chan c).srv.slipSeen = true ∧ t.get (DET_CNT_MISC_ARM_FAIL.at c) =
          min (s.get (DET_CNT_MISC_ARM_FAIL.at c) + 1) (2 ^ DET_CNT_MISC_ARM_FAIL.width - 1))) ∧
      (t0.whole = true → writeReady c s = true → armed c t0.pos s = true → Leads (.tileWriteStart c t0.pos) s (fun t =>
        (t.chan c).wrc.writing = some t0 ∧ (t.chan c).wrc.bufs = rest ∧
        (t.chan c).wrc.lanesRead = (s.chan c).wrc.lanesRead ∧ t.get (WRC_STAT_STATE.at c) = 1 ∧
        (t.chan c).rdc.tile = some { freshRead t0.pos [] [] true with arm := true }))) ∧
    (∀ sigs : List SigWedge, s.mode c ≠ mREPLAY → (s.chan c).srv.pllLocked = true →
      let u := applyStaged (s.chan c).rdc.pend (s.onRdc c (fun r => { r with pend := [] }));
      (u.chan c).rdc.jumpDue = false → (u.chan c).wrc.writing.isSome = true → u.get (WRC_STAT_STATE.at c) = 1 →
      Leads (.wedgeBoundary c sigs) s (fun t => (t.chan c).wrc.lanesRead = false ∧ t.get (WRC_STAT_STATE.at c) = 2)) ∧
    (∀ (w : WTile) (rest : List WTile) (t0 : TileRead), (s.chan c).wrc.judging = w :: rest →
      (s.chan c).rdc.prev = some t0 → t0.verify = true → t0.pos = w.pos → tileSettled t0 = true →
      t0.rowsEnd ≤ t0.rowsDone → Leads (.tileVerifyJudge c) s (fun t => (t.chan c).wrc.judging = rest ∧ (t.chan c).rdc.prev = none ∧
        ∃ r, (t.chan c).wrc.reports = (s.chan c).wrc.reports ++ [r] ∧ r.pos = w.pos ∧
          r.outcome = judge c (spoil w t0) w s)) ∧
    (∀ (w : WTile) (rest : List WTile) (t0 : TileRead), (s.chan c).wrc.judging = w :: rest →
      (s.chan c).rdc.prev = none → (s.chan c).rdc.tile = some t0 → t0.verify = true → t0.pos = w.pos →
      tileSettled t0 = true → t0.rowsEnd ≤ t0.rowsDone → Leads (.tileVerifyJudge c) s (fun t =>
        (t.chan c).wrc.judging = rest ∧ (t.chan c).rdc.tile = none ∧
        ∃ r, (t.chan c).wrc.reports = (s.chan c).wrc.reports ++ [r] ∧ r.pos = w.pos ∧
          r.outcome = judge c (spoil w t0) w s)) ∧
    (∀ layer zone : Nat, tilesHeld (s.chan c).wrc < 2 →
      spareDue (!dataTileDue c s) (atLeast1 (WRC_RELOC_RELOC_HOLD.at c) s) (s.chan c).wrc.flushing (s.chan c).wrc.reloc =
        some (layer, zone) →
      (spareFull c layer zone s = false → Leads (.spareTileWrite c) s (fun t =>
        ∃ b, (t.chan c).wrc.bufs = (s.chan c).wrc.bufs ++ [b] ∧ b.pos.region = 1 ∧ b.pos.layer = layer ∧
          b.pos.zone = zone ∧ b.blocks = (waitingOf (s.chan c).wrc.reloc layer zone).take 56)) ∧
      (spareFull c layer zone s = true → (s.chan c).wrc.fullSpares.contains (layer, zone) = false →
        Leads (.spareTileWrite c) s (fun t => eventSet ⟨.wrc, c⟩ 6 t ∧ faulted 16 c.val s t))) ∧
    (∀ (lmon : List Nat) (sent : List (Nat × Nat)) (bits : Nat), s.getb (WRC_CTL_APC_EN.at c) = true → s.mode c = mWRITE →
      Leads (.apcUpdate c lmon sent bits) s (fun t =>
      13107 ≤ t.get (WRC_SCALE_WSCALE.at c) ∧ t.get (WRC_SCALE_WSCALE.at c) ≤ 20480 ∧
      (t.get (WRC_SCALE_WSCALE.at c) = 13107 ∨ t.get (WRC_SCALE_WSCALE.at c) = 20480 → eventSet ⟨.wrc, c⟩ 3 t))) ∧
    (∀ rmon : List Nat, s.getb (WRC_CTL_RAPC_EN.at c) = true → readLaser c s = true → Leads (.rapcUpdate c rmon) s (fun t =>
      13107 ≤ t.get (WRC_SCALE_RSCALE.at c) ∧ t.get (WRC_SCALE_RSCALE.at c) ≤ 20480 ∧
      (s.chan c).wrc.rlevel ≤ (t.chan c).wrc.rlevel + (s.chan c).wrc.rlevel / 200 ∧
      (t.chan c).wrc.rlevel ≤ (s.chan c).wrc.rlevel + (s.chan c).wrc.rlevel / 200))

/-- The laser driver's control port. A frame is answered by the next response: a right answer sets LINK_OK and
checks a level, a third wrong one sets LSAFE and fails the link; with no frame due STATUS is read; BANK goes out
only in READ codes with the other bank checked whole (R203–R205, R208, R209). Model's choices: logs 9, 31. -/
def Obligations.DriverPortRuns : Prop :=
  ∀ (c : Ch) (s : State), Awake s → RegsCanonical s →
    (∀ (resp : BitVec 32) (f : DrvFrame) (rest : List DrvFrame), (s.chan c).wrc.frame = none →
      (s.chan c).wrc.due = f :: rest → Leads (.driverFrame c resp) s (fun t =>
        (t.chan c).wrc.prevFrame = some f ∧ (t.chan c).wrc.frame = none ∧ (t.chan c).wrc.lastFrameTick = s.now ∧
        (∀ a, (s.chan c).wrc.prevFrame = some a → respOk resp = true → bitOf 26 resp.toNat = false →
          a.write = false ∨ bitsOf 23 8 resp.toNat = a.data → (s.chan c).wrc.swapCheck = false →
          t.getb (WRC_STAT_LINK_OK.at c) = true ∧ (a.write = true → 0x10 ≤ a.addr → a.addr < 0x28 →
            (s.chan c).wrc.checked.length = 24 → (t.chan c).wrc.checked.getD (a.addr - 0x10) false = true)) ∧
        (∀ a, (s.chan c).wrc.prevFrame = some a → respOk resp = false → 2 ≤ a.tries →
          t.getb (WRC_STAT_LSAFE.at c) = true ∧ t.getb (WRC_STAT_LINK_OK.at c) = false ∧ eventSet ⟨.wrc, c⟩ 5 t ∧
          faulted 13 c.val s t) ∧
        (∀ a, (s.chan c).wrc.prevFrame = some a → respOk resp = false → a.tries < 2 →
          (t.chan c).wrc.due = { a with tries := a.tries + 1 } :: rest))) ∧
    ((s.chan c).wrc.frame = none → (s.chan c).wrc.due = [] → Leads (.driverStatusPoll c) s (fun t =>
      (t.chan c).wrc.frame = some { write := false, addr := 0, data := 0 } ∧ (t.chan c).wrc.lastFrameTick = s.now)) ∧
    ((s.chan c).wrc.writing = none → (s.chan c).wrc.lanesRead = true → s.mode c = mWRITE ∨ s.mode c = mCAL →
      Leads (.bankSwap c) s (fun t =>
        (bankReady c s = true → t.getb (WRC_STAT_BANK.at c) = !s.getb (WRC_STAT_BANK.at c) ∧
          (t.chan c).wrc.active = (s.chan c).wrc.inactive ∧ (t.chan c).wrc.swapCheck = true ∧
          (t.chan c).wrc.bankOk = true) ∧
        (bankReady c s = false → t.getb (WRC_STAT_BANK.at c) = s.getb (WRC_STAT_BANK.at c) ∧
          (t.chan c).wrc.active = (s.chan c).wrc.active)))

/-! ### Motion, spindles and supplies -/

/-- The events of the motion generator and the current limit: the filtered home input is accepted, shows in HOME_IN
and drives homing, whose capture moves the position and stops the axis; the run current falls to the hold current
after its delay; a homing phase that runs too far fails and leaves the axis in HOME; a seek that misses its count
returns to following and starts a recovery; and the current limit cuts the active vector (R290, R293, R307–R310,
R315, R327). Model's choices: logs 9, 29, 61, 131. -/
def Obligations.MotionEventsAct : Prop :=
  (∀ (c : Ch) (x : Two) (s : State), Awake s → RegsCanonical s →
    (s.axis c x).homeCand ≠ s.getb (axF AX_STAT_HOME_IN c x) →
    s.get (axF AX_HCTL_HOME_FILT c x) + 1 ≤ (s.axis c x).homeRun → Leads (.homeInputChange c x) s (fun t =>
      t.getb (axF AX_STAT_HOME_IN c x) = (s.axis c x).homeCand ∧ axMode c x t = axMode c x s ∧
      (axMode c x s ≠ 3 ∨ s.mode c = mREPLAY ∨ (s.axis c x).homeStop = true → t.axis c x = s.axis c x) ∧
      (axMode c x s = 3 → s.mode c ≠ mREPLAY → (s.axis c x).homeStop = false →
        (s.get (axF AX_STAT_HOME_PHASE c x) = 1 → (s.axis c x).homeCand = true →
          t.axis c x = { s.axis c x with homeStop := true }) ∧
        (s.get (axF AX_STAT_HOME_PHASE c x) = 2 → (s.axis c x).homeCand = false →
          t.axis c x = { s.axis c x with releaseP := some (s.axis c x).p }) ∧
        (∀ d, s.get (axF AX_STAT_HOME_PHASE c x) = 3 → (s.axis c x).homeCand = true →
          d = s.geti (axF AX_HOMEPOS_HOME_POS c x) - (s.axis c x).homeAt →
          (t.axis c x).p = (s.axis c x).p + d * posUnit ∧ (t.axis c x).homeStop = true ∧
          (t.axis c x).phi =
            if s.getb (axF AX_CTL_DIR_INV c x) then (s.axis c x).phi + d else (s.axis c x).phi - d)))) ∧
  ∀ (c : Ch) (s : State), Engine c s → RegsCanonical s →
    (∀ x : Two, (s.axis c x).vel = 0 → (s.axis c x).runs = [] →
      (s.axis c x).restTick + s.get (axF AX_HCTL_HOLD_DELAY c x) ≤ s.now →
      Leads (.holdDelayExpiry c x) s (fun t => (t.axis c x).holdCur = true)) ∧
    (∀ x : Two, axMode c x s = 3 → phaseFailed c x s = true → Leads (.homingPhaseFail c x) s (fun t =>
      axMode c x t = 3 ∧ t.get (axF AX_STAT_HOME_PHASE c x) = 0 ∧ t.getb (axF AX_STAT_HOMED c x) = false ∧
      (t.axis c x).queue = [] ∧ (t.axis c x).runs = [] ∧ (t.axis c x).aborting = decide ((s.axis c x).vel ≠ 0) ∧
      eventSet ⟨.mot, c⟩ 4 t ∧ faulted 6 c.val s t ∧
      (s.mode c = mPARKED → t.get (DCM_STAT_HEADING.at c) = mOFF ∧ t.get (DCM_ERR_CAUSE.at c) = 2))) ∧
    (∀ n : Nat, (s.chan c).mot.profEnd = some n → s.get (MOT_SEEK_KIND.at c) ≠ 0 → (s.chan c).mot.returned = false →
      n + 64 ≤ s.now → (s.chan c).srv.count ≠ (s.chan c).mot.seekDelta →
      Leads (.seekCountTimeout c) s (fun t => (t.chan c).mot.returned = true ∧ t.get (MOT_SEEK_KIND.at c) = 0 ∧
        (t.loop c 1).closing = true ∧ t.get (MOT_CNT_SEEK_MISS.at c) = min (s.get (MOT_CNT_SEEK_MISS.at c) + 1) (2 ^ MOT_CNT_SEEK_MISS.width - 1) ∧
        (s.get (SRV_STAT_RECOVERY.at c) = 0 → t.get (SRV_STAT_RECOVERY.at c) = 2 ∧
          t.get (SRV_STAT_ATTEMPT.at c) = 1 ∧ (t.chan c).srv.step = .slipWait))) ∧
    (∀ k : Fin 2000, (s.chan c).spn.pat.off = false → k.val < (s.chan c).spn.pat.ta → (s.chan c).spn.cut = none →
      Leads (.currentLimit c k) s (fun t => (t.chan c).spn.cut = some k.val ∧ t.regs = s.regs))

/-- How a spindle start goes from state to state: the watch ends in the probe, the probe in a start or a failed
attempt, a time-out fails the attempt, the sixth failure halts the spindle with fault class 7, and the pause ends in
the next attempt (R340–R343). Model's choices: logs 9, 22, 61, 152, 153. -/
def Obligations.SpindleStartsRun : Prop :=
  ∀ (c : Ch) (s : State), Engine c s → RegsCanonical s →
    (spnSt c s = 1 → (s.chan c).spn.lastCross + 800 ≤ s.now → Leads (.startWatchTimeout c) s (fun t =>
      spnSt c t = 2 ∧ (t.chan c).spn.probe = [] ∧ (t.chan c).spn.stateTick = s.now)) ∧
    (∀ b mx mn : Nat, spnSt c s = 2 → (s.chan c).spn.probe.length = 6 →
      (s.chan c).spn.stateTick + 6 * (probeTicks c s + 40) ≤ s.now → probeBest 0 (s.chan c).spn.probe = (b, mx, mn) →
      (s.get (SPN_START_PROBE_MIN.at c) * mx ≤ (mx - mn) * 256 → Leads (.probeEnd c) s (fun t =>
        spnSt c t = 3 ∧ (t.chan c).spn.raw = false ∧
        (t.chan c).spn.theta = turn60 ([1, 4, 3, 6, 5, 2].getD b 1 - 1) ∧ (t.chan c).spn.omega = 0)) ∧
      ((mx - mn) * 256 < s.get (SPN_START_PROBE_MIN.at c) * mx → s.get (SPN_STAT_ATTEMPT.at c) < 6 →
        Leads (.probeEnd c) s (fun t => spnSt c t = 6 ∧ eventSet ⟨.spn, c⟩ 2 t)) ∧
      ((mx - mn) * 256 < s.get (SPN_START_PROBE_MIN.at c) * mx → 6 ≤ s.get (SPN_STAT_ATTEMPT.at c) →
        Leads (.probeEnd c) s (fun t => spnSt c t = 12 ∧ eventSet ⟨.spn, c⟩ 7 t ∧ faulted 7 c.val s t))) ∧
    ((spnSt c s = 1 ∧ (s.chan c).spn.stateTick + max 1 (s.get (SPN_STIME_START_PAUSE.at c)) * 256 ≤ s.now ∨
      spnSt c s = 3 ∧ (s.chan c).spn.stateTick + max 1 (s.get (SPN_STIME_START_TIME.at c)) * 256 ≤ s.now) →
      (s.get (SPN_STAT_ATTEMPT.at c) < 6 → Leads (.startTimeout c) s (fun t =>
        spnSt c t = 6 ∧ eventSet ⟨.spn, c⟩ 2 t ∧ (t.chan c).spn.next = {})) ∧
      (6 ≤ s.get (SPN_STAT_ATTEMPT.at c) → Leads (.startTimeout c) s (fun t =>
        spnSt c t = 12 ∧ eventSet ⟨.spn, c⟩ 7 t ∧ faulted 7 c.val s t))) ∧
    (spnSt c s = 6 → (s.chan c).spn.stateTick + max 1 (s.get (SPN_STIME_START_PAUSE.at c)) * 256 ≤ s.now →
      s.get (SPN_STAT_ATTEMPT.at c) < 6 → Leads (.startPauseEnd c) s (fun t =>
        spnSt c t = 1 ∧ t.get (SPN_STAT_ATTEMPT.at c) = s.get (SPN_STAT_ATTEMPT.at c) + 1 ∧
        (t.chan c).spn.collect = [] ∧ (t.chan c).spn.lastCross = s.now))

/-- A running spindle: back-EMF edges catch the rotor, find the loss of the observer and time the six-step
commutation; the commutation steps; a lost commutation begins a catch; a catch coasts, collects, and fails after its
time; the short brake closes its legs; and a spindle that stands still ends where it was to go (R338–R340,
R345–R357). Model's choices: logs 9, 23, 61, 67. -/
def Obligations.SpindlesRunAndStop : Prop :=
  ∀ (c : Ch) (s : State), Engine c s → RegsCanonical s →
    (∀ (ph : Fin 3) (rising : Bool) (cycle : Int) (x : Crossing) (l : List Crossing),
      x = edgeCrossing ph rising cycle s → l = (x :: (s.chan c).spn.cross).take 7 →
      (spnSt c s ≠ 5 → Leads (.bemfEdge c ph rising cycle) s (fun t =>
        (t.chan c).spn.cross = l ∧ (t.chan c).spn.lastCross = s.now ∧
        (∀ y a, spnSt c s = 1 → (s.chan c).spn.contStart = false → (s.chan c).spn.collect = [y, a] →
          crossStep a.angle y.angle = 1 → crossStep y.angle x.angle = 1 →
          spnSt c t = 4 ∧ (t.chan c).spn.raw = false ∧ t.get (SPN_STAT_ATTEMPT.at c) = 0) ∧
        (∀ y a, spnSt c s = 1 → (s.chan c).spn.collect = [y, a] →
          crossStep a.angle y.angle = -1 → crossStep y.angle x.angle = -1 →
          spnSt c t = 9 ∧ (t.chan c).spn.afterBrake = .restart ∧ eventSet ⟨.spn, c⟩ 5 t) ∧
        (spnSt c s = 4 ∨ spnSt c s = 8 → speedLost c (s.onSpn c (fun k => { k with cross := l })) = true →
          spnSt c t = 7 ∧ eventSet ⟨.spn, c⟩ 4 t ∧ faulted 8 c.val s t) ∧
        (spnSt c s = 4 ∨ spnSt c s = 8 → speedLost c (s.onSpn c (fun k => { k with cross := l })) = false →
          spnSt c t = spnSt c s))) ∧
      (spnSt c s = 5 → ph.val = (sixLegs (s.chan c).spn.next.vec).2.2 →
        x.angle = ((s.chan c).spn.next.vec + 4) % 6 → (s.chan c).spn.commDue = none →
        (s.chan c).spn.commTick + s.get (SPN_SIX_EDGE_TICKS.at c) + s.get (SPN_SIX_BLANK_TICKS.at c) ≤ x.time / 2000 →
        Leads (.bemfEdge c ph rising cycle) s (fun t => (t.chan c).spn.cross = l ∧
          (s.getb (SPN_CTL_DRIVE.at c) = false → (s.chan c).spn.brakePend = false → spnSt c t = 4) ∧
          ((s.chan c).spn.brakePend = true → spnSt c t = 9 ∧ (t.chan c).spn.afterBrake = .idle) ∧
          (∀ p, p = crossPeriod2 { (s.chan c).spn with cross := l } → s.getb (SPN_CTL_DRIVE.at c) = true →
            (s.chan c).spn.brakePend = false → s.get (SPN_SIX_SIX_MIN.at c) * polesOf c s * p ≤ 16000000000 →
            spnSt c t = 5 ∧
            (t.chan c).spn.commDue = some ((120 * x.time + p * (30 - advDeg c s) + 239999) / 240000))))) ∧
    (∀ n : Nat, spnSt c s = 5 → (s.chan c).spn.commDue = some n → n ≤ s.now + 1 → (s.chan c).spn.next.vec < 6 →
      Leads (.sixStepCommutation c) s (fun t =>
        (t.chan c).spn.next.vec = ((s.chan c).spn.next.vec + 1) % 6 ∧ (t.chan c).spn.next.six = true ∧
        (t.chan c).spn.commDue = none ∧ (t.chan c).spn.commTick = s.now + 1 ∧
        t.get (SPN_STAT_SECTOR.at c) = ((s.chan c).spn.next.vec + 1) % 6 + 1)) ∧
    (spnSt c s = 5 → (s.chan c).spn.sixCross = none →
      (s.chan c).spn.commTick * 2000 + (s.chan c).spn.sixP2 ≤ s.now * 2000 → Leads (.commutationLost c) s (fun t =>
        spnSt c t = 7 ∧ (t.chan c).spn.catchTick = s.now ∧ (t.chan c).spn.next = {} ∧ eventSet ⟨.spn, c⟩ 4 t ∧
        faulted 8 c.val s t ∧ t.get (SPN_CNT_LOSS_LOSS_SIX.at c) =
          min (s.get (SPN_CNT_LOSS_LOSS_SIX.at c) + 1) (2 ^ SPN_CNT_LOSS_LOSS_SIX.width - 1))) ∧
    (spnSt c s = 7 → (s.chan c).spn.collecting = false → (s.chan c).spn.catchTick + 81 ≤ s.now →
      Leads (.catchCoastEnd c) s (fun t =>
        ((s.chan c).spn.lasting = false → spnSt c t = 7 ∧ (t.chan c).spn.collecting = true ∧
          (t.chan c).spn.collect = []) ∧
        ((s.chan c).spn.lasting = true → spnSt c t = 9 ∧ (t.chan c).spn.afterBrake = .halt))) ∧
    (spnSt c s = 7 → (s.chan c).spn.catchTick + 20000 ≤ s.now → Leads (.catchTimeout c) s (fun t =>
      spnSt c t = 9 ∧ (t.chan c).spn.afterBrake = .restart ∧ eventSet ⟨.spn, c⟩ 5 t ∧
      t.get (SPN_CNT_CATCH_CATCH_FAILS.at c) =
        min (s.get (SPN_CNT_CATCH_CATCH_FAILS.at c) + 1) (2 ^ SPN_CNT_CATCH_CATCH_FAILS.width - 1))) ∧
    (spnSt c s = 9 → (s.chan c).spn.v0 = false → max (s.chan c).spn.lastCross (s.chan c).spn.stateTick + 800 ≤ s.now →
      Leads (.shortV0Start c) s (fun t => spnSt c t = 9 ∧ (t.chan c).spn.v0 = true ∧
        (t.chan c).spn.next = { off := false, vec := 0, ta := 0 })) ∧
    (spnSt c s = 9 → 40000 ≤ (s.chan c).spn.still → Leads (.spindleStopped c) s (fun t =>
      eventSet ⟨.spn, c⟩ 6 t ∧ (t.chan c).spn.v0 = false ∧
      ((s.chan c).spn.afterBrake = .idle → spnSt c t = 0 ∧ t.get (SPN_STAT_ATTEMPT.at c) = 0) ∧
      ((s.chan c).spn.afterBrake = .halt → spnSt c t = 12 ∧ eventSet ⟨.spn, c⟩ 7 t) ∧
      ((s.chan c).spn.afterBrake = .restart → s.get (SPN_IND_IND.at c) ≠ 0 → s.get (SPN_IND_PSI_M.at c) ≠ 0 →
        s.get (SPN_FREF_PSI_REF.at c) ≠ 0 → s.get (SPN_TORQ_TMAX.at c) ≠ 0 →
        spnSt c t = 1 ∧ t.get (SPN_STAT_ATTEMPT.at c) = 1)))

/-- The motor supply buses: the chopper turns on at 14.5 V and off at 13.8 V; a chopper fault, a Buffer stop at once
and an undervoltage stop from the next tick boundary act on every spindle of the bus that is not in REPLAY; the
spindles proceed when neither stop lasts (R358–R363). Model's choices: logs 9, 61, 72. -/
def Obligations.SupplyBusesStopSpindles : Prop :=
  ∀ (b : Two) (s : State), Awake s → RegsCanonical s →
    (∀ mv : Nat, 14500 ≤ mv → s.getb (vmF VMB_STATx_CHOP_ON b) = false →
      s.getb (vmF VMB_STATx_CHOPPER_FAULT b) = false → Leads (.chopperOn b mv) s (fun t =>
        t.getb (vmF VMB_STATx_CHOP_ON b) = true ∧ t.get (vmF VMB_CNTx_CHOP_ONS b) =
          min (s.get (vmF VMB_CNTx_CHOP_ONS b) + 1) (2 ^ VMB_CNTx_CHOP_ONS.width - 1))) ∧
    (∀ mv : Nat, mv < 14500 ∨ s.getb (vmF VMB_STATx_CHOPPER_FAULT b) = true →
      Leads (.chopperOn b mv) s (fun t => t = s)) ∧
    (∀ mv : Nat, (mv ≤ 13800 → Leads (.chopperOff b mv) s (fun t => t.getb (vmF VMB_STATx_CHOP_ON b) = false)) ∧
      (13800 < mv → Leads (.chopperOff b mv) s (fun t => t = s))) ∧
    (∀ noCurrent : Bool, s.getb (vmF VMB_STATx_CHOP_ON b) = true → (s.buses[b]).noFall = true ∨ noCurrent = true →
      Leads (.chopperFault b noCurrent) s (fun t =>
        t.getb (vmF VMB_STATx_CHOP_ON b) = false ∧ t.getb (vmF VMB_STATx_CHOPPER_FAULT b) = true ∧
        t.get (vmF VMB_STATx_FAULT_CAUSE b) = (if (s.buses[b]).noFall then 1 else 2) ∧ eventSet vmbBlk 2 t ∧
        faulted 10 b.val s t ∧ ∀ c, c ∈ busChans b → s.mode c ≠ mREPLAY →
          t.getb (SPN_STAT_NEG_CLAMP.at c) = true ∧ (spnSt c s = 8 → spnSt c t = 9) ∧
          (spnSt c s ≠ 8 → spnSt c t = spnSt c s))) ∧
    (∀ mv : Nat, 16000 ≤ mv → s.getb (vmF VMB_STATx_BUFFER_STOP b) = false → Leads (.bufferStop b mv) s (fun t =>
      t.getb (vmF VMB_STATx_BUFFER_STOP b) = true ∧ eventSet vmbBlk 1 t ∧ faulted 9 b.val s t ∧
      t.get (vmF VMB_CNTx_STOPS b) = min (s.get (vmF VMB_CNTx_STOPS b) + 1) (2 ^ VMB_CNTx_STOPS.width - 1) ∧
      ∀ c, c ∈ busChans b → s.mode c ≠ mREPLAY → spnSt c t = 11 ∧ (t.chan c).spn.pat.off = true ∧
        (t.chan c).spn.next = {} ∧ (spnSt c s ≠ 11 → (t.chan c).spn.before = spnSt c s))) ∧
    (s.getb (vmF VMB_STATx_UNDER b) = false → 40 ≤ (s.buses[b]).uvRun → Leads (.undervoltStop b) s (fun t =>
      t.getb (vmF VMB_STATx_UNDER b) = true ∧ eventSet vmbBlk 3 t ∧ faulted 11 b.val s t ∧
      t.get (vmF VMB_CNTx_UV b) = min (s.get (vmF VMB_CNTx_UV b) + 1) (2 ^ VMB_CNTx_UV.width - 1) ∧
      ∀ c, c ∈ busChans b → s.mode c ≠ mREPLAY → spnSt c t = 11 ∧ (t.chan c).spn.pat = (s.chan c).spn.pat ∧
        (t.chan c).spn.next = {} ∧ (spnSt c s ≠ 11 → (t.chan c).spn.before = spnSt c s))) ∧
    (s.getb (vmF VMB_STATx_BUFFER_STOP b) = true → 40 ≤ (s.buses[b]).lowRun → Leads (.bufferStopRelease b) s (fun t =>
      t.getb (vmF VMB_STATx_BUFFER_STOP b) = false ∧ ∀ c, c ∈ busChans b → s.mode c ≠ mREPLAY → spnSt c s = 11 →
        (s.getb (vmF VMB_STATx_UNDER b) = true → spnSt c t = 11) ∧
        (s.getb (vmF VMB_STATx_UNDER b) = false → (s.chan c).spn.held = none →
          ((s.chan c).spn.before = 0 → spnSt c t = 0) ∧
          ((s.chan c).spn.before = 3 →
            spnSt c t = 7 ∧ (t.chan c).spn.collecting = true ∧ (t.chan c).spn.contStart = true) ∧
          ((s.chan c).spn.before = 4 ∨ (s.chan c).spn.before = 5 →
            spnSt c t = 7 ∧ (t.chan c).spn.collecting = true) ∧
          ((s.chan c).spn.before = 8 ∨ (s.chan c).spn.before = 9 → spnSt c t = 9)))) ∧
    (s.getb (vmF VMB_STATx_UNDER b) = true → 40 ≤ (s.buses[b]).okRun → Leads (.undervoltRelease b) s (fun t =>
      t.getb (vmF VMB_STATx_UNDER b) = false ∧ ∀ c, c ∈ busChans b → s.mode c ≠ mREPLAY → spnSt c s = 11 →
        (s.getb (vmF VMB_STATx_BUFFER_STOP b) = true → spnSt c t = 11) ∧
        (s.getb (vmF VMB_STATx_BUFFER_STOP b) = false → (s.chan c).spn.held = none →
          ((s.chan c).spn.before = 0 → spnSt c t = 0) ∧
          ((s.chan c).spn.before = 3 →
            spnSt c t = 7 ∧ (t.chan c).spn.collecting = true ∧ (t.chan c).spn.contStart = true) ∧
          ((s.chan c).spn.before = 4 ∨ (s.chan c).spn.before = 5 →
            spnSt c t = 7 ∧ (t.chan c).spn.collecting = true) ∧
          ((s.chan c).spn.before = 8 ∨ (s.chan c).spn.before = 9 → spnSt c t = 9))))

/-! ### Modes and power -/

/-- The mode sequencer of a channel: the transitions whose triggers hold, the answers to its time-outs, the
resumption of transfer and the change of profile (R375–R378, R387). Model's choices: logs 9, 25, 29, 74, 132. -/
def Obligations.ModesChange : Prop :=
  ∀ (c : Ch) (s : State), Awake s → RegsCanonical s →
    (coresRun s = true → (s.chan c).dcm.powerWait = false →
      (s.mode c = mOFF → s.get (DCM_CTL_MODE_REQ.at c) ≠ mOFF → s.tb.lost = false →
        Leads (.modeTransition c) s (fun t => t.mode c = mPARKED)) ∧
      (s.mode c = mPARKED → homing c s = false → trimRun c s = false →
        (s.get (DCM_CTL_MODE_REQ.at c) = mOFF → Leads (.modeTransition c) s (fun t => t.mode c = mOFF ∧
          ∀ x : Two, t.getb (axF AX_STAT_HOMED c x) = false)) ∧
        (isWorking (s.get (DCM_CTL_MODE_REQ.at c)) = true → Leads (.modeTransition c) s (fun t =>
          t.mode c = mSPINUP ∧ (t.chan c).dcm.modeTick = s.now))) ∧
      (s.mode c = mSPINUP → leaving c s = false → spnSt c s = 4 ∨ spnSt c s = 5 →
        s.getb (SRV_STAT_SPEED_OK.at c) = true → Leads (.modeTransition c) s (fun t => t.mode c = mACQUIRE)) ∧
      (s.mode c = mSPINUP ∨ s.mode c = mACQUIRE ∨ s.mode c = mSEEK ∨ isWorking (s.mode c) = true →
        leaving c s = true → (s.chan c).wrc.writing = none →
        Leads (.modeTransition c) s (fun t => t.mode c = mBRAKE ∧ t.getb (DCM_STAT_TRANSFER_WAIT.at c) = true)) ∧
      (s.mode c = mBRAKE → spnSt c s = 0 ∨ spnSt c s = 12 → (s.axis c 0).vel = 0 → (s.axis c 0).runs = [] →
        (s.axis c 0).queue = [] → s.getb (axF AX_STAT_HOMED c 0) = false ∨
          stepOf (s.axis c 0).p = s.geti (axF AX_HOMEPOS_HOME_POS c 0) →
        Leads (.modeTransition c) s (fun t => t.mode c = mPARKED ∧ t.getb (DCM_STAT_TRANSFER_WAIT.at c) = false ∧
          (t.chan c).wrc.emittersOff = true))) ∧
    (coresRun s = false → Leads (.modeTransition c) s (fun t => t = s)) ∧
    (∀ n : Nat, (s.chan c).dcm.runTick = some n → s.mode c = mSPINUP →
      n + timeField (DCM_TIME_SPINUP_TIME.at c) 40000 s < s.now → leaving c s = false →
      Leads (.spinupTimeout c) s (fun t => t.get (DCM_CTL_MODE_REQ.at c) = mPARKED ∧ t.get (DCM_ERR_CAUSE.at c) = 3 ∧
        eventSet ⟨.dcm, c⟩ 2 t)) ∧
    (s.mode c = mSEEK → (s.chan c).dcm.modeTick + timeField (DCM_TIME_SEEK_TIME.at c) 4000 s < s.now →
      leaving c s = false → Leads (.seekTimeout c) s (fun t => t.get (DCM_ERR_CAUSE.at c) = 7 ∧
        ((s.chan c).dcm.retried = false → t.mode c = mACQUIRE ∧ (t.chan c).dcm.retried = true) ∧
        ((s.chan c).dcm.retried = true → t.mode c = mSEEK ∧ t.get (DCM_CTL_MODE_REQ.at c) = mPARKED ∧
          eventSet ⟨.dcm, c⟩ 2 t))) ∧
    (s.mode c = mBRAKE → (s.chan c).dcm.modeTick + timeField (DCM_TIME_BRAKE_TIME.at c) 40000 s < s.now →
      Leads (.brakeTimeout c) s (fun t => t.mode c = mPARKED ∧ t.getb (DCM_STAT_STOPPED.at c) = true ∧
        t.get (DCM_ERR_CAUSE.at c) = 12 ∧ eventSet ⟨.dcm, c⟩ 2 t ∧ eventSet ⟨.dcm, c⟩ 3 t ∧
        (spnSt c s ≠ 12 → spnSt c t = 10))) ∧
    (∀ n : Nat, (s.chan c).dcm.busTick = some n → 2 ≤ s.mode c → s.mode c ≤ 10 →
      n + timeField (DCM_TIME_BUS_WAIT.at c) 4000 s < s.now → Leads (.busWaitTimeout c) s (fun t =>
        (t.chan c).dcm.busTick = none ∧ t.get (DCM_CTL_MODE_REQ.at c) = mPARKED ∧ t.get (DCM_ERR_CAUSE.at c) = 11 ∧
        eventSet ⟨.dcm, c⟩ 2 t)) ∧
    (∀ b : Fin 8, s.getb (DCM_STAT_TRANSFER_WAIT.at c) = true → s.getb (SRV_STAT_SPEED_OK.at c) = true →
      transferOk c s = true → isWorking (s.mode c) = true → (s.chan c).srv.addrValid = true →
      (s.sig c ⟨b.val, by omega⟩).synced = true → Leads (.transferResume c) s (fun t =>
        t.getb (DCM_STAT_TRANSFER_WAIT.at c) = false ∧ regsBut [(DCM_STAT_TRANSFER_WAIT.at c).base] s t)) ∧
    ((s.chan c).dcm.profPend = true → slotUnder c s = false → Leads (.profileApply c) s (fun t =>
      t.profile c = wantProfile c s ∧ (t.chan c).dcm.profPend = false ∧
      (isWorking (s.mode c) = true → (t.chan c).dcm.seekNeeded = true)))

/-- Power failure and the loss of the timebase. A low PWRFAIL_N is noted at once and confirmed later, when writing
stops and the lanes go to READ on every channel; the part resumes when the pin is high, and held spindle commands
act; a lost timebase turns every channel off and is fault class 0 (R33, R222, R290, R325, R380, R744). Model's
choices: logs 8, 9, 30, 83, 134. -/
def Obligations.PowerAndTimebaseFail : Prop :=
  ∀ s : State, Awake s → RegsCanonical s →
    (s.pwr.pwrfailLow = false → Leads .pwrfailAssert s (fun t =>
      t.pwr.pwrfailLow = true ∧ t.pwr.confirmed = false ∧ t.regs = s.regs)) ∧
    (s.pwr.pwrfailLow = true → Leads .pwrfailAssert s (fun t => t = s)) ∧
    (s.pwr.pwrfailLow = true → s.pwr.confirmed = false → Leads .pwrfailConfirmed s (fun t =>
      t.pwr.confirmed = true ∧ t.pwr.boundaryDue = true ∧ t.pwr.restartDue = true ∧
      t.getb FLS_STAT_PWRFAIL_HOLD = true ∧ ∀ c : Ch, t.getb (WRC_STAT_PWRFAIL_SEEN.at c) = true ∧
        t.getb (WRC_STAT_LSAFE.at c) = true ∧ (t.chan c).wrc.lanesRead = true ∧
        ((s.chan c).wrc.writing ≠ none → t.get (WRC_STAT_ABORT_CAUSE.at c) = 1 ∧ eventSet ⟨.wrc, c⟩ 1 t ∧
          (t.chan c).wrc.abandonPend = true))) ∧
    (s.pwr.pwrfailLow = false ∨ s.pwr.confirmed = true → Leads .pwrfailConfirmed s (fun t => t = s)) ∧
    (s.pwr.pwrfailLow = true → Leads .pwrfailDeassert s (fun t => t.pwr.pwrfailLow = false ∧
      t.pwr.highSince = s.now ∧ t.getb FLS_STAT_PWRFAIL_HOLD = false ∧
      ∀ c : Ch, s.mode c ≠ mREPLAY → busStopped (busOf c) s = false → (t.chan c).spn.held = none)) ∧
    (s.pwr.restartDue = true → s.pwr.pwrfailLow = false → s.pwr.highSince + 4000 ≤ s.now →
      Leads .pwrfailRestart s (fun t => t.pwr.restartDue = false ∧ ∀ c : Ch, (t.chan c).dcm.powerWait = false ∧
        ((s.chan c).dcm.powerWait = true → (t.chan c).dcm.modeTick = s.now))) ∧
    (s.tb.lost = false → Leads .timebaseLost s (fun t => t.tb.lost = true ∧ t.tb.tick = s.tb.tick ∧ faulted 0 0 s t ∧
      ∀ c : Ch, t.mode c = mOFF ∧ t.getb (DCM_STAT_STOPPED.at c) = true ∧ t.get (DCM_ERR_CAUSE.at c) = 10 ∧
        (t.chan c).wrc.lanesRead = true ∧ (t.chan c).wrc.emittersOff = true ∧
        (s.mode c ≠ mOFF → ∀ x : Two, t.getb (axF AX_STAT_HOMED c x) = false))) ∧
    (s.tb.lost = true → Leads .timebaseLost s (fun t => t = s))

/-! ### The host ports -/

/-- The ports: configuration requests, the links, BAR2, MSI-X masks, denied reads and error messages (R394–R399,
R401–R403, R405, R414, R415). Model's choices: logs 9, 84, 88, 89. -/
def Obligations.PortsAnswer : Prop :=
  ∀ s : State, Awake s → RegsCanonical s →
    (∀ (f : Fn) (q : CfgReq),
      (cfgReady (fnPort f.val) s = false → Leads (.configRequest f q) s (sends (.retryStatus (fnPort f.val)) s)) ∧
      (cfgReady (fnPort f.val) s = true → fnExists f.val s = false →
        Leads (.configRequest f q) s (sends (.unsupported (fnPort f.val)) s))) ∧
    (∀ f : Fn, cfgReady (fnPort f.val) s = true → fnExists f.val s = true →
      (Leads (.configRequest f .identity) s (sends (.identity f.val (cfgView f.val s)) s) ∧
        (cfgView f.val s).device = (if f.val % 32 = 0 then 0x6848 else 0x6849) ∧
        (cfgView f.val s).subsys = (s.host.ports[fnPort f.val]).subsys.toNat ∧
        (cfgView f.val s).totalVfs = (if f.val % 32 = 0 then 31 else 0)) ∧
      (∀ (mps mrrs : Nat) (ro : Bool), f.val % 32 = 0 → Leads (.configRequest f (.devCtl mps mrrs ro)) s (fun t =>
        sends (.cfgDone f.val false) s t ∧ (t.hfn f.val).mps = min 512 mps ∧ (t.hfn f.val).mrrs = min 4096 mrrs ∧
        (t.hfn f.val).relaxed = ro)) ∧
      (∀ (v : Nat) (off : Bool), f.val % 32 = 0 → Leads (.configRequest f (.devCtl2 v off)) s (fun t =>
        sends (.cfgDone f.val false) s t ∧ (t.hfn f.val).ctoValue = v ∧ (t.hfn f.val).ctoOff = off)) ∧
      (∀ en mask : Bool, Leads (.configRequest f (.msixCtl en mask)) s (fun t =>
        t.host.sent.getLast? = some (.cfgDone f.val false) ∧ (t.hfn f.val).msixEn = en ∧ (t.hfn f.val).msixMask = mask)) ∧
      Leads (.configRequest f .powerD3) s (fun t => sends (.cfgDone f.val false) s t ∧ (t.hfn f.val).d3hot = true) ∧
      (f.val % 32 = 0 → Leads (.configRequest f .vfEnable) s (fun t => sends (.cfgDone f.val false) s t ∧
        t.getb (HLK_PORTp_VF_EN.i (fnPort f.val).val) = true))) ∧
    (∀ p : Two, Leads (.linkTrainingStart p) s (fun t => (t.host.ports[p]).training = true ∧
      t.getb (HLK_PORTp_PERST.i p.val) = false)) ∧
    (∀ (p : Two) (speed width : Nat), (s.host.ports[p]).training = true → Leads (.linkUp p speed width) s (fun t =>
      t.getb (HLK_PORTp_LINK_UP.i p.val) = true ∧ t.get (HLK_PORTp_SPEED.i p.val) = clampN 1 5 speed ∧
      t.get (HLK_PORTp_WIDTH.i p.val) = trainWidth width ∧ eventSet hlkBlk 1 t ∧
      bitOf p.val (t.get HLT_SB_LINK_UP) = true)) ∧
    (∀ (p : Two) (n : Nat), cfgReady p s = true → Leads (.numvfsWrite p n) s (fun t =>
      (s.getb (HLK_PORTp_VF_EN.i p.val) = false → n ≤ 31 →
        t.get (HLK_PORTp_NUM_VFS.i p.val) = n ∧ sends (.cfgDone (32 * p.val) false) s t) ∧
      (s.getb (HLK_PORTp_VF_EN.i p.val) = true ∨ 31 < n → t.regs = s.regs ∧ sends (.cfgDone (32 * p.val) true) s t))) ∧
    (∀ (f : Fn) (off n : Nat), fnExists f.val s = true → n = 4 ∨ n = 8 → off % n = 0 → off + n ≤ 16384 →
      Leads (.bar2Access f off (.read n)) s (sends (.complete f.val (if fnResetting f.val s then zeros n
        else (List.range n).map (fun k => bar2Byte f.val (off + k) s))) s)) ∧
    (∀ (f : Fn) (off n : Nat), fnExists f.val s = true → (n ≠ 4 ∧ n ≠ 8) ∨ off % n ≠ 0 ∨ 16384 < off + n →
      Leads (.bar2Access f off (.read n)) s (fun t => AerErr.unsupported ∈ (t.hfn f.val).aer ∧
        t.host.sent = s.host.sent ++ [.error f.val 1, .unsupported (fnPort f.val)])) ∧
    (∀ (f : Fn) (off : Nat) (b : List Byte), fnExists f.val s = true → fnResetting f.val s = false →
      b.length = 4 ∨ b.length = 8 → off % b.length = 0 → off < 1024 → off % 16 + b.length ≤ 12 →
      Leads (.bar2Access f off (.write b)) s (fun t => ∀ k, k < b.length → bar2Byte f.val (off + k) t = b.getD k 0)) ∧
    (∀ f : Fn, Leads (.unsupportedRequest f false) s (sends (.error (govFn f.val) 1) s) ∧
      Leads (.unsupportedRequest f true) s (fun t => AerErr.unsupported ∈ (t.hfn (govFn f.val)).aer ∧
        t.host.sent = s.host.sent ++ [.error (govFn f.val) 1, .unsupported (fnPort f.val)])) ∧
    (∀ (f : Fn) (a : Nat), f.val ≠ afFunc s → tenantMayRead f.val a = false → fnExists f.val s = true →
      fnResetting f.val s = false → Leads (.tenantReadDenied f a) s (fun t => sends (.complete f.val (zeros 4)) s t ∧
        t.get (HLK_DCNTp_DENIED_RD.i (fnPort f.val).val) =
          min (s.get (HLK_DCNTp_DENIED_RD.i (fnPort f.val).val) + 1) (2 ^ HLK_DCNTp_DENIED_RD.width - 1))) ∧
    (∀ f : Fn, Leads (.msixUnmask f none) s (fun t => (t.hfn f.val).msixMask = false ∧ ∀ v, v ∈ (t.hfn f.val).pba →
        (t.hfn f.val).msixEn = false ∨ (t.vect f.val v).masked = true) ∧
      ∀ v : Nat, Leads (.msixUnmask f (some v)) s (fun t => (t.vect f.val (v % 64)).masked = false ∧
        (v % 64 ∈ (t.hfn f.val).pba → (t.hfn f.val).msixEn = false ∨ (t.hfn f.val).msixMask = true))) ∧
    (∀ (f : Fn) (e : AerErr) (hdr : List Nat), Leads (.aerError f e hdr) s (fun t =>
      sends (.error (if aerLink e then govFn f.val else f.val) (aerClass e)) s t ∧
      e ∈ (t.hfn (if aerLink e then govFn f.val else f.val)).aer))

/-- Function resets: a reset of one function, of a port, by VF Enable, by the way out of D3hot and by the end of a
link raises the reset of each function, drops its commands that are not past their commit point, resets its rings
and its configuration, and closes its lock keys; a reset ends when its requests and commands have ended (R397, R399,
R410–R412, R422). Model's choices: logs 9, 92. -/
def Obligations.FunctionsReset : Prop :=
  ∀ s : State, Awake s → RegsCanonical s →
    (∀ f : Fn, f.val % 32 ≠ 0 → fnExists f.val s = true → cfgReady (fnPort f.val) s = true →
      Leads (.flrVf f) s (fun t => fnResetting f.val t = true ∧ eventSet hlkBlk 2 t ∧
        t.hfn f.val = fnDefaults (s.hfn f.val) ∧
        (∀ g, ringFirst f.val s ≤ g → g < ringFirst f.val s + ringTotal f.val s → ringState g t = 0) ∧
        (∀ x, x ∈ s.host.ctxs → x.fn = f.val → pastCommit x = false → t.ctx x.id = none) ∧
        (∀ k, k ∈ t.locks → k.opener ≠ .fn f))) ∧
    (∀ f : Fn, f.val % 32 = 0 ∨ fnExists f.val s = false ∨ cfgReady (fnPort f.val) s = false →
      Leads (.flrVf f) s (fun t => t = s)) ∧
    (∀ p : Two, (cfgReady p s = true → Leads (.flrPf p) s (fun t => eventSet hlkBlk 2 t ∧
        t.getb (HLK_PORTp_VF_EN.i p.val) = false ∧ t.get (HLK_PORTp_NUM_VFS.i p.val) = 0 ∧
        fnResetting (32 * p.val) t = true ∧ ∀ f, f ∈ vfsOf p s → fnResetting f t = true)) ∧
      (cfgReady p s = false → Leads (.flrPf p) s (fun t => t = s))) ∧
    (∀ p : Two, (s.getb (HLK_PORTp_VF_EN.i p.val) = true → cfgReady p s = true → Leads (.vfEnableClear p) s (fun t =>
        t.getb (HLK_PORTp_VF_EN.i p.val) = false ∧ ∀ f, f ∈ vfsOf p s → fnResetting f t = true)) ∧
      (s.getb (HLK_PORTp_VF_EN.i p.val) = false → Leads (.vfEnableClear p) s (fun t => t = s))) ∧
    (∀ f : Fn, ((s.hfn f.val).d3hot = true → Leads (.d3hotToD0 f) s (fun t =>
        (t.hfn f.val).d3hot = false ∧ fnResetting f.val t = true ∧ eventSet hlkBlk 2 t)) ∧
      ((s.hfn f.val).d3hot = false → Leads (.d3hotToD0 f) s (fun t => t = s))) ∧
    (∀ (p : Two) (k : LinkEnd), Leads (.linkDown p k) s (fun t =>
      t.getb (HLK_PORTp_LINK_UP.i p.val) = false ∧ t.getb (HLK_PORTp_VF_EN.i p.val) = false ∧
      t.get (HLK_PORTp_NUM_VFS.i p.val) = 0 ∧ t.getb (HLK_PORTp_PERST.i p.val) = decide (k = .perst) ∧
      (t.host.ports[p]).training = decide (k ≠ .perst) ∧ (t.host.ports[p]).subsys = s.rd HLK_SUBSYS.base ∧
      fnResetting (32 * p.val) t = true ∧ eventSet hlkBlk 2 t ∧
      (s.getb (HLK_PORTp_LINK_UP.i p.val) = true → eventSet hlkBlk 1 t))) ∧
    (∀ f : Fn, (fnResetting f.val s = true → resetOver f.val s = true → Leads (.functionResetEnd f) s (fun t =>
        fnResetting f.val t = false ∧ ∀ g : Fn, g ≠ f → fnResetting g.val t = fnResetting g.val s)) ∧
      (resetOver f.val s = false → Leads (.functionResetEnd f) s (fun t => t = s)))

/-! ### Rings, commands and namespaces -/

/-- Host memory reads, drains, grants, reservations and the arbiter (R409, R416, R438, R439, R448, R450, R453,
R491). Model's choices: logs 9, 87, 92, 100. -/
def Obligations.GrantsAndTransfersRun : Prop :=
  ∀ s : State, Awake s → RegsCanonical s →
    (∀ (p : Two) (n : Nat) (q : Req), (s.host.ports[p]).reqs[n]? = some q →
      Leads (.dmaCompletion p n .good) s (fun t => t.host.ctxs = s.host.ctxs ∧
        ∃ l, (t.host.ports[p]).reqs = (s.host.ports[p]).reqs.eraseIdx n ++ l ∧ l.length ≤ 1) ∧
      (∀ (x : Ctx) (e : DmaEnd) (code : Nat), s.ctx q.ctx = some x → pastCommit x = false →
        (e, code) ∈ [(DmaEnd.unsupported, 8), (.abort, 9), (.poisoned, 10)] →
        Leads (.dmaCompletion p n e) s (fun t => violates x.fn code s t ∧ ended x 0x14 code 0 s t)) ∧
      ((s.hfn (govFn q.fn)).ctoOff = true ∨ (s.hfn (govFn q.fn)).ctoValue = 0 ∧ s.now < q.sent + 16000 →
        Leads (.completionTimeout p n) s (fun t => t = s)) ∧
      ((s.hfn (govFn q.fn)).ctoOff = false → (s.hfn (govFn q.fn)).ctoValue ≠ 0 ∨ q.sent + 16000 ≤ s.now → Leads (.completionTimeout p n) s (fun t =>
        (t.host.ports[p]).late = (s.host.ports[p]).late ++ [q] ∧
        ∀ x, s.ctx q.ctx = some x → pastCommit x = false → violates x.fn 11 s t ∧ ended x 0x14 11 0 s t))) ∧
    (∀ (g f : Nat) (tags : List (Option Nat)), ringOwner g s = some f → ringState g s = 2 →
      (∀ x, x ∈ s.host.ctxs → x.ring = g → x.silent = true) → Leads (.drainComplete g tags) s (fun t =>
        ringState g t = 3 ∧ t.getb (RC_CTL_SHUTDOWN.i g) = false ∧ (t.ringX g).drops = [])) ∧
    (∀ (id n : Nat) (x : Ctx), s.ctx id = some x → x.granted = some n →
      (s.get HQE_GRANT_GRANT_TMO ≠ 0 → n + ticks10ms (s.get HQE_GRANT_GRANT_TMO) ≤ s.now →
        Leads (.grantExpiry id) s (fun t => ended x 1 0 0 s t ∧ eventSet hqeBlk 2 t ∧
          t.get HQE_CNT_GRANT_EXPIRED = min (s.get HQE_CNT_GRANT_EXPIRED + 1) (2 ^ HQE_CNT_GRANT_EXPIRED.width - 1))) ∧
      (s.get HQE_GRANT_GRANT_TMO = 0 → Leads (.grantExpiry id) s (fun t => t = s))) ∧
    (∀ (id n : Nat) (x : Ctx) (k : Ns), s.ctx id = some x → x.parked = some n → nsFind x.nsid s = some k →
      k.sidingTmo ≠ 0 → n + k.sidingTmo * 400000 ≤ s.now →
      (x.isWrite = true → Leads (.sidingTimeout id) s
        (ended x 0x20 (((absentWrite x k s).getD 0) % 65536) (transferred x s) s)) ∧
      (x.op = 3 → Leads (.sidingTimeout id) s
        (ended x 0x20 (((absentRead x k s).getD (gotPrefix x, 0)).1 % 65536) 0 s)) ∧
      (x.op = 1 → gotPrefix x = 0 → Leads (.sidingTimeout id) s (ended x 0x20 0 0 s))) ∧
    (∀ x : Ctx, startDue s = some x →
      (x.deferred = true → Leads .bufferReservation s (fun t => recorded x 1 0 0 (x.nlb * x.unit) s t ∧
        ∃ y, t.ctx x.id = some y ∧ y.granted = some s.now ∧ y.stage = 1)) ∧
      (x.deferred = false → Leads .bufferReservation s (fun t => ∃ y, t.ctx x.id = some y ∧ y.receiving = true))) ∧
    (∀ x : Ctx, startDue s = none → s.host.ctxs.find? (fun x => x.isWrite && x.reserved.isNone && x.stage == 0 &&
        x.parked.isNone && !x.silent) = some x →
      (stripeBytes s < (s.get STR_BUF_USED_BLOCKS + x.nlb) * 4112 → Leads .bufferReservation s (fun t => t = s)) ∧
      ((s.get STR_BUF_USED_BLOCKS + x.nlb) * 4112 ≤ stripeBytes s → yardReceive x s = false →
        Leads .bufferReservation s (fun t => ∃ y, t.ctx x.id = some y ∧ y.reserved = some x.nlb))) ∧
    (s.host.act = none → s.host.admin = none → ∀ f g : Nat, ctxFree s = true → adminDue s = some (f, g) →
      Leads .arbiterGrant s (fun t => t.host.admin = some g ∧ t.host.lastAdmin = f)) ∧
    (s.host.act = none → adminDue s = none → s.host.grant = none → s.host.inRound = true → ∀ g n : Nat,
      n = min (clampN 1 64 (s.get (RC_CFG_BURST.i g))) (min (s.ringX g).credit (unfetched g s)) →
      walkNext s = some g ∨ walkNext s = none ∧ ioBusy s ≠ [] ∧ walkNext (walkBegin s) = some g →
      Leads .arbiterGrant s (fun t => t.host.walk = g + 1 ∧ t.host.grant = some { ring := g, left := n })) ∧
    (s.host.act.isSome = true → Leads .arbiterGrant s (fun t => t = s))

/-- Doorbells, staging doorbells, fetched entries and received data: what the rules accept takes effect, and what
they do not is a violation with its code or the status of the record; a register write at a doorbell is that
doorbell's (R47, R411, R426, R434–R436, R441, R449, R451, R469). Model's choices: logs 9, 85, 86, 87, 119, 140. -/
def Obligations.QueuesTakeEntries : Prop :=
  ∀ s : State, Awake s → RegsCanonical s →
    (∀ (f : Fn) (r : Nat) (v : W32), fnResetting f.val s = false → (s.hfn f.val).d3hot = false →
      fnExists f.val s = true →
      (∀ be : BitVec 4, be ≠ 0xF → Leads (.doorbell f r be v) s (violates f.val 5 s) ∧
        ∀ e, Leads (.stagingDoorbell f r be v e) s (violates f.val 5 s)) ∧
      (ringOf f.val r s = none → Leads (.doorbell f r 0xF v) s (violates f.val 3 s) ∧
        ∀ e, Leads (.stagingDoorbell f r 0xF v e) s (violates f.val 3 s)) ∧
      (∀ g : Nat, ringOf f.val r s = some g → ringState g s = 1 →
        (ringDepth g s ≤ v.toNat → Leads (.doorbell f r 0xF v) s (violates f.val 1 s)) ∧
        (v.toNat < ringDepth g s →
          (v.toNat + ringDepth g s - s.get (RC_PTR_HEAD.i g)) % ringDepth g s <
            (s.get (RC_PTR_TAIL.i g) + ringDepth g s - s.get (RC_PTR_HEAD.i g)) % ringDepth g s →
          Leads (.doorbell f r 0xF v) s (violates f.val 2 s)) ∧
        (v.toNat < ringDepth g s →
          (s.get (RC_PTR_TAIL.i g) + ringDepth g s - s.get (RC_PTR_HEAD.i g)) % ringDepth g s ≤
            (v.toNat + ringDepth g s - s.get (RC_PTR_HEAD.i g)) % ringDepth g s →
          Leads (.doorbell f r 0xF v) s (fun t => t.get (RC_PTR_TAIL.i g) = v.toNat ∧
            t.get (RC_PTR_HEAD.i g) = s.get (RC_PTR_HEAD.i g) ∧ t.hlt = s.hlt))) ∧
      (∀ g : Nat, ringOf f.val r s = some g → ringState g s = 1 ∨ ringState g s = 4 → s.host.act = none →
        (grantedAt g v.toNat s = none → ∀ e, Leads (.stagingDoorbell f r 0xF v e) s (violates f.val 4 s)) ∧
        (∀ x, v.toNat < ringDepth g s → grantedAt g v.toNat s = some x →
          (∀ code, Leads (.stagingDoorbell f r 0xF v (.failed code)) s (fun t =>
            violates x.fn (clampN 8 11 code) s t ∧ ended x 0x14 (clampN 8 11 code) 0 s t)) ∧
          (∀ (b : List Byte) (segs : List (Nat × Nat)) (e : List Byte), field b 63 1 = 1 →
            e = x.entry.take 32 ++ (b.drop 32).take 32 → bufferFault e segs = none → field e 40 4 = x.nlb * x.unit →
            (∀ k, k < 3 → field e (45 + k) 1 = 0) →
            Leads (.stagingDoorbell f r 0xF v (.entry b segs)) s (fun t => ∃ y, t.ctx x.id = some y ∧
              y.receiving = true ∧ y.granted = none ∧ y.entry = e ∧ y.segs = segs))))) ∧
    (∀ (o : Origin) (a : Nat) (be : BitVec 4) (v : W32) (e : FetchEnd) (f : Fn) (r : Nat), Reaches o a s →
      (targetOf a s = .bell f r false → exec (.registerWrite o a be v none e) s = exec (.doorbell f r be v) s) ∧
      (targetOf a s = .bell f r true → exec (.registerWrite o a be v none e) s = exec (.stagingDoorbell f r be v e) s)) ∧
    (∀ (f : Fn) (r : Nat) (be : BitVec 4) (v : W32), fnResetting f.val s = true ∨ (s.hfn f.val).d3hot = true ∨
      fnExists f.val s = false → Leads (.doorbell f r be v) s (fun t => t = s) ∧
      ∀ e, Leads (.stagingDoorbell f r be v e) s (fun t => t = s)) ∧
    (∀ g f : Nat, s.host.admin = some g → ringOwner g s = some f → s.host.act = none → canFetch g s = true →
      ctxFree s = true →
      (∀ code, Leads (.entryFetched (.failed code)) s (fun t => ringState g t = 4 ∧ eventSet hqeBlk 4 t ∧
        violates f (clampN 8 11 code) s t ∧ t.host.admin = none)) ∧
      (∀ (b : List Byte) (segs : List (Nat × Nat)), s.ctx s.host.nextId = none →
        (checkEntry f (g - ringFirst f s) b segs s = none → Leads (.entryFetched (.entry b segs)) s (fun t =>
          ∃ x, t.ctx s.host.nextId = some x ∧ x.entry = b ∧ x.segs = segs ∧ x.fn = f ∧ x.ring = g ∧
            x.index = s.get (RC_PTR_HEAD.i g) ∧ t.host.nextId = s.host.nextId + 1 ∧ t.host.admin = none)) ∧
        (∀ st d viol, checkEntry f (g - ringFirst f s) b segs s = some (st, d, viol) →
          Leads (.entryFetched (.entry b segs)) s (fun t => (viol ≠ 0 → violates f viol s t) ∧
            ∃ x, x.entry = b ∧ x.fn = f ∧ x.ring = g ∧ x.index = s.get (RC_PTR_HEAD.i g) ∧
              x.phase = s.getb (RC_PTR_PASS.i g) ∧ x.silent = false ∧ ended x st d 0 s t)))) ∧
    (∀ (id : Nat) (x : Ctx) (data : List Byte), Running id 2 x s → x.receiving = true → readsLeft id s = false →
      data.length = x.nlb * x.unit →
      (∀ i, (hostBlocks x data (List.range x.nlb) s).2.1 = some i →
        Leads (.dataReceived id data) s (ended x 0x22 (i % 65536) 0 s)) ∧
      ((hostBlocks x data (List.range x.nlb) s).2.1 = none →
        Leads (.dataReceived id data) s (recorded x 2 0 0 data.length s)))

/-- The I/O commands: a READ or VERIFY whose blocks are all in hand ends, a block that is held is taken and one on a
disc is asked of its channel, a block that cannot be had ends the command with its status, a command that needs an
absent disc parks; a WRITE without a writer ID fails and one with a write set is placed; FLUSH waits for the writes
it covers; QUERY_LOCATION answers (R470–R477, R482, R485, R488). Model's choices: logs 9, 102. -/
def Obligations.IoCommandsEnd : Prop :=
  ∀ s : State, Awake s → RegsCanonical s →
    (∀ (id op : Nat) (x : Ctx) (k : Ns) (i : Instr), (op, i) ∈ [(1, Instr.read id), (3, .verify id)] →
      Running id op x s → nsFind x.nsid s = some k →
      (x.parked.isSome = true ∨ yardRead x s = false → Leads i s (fun t => t = s)) ∧
      (x.parked = none → yardRead x s = true →
        (∀ m, absentRead x k s = some m → mayPark k s = true → Leads i s (fun t =>
          ∃ y, t.ctx id = some y ∧ y.parked = some s.now)) ∧
        ((∀ n, n < x.nlb → x.got.any (fun g => g.1 == n) = true) →
          (op = 3 → Leads i s (ended x 0 0 0 s)) ∧
          (∀ bytes bad s', op = 1 → deliverBlocks x (List.range x.nlb) s = (bytes, bad, s') →
            (bad = none → Leads i s (ended x 0 0 bytes.length s)) ∧
            (∀ m, bad = some m → Leads i s (ended x 0x22 (m % 65536) bytes.length s)))) ∧
        (x.nlb = 1 → x.got = [] → x.lost = [] → x.rung5 = [] →
          (∀ b, blockSrc x k 0 s = .data b → (op = 3 → Leads i s (ended x 0 0 0 s)) ∧
            (op = 1 → (guardCheck 7 x.nsid false b s).1 = true → Leads i s (ended x 0 0 (b.take x.unit).length s))) ∧
          (∀ st a, blockSrc x k 0 s = .lost st a → st ≠ 0x20 → Leads i s (ended x st (lostDetail 0 st a) 0 s)) ∧
          (∀ a, blockSrc x k 0 s = .lost 0x20 a → mayPark k s = false → Leads i s (ended x 0x20 0 0 s)) ∧
          (∀ c p, blockSrc x k 0 s = .read c p → (s.chan c).rdc.outBuf = [] → (s.chan c).rdc.wanted = [] →
            (s.chan c).rdc.tile = none → (s.chan c).rdc.prev = none → Leads i s (fun t =>
              (t.chan c).rdc.wanted = [((srcOf c p s).1, [(srcOf c p s).2])] ∧ ∃ y, t.ctx id = some y ∧ y.since = x.since.or (some s.now)))))) ∧
    (∀ (id : Nat) (x : Ctx) (k : Ns), Running id 2 x s → x.silent = false → x.parked = none → x.placed = false →
      nsFind x.nsid s = some k →
      ((writeSet k.layout s).1 = .noWriter → absentWrite x k s = none →
        Leads (.write id) s (ended x 0x25 0 (transferred x s) s)) ∧
      (∀ n, (writeSet k.layout s).1 = .absent ∨ (writeSet k.layout s).1 = .noWriter ∧ absentWrite x k s = some n →
        mayPark k s = true → x.pieces.all pieceFinal = false → Leads (.write id) s (fun t => ∃ y, t.ctx id = some y ∧ y.parked = some s.now)) ∧
      (∀ w, (writeSet k.layout s).1 = .have w → absentWrite x k s = none → 2 ≤ x.stage → x.pieces ≠ [] →
        (∀ p, p ∈ x.pieces → p.st = .waiting) → Leads (.write id) s (fun t => ∃ y, t.ctx id = some y ∧ y.placed = true ∧
          ∀ p, p ∈ y.pieces → p.st = .placed))) ∧
    (∀ (id : Nat) (x : Ctx), Running id 4 x s →
      (flushCovers x s = [] → Leads (.flush id) s (ended x 0 0 0 s)) ∧
      (flushCovers x s ≠ [] → Leads (.flush id) s (fun t => t.ctx id = some x ∧ t.host = s.host))) ∧
    (∀ (id : Nat) (x : Ctx) (k : Ns), Running id 5 x s → x.parked = none → yardRead x s = true →
      nsFind x.nsid s = some k →
      (∀ runs, absentQuery x k s = none →
        runs = locRuns ((List.range x.nlb).map (fun i => (x.slba + i, locate x k i s))) →
        Leads (.queryLocation id) s (ended x 0 (min 65535 runs.length)
          ((runs.take (x.dataLen / 32)).map locRecord).flatten.length s)) ∧
      (∀ i a, absentQuery x k s = some (i, .lost 0x20 a) →
        (mayPark k s = true → Leads (.queryLocation id) s (fun t => ∃ y, t.ctx id = some y ∧ y.parked = some s.now)) ∧
        (mayPark k s = false → Leads (.queryLocation id) s (ended x 0x20 (i % 65536) 0 s))))

/-- Namespaces and discs: NS_CREATE and NS_DELETE hand one group to the map or end with their status, NS_LIST lists,
and MOUNT_NOTIFY and UNMOUNT begin, go on and end (R381, R383, R478–R480, R487, R505–R508). Model's choices: logs 9,
49, 94, 105, 106, 151. -/
def Obligations.NamespacesAndDiscsCome : Prop :=
  ∀ (id : Nat) (x : Ctx) (s : State), Awake s → RegsCanonical s →
    (Running id 0x80 x s → nsGroupOpen s = false →
      (∀ st d, createFault x s = some (st, d) → Leads (.nsCreate id) s (ended x st d 0 s)) ∧
      (∀ b, createFault x s = none → freeRun (createExts x) s.map.ns = some b → Leads (.nsCreate id) s (fun t =>
        t.map.ready = s.map.ready ++ [{ changes := createChanges x b s, answer := some (id, createNsid x s) }] ∧
        t.ctx id = some x))) ∧
    (Running id 0x81 x s →
      (nsBusy x s = false → nsGroupOpen s = false → Leads (.nsDelete id) s (fun t =>
        t.map.ready = s.map.ready ++ [{ changes := [.nsDelete x.nsid], answer := some (id, 0) }])) ∧
      (nsBusy x s = true ∨ nsGroupOpen s = true → Leads (.nsDelete id) s (fun t => t = s))) ∧
    (∀ n, Running id 0x82 x s →
      n = (s.map.ns.filter (fun k => x.fn == afFunc s || bitOf x.fn k.owners)).length →
      Leads (.nsList id) s (ended x 0 0 (32 * min n (x.dataLen / 32)) s)) ∧
    (∀ d : DiscIn, Running id 0x83 x s →
      (∀ st dt, x.begun = false → mountFault x s = some (st, dt) → Leads (.mountNotify id d) s (ended x st dt 0 s)) ∧
      (x.begun = false → mountFault x s = none → Leads (.mountNotify id d) s (fun t =>
        t.getb (DCM_CTL_DISC_LOADED.at (chanArg x)) = true ∧ t.get (DCM_CTL_MODE_REQ.at (chanArg x)) = mIDLE ∧
        t.get (DCM_TGT_BAND.at (chanArg x)) = 0 ∧ (∃ y, t.ctx id = some y ∧ y.begun = true) ∧
        ∃ m, (t.chan (chanArg x)).dcm.mount = some m ∧ m.ctx = x.id)) ∧
      (x.begun = true → (s.chan (chanArg x)).dcm.mount.map (·.ctx) = some id →
        (fellBack (chanArg x) x s = true → Leads (.mountNotify id d) s (fun t =>
          ended x 0x26 (driveDetail (chanArg x) s) 0 s t ∧ t.getb (DCM_CTL_DISC_LOADED.at (chanArg x)) = false)) ∧
        (fellBack (chanArg x) x s = false → s.mode (chanArg x) ≠ mIDLE →
          Leads (.mountNotify id d) s (fun t => t = s)) ∧
        (fellBack (chanArg x) x s = false → s.mode (chanArg x) = mIDLE →
          (∀ p, identityOf d = some p → identityOk p = true → field p 0 8 = discOf (chanArg x) s →
            discOf (chanArg x) s ≠ 0 → Leads (.mountNotify id d) s (ended x 0 0 0 s)) ∧
          (d.blank = true → discOf (chanArg x) s = 0 → Leads (.mountNotify id d) s (ended x 0 0 0 s)) ∧
          (∀ p, identityOf d = some p → field p 0 8 ≠ discOf (chanArg x) s → Leads (.mountNotify id d) s (fun t =>
            t.getb (DCM_CTL_DISC_LOADED.at (chanArg x)) = false ∧ t.get (DCM_ERR_CAUSE.at (chanArg x)) = 14 ∧
            eventSet ⟨.dcm, chanArg x⟩ 2 t ∧ ∃ dt, ended x 0x26 dt 0 s t))))) ∧
    (Running id 0x84 x s →
      (s.getb (DCM_STAT_STOPPED.at (chanArg x)) = false → s.getb (DCM_CTL_DISC_LOADED.at (chanArg x)) = false →
        s.mode (chanArg x) = mOFF ∨ s.mode (chanArg x) = mPARKED → Leads (.unmount id) s (ended x 0 0 0 s)) ∧
      (s.getb (DCM_STAT_STOPPED.at (chanArg x)) = true → (s.chan (chanArg x)).dcm.unmountStep = 0 →
        Leads (.unmount id) s (fun t => ended x 0x26 (driveDetail (chanArg x) s) 0 s t ∧
          t.getb (DCM_CTL_DISC_LOADED.at (chanArg x)) = false)) ∧
      (x.begun = true → s.getb (DCM_CTL_DISC_LOADED.at (chanArg x)) = true → fellBack (chanArg x) x s = false →
        (s.chan (chanArg x)).dcm.mount = none → (s.chan (chanArg x)).dcm.unmountStep = 3 →
        (s.chan (chanArg x)).dcm.unmountDark = false → s.mode (chanArg x) = mPARKED ∨ s.mode (chanArg x) = mOFF →
        Leads (.unmount id) s (fun t => ended x 0 0 0 s t ∧
          t.getb (DCM_CTL_DISC_LOADED.at (chanArg x)) = false)))

/-- The admin commands besides namespaces, discs, calibration and the recorder: lists of the logs, the time, the
pieces and the activation of firmware, the start of a rebuild, and features (R478, R481, R482, R498, R502–R504,
R529, R570, R641–R643, R700). Model's choices: logs 9, 43, 48, 103, 108, 137. -/
def Obligations.AdminCommandsAct : Prop :=
  ∀ (id : Nat) (x : Ctx) (s : State), Awake s → RegsCanonical s →
    (Running id 0x85 x s → ∀ k n : Nat, (k, n) ∈ [
        (1, (s.hlt.eventLog.held.filter (fun p => decide (field x.entry 24 8 ≤ p.1))).length),
        (2, (s.hlt.changeLog.held.filter (fun p => decide (field x.entry 24 8 ≤ p.1))).length),
        (3, ((violView x.fn s).filter (fun p => decide (field x.entry 24 8 ≤ p.1))).length),
        (4, (s.str.lost.drop (field x.entry 24 8)).length)] → field x.entry 16 1 = k →
      Leads (.getLog id) s (ended x 0 0 (32 * min n (x.dataLen / 32)) s)) ∧
    (Running id 0x86 x s → Leads (.setTime id) s (fun t =>
      t.tb.todStaged = some (field x.entry 16 8) ∧ t.tb.tod = s.tb.tod ∧ ended x 0 0 0 s t)) ∧
    (∀ (data : List Byte) (bad : Bool), Running id 0x87 x s →
      (pieceOk (field x.entry 16 4) x.dataLen s = false → Leads (.fwDownload id data bad) s (ended x 0x11 16 0 s)) ∧
      (pieceOk (field x.entry 16 4) x.dataLen s = true → x.receiving = false → Leads (.fwDownload id data bad) s
        (fun t => ∃ y, t.ctx id = some y ∧ y.receiving = true)) ∧
      (pieceOk (field x.entry 16 4) x.dataLen s = true → x.receiving = true → readsLeft id s = false →
        data.length = x.dataLen → powerHold s = false → Leads (.fwDownload id data bad) s (fun t =>
          (field x.entry 16 4, data.length) ∈ t.fls.down.pieces ∧
          (bad = false → ended x 0 0 data.length s t) ∧
          (bad = true → ended x 0x30 27 data.length s t ∧ faulted 27 0 s t)))) ∧
    (Running id 0x88 x s →
      (s.host.act.isSome = true → Leads (.fwActivate id) s (fun t => t = s)) ∧
      (s.host.act = none → s.host.ctxs.any (fun y => y.op == 0x87 && !y.silent) = false ∨
          field x.entry 16 1 = runImage s →
        (imageCode (field x.entry 16 1) s ≠ 0 → Leads (.fwActivate id) s (ended x 0x11 16 0 s)) ∧
        (imageCode (field x.entry 16 1) s = 0 → Leads (.fwActivate id) s (fun t =>
          t.host.act = some { ctx := id, image := field x.entry 16 1, since := s.now } ∧
          ∃ y, t.ctx id = some y ∧ y.begun = true))) ∧
      (s.host.act = none → s.host.ctxs.any (fun y => y.op == 0x87 && !y.silent) = true →
        field x.entry 16 1 ≠ runImage s → Leads (.fwActivate id) s (ended x 0x11 16 0 s))) ∧
    (∀ a : Activation, s.host.act = some a →
      (a.settled = false → a.since + 800000 ≤ s.now ∨ (∀ y, y ∈ s.host.ctxs → y.id = a.ctx ∨ y.silent = true) →
        Leads .activationDrainTimeout s (fun t => t.host.act = some { a with settled := true, old := runImage s } ∧
          t.fls.coreGap = true ∧ (a.image < 2 → runImage t = a.image) ∧ ∀ r, r ∈ t.cal.runs → r.begun = false)) ∧
      (a.settled = true → Leads .activationDrainTimeout s (fun t => t = s)) ∧
      (a.settled = true → Leads (.activationImageStart true) s (fun t => t.host.act = none ∧ t.fls.coreGap = false ∧
        runImage t = runImage s ∧ t.getb FLS_STAT_FALLBACK = s.getb FLS_STAT_FALLBACK ∧ t.ctx a.ctx = none)) ∧
      (a.settled = true → Leads (.activationImageStart false) s (fun t => t.host.act = none ∧ t.fls.coreGap = false ∧
        (a.old < 2 → runImage t = a.old) ∧ t.ctx a.ctx = none)) ∧
      (∀ b, a.settled = false → Leads (.activationImageStart b) s (fun t => t = s))) ∧
    (∀ c : Ch, Running id 0x89 x s → c.val = field x.entry 16 1 % 6 →
      (∀ st d, rebuildFault c (field x.entry 24 8) s = some (st, d) → Leads (.rebuildStart id) s (ended x st d 0 s)) ∧
      (∀ k, rebuildFault c (field x.entry 24 8) s = none → setWith (field x.entry 24 8) s = some k → k.state ≠ 0 →
        setBusy k.id s = false → (weltSector s.str.welt).isSome = true → Leads (.rebuildStart id) s (fun t =>
          ended x 0 0 0 s t ∧ ∃ r, t.str.rebuild = some r ∧ r.set = k.id ∧ r.failed = field x.entry 24 8 ∧
            r.repl = discOf c s ∧ r.chan = c.val ∧ r.pos = 0))) ∧
    (∀ (c : Ch) (n m : Nat), Running id 0x8A x s → n = field x.entry 16 1 → m = field x.entry 17 1 → s.cal.runs = [] →
      (∀ o, calArgFault n m = some o → Leads (.calibrate id) s (ended x 0x11 o 0 s)) ∧
      (calArgFault n m = none → n = c.val → isTrim m = true →
        (s.mode c = mPARKED → s.getb (DCM_STAT_STOPPED.at c) = false → Leads (.calibrate id) s (fun t =>
          ∃ r, t.cal.runs = [r] ∧ r.begun = true ∧ r.ctx = some id ∧ r.chan = n ∧ r.measure = m)) ∧
        (s.mode c ≠ mPARKED → Leads (.calibrate id) s (ended x 0x11 17 0 s)))) ∧
    (Running id 0x8D x s →
      (x.begun = false → answering id s = false →
        (x.feature = 4 → Leads (.setFeature id) s (fun t => t.memberTmo = x.value ∧ ended x 0 0 0 s t)) ∧
        (x.feature ≤ 3 → Leads (.setFeature id) s (fun t => t.map.ready = s.map.ready ++
          [{ changes := [.featureSet x.nsid x.feature x.value], answer := some (id, 0) }])) ∧
        (∀ k, x.feature = 6 → nsFind x.nsid s = some k →
          (k.importOpen = false → Leads (.importClose id) s (ended x 0 0 0 s)) ∧
          (k.importOpen = true → Leads (.importClose id) s (fun t => t.map.ready = s.map.ready ++
            [{ changes := closeChanges k s, answer := some (id, 0) }])))) ∧
      (x.feature = 5 → allCh.any (fun c => s.getb (DCM_CTL_DISC_LOADED.at c)) = false → s.str.rebuild = none →
        Leads (.setWriterId id) s (fun t => t.writer = x.value ∧ t.fls.writer = some x.value ∧ ended x 0 0 0 s t)) ∧
      (x.feature = 5 → allCh.any (fun c => s.getb (DCM_CTL_DISC_LOADED.at c)) = true →
        Leads (.setWriterId id) s (ended x 0x11 24 0 s))) ∧
    (Running id 0x8E x s → Leads (.getFeature id) s (ended x 0 0 8 s))

/-! ### The recorder and calibration -/

/-- The recorder's commands and events: a recording waits, begins at a 64-tick boundary and ends; its area is read
and loaded; a replay that has no frames left returns its channel to PARKED (R704, R705, R710, R712). Model's
choices: logs 9, 28, 53, 116. -/
def Obligations.RecordingsRun : Prop :=
  ∀ (id : Nat) (x : Ctx) (s : State), Awake s → RegsCanonical s →
    (Running id 0x8B x s → x.recFlag 1 = false → x.begun = false →
      (∀ b, startFault x s = some b → Leads (.recordStart id) s (ended x 0x11 b 0 s)) ∧
      (startFault x s = none → Leads (.recordStart id) s (fun t =>
        t.rcd.waiting = some (field x.entry 16 1 % 64, x.recFlag 0, field x.entry 20 4, field x.entry 17 1) ∧
        t.rcd.startCtx = some id ∧ t.getb TMB_REPLAY_READY = false ∧ ∃ y, t.ctx id = some y ∧ y.begun = true))) ∧
    (∀ data : List Byte, Running id 0x8B x s → x.recFlag 1 = true →
      (recording s = true ∨ replaying s = true → Leads (.recordLoad id data) s (ended x 0x11 18 0 s)) ∧
      (recording s = false → replaying s = false →
        (areaSize s = 0 ∨ areaSize s < x.recOffset + x.dataLen → Leads (.recordLoad id data) s (ended x 0x11 24 0 s)) ∧
        (areaSize s ≠ 0 → x.recOffset + x.dataLen ≤ areaSize s →
          (x.receiving = false → Leads (.recordLoad id data) s (fun t => ∃ y, t.ctx id = some y ∧ y.receiving = true)) ∧
          (x.receiving = true → readsLeft id s = false → data.length = x.dataLen → Leads (.recordLoad id data) s (fun t =>
            ended x 0 0 data.length s t ∧ t.rcd.loaded = s.rcd.loaded ++ [(x.recOffset, data)]))))) ∧
    (Running id 0x8C x s → x.recFlag 1 = false → Leads (.recordStop id) s (fun t =>
      ended x 0 0 0 s t ∧ t.getb TMB_REC_STAT_RUN = false ∧
      (s.getb TMB_REC_STAT_RUN = true → t.get TMB_REC_STAT_STOP_CAUSE = 1 ∧ t.rcd.area.header = true))) ∧
    (Running id 0x8C x s → x.recFlag 1 = true →
      (areaSize s = 0 ∨ areaSize s < x.recOffset + x.dataLen → Leads (.recordRead id) s (ended x 0x11 24 0 s)) ∧
      (areaSize s ≠ 0 → x.recOffset + x.dataLen ≤ areaSize s →
        Leads (.recordRead id) s (ended x 0 0 x.dataLen s))) ∧
    (∀ (set post cls : Nat) (snip : Bool), s.rcd.waiting = some (set, snip, post, cls) →
      ((s.now + 1) % 64 = 0 → set < 64 → Leads .recordingBegin s (fun t => t.getb TMB_REC_STAT_RUN = true ∧
        t.getb TMB_REC_STAT_TRIGGERED = false ∧ t.get TMB_REC_STAT_ACTIVE = set ∧ t.rcd.waiting = none ∧
        t.rcd.area.first = s.now + 1 ∧ t.rcd.area.trigClass = cls ∧ t.rcd.snipOn = snip ∧ t.rcd.post = post)) ∧
      ((s.now + 1) % 64 ≠ 0 → Leads .recordingBegin s (fun t => t = s))) ∧
    ((recDue s = true → Leads .recordingEnd s (fun t => t.getb TMB_REC_STAT_RUN = false ∧
        t.get TMB_REC_STAT_ACTIVE = 0 ∧ t.get TMB_REC_STAT_STOP_CAUSE = 2 ∧ t.rcd.area.header = true)) ∧
      (recDue s = false → Leads .recordingEnd s (fun t => t = s))) ∧
    (∀ c : Ch, s.mode c = mREPLAY → s.rcd.replay = [] → Leads (.replayEnd c) s (fun t =>
      t.mode c = mPARKED ∧ t.get (DCM_CTL_MODE_REQ.at c) = mPARKED ∧ eventSet ⟨.dcm, c⟩ 1 t))

/-- Calibration and ageing: each measurement of a run in progress is accepted with its results or rejected with its
reason; composite runs end by their outcome; results are stored; a scheduled run falls due and begins (R651,
R656–R657, R660–R679). Model's choices: logs 9, 42, 49, 50, 51, 156, 157. -/
def Obligations.CalibrationMeasures : Prop :=
  ∀ (c : Ch) (ref : RefIn) (s : State), Awake s → RegsCanonical s →
    (∀ (r : CalRun), runOn 6 s = some r → nextMeasure r = some 1 → r.refDone = false →
      measures r.measure = [r.measure] →
      ((1225000 ≤ ref.vref ∧ ref.vref ≤ 1275000 ∧ 121250 ≤ ref.iref ∧ ref.iref ≤ 128750) →
        Leads (.calRef ref) s (fun t => t.getb CAL_STAT_REF_OK = true ∧ t.cal.vref = ref.vref ∧ t.cal.iref = ref.iref ∧
          runOn 6 t = none ∧ eventSet calBlk 1 t)) ∧
      (¬(1225000 ≤ ref.vref ∧ ref.vref ≤ 1275000 ∧ 121250 ≤ ref.iref ∧ ref.iref ≤ 128750) →
        Leads (.calRef ref) s (fun t => t.getb CAL_STAT_REF_OK = false ∧ t.get CAL_LAST_REJ_REASON = 1 ∧
          runOn 6 t = none ∧ eventSet calBlk 2 t))) ∧
    (∀ l, Trims (.calAfe c ref l) c 2 (((l.take 10).zipIdx).flatMap (fun p => afeItems c p.2 p.1)) s) ∧
    (∀ l : List (Int × Int), Trims (.calServoOfs c ref l) c 3 (((l.take 9).zipIdx).map (fun p =>
      { fld := CAL_SDOFSk_SD_OFS.ij c.val p.2, r1 := code4096 p.1.1, r2 := code4096 p.1.2, most := 96, agree := 4,
        change := 32, steps := -1 })) s) ∧
    (∀ lm rm : Int × Int, Trims (.calMonitor c ref lm rm) c 4 [
      { fld := CAL_MON_LMON_GAIN.i c.val, r1 := gainOff 1280 (code4096 lm.1), r2 := gainOff 1280 (code4096 lm.2),
        most := 1 / 10, agree := 1 / 200, change := 1 / 50, steps := 1000 },
      { fld := CAL_MON_RMON_GAIN.i c.val, r1 := gainOff 1280 (code4096 rm.1), r2 := gainOff 1280 (code4096 rm.2),
        most := 1 / 10, agree := 1 / 200, change := 1 / 50, steps := 1000 }] s) ∧
    (∀ a b : ShuntIn, Trims (.calShunt c ref a b) c 5 [
      { fld := SPN_TRIM_SH_OFS.at c, r1 := code4096 a.z, r2 := code4096 b.z, most := 24, agree := 1, change := 8,
        steps := -2 },
      { fld := SPN_TRIM_SH_GAIN.at c, r1 := gainOff 1024 (code4096 (a.plus - a.minus)),
        r2 := gainOff 1024 (code4096 (b.plus - b.minus)), most := 1 / 20, agree := 1 / 500, change := 1 / 100,
        steps := 2000 }] s) ∧
    (∀ r : CalRun, r.measure = 0x1F →
      (∀ (l : List (List Nat)) (fits : List (Option (Nat × Nat))), Measuring c.val 0x10 r s →
        fits = (List.range 8).map (fun b => laserFit (s.get ((WRC_LEVEL_BIAS_BASE.at c).i b)) (l.getD b [])) →
        (fits.any (·.isNone) = true → Leads (.calLaser c ref l) s (fun t =>
          calMeasured c.val 0x10 false r t ∧ t.get CAL_LAST_REJ_REASON = 2)) ∧
        (fits.any (·.isNone) = false → Leads (.calLaser c ref l) s (fun t => calMeasured c.val 0x10 true r t ∧
          ∃ q, runOn c.val t = some q ∧ q.res.ith = (fits.filterMap (fun o => o)).map (·.1) ∧
            q.res.eta = (fits.filterMap (fun o => o)).map (·.2)))) ∧
      (∀ (amp : List Nat) (rmean : Nat), Measuring c.val 0x11 r s → Leads (.calResponse c ref amp rmean) s (fun t =>
        calMeasured c.val 0x11 true r t ∧ ∃ q, runOn c.val t = some q ∧ q.res.rmean = rmean % 65536 ∧
          q.res.amp = (List.range 8).map (fun b => amp.getD b 0 % 65536))) ∧
      (∀ l : List (Nat × Nat), Measuring c.val 0x12 r s → Leads (.calActuator c ref l) s (fun t =>
        calMeasured c.val 0x12 true r t ∧ ∃ q, runOn c.val t = some q ∧ q.res.sens = (List.range 3).map (fun k =>
          fit16 (rndQ (quot (4096 * ((l.getD k (0, 0)).1 : Rat)) ((l.getD k (0, 0)).2 : Rat)))))) ∧
      (∀ t1 t2 v2 : Nat, Measuring c.val 0x13 r s → Leads (.calFriction c ref t1 t2 v2) s (fun t =>
        calMeasured c.val 0x13 true r t ∧
        (t.chan c).dcm.band = radialOf (s.get (DCM_STAT_LAYER.at c)) 1180 ∧ ∃ q, runOn c.val t = some q ∧
          q.res.decel = fit16 (rndQ (quot ((57000 - (v2 : Rat)) * 400000) ((t2 : Rat) - (t1 : Rat)))))) ∧
      (∀ l : List (Nat × Nat), Measuring c.val 0x14 r s → (marginTile c s).isSome = true →
        Leads (.calMargin c ref l) s (fun t => calMeasured c.val 0x14 true r t ∧ ∃ q, runOn c.val t = some q ∧
          q.res.ber0 = berUnits (berOf (l.getD 0 (0, 0))) ∧ q.res.berw = berUnits (berOf (l.getD 1 (0, 0)))))) ∧
    (∀ (r : CalRun) (amp : List Nat) (rmean : Nat), r.measure = 0x11 → Measuring c.val 0x11 r s →
      Leads (.calResponse c ref amp rmean) s (fun t => runOn c.val t = none ∧ eventSet calBlk 1 t ∧
        (t.calCh c).latest.rmean = rmean % 65536 ∧
        (t.calCh c).latest.amp = (List.range 8).map (fun b => amp.getD b 0 % 65536))) ∧
    (∀ r : CalRun, r.measure = 0x30 → Measuring c.val 0x30 r s → Leads (.calStoreTables c ref) s (fun t =>
      runOn c.val t = none ∧ (t.calCh c).tables = tablesNow c s ∧
      (t.calCh c).layers = (List.range 16).map (fun l => s.rd ((SRV_LAYERn_SA_POS.at c).i l).base) ∧
      t.fls = (storeTable c ((onRun c.val (fun r => { r with refDone := true }) s).onCalCh c (fun k => { k with
        tables := tablesNow c s
        layers := (List.range 16).map (fun l => s.rd ((SRV_LAYERn_SA_POS.at c).i l).base) }))).fls)) ∧
    (∀ r : CalRun, runOn c.val s = some r → runLost r s = false → runAllDone r = true →
      (r.measure = 0x0F → Leads (.calTrims c) s (fun t => runOn c.val t = none ∧ eventSet calBlk 1 t ∧
        ∀ id x, r.ctx = some id → s.ctx id = some x →
          (r.rejected = [] → ended x 0 0 0 s t) ∧ (r.rejected ≠ [] → ended x 0x30 30 0 s t))) ∧
      (r.measure = 0x1F → Leads (.calAgeing c) s (fun t => runOn c.val t = none ∧ eventSet calBlk 1 t ∧
        (t.calCh c).latest = r.res ∧ ((s.calCh c).lastValid = false ∨ s.getb CAL_CTL_APPLY_EN = false →
          t.fls = (storeMain c [] (takeResults c r s)).fls))) ∧
      (r.measure = 0x20 → Leads (.calLastCapture c) s (fun t => runOn c.val t = none ∧ eventSet calBlk 1 t ∧
        (r.rejected = [] → (t.calCh c).latest = r.res ∧ (t.calCh c).last = r.res ∧ (t.calCh c).lastValid = true ∧
          ∀ k, k < 3 → t.get (scFld c k) = 16384) ∧
        (r.rejected ≠ [] → t.calCh c = s.calCh c)))) ∧
    (s.getb CAL_CTL_SCHED_EN = true → s.get CAL_SCHED_AGE_HOURS ≠ 0 → (s.calCh c).due = none →
      (s.calCh c).latest.valid = [] → s.get CAL_SCHED_AGE_HOURS * 1440000000 ≤ s.now → s.cal.runs = [] →
      Leads (.ageingDue c) s (fun t => (t.calCh c).due = some s.now)) ∧
    (∀ n : Nat, (s.calCh c).due = some n → s.getb (DCM_CTL_DISC_LOADED.at c) = true → s.mode c = mIDLE →
      (s.chan c).dcm.usedTick + s.get CAL_SCHED_IDLE_SEC * 400000 ≤ s.now → s.cal.runs = [] →
      s.getb (DCM_STAT_STOPPED.at c) = false → Leads (.ageingStart c) s (fun t => (t.calCh c).due = none ∧
        t.get (DCM_CTL_MODE_REQ.at c) = mCAL ∧ ∃ r, t.cal.runs = [r] ∧ r.begun = true ∧ r.ctx = none ∧
          r.chan = c.val ∧ r.measure = 0x1F))

/-! ### The map and its cache -/

/-- The map manager: groups are staged and committed one at a time, a commit takes effect with its last record, a
full journal waits, the base is rewritten, the map is recovered at a start, and a due checkpoint takes the
tombstones and the Welt copies of its disc with it (R508, R518–R524, R566, R575). Model's choices: logs 9, 42, 44. -/
def Obligations.MapCommitsAndRecovers : Prop :=
  ∀ s : State, Awake s → RegsCanonical s →
    (∀ (g : Group) (rest : List Group), s.map.busy = none → s.map.ready = g :: rest →
      (s.map.resumed = false → (programmed [.resume s.map.applied] s).isSome = true → Leads .mapCommit s (fun t =>
        t.map.busy = some { changes := [.resume s.map.applied] } ∧ t.map.ready = g :: rest ∧
        t.getb MAP_STAT_JRNL_WAIT = false)) ∧
      (s.map.resumed = true → groupDead g s = true → Leads .mapCommit s (fun t =>
        t.map.busy = none ∧ t.map.ready = rest)) ∧
      (s.map.resumed = true → groupDead g s = false → g.blocks = [] → g.changes ≠ [] →
        ((programmed g.changes s).isSome = true → Leads .mapCommit s (fun t =>
          t.map.busy = some g ∧ t.map.ready = rest ∧ t.getb MAP_STAT_JRNL_WAIT = false ∧
          ∀ id d x, g.answer = some (id, d) → s.ctx id = some x → ∃ y, t.ctx id = some y ∧ y.begun = true)) ∧
        (programmed g.changes s = none → s.getb MAP_STAT_JRNL_WAIT = false → Leads .mapCommit s (fun t =>
          t.map.busy = none ∧ t.map.ready = g :: rest ∧ t.getb MAP_STAT_JRNL_WAIT = true ∧ eventSet mapBlk 1 t)))) ∧
    (s.map.busy.isSome = true ∨ s.map.ready = [] → Leads .mapCommit s (fun t => t = s)) ∧
    (∀ (g : Group) (l : List JRec), s.map.busy = some g → programmed g.changes s = some l →
      Leads .journalRecordProgrammed s (fun t => t.map.jrnl = l ∧ t.map.busy = none ∧ t.map.resumed = true ∧
        t.map.nextSeq = s.map.nextSeq + (l.drop s.map.jrnl.length).length ∧
        t.get MAP_CNT_COMMIT_COMMITS = min (s.get MAP_CNT_COMMIT_COMMITS + 1) (2 ^ MAP_CNT_COMMIT_COMMITS.width - 1) ∧
        ∀ id d x, g.blocks = [] → g.answer = some (id, d) → s.ctx id = some x → ended x 0 d 0 s t)) ∧
    (∀ g : Group, s.map.busy = some g → programmed g.changes s = none → s.getb MAP_STAT_JRNL_WAIT = false →
      Leads .journalRecordProgrammed s (fun t => t.getb MAP_STAT_JRNL_WAIT = true ∧ eventSet mapBlk 1 t ∧
        t.map.busy = some g)) ∧
    (s.map.busy = none → Leads .journalRecordProgrammed s (fun t => t = s)) ∧
    (∀ badJ badW : List Nat,
      (s.getb MAP_CTL_MAP_EN = false → s.getb MEM_STAT_FILL_DONE = true → coresRun s = true →
        Leads (.mapRecovery badJ badW) s (fun t => t.getb MAP_CTL_MAP_EN = true ∧
          t.getb MEM_REPAIR_SRAM_SEAL = true ∧ t.map.ready = [] ∧ t.map.busy = none ∧ t.map.resumed = false ∧
          ((∀ r, r ∈ s.map.jrnl → r.ok = false ∨ r.seq ∈ badJ) →
            t.map.nextSeq = s.map.base.seq + 1 ∧ t.map.tombs = s.map.base.tombs) ∧
          t.get STR_STAT_UNRESOLVED = min 255 (s.str.welt.filter (fun w => !w.readable || badW.contains w.wseq)).length)) ∧
      (s.getb MAP_CTL_MAP_EN = true ∨ s.getb MEM_STAT_FILL_DONE = false ∨ coresRun s = false →
        Leads (.mapRecovery badJ badW) s (fun t => t = s))) ∧
    (s.getb MAP_CTL_MAP_EN = true → Leads .mapBaseRewrite s (fun t => t.map.base.ns = s.map.ns ∧
      t.map.base.seq = s.map.nextSeq - 1 ∧ t.map.base.tombs = s.map.tombs ∧ t.map.exts = s.map.exts ∧
      ∀ r, r ∈ t.map.jrnl → r ∈ s.map.jrnl)) ∧
    (s.getb MAP_CTL_MAP_EN = false → Leads .mapBaseRewrite s (fun t => t = s)) ∧
    (∀ c : Ch, checkpointDue c s = true → Leads (.mapCheckpointWrite c) s (fun t =>
      (∀ p, p ∈ t.map.tombs → p.1 ≠ discOf c s) ∧ (∀ p, p ∈ t.str.copies → p.1 ≠ discOf c s) ∧
      (t.chan c).wrc.spareList = [] ∧
      (canWrite c s = false → (t.chan c).dcm.ckPend = some (s.map.nextSeq - 1, checkpointExts (discOf c s) s)))) ∧
    (∀ c : Ch, mounted c s = true → 3528 ≤ (s.str.copies.filter (fun p => p.1 == discOf c s)).length →
      Leads (.weltCopyWrite c) s (fun t => ∀ p, p ∈ t.str.copies → p.1 ≠ discOf c s))

/-- The map cache: a hit counts and marks a written line, a miss begins a fill, a fill takes a way and sends a dirty
line to the eviction buffer, for which a second one waits, and the buffer frees (R530–R533, R537). Model's choices:
logs 9, 107. -/
def Obligations.CacheServesRequests : Prop :=
  ∀ s : State, Awake s → RegsCanonical s →
    (∀ (q : Stream) (line : Nat) (write : Bool),
      (allDisabled s = true → Leads (.mapCacheAccess q line write) s (fun t => t = s)) ∧
      (allDisabled s = false → s.mca.evict ≠ some line →
        (∀ k, lineAt line s.mca.lines = some k → Leads (.mapCacheAccess q line write) s (fun t =>
          t.get MCA_CNT_HIT_HITS = min (s.get MCA_CNT_HIT_HITS + 1) (2 ^ MCA_CNT_HIT_HITS.width - 1) ∧
          ∃ j, lineAt line t.mca.lines = some j ∧ j.way = k.way ∧ j.dirty = (k.dirty || write) ∧ j.age = 0)) ∧
        (lineAt line s.mca.lines = none → s.mca.fill = none → Leads (.mapCacheAccess q line write) s (fun t =>
          t.get MCA_CNT_MISS_MISSES = min (s.get MCA_CNT_MISS_MISSES + 1) (2 ^ MCA_CNT_MISS_MISSES.width - 1) ∧
          t.mca.fill = some (line, false, [⟨q, line, write⟩]) ∧ t.mca.lines = s.mca.lines)))) ∧
    (s.mca.fill = none → Leads .cacheFillDone s (fun t => t = s)) ∧
    (∀ (l w : Nat) (pf : Bool) (rs : List CReq) (old : Option CLine), s.mca.fill = some (l, pf, rs) →
      fillWay l s = some (w, old) →
      ((∃ j, old = some j ∧ j.dirty = true) → s.mca.evict.isSome = true → Leads .cacheFillDone s (fun t =>
        t.mca = { s.mca with filled := true } ∧ t.regs = s.regs)) ∧
      (s.mca.evict = none → s.mca.waiting = [] → s.mca.prefetch = [] → lineAt l s.mca.lines = none →
        Leads .cacheFillDone s (fun t => t.mca.fill = none ∧ t.mca.filled = false ∧
          (∃ j, lineAt l t.mca.lines = some j ∧ j.way = w ∧ j.dirty = rs.any (fun r => r.write)) ∧
          (∀ j, old = some j → j.dirty = true → t.mca.evict = some j.line) ∧
          (old = none → t.mca.evict = none))) ∧
      (s.mca.evict.isSome = true → s.mca.filled = true → s.mca.waiting = [] → s.mca.evictWrites = [] →
        s.mca.prefetch = [] → lineAt l s.mca.lines = none → Leads .cacheEvictDone s (fun t =>
          t.mca.fill = none ∧ t.mca.filled = false ∧
          (∃ j, lineAt l t.mca.lines = some j ∧ j.way = w ∧ j.dirty = rs.any (fun r => r.write)) ∧
          t.mca.evict = (old.filter (fun j => j.dirty)).map (fun j => j.line)))) ∧
    (s.mca.evict.isSome = true → s.mca.filled = false → Leads .cacheEvictDone s (fun t =>
      t.mca.evict = none ∧ t.mca.evictWrites = [])) ∧
    (s.mca.evict = none → Leads .cacheEvictDone s (fun t => t = s))

/-! ### Stripes -/

/-- The stripe engine: an open stripe's COALESCE time closes it, a stripe that closes takes the next position under
an OPEN record, a verified stripe completes with a DONE record, a full Welt region makes closing wait and a finished
sector is erased, rung 5 rebuilds a block, slow members are noted and Resole pauses and goes on (R476, R553, R555,
R559–R565, R571–R576). Model's choices: logs 9, 46, 94, 101, 103, 109. -/
def Obligations.StripesCloseAndComplete : Prop :=
  ∀ s : State, Awake s → RegsCanonical s →
    (∀ (id n : Nat) (k : Ns), (openOf id s).first = some n →
      s.map.ns.find? (fun k => k.nsid == (openOf id s).firstNs) = some k →
      (n + k.coalesce * 400 ≤ s.now → Leads (.coalesceTimeout id) s (fun t => (openOf id t).closeNow = true ∧
        (openOf id t).queues = (openOf id s).queues)) ∧
      (s.now < n + k.coalesce * 400 → Leads (.coalesceTimeout id) s (fun t => t = s))) ∧
    (∀ (id : Nat) (poison : List (Nat × Nat)) (k : Sys2Proof.Machine.SSet), setOf id s = some k →
      (closeDue k (openOf id s) s = false ∨ setHeld k s = true → Leads (.stripeClose id poison) s (fun t => t = s)) ∧
      (closeDue k (openOf id s) s = true → setHeld k s = false → setNext k s < posEnd →
        ((weltSector s.str.welt).isSome = true → Leads (.stripeClose id poison) s (fun t =>
          (∃ p, p ∈ t.str.closed ∧ p.wseq = s.str.nextW ∧ p.set = id ∧ (p.layer, p.zone, p.tile) = posAt (setNext k s)) ∧
          (∃ w, w ∈ t.str.welt ∧ w.kind = 1 ∧ w.wseq = s.str.nextW ∧ w.set = id) ∧
          t.get STR_CNT_CLOSED_CLOSED = min (s.get STR_CNT_CLOSED_CLOSED + 1) (2 ^ STR_CNT_CLOSED_CLOSED.width - 1))) ∧
        (weltSector s.str.welt = none → s.getb STR_STAT_WELT_WAIT = false → Leads (.stripeClose id poison) s (fun t =>
          t.getb STR_STAT_WELT_WAIT = true ∧ eventSet strBlk 4 t ∧ t.str = s.str)))) ∧
    (∀ (w : Nat) (t0 : Stripe) (k : Sys2Proof.Machine.SSet), s.str.closed = [t0] → t0.wseq = w → setOf t0.set s = some k →
      t0.failed = [] → t0.awaits = [] → (∀ x, x < layoutN k.layout → x ∈ t0.verified) →
      (∀ c : Ch, (s.chan c).wrc.reports = [] ∧ (s.chan c).wrc.relocDone = []) → (weltSector s.str.welt).isSome = true →
      Leads (.stripeComplete w) s (fun t => t.str.closed = [] ∧
        ∃ r, r ∈ t.str.welt ∧ r.kind = 2 ∧ r.link = w ∧ r.missing = 0 ∧ r.set = t0.set)) ∧
    (∀ n : Nat, (weltDone n s.str.welt = true → Leads (.weltSectorErase n) s (fun t =>
        (∀ r, r ∈ t.str.welt ↔ r ∈ s.str.welt ∧ r.sector ≠ n) ∧ t.getb STR_STAT_WELT_WAIT = false)) ∧
      (weltDone n s.str.welt = false → Leads (.weltSectorErase n) s (fun t => t = s))) ∧
    (∀ (id : Nat) (c : Ch) (tiles : List MemberTile) (x : Ctx) (ns : Ns) (p : Place) (why : Option Ch) (k : Sys2Proof.Machine.SSet) (m : Nat),
      Running id 3 x s → x.parked = none → x.rung5 = [0] → x.nlb = 1 → x.got = [] → x.lost = [] →
      nsFind x.nsid s = some ns → blockSrc x ns 0 s = .rung5 p why → memberOf p.disc s = some (k, m) →
      ∀ r bad s', rung5At k m p.data p.layer p.zone p.tile tiles s = (r, bad, s') →
      (∀ v, r = some v → (guardCheck 6 x.nsid false (rebuiltBlock x.slba v) s').1 = true →
        (sealOf (rebuiltBlock x.slba v)).ns = x.nsid → Leads (.stripeReconstruct (some id) 0 c tiles) s (fun t =>
          ended x 0 0 0 s t ∧ t.get STR_CNT_RECON_RECON_OK =
            min (s.get STR_CNT_RECON_RECON_OK + 1) (2 ^ STR_CNT_RECON_RECON_OK.width - 1))) ∧
      (∀ d, r = none → why = some d → lostHere p s = none →
        Leads (.stripeReconstruct (some id) 0 c tiles) s (fun t => ended x 0x26 (driveDetail d s) 0 s t ∧
          t.get STR_CNT_RECON_RECON_FAIL =
            min (s.get STR_CNT_RECON_RECON_FAIL + 1) (2 ^ STR_CNT_RECON_RECON_FAIL.width - 1)))) ∧
    (∀ (id n : Nat) (x : Ctx) (k : Ns), s.ctx id = some x → x.since = some n → nsFind x.nsid s = some k →
      (s.now < n + s.memberTmo * 400 → Leads (.memberTimeout id) s (fun t => t = s)) ∧
      (∀ c p, n + s.memberTmo * 400 ≤ s.now → x.nlb = 1 → x.got = [] → x.lost = [] → x.rung5 = [] →
        blockSrc x k 0 s = .read c p → (memberOf p.disc s).isSome = true → Leads (.memberTimeout id) s (fun t =>
          (∃ y, t.ctx id = some y ∧ y.rung5 = [0]) ∧ t.get STR_CNT_MEMBER_SLOW =
            min (s.get STR_CNT_MEMBER_SLOW + 1) (2 ^ STR_CNT_MEMBER_SLOW.width - 1)))) ∧
    (∀ (tiles : List MemberTile) (kept : Bool), s.str.rebuild = none →
      Leads (.rebuildPosition tiles kept) s (fun t => t = s)) ∧
    (∀ (tiles : List MemberTile) (kept : Bool) (r : Rebuild) (k : Sys2Proof.Machine.SSet) (c : Ch), s.str.rebuild = some r →
      setOf r.set s = some k → chanOf r.repl s = some c → ∀ n,
      n = ((List.range k.members.length).filter (fun y => y != r.member && survivor k y s)).length →
      (n < layoutK k.layout → Leads (.rebuildPosition tiles kept) s (fun t =>
        t.getb STR_STAT_REB_PAUSED = true ∧ t.str = s.str)) ∧
      (layoutK k.layout ≤ n → (weltSector s.str.welt).isSome = true → r.out = false → r.pos < setNext k s →
        (∀ l z i, posAt r.pos = (l, z, i) → excAt k.id l z i s = some none ∨
          (excAt k.id l z i s ≠ some none ∧ i < nextBlank c 0 l z s ∧ kept = true)) →
        Leads (.rebuildPosition tiles kept) s (fun t => t.getb STR_STAT_REB_PAUSED = false ∧
          ∃ q, t.str.rebuild = some q ∧ q.pos = posNorm (r.pos + 1) ∧ q.failed = r.failed ∧ q.repl = r.repl)))

/-! ### DRAM and on-chip memories -/

/-- A state whose controller notes a requester as the last one served of its class (R35). -/
def lastServed (u : Nat × Nat) (s : State) : State := s.onMem (fun m => { m with served := m.served.set u.1 u.2 })

/-- DRAM and the on-chip arrays: training and the fill, reads that are clean, corrected or poisoned and the answer
of who asked, a read-modify-write, the order of the requests that waited, the scrubber's next line, the end of a
copy to a spare line, and corrected and uncorrectable words of an array (R35, R584–R592, R594, R596, R600–R605). A
line's bytes are compared with those its last write left, the errors that `err` gives added. Model's choices: logs
9, 37, 42, 90, 91, 115, 138, 155, 167. -/
def Obligations.MemoriesCorrectAndPoison : Prop :=
  ∀ s : State, Awake s → RegsCanonical s → dramGib s.straps ≤ 32 →
    (∀ trains : List (Bool × Bool), ∀ ok : Nat → Bool × Bool, (∀ k, ok k = trains.getD k (false, false)) →
      4 ≤ dramGib s.straps →
      (s.get MEM_STAT_RATE ≠ 0 ∨ s.get MEM_STAT_TRAIN_FAIL ≠ 0 → Leads (.dramTrainingDone trains) s (fun t =>
        t = s.put MEM_STAT_SIZE_GIB (dramGib s.straps))) ∧
      (s.get MEM_STAT_RATE = 0 → s.get MEM_STAT_TRAIN_FAIL = 0 →
      (∀ k : Fin 3, ok k.val = (true, true) → (∀ j, j < k.val → ok j ≠ (true, true)) →
        Leads (.dramTrainingDone trains) s (fun t => t.get MEM_STAT_SIZE_GIB = dramGib s.straps ∧
          t.get MEM_STAT_RATE = 3 - k.val ∧ t.get MEM_STAT_TRAIN_FAIL = s.get MEM_STAT_TRAIN_FAIL)) ∧
      ((∀ k, k < 3 → (ok k).1 = true ∧ (ok k).2 = false) → Leads (.dramTrainingDone trains) s (fun t =>
        t.get MEM_STAT_TRAIN_FAIL = 2 ∧ t.get HLT_SB_TRAIN_FAIL = 2 ∧ t.get MEM_STAT_RATE = s.get MEM_STAT_RATE)) ∧
      ((∀ k, k < 3 → ok k = (false, false)) → Leads (.dramTrainingDone trains) s (fun t =>
        t.get MEM_STAT_TRAIN_FAIL = 3 ∧ t.get HLT_SB_TRAIN_FAIL = 3)))) ∧
    (s.get MEM_STAT_RATE ≠ 0 → s.getb MEM_STAT_FILL_DONE = false → Leads .dramFillDone s (fun t => t.getb MEM_STAT_FILL_DONE = true ∧
      t.getb HLT_SB_FILL_DONE = true ∧ t.mem.lines = [] ∧ t.get MEM_STAT_RATE = s.get MEM_STAT_RATE)) ∧
    (s.get MEM_STAT_RATE = 0 ∨ s.getb MEM_STAT_FILL_DONE = true → Leads .dramFillDone s (fun t => t = s)) ∧
    (∀ (u : DramUser) (line : Nat) (err : List (Nat × Byte)) (new : List (Nat × Byte)) (w : List Byte),
      w = arrive (dramGet line s) err →
      (s.getb MEM_STAT_FILL_DONE = false ∨ dramLines s ≤ line →
        Leads (.dramRead u line err) s (fun t => t = s) ∧ Leads (.dramRmw u line new err) s (fun t => t = s)) ∧
      (s.getb MEM_STAT_FILL_DONE = true → line < dramLines s → lineWaits line s = true →
        Leads (.dramRead u line err) s (fun t =>
          t = s.onMem (fun m => { m with waiting := m.waiting ++ [.read u line err] })) ∧
        Leads (.dramRmw u line new err) s (fun t =>
          t = s.onMem (fun m => { m with waiting := m.waiting ++ [.rmw u line new err] }))) ∧
      (lineServed line s = true → lineReserved line s = false →
        (dramDecode line (markedBytes line s) w = .clean →
          Leads (.dramRead u line err) s (fun t => t = lastServed (dramUserOf u s) s) ∧
          Leads (.dramRmw u line new err) s (fun t =>
            dramGet line t = dramEncode line (new.foldl (fun d (k, x) => d.set k x) (w.take 64)) ∧
            (∀ l, physLine l s ≠ physLine line s → dramGet l t = dramGet l s) ∧
            t.get MEM_CNT_MISC_RMW = min (s.get MEM_CNT_MISC_RMW + 1) (2 ^ MEM_CNT_MISC_RMW.width - 1))) ∧
        (∀ (v : List Byte), s.getb MEM_CTL_AUTO_REMAP = false → (∀ k, k ∈ s.mem.order → k < 8) →
          dramDecode line (markedBytes line s) w = .corrected v false → Leads (.dramRead u line err) s (fun t =>
            dramGet line t = v ∧ faulted 21 0 s t ∧ t.get MEM_CNT_CE_CE = min (s.get MEM_CNT_CE_CE + 1) (2 ^ MEM_CNT_CE_CE.width - 1) ∧
            ∀ k, (List.range 8).find? (fun k => s.mem.tracked.contains k && s.get (MEM_CE_LINEk_LINE.i k) == line) =
              some k → t.get (MEM_CE_TRACKk_COUNT.i k) = min 31 (s.get (MEM_CE_TRACKk_COUNT.i k) + 1))) ∧
        (dramDecode line (markedBytes line s) w = .uncorrectable →
          Leads (.dramRead (.background none) line err) s (fun t => faulted 22 0 s t ∧ eventSet memBlk 1 t ∧
            t.get MEM_LAST_UE_LINE = line ∧ t.mem = (lastServed (2, 3) s).mem ∧
            t.get MEM_CNT_MISC_UE = min (s.get MEM_CNT_MISC_UE + 1) (2 ^ MEM_CNT_MISC_UE.width - 1)) ∧
          Leads (.dramRmw (.background none) line new err) s (fun t => faulted 22 0 s t ∧
            t.mem = (lastServed (2, 3) s).mem ∧
            t.get MEM_CNT_MISC_RMW = min (s.get MEM_CNT_MISC_RMW + 1) (2 ^ MEM_CNT_MISC_RMW.width - 1)) ∧
          (∀ id x, s.ctx id = some x → Leads (.dramRead (.background (some id)) line err) s (fun t =>
            ended x 0x30 22 0 s t)) ∧
          (s.getb TMB_REC_STAT_RUN = true → Leads (.dramRead .recorder line err) s (fun t =>
            t.getb TMB_REC_STAT_RUN = false ∧ t.get TMB_REC_STAT_STOP_CAUSE = 5)) ∧
          (∀ id i x, Running id 1 x s → Leads (.dramRead (.hostRead id i) line err) s (fun t =>
            ∃ y, t.ctx id = some y ∧ (y.lost.any (fun l => l.1 == i)) = true ∧ keyFind i y.got = none)))) ∧
      (lineServed line s = true → lineReserved line s = true →
        Leads (.dramRead (.background none) line err) s (fun t => faulted 22 0 s t ∧ eventSet memBlk 1 t) ∧
        Leads (.dramRmw u line new err) s (fun t => t = lastServed (dramUserOf u s) s))) ∧
    (dramNext s = none → ∀ j q, s.mem.waiting[j]? = some q → dramTurn j q s = none) ∧
    (∀ i j p q, dramNext s = some i → s.mem.waiting.length ≤ 65536 → s.mem.waiting[i]? = some p →
      s.mem.waiting[j]? = some q → (dramTurn j q s).isSome = true → (p.who s).1 < (q.who s).1 ∨
        (p.who s).1 = (q.who s).1 ∧ ((p.who s).2 + 7 - s.mem.served.getD (p.who s).1 0) % 8 ≤
          ((q.who s).2 + 7 - s.mem.served.getD (q.who s).1 0) % 8) ∧
    (∀ err : List (Nat × Byte),
      (s.getb MEM_CTL_SCRUB_EN = false ∨ s.getb MEM_STAT_FILL_DONE = false ∨ dramLines s ≤ s.get MEM_SCRUB_POS_POS →
        Leads (.scrubRead err) s (fun t => t = s)) ∧
      (∀ line e, .scrub line e ∈ s.mem.waiting → Leads (.scrubRead err) s (fun t => t = s)) ∧
      (s.getb MEM_CTL_SCRUB_EN = true → lineServed (s.get MEM_SCRUB_POS_POS) s = true →
        (∀ line e, .scrub line e ∉ s.mem.waiting) →
        ∀ p, p = scrubLine (s.get MEM_SCRUB_POS_POS) s → dramDecode p (markedBytes p s) (arrive (dramGet p s) err) = .clean →
        (s.get MEM_SCRUB_POS_POS + 1 < dramLines s → Leads (.scrubRead err) s (fun t =>
          t.get MEM_SCRUB_POS_POS = s.get MEM_SCRUB_POS_POS + 1 ∧ t.mem.lines = s.mem.lines ∧
          t.mem.passStart = s.mem.passStart ∧ t.mem.served = s.mem.served.set (if s.mem.scrubUp then 2 else 3) 5 ∧
          t.mem.scrubUp = (t.getb MEM_STAT_SCRUB_LATE || s.mem.scrubUp && decide (s.get MEM_SCRUB_POS_POS + 1 <
            dramLines s * (s.now - s.mem.passStart) / (clampN 1 720 (s.get MEM_SCRUB_PASS_HOURS) * 1440000000))) ∧
          t.getb MEM_STAT_SCRUB_LATE = decide (s.get MEM_SCRUB_POS_POS + 1 + dramLines s / 100 <
            dramLines s * (s.now - s.mem.passStart) / (clampN 1 720 (s.get MEM_SCRUB_PASS_HOURS) * 1440000000)))) ∧
        (dramLines s = s.get MEM_SCRUB_POS_POS + 1 → Leads (.scrubRead err) s (fun t =>
          t.get MEM_SCRUB_POS_POS = 0 ∧ eventSet memBlk 5 t ∧ (∀ k, k < 8 → t.get (MEM_CE_TRACKk_COUNT.i k) = 0) ∧
          t.mem.lines = s.mem.lines ∧ t.mem.passStart = s.now ∧
          t.get MEM_CNT_MISC_PASSES = min (s.get MEM_CNT_MISC_PASSES + 1) (2 ^ MEM_CNT_MISC_PASSES.width - 1))))) ∧
    (∀ k : Nat, s.mem.copying = some k → Leads .remapCopyDone s (fun t =>
      t = dramDrain (copyDone k s).mem.waiting.length (copyDone k s))) ∧
    (∀ k : Nat, s.mem.copying = some k → s.mem.waiting = [] →
      (∀ l, l ∈ s.fls.remaps → ∃ j, j < 16 ∧ s.getb (MEM_REMAPk_VALID.i j) = true ∧ s.get (MEM_REMAPk_LINE.i j) = l) →
      ∀ line, line = s.get (MEM_REMAPk_LINE.i k) → ∀ v,
      (dramDecode line (markedBytes line s) (dramGet line s) = .clean ∧ v = dramGet line s ∨
        ∃ m, dramDecode line (markedBytes line s) (dramGet line s) = .corrected v m) →
      Leads .remapCopyDone s (fun t => t.mem.copying = none ∧ t.getb MEM_STAT_COPY_BUSY = false ∧ eventSet memBlk 2 t ∧
        keyFind (dramLines s - 64 + k) t.mem.lines = some v)) ∧
    (s.mem.copying = none → Leads .remapCopyDone s (fun t => t = s)) ∧
    (∀ (a : Fin 44) (again : Bool), 16 ≤ a.val → Leads (.sramCorrected a again) s (fun t =>
      t.get MEM_CNT_SRAM_CORRECTED = min (s.get MEM_CNT_SRAM_CORRECTED + 1) (2 ^ MEM_CNT_SRAM_CORRECTED.width - 1) ∧
      (again = true → arrWords a.val s = false → eventSet memBlk 4 t) ∧
      (again = true → arrWords a.val s = true → (s.mem.arrs.getD a.val {}).used < 4 →
        t.get MEM_CNT_SRAM_REPAIRS = min (s.get MEM_CNT_SRAM_REPAIRS + 1) (2 ^ MEM_CNT_SRAM_REPAIRS.width - 1)) ∧
      (again = true → arrWords a.val s = true → 4 ≤ (s.mem.arrs.getD a.val {}).used → eventSet memBlk 4 t ∧
        faulted 25 0 s t))) ∧
    (∀ (a : Fin 44) (n : Nat) (slots : List Nat),
      (∀ x, a.val = 16 → s.ctx n = some x → Leads (.sramUncorrectable a n slots) s (fun t =>
        ended x 0x30 24 (transferred x s) s t)) ∧
      (18 ≤ a.val → a.val < 24 → Leads (.sramUncorrectable a n slots) s (fun t => faulted 24 0 s t ∧ eventSet memBlk 3 t ∧
        t.get MEM_CNT_SRAM_UNCORR = min (s.get MEM_CNT_SRAM_UNCORR + 1) (2 ^ MEM_CNT_SRAM_UNCORR.width - 1) ∧
        ∀ r, (s.chan (arrChan a.val)).rdc.under = some r → ∃ q, (t.chan (arrChan a.val)).rdc.under = some q ∧
          (∀ k x, k ∈ slots → r.slots[k]? = some x → q.slots[k]? = some (slotErased r.rung 8 x)) ∧
          ∀ k, k ∉ slots → q.slots[k]? = r.slots[k]?)) ∧
      (30 ≤ a.val → a.val < 32 → Leads (.sramUncorrectable a n slots) s (fun t =>
        t.fls.coreGap = true ∧
        ∃ r q, t.hlt.incoming = s.hlt.incoming ++ [r, q] ∧ r.cls = 24 ∧ q.cls = 37)) ∧
      (32 ≤ a.val → a.val < 38 → Leads (.sramUncorrectable a n slots) s (fun t =>
        t.getb (DCM_STAT_STOPPED.at (arrChan (a.val - 2))) = true ∧
        t.get (DCM_ERR_CAUSE.at (arrChan (a.val - 2))) = 13)))

/-! ### The flash and the start -/

/-- The machine when its resident firmware, started from image `x`, comes to the calibration area. -/
def started (x : Nat) (s : State) : State :=
  let s := s.put FLS_SECMIN_SEC_MIN (max (s.get FLS_SECMIN_SEC_MIN) (imageSecVer x s))
  let s := startEvents x (s.putb HLT_SB_CORES_RUN true)
  let s := if s.fls.subsys = 0 then s else s.seqWrite (.core 0) HLK_SUBSYS.base s.fls.subsys.toNat
  s.each allCh (fun s c => loadTimetable c s)

/-- The flash and the start: programs and erases end and are verified, a pending suspend is judged and completes,
the cores read and fetch, a fetch that waits too long is fault class 28, diversion ends, the flag cells are scanned,
the images are checked and the cores released, or let go on after a restart (R40, R616, R620, R622, R624–R626, R629,
R630, R637–R640, R665–R671, R685). Model's choices: logs 9, 42, 63, 98, 99, 115, 137, 154. -/
def Obligations.FlashOperationsEnd : Prop :=
  ∀ s : State, Awake s → RegsCanonical s →
    (∀ (b : Two) (bad : Bool), (s.fbank b).prog = none → Leads (.flashProgramDone b bad) s (fun t => t = s)) ∧
    (∀ (b : Two) (w d : Nat), (s.fbank b).prog = some (w, d) →
      Leads (.flashProgramDone b false) s (fun t => (t.fbank b).prog = none ∧ flashWord w t = d ∧
        (∀ k, k ≠ w → flashWord k t = flashWord k s) ∧ t.get (FLS_RESb_STATUS.i b.val) = 0 ∧
        eventSet flsBlk (1 + b.val) t ∧
        (bankState b s ≠ 4 → bankState b t = 0) ∧
        (bankState b s = 4 → (s.fbank b).resumeHeld = false → bankState b t = 3) ∧
        (bankState b s = 4 → (s.fbank b).resumeHeld = true → bankState b t = 2 ∧ (t.fbank b).runSince = s.now)) ∧
      (bankState b s ≠ 4 → Leads (.flashProgramDone b true) s (fun t => t.get (FLS_RESb_STATUS.i b.val) = 5 ∧
        faulted 27 0 s t ∧ ∀ k, k ≠ w → flashWord k t = flashWord k s))) ∧
    (∀ (b : Two) (bad : Bool), (s.fbank b).erasing = none ∨ bankState b s ≠ 2 ∨ (s.fbank b).accepted = true →
      Leads (.flashEraseDone b bad) s (fun t => t = s)) ∧
    (∀ (b : Two) (n : Nat), (s.fbank b).erasing = some n → bankState b s = 2 → (s.fbank b).accepted = false →
      Leads (.flashEraseDone b false) s (fun t => (t.fbank b).erasing = none ∧ bankState b t = 0 ∧ n ∉ t.fls.flags ∧
        t.get (FLS_RESb_STATUS.i b.val) = 0 ∧ eventSet flsBlk (1 + b.val) t ∧
        (n < 512 → ∀ w, w < 2 ^ 20 → flashWord w t = if wordSector w = n then erasedWord else flashWord w s)) ∧
      Leads (.flashEraseDone b true) s (fun t => (t.fbank b).erasing = none ∧ bankState b t = 0 ∧
        t.get (FLS_RESb_STATUS.i b.val) = 5 ∧ t.get FLS_CNT_ECC_VERIFY_FAIL =
          min (s.get FLS_CNT_ECC_VERIFY_FAIL + 1) (2 ^ FLS_CNT_ECC_VERIFY_FAIL.width - 1))) ∧
    (∀ b : Two,
      (s.getb (FLS_RESb_SUSP_PEND.i b.val) = true → bankState b s = 2 → (s.fbank b).runSince + 400 ≤ s.now →
        Leads (.flashSuspendAccept b) s (fun t => (t.fbank b).accepted = true ∧
          t.getb (FLS_RESb_SUSP_PEND.i b.val) = false ∧ bankState b t = 2 ∧
          (t.fbank b).runBefore = (s.fbank b).runBefore + (s.now - (s.fbank b).runSince))) ∧
      (s.getb (FLS_RESb_SUSP_PEND.i b.val) = false ∨ bankState b s ≠ 2 ∨ s.now < (s.fbank b).runSince + 400 →
        Leads (.flashSuspendAccept b) s (fun t => t = s)) ∧
      (bankState b s = 2 → (s.fbank b).accepted = true → Leads (.flashSuspended b) s (fun t => bankState b t = 3 ∧
        t.get (FLS_RESb_STATUS.i b.val) = 0 ∧ (t.fbank b).accepted = false ∧ eventSet flsBlk (1 + b.val) t)) ∧
      (bankState b s ≠ 2 ∨ (s.fbank b).accepted = false → Leads (.flashSuspended b) s (fun t => t = s))) ∧
    (∀ (core : Two) (addr : Nat) (err : List Nat) (w : Nat), w = addr / 16 % 2 ^ 20 → s.getb FLS_STAT_SCAN_DONE = true →
      core.val < s.fls.got.length →
      (readBusy w s = true → Leads (.flashCoreRead core addr false err) s (fun t =>
        t.fls.got[core.val]? = some busyWord ∧ t.getb FLS_STAT_READ_WHILE_BUSY = true ∧ eventSet flsBlk 3 t)) ∧
      (readBusy w s = false → rawWord w = false → Leads (.flashCoreRead core addr false err) s (fun t =>
        (((List.range 137).filter err.contains).length ≤ 1 → t.fls.got[core.val]? = some (flashWord w s) ∧ t.hlt = s.hlt) ∧
        (2 ≤ ((List.range 137).filter err.contains).length → faulted 26 0 s t ∧ eventSet flsBlk 5 t))) ∧
      (s.getb FLS_STAT_DIVERTED = false → rawWord w = false → 2 ≤ ((List.range 137).filter err.contains).length →
        Leads (.flashCoreRead core addr true err) s (fun t => t.fls.coreGap = true ∧ ∃ r q, t.hlt.incoming = s.hlt.incoming ++ [r, q] ∧
          r.cls = 26 ∧ q.cls = 37)) ∧
      (s.getb FLS_STAT_DIVERTED = true → s.fls.stall[core.val]? = some none →
        Leads (.flashCoreRead core addr true err) s (fun t => t.fls.stall[core.val]? = some (some (s.now, false)) ∧
          t.hlt = s.hlt ∧ t.regs = s.regs))) ∧
    (∀ (core : Two) (n : Nat), s.fls.stall[core.val]? = some (some (n, false)) →
      (n + 80000 ≤ s.now → Leads (.fetchStall core) s (fun t => faulted 28 0 s t ∧
        t.fls.stall[core.val]? = some (some (n, true)))) ∧
      (s.now < n + 80000 → Leads (.fetchStall core) s (fun t => t = s))) ∧
    (s.getb FLS_STAT_DIVERTED = true → s.getb FLS_DIVERT_FETCH_DIVERT = false → fetchBankIdle s = true →
      Leads .fetchDivertEnd s (fun t => t.getb FLS_STAT_DIVERTED = false ∧ t.fls.stall = [none, none])) ∧
    (s.getb FLS_STAT_DIVERTED = false ∨ s.getb FLS_DIVERT_FETCH_DIVERT = true ∨ fetchBankIdle s = false →
      Leads .fetchDivertEnd s (fun t => t = s)) ∧
    (s.getb FLS_STAT_SCAN_DONE = true → Leads .flashFlagScan s (fun t => t = s)) ∧
    (s.getb FLS_STAT_SCAN_DONE = false → Leads .flashFlagScan s (fun t => t.getb FLS_STAT_SCAN_DONE = true ∧
      t.fls.flags = [] ∧ (∀ b : Two, bankState b t = 0) ∧
      (∀ w, w < 2 ^ 20 → flashWord w t = if wordSector w ∈ s.fls.flags then erasedWord else flashWord w s) ∧
      (∀ k n, k < 16 → ((List.range 512).filter s.fls.flags.contains)[k]? = some n →
        t.getb (FLS_UNFINk_VALID.i k) = true ∧ t.get (FLS_UNFINk_SECTOR.i k) = n) ∧
      t.get FLS_STAT_UNFIN_CNT = min 255 ((List.range 512).filter s.fls.flags.contains).length)) ∧
    (s.getb FLS_STAT_SCAN_DONE = true → s.fls.checked = false → Leads .imageCheck s (fun t =>
      t.get FLS_IMGSTAT_CHECK_A = imageCode 0 s ∧ t.get FLS_IMGSTAT_CHECK_B = imageCode 1 s ∧ t.fls.checked = true ∧
      (imageCode 0 s ≠ 0 → imageCode 1 s ≠ 0 → t.fls.start = none ∧ t.getb FLS_STAT_FW_NONE = true ∧
        t.getb HLT_SB_FW_NONE = true) ∧
      (∀ x : Two, imageCode x.val s = 0 → imageCode (1 - x.val) s ≠ 0 → t.fls.start = some x.val ∧
        t.get FLS_STAT_RUN_IMAGE = x.val ∧ t.get FLS_STAT_FETCH_BANK = x.val ∧
        (bestSelection s = none → t.getb FLS_STAT_FALLBACK = false)) ∧
      (∀ (q : Nat) (x : Two), imageCode 0 s = 0 → imageCode 1 s = 0 → bestSelection s = some (q, x.val) →
        t.fls.start = some x.val ∧ t.get FLS_STAT_RUN_IMAGE = x.val ∧ t.getb FLS_STAT_FALLBACK = false))) ∧
    (s.getb FLS_STAT_SCAN_DONE = false ∨ s.fls.checked = true → Leads .imageCheck s (fun t => t = s)) ∧
    (∀ x : Two, s.fls.start = some x.val → s.getb HLT_SB_CORES_RUN = false → s.fls.checked = true →
      (s.getb MEM_STAT_FILL_DONE = true ∨ s.get MEM_STAT_TRAIN_FAIL ≠ 0) → Leads .coreRelease s (fun t =>
        t.getb HLT_SB_CORES_RUN = true ∧
        ((∀ k, k ∈ calKinds → newestRec k s = none) → t.getb CAL_STAT_CAL_LOST = true ∧ eventSet calBlk 4 t ∧
          faulted 31 0 s t ∧ t.get FLS_SECMIN_SEC_MIN = max (s.get FLS_SECMIN_SEC_MIN) (imageSecVer x.val s) ∧
          (∀ c : Ch, ⟨(SRV_CTL.at c).base, 1, .core 0⟩ ∈ (t.chan c).stage) ∧
          (s.getb MEM_STAT_FILL_DONE = true → t.getb HLT_CTL_LOG_EN = true)) ∧
        (∀ r, newestRec (1, 255) (calRepair (started x.val s)) = some r → t.cal.vref = field r.payload 0 4 ∧
          t.cal.iref = field r.payload 4 4) ∧
        (∀ (c : Ch) (r : CalRec), newestRec (2, c.val) (calRepair (started x.val s)) = some r →
          (t.calCh c).tables = tablesOf r.payload ∧ (t.calCh c).layers = layersOf r.payload))) ∧
    (s.getb HLT_SB_CORES_RUN = true → s.fls.start.isSome = true → Leads .coreRelease s (fun t =>
      t = if s.host.act.any (·.settled) then s else s.onFls (fun k => { k with coreGap := false }))) ∧
    (s.fls.start = none ∨ s.getb HLT_SB_CORES_RUN = false ∧ (s.fls.checked = false ∨
      s.getb MEM_STAT_FILL_DONE = false ∧ s.get MEM_STAT_TRAIN_FAIL = 0) → Leads .coreRelease s (fun t => t = s))

/-! ### Health -/

/-- The health manager and its logs: a hot junction raises its fault once until it cools; an arriving fault is
taken, queued or lost; a handled fault is counted, makes its class instance lasting at its threshold, is shown in
its block and entered in the event log; and what the logs gained is copied to flash (R56, R689–R691, R694,
R696–R698, R702, R703). Model's choices: logs 9, 112, 124, 137. -/
def Obligations.FaultsAreHandled : Prop :=
  ∀ s : State, Awake s → RegsCanonical s →
    (∀ temp : Int, -32768 ≤ temp → temp < 32768 →
      (temp ≤ 16 * (s.get HLT_TEMP_TEMP_LIM : Int) → Leads (.junctionHot temp) s (fun t =>
        t.geti HLT_TEMP_TEMP = temp ∧ t.hlt = { s.hlt with hotArmed := true })) ∧
      (16 * (s.get HLT_TEMP_TEMP_LIM : Int) < temp → Leads (.junctionHot temp) s (fun t =>
        t.geti HLT_TEMP_TEMP = temp ∧ t.hlt.hotArmed = false ∧
        (s.hlt.hotArmed = true → faulted 38 0 s t ∧ eventSet hltBlk 3 t) ∧
        (s.hlt.hotArmed = false → t.hlt = s.hlt)))) ∧
    (s.hlt.incoming = [] → Leads .faultReport s (fun t => t = s)) ∧
    (∀ r rest, s.hlt.incoming = r :: rest →
      (s.hlt.handling = none → Leads .faultReport s (fun t =>
        t.hlt = { s.hlt with incoming := rest, handling := some r })) ∧
      (∀ h, s.hlt.handling = some h →
        (h.cls ≠ r.cls ∨ r.replay = true → s.hlt.fifo.length < 32 → Leads .faultReport s (fun t =>
          t.hlt = { s.hlt with incoming := rest, fifo := s.hlt.fifo ++ [{ r with counted := false, madeLasting := false }] })) ∧
        (h.cls ≠ r.cls ∨ r.replay = true → 32 ≤ s.hlt.fifo.length → Leads .faultReport s (fun t =>
          t.hlt = { s.hlt with incoming := rest, lostSince := s.hlt.lostSince + 1 } ∧
          t.getb HLT_STAT_FAULT_OVERRUN = true ∧ eventSet hltBlk 2 t ∧
          t.get HLT_CNT_FIFO_LOST = min (s.get HLT_CNT_FIFO_LOST + 1) (2 ^ HLT_CNT_FIFO_LOST.width - 1))) ∧
        (h.cls = r.cls → r.replay = false → (classInst r.cls r.inst s).lasting = true → s.hlt.fifo.length < 32 →
          Leads .faultReport s (fun t => t.hlt.handling = some h ∧
            t.hlt.fifo = s.hlt.fifo ++ [{ r with counted := true, madeLasting := false }] ∧
            (classInst r.cls r.inst t).total = min ((classInst r.cls r.inst s).total + 1) 65535)))) ∧
    (s.hlt.handling = none → Leads .faultRecordHandle s (fun t => t = s)) ∧
    (∀ (r : FaultRec) (k : ClassInst), s.hlt.handling = some r → k = classInst r.cls r.inst s →
      (r.counted = true ∨ r.replay = true → s.hlt.fifo = [] → Leads .faultRecordHandle s (fun t =>
        t.hlt.handling = none ∧ t.hlt.classes = s.hlt.classes ∧ t.hlt.incoming = s.hlt.incoming ∧
        t.hlt.eventLog.next = s.hlt.eventLog.next + 1 ∧ eventSet r.blk 0 t)) ∧
      (r.counted = false → r.replay = false →
        (k.lasting = true → Leads .faultRecordHandle s (fun t =>
          (classInst r.cls r.inst t).lasting = true ∧ (classInst r.cls r.inst t).count = k.count ∧
          (classInst r.cls r.inst t).total = min (k.total + 1) 65535)) ∧
        (k.lasting = false → k.count ≠ 0 → r.tick < k.start + classWindow r.cls s → k.count + 1 < classThresh r.cls s →
          Leads .faultRecordHandle s (fun t => (classInst r.cls r.inst t).lasting = false ∧
            (classInst r.cls r.inst t).count = k.count + 1 ∧ (classInst r.cls r.inst t).start = k.start)) ∧
        (k.lasting = false → k.count = 0 ∨ k.start + classWindow r.cls s ≤ r.tick → 1 < classThresh r.cls s →
          Leads .faultRecordHandle s (fun t => (classInst r.cls r.inst t).lasting = false ∧
            (classInst r.cls r.inst t).count = 1 ∧ (classInst r.cls r.inst t).start = r.tick)) ∧
        (k.lasting = false → (k.count ≠ 0 → r.tick < k.start + classWindow r.cls s → classThresh r.cls s ≤ k.count + 1) →
          (k.count = 0 ∨ k.start + classWindow r.cls s ≤ r.tick → classThresh r.cls s ≤ 1) →
          Leads .faultRecordHandle s (fun t => (classInst r.cls r.inst t).lasting = true ∧ eventSet hltBlk 1 t ∧
            (∀ c : Ch, r.inst = c.val → r.cls = 5 ∨ r.cls = 6 ∨ r.cls = 13 ∨ r.cls = 35 →
              t.getb (DCM_STAT_STOPPED.at c) = true ∧ t.get (DCM_ERR_CAUSE.at c) = 13) ∧
            (∀ c : Ch, r.inst = (busOf c).val → r.cls = 9 ∨ r.cls = 11 → t.getb (DCM_STAT_STOPPED.at c) = true) ∧
            (∀ c : Ch, r.inst = c.val → r.cls = 15 → t.getb (DCM_STAT_WRITE_BLOCK.at c) = true) ∧
            (∃ p, t.hlt.persisted.getLast? = some (.event s.hlt.eventLog.next p) ∨ r.cls = 35) ∧
            (∀ c : Ch, busClass r.cls = false → chanClass r.cls = false →
              t.getb (DCM_STAT_STOPPED.at c) = s.getb (DCM_STAT_STOPPED.at c))))) ∧
      (∀ q rest, s.hlt.fifo = q :: rest → r.counted = true → Leads .faultRecordHandle s (fun t =>
        t.hlt.handling = some q ∧ t.hlt.fifo = rest ∧ (rest = [] → t.hlt.lostSince = 0)))) ∧
    Leads .eventLogPersist s (fun t => t.hlt.eventLog = s.hlt.eventLog ∧
      ((∀ p, p ∈ s.hlt.eventLog.held → p.1 < s.hlt.eventStored) → t = s) ∧
      (∀ p, s.hlt.eventLog.held = [p] → s.hlt.eventStored ≤ p.1 → (∀ a b c d e f g, p.2.data ≠ .fault a b c d e f g) →
        t.hlt.eventStored = p.1 + 1 ∧
        (s.hlt.persistMinute = p.2.tick / 24000000 → 256 ≤ s.hlt.persistCount →
          t.hlt.persisted = s.hlt.persisted ∧ eventSet hltBlk 4 t) ∧
        (s.hlt.persistMinute ≠ p.2.tick / 24000000 ∨ s.hlt.persistCount < 256 →
          t.hlt.persisted.getLast? = some (.event p.1 p.2)))) ∧
    Leads .violationLogPersist s (fun t => t.hlt.violStored = s.hlt.violNext ∧ t.hlt.viol0 = s.hlt.viol0 ∧
      t.hlt.viol1 = s.hlt.viol1 ∧ t.regs = s.regs ∧
      (∀ p, s.hlt.viol0.held = [p] → s.hlt.viol1.held = [] → s.hlt.violStored ≤ p.1 →
        t.hlt.persisted.getLast? = some (.viol p.1 p.2)))

/-! ### The sideband and the boundary-scan port -/

/-- The I²C sideband and the JTAG port: both reach the registers as origins of their own, the sideband with a
pointer that moves on, the port with the outcome of the access before shifted out; EXTEST stops every channel as a
lost timebase does (R33, R64, R715, R742, R745, R746). Model's choices: logs 9, 113, 114, 140. -/
def Obligations.SidebandAndScanReachRegisters : Prop :=
  (∀ s : State, Awake s →
    (4000 ≤ s.now → Leads .sidebandReady s (fun t => t.pins = { s.pins with sbReady := true } ∧ t.regs = s.regs)) ∧
    (s.now < 4000 → Leads .sidebandReady s (fun t => t = s)) ∧
    Leads .i2cBusReset s (fun t => t = { s with pins := { s.pins with sbPtr := 0, sbVal := 0 } }) ∧
    (s.pins.sbReady = false → (∀ a, Leads (.i2cPointerWrite a) s (fun t => t = s)) ∧
      (∀ a v e, Leads (.i2cRegisterWrite a v e) s (fun t => t = s)) ∧ ∀ n, Leads (.i2cRead n) s (fun t => t = s)) ∧
    (s.pins.sbReady = true →
      (∀ (a : W32) (b : Nat), targetOf (a.toNat / 4 * 4) s = .reg b → Leads (.i2cPointerWrite a) s (fun t =>
        t.pins.sbPtr = a.toNat / 4 * 4 ∧ t.pins.sbVal = s.view .i2c b ∧ t.regs = s.regs)) ∧
      (∀ (a v : W32) (e : FetchEnd), Leads (.registerWrite .i2c (a.toNat / 4 * 4) 0xF v none e) s (fun u =>
        Leads (.i2cRegisterWrite a v e) s (fun t => t.regs = u.regs ∧ t.chans = u.chans ∧ t.locks = u.locks ∧
          t.hlt = u.hlt ∧ t.pins.sbPtr = (a.toNat / 4 * 4 + 4) % 2 ^ 32 ∧
          t.pins.sbVal = (match targetOf ((a.toNat / 4 * 4 + 4) % 2 ^ 32) u with | .reg b => u.view .i2c b | _ => 0)))) ∧
      (∀ n, s.pins.sbPtr % 4 = 0 → s.pins.sbPtr < 2 ^ 32 → Leads (.i2cRead n) s (fun t =>
        t.pins.sbPtr = (s.pins.sbPtr + 4 * n) % 2 ^ 32)) ∧
      Leads (.i2cRead 1) s (fun t => sends (.sideband [s.pins.sbVal]) s t ∧ t.regs = s.regs) ∧
      (∀ n, Leads (.i2cRead n) s (fun t => ∃ l : List W32, l.length = n ∧ sends (.sideband l) s t ∧ t.regs = s.regs ∧
        (0 < n → l.head? = some s.pins.sbVal)))) ∧
    (∀ (w : Bool) (addr : Nat) (data : W32) (e : FetchEnd), Leads (.jtagRegacc w addr data e) s (fun t =>
      ∃ after, t.host.sent = s.host.sent ++
        [.jtag 64 (s.pins.jtagData.toNat * 2 ^ 32 + s.pins.jtagStat)] ++ after)) ∧
    (∀ (addr b : Nat) (data : W32) (e : FetchEnd), targetOf (addr % 2 ^ 24 * 4) s = .reg b →
      Leads (.jtagRegacc false addr data e) s (fun t =>
        t.pins.jtagData = s.view .jtag b ∧ t.pins.jtagStat = 0 ∧ t.regs = s.regs)) ∧
    (∀ (addr : Nat) (data : W32) (e : FetchEnd), Leads (.jtagRegacc true addr data e) s (fun t => t.pins.jtagData = data ∧
      (t.pins.jtagStat = 2 ↔ writeRefused .jtag (addr % 2 ^ 24 * 4) s = true) ∧ (t.pins.jtagStat = 0 ∨ t.pins.jtagStat = 2))) ∧
    (∀ (addr : Nat) (data : W32) (e : FetchEnd) (c : Ch), addr % 2 ^ 24 * 4 = (DCM_TGT.at c).base → mayWrite .jtag (DCM_TGT.at c).base s = true →
      Leads (.jtagRegacc true addr data e) s (fun t => t.regs = s.regs ∧
        ∀ d : Ch, (t.chan d).stage =
          if d = c then (s.chan c).stage ++ [⟨(DCM_TGT.at c).base, data, .jtag⟩] else (s.chan d).stage))) ∧
  (∀ s : State,
    Leads .jtagIdcode s (fun t => sends (.jtag 32 0x06848001) s t ∧ t.pins = s.pins ∧ t.regs = s.regs) ∧
    Leads .jtagBypass s (fun t => sends (.jtag 1 0) s t ∧ t.pins = s.pins ∧ t.regs = s.regs) ∧
    (∀ sample load : List Bool, Leads (.jtagSamplePreload sample load) s (fun t =>
      sends (.jtag sample.length (bitList sample)) s t ∧ t.pins = { s.pins with cells := load } ∧ t.regs = s.regs)) ∧
    (∀ load : List Bool,
      (s.pins.extest = true → Leads (.jtagExtest load) s (fun t => t = { s with pins := { s.pins with cells := load } })) ∧
      (s.pins.extest = false → RegsCanonical s → Leads (.jtagExtest load) s (fun t =>
        t.pins = { s.pins with extest := true, cells := load } ∧ t.tb = s.tb ∧
        ∀ c : Ch, t.mode c = mOFF ∧ t.getb (DCM_STAT_STOPPED.at c) = true ∧ t.get (DCM_ERR_CAUSE.at c) = 10 ∧
          (t.chan c).wrc.lanesRead = true ∧ (t.chan c).wrc.emittersOff = true))))
end

