-- ==== Sys2Proof/Laws/Frame.lean ====
section
/-! SUPPORT. Which parts of the state an operation may change, and what every operation keeps: the queue, chip reset, the
straps, the tick counter, a lost timebase, and the canonical form of the register list. -/

namespace Sys2Proof.Machine

/-! ### The register list stays canonical -/

/-- Every address listed is above `a`. -/
def regsAbove (a : Nat) (l : List (Nat × W32)) : Prop := ∀ p ∈ l, a < p.1

theorem regsWf_cons {k : Nat} {v : W32} {l : List (Nat × W32)} :
    regsWf ((k, v) :: l) = true ↔ v ≠ resetValue k ∧ regsAbove k l ∧ regsWf l = true := by
  induction l generalizing k v with
  | nil => simp [regsWf, regsAbove]
  | cons p r ih =>
    obtain ⟨k', v'⟩ := p
    constructor
    · intro h
      simp only [regsWf, Bool.and_eq_true, decide_eq_true_eq] at h
      obtain ⟨⟨h1, h2⟩, h3⟩ := h
      refine ⟨h1, ?_, h3⟩
      intro q hq
      rcases List.mem_cons.mp hq with rfl | hq
      · exact h2
      · exact Nat.lt_trans h2 ((ih.mp h3).2.1 q hq)
    · rintro ⟨h1, h2, h3⟩
      simp only [regsWf, Bool.and_eq_true, decide_eq_true_eq]
      exact ⟨⟨h1, h2 (k', v') (List.mem_cons_self ..)⟩, h3⟩

theorem regsAbove_erase {a b : Nat} {l : List (Nat × W32)} (h : regsAbove b l) : regsAbove b (regErase a l) := by
  induction l with
  | nil => exact h
  | cons p r ih =>
    obtain ⟨k, v⟩ := p
    have hr : regsAbove b r := fun q hq => h q (List.mem_cons_of_mem _ hq)
    unfold regErase
    split
    · exact hr
    · intro q hq
      rcases List.mem_cons.mp hq with rfl | hq
      · exact h _ (List.mem_cons_self ..)
      · exact ih hr q hq

theorem regsWf_erase {a : Nat} {l : List (Nat × W32)} (h : regsWf l = true) : regsWf (regErase a l) = true := by
  induction l with
  | nil => exact h
  | cons p r ih =>
    obtain ⟨k, v⟩ := p
    obtain ⟨h1, h2, h3⟩ := regsWf_cons.mp h
    unfold regErase
    split
    · exact h3
    · exact regsWf_cons.mpr ⟨h1, regsAbove_erase h2, ih h3⟩

theorem regsAbove_insert {a b : Nat} {w : W32} {l : List (Nat × W32)} (hb : b < a) (h : regsAbove b l) :
    regsAbove b (regInsert a w l) := by
  induction l with
  | nil => intro q hq; rcases List.mem_cons.mp hq with rfl | hq
           · exact hb
           · cases hq
  | cons p r ih =>
    obtain ⟨k, v⟩ := p
    have hr : regsAbove b r := fun q hq => h q (List.mem_cons_of_mem _ hq)
    unfold regInsert
    split
    · intro q hq; rcases List.mem_cons.mp hq with rfl | hq
      · exact hb
      · exact h q hq
    · split
      · intro q hq; rcases List.mem_cons.mp hq with rfl | hq
        · exact hb
        · exact hr q hq
      · intro q hq; rcases List.mem_cons.mp hq with rfl | hq
        · exact h _ (List.mem_cons_self ..)
        · exact ih hr q hq

theorem regsWf_insert {a : Nat} {w : W32} {l : List (Nat × W32)} (hw : w ≠ resetValue a) (h : regsWf l = true) :
    regsWf (regInsert a w l) = true := by
  induction l with
  | nil => exact regsWf_cons.mpr ⟨hw, (fun q hq => nomatch hq), rfl⟩
  | cons p r ih =>
    obtain ⟨k, v⟩ := p
    obtain ⟨h1, h2, h3⟩ := regsWf_cons.mp h
    unfold regInsert
    split
    · next hk =>
      refine regsWf_cons.mpr ⟨hw, ?_, h⟩
      intro q hq; rcases List.mem_cons.mp hq with rfl | hq
      · exact hk
      · exact Nat.lt_trans hk (h2 q hq)
    · split
      · next hk => subst hk; exact regsWf_cons.mpr ⟨hw, h2, h3⟩
      · next h4 h5 => exact regsWf_cons.mpr ⟨h1, regsAbove_insert (by omega) h2, ih h3⟩

/-- Writing a register keeps the list canonical. -/
theorem regsWf_write {a : Nat} {w : W32} {l : List (Nat × W32)} (h : regsWf l = true) :
    regsWf (regWrite a w l) = true := by
  unfold regWrite
  split
  · exact regsWf_erase h
  · next hw => exact regsWf_insert hw h

/-! ### Frames -/

/-- From `s` to `t` only parts of `p` change; and the queue of waiting commands, chip reset, the straps and the tick counter
stay, a lost timebase stays lost, and a canonical register list stays canonical. -/
structure Frame (p : Part → Prop) (s t : State) : Prop where
  same : ∀ q, ¬p q → samePart q s t
  pending : t.pending = s.pending
  inReset : t.pins.inReset = s.pins.inReset
  straps : t.straps = s.straps
  tick : t.tb.tick = s.tb.tick
  lost : s.tb.lost = true → t.tb.lost = true
  regs : regsWf s.regs = true → regsWf t.regs = true

theorem samePart_refl (q : Part) (s : State) : samePart q s s := by cases q <;> rfl

theorem samePart_trans {q : Part} {r s t : State} (h : samePart q r s) (k : samePart q s t) : samePart q r t := by
  cases q <;> exact Eq.trans k h

theorem Frame.refl {p : Part → Prop} (s : State) : Frame p s s :=
  ⟨fun q _ => samePart_refl q s, rfl, rfl, rfl, rfl, id, id⟩

theorem Frame.trans {p : Part → Prop} {r s t : State} (h : Frame p r s) (k : Frame p s t) : Frame p r t :=
  ⟨fun q hq => samePart_trans (h.same q hq) (k.same q hq), k.pending.trans h.pending, k.inReset.trans h.inReset,
    k.straps.trans h.straps, k.tick.trans h.tick, fun e => k.lost (h.lost e), fun e => k.regs (h.regs e)⟩

/-- A frame holds for every larger set of parts. -/
theorem Frame.mono {p q : Part → Prop} {s t : State} (hpq : ∀ x, p x → q x) (h : Frame p s t) : Frame q s t :=
  ⟨fun x hx => h.same x (fun e => hx (hpq x e)), h.pending, h.inReset, h.straps, h.tick, h.lost, h.regs⟩

/-- A change of parts other than the registers and the channels. -/
theorem Frame.upd {p : Part → Prop} {r s : State} {tb : TimeBase} {locks frozen hlt writer buses pwr host map mca str mem}
    {fls cal} {pins : Pins} {memberTmo rcd} (e1 : tb.tick = s.tb.tick) (e2 : tb.lost = s.tb.lost)
    (e3 : pins.inReset = s.pins.inReset)
    (htb : tb = s.tb ∨ p .tb)
    (hlocks : locks = s.locks ∨ p .locks)
    (hfrozen : frozen = s.frozen ∨ p .frozen)
    (hhlt : hlt = s.hlt ∨ p .hlt)
    (hwriter : writer = s.writer ∨ p .writer)
    (hbuses : buses = s.buses ∨ p .buses)
    (hpwr : pwr = s.pwr ∨ p .pwr)
    (hhost : host = s.host ∨ p .host)
    (hmap : map = s.map ∨ p .map)
    (hmca : mca = s.mca ∨ p .mca)
    (hstr : str = s.str ∨ p .str)
    (hmem : mem = s.mem ∨ p .mem)
    (hfls : fls = s.fls ∨ p .fls)
    (hcal : cal = s.cal ∨ p .cal)
    (hpins : pins = s.pins ∨ p .pins)
    (hmemberTmo : memberTmo = s.memberTmo ∨ p .memberTmo)
    (hrcd : rcd = s.rcd ∨ p .rcd)
    (h : Frame p r s) :
    Frame p r (.mk s.regs tb locks frozen hlt s.straps writer s.chans buses pwr host map mca str mem fls cal pins memberTmo
      rcd s.pending) := by
  refine h.trans ⟨?_, rfl, e3, rfl, e1, fun e => e2.trans e, id⟩
  intro q hq
  cases q <;> first | rfl | exact Or.resolve_right (by assumption) hq

theorem Frame.ite {p : Part → Prop} {r a b : State} {c : Prop} [Decidable c] (ha : Frame p r a) (hb : Frame p r b) :
    Frame p r (if c then a else b) := by split <;> assumption

theorem Frame.step {p : Part → Prop} {r x : State} {q : Prop} (hx : Frame p r x) (hq : Frame p r x → q) : q := hq hx

theorem Frame.snd {α : Type} {p : Part → Prop} {r y : State} {z : α × State} {x : α} (e : z = (x, y))
    (h : Frame p r z.2) : Frame p r y := by subst e; exact h

theorem Frame.fst {α : Type} {p : Part → Prop} {r y : State} {z : State × α} {x : α} (e : z = (y, x))
    (h : Frame p r z.1) : Frame p r y := by subst e; exact h

theorem Frame.snd2 {α β : Type} {p : Part → Prop} {r y : State} {z : α × β × State} {x : α} {w : β} (e : z = (x, w, y))
    (h : Frame p r z.2.2) : Frame p r y := by subst e; exact h

theorem Frame.snd3 {α β γ : Type} {p : Part → Prop} {r y : State} {z : α × β × γ × State} {x : α} {w : β} {v : γ}
    (e : z = (x, w, v, y)) (h : Frame p r z.2.2.2) : Frame p r y := by subst e; exact h

theorem Frame.getD {p : Part → Prop} {r d : State} {o : Option State} (ho : ∀ t, o = some t → Frame p r t)
    (hd : Frame p r d) : Frame p r (o.getD d) := by
  cases o with
  | none => exact hd
  | some t => exact ho t rfl

theorem Frame.ofSome {p : Part → Prop} {r s t : State} (e : some s = some t) (h : Frame p r s) : Frame p r t := by
  cases e; exact h

theorem Frame.bind {p : Part → Prop} {r t : State} {o : Option State} {f : State → Option State}
    (hf : ∀ s t, f s = some t → Frame p r s → Frame p r t) (ho : ∀ s, o = some s → Frame p r s)
    (e : o.bind f = some t) : Frame p r t := by
  cases o with
  | none => cases e
  | some s => exact hf s t e (ho s rfl)

theorem Frame.foldl {α : Type} {p : Part → Prop} {r : State} {f : State → α → State}
    (hf : ∀ s a, Frame p r s → Frame p r (f s a)) {l : List α} {s : State} (h : Frame p r s) :
    Frame p r (l.foldl f s) := by
  induction l generalizing s with
  | nil => exact h
  | cons a l ih => exact ih (hf s a h)

theorem Frame.foldlSnd {α β : Type} {p : Part → Prop} {r : State} {f : β × State → α → β × State}
    (hf : ∀ z a, Frame p r z.2 → Frame p r (f z a).2) {l : List α} {z : β × State} (h : Frame p r z.2) :
    Frame p r (l.foldl f z).2 := by
  induction l generalizing z with
  | nil => exact h
  | cons a l ih => exact ih (hf z a h)

theorem Frame.each {α : Type} {p : Part → Prop} {r : State} {f : State → α → State}
    (hf : ∀ s a, Frame p r s → Frame p r (f s a)) {l : List α} {s : State} (h : Frame p r s) :
    Frame p r (s.each l f) := Frame.foldl hf h

/-! ### Outcomes -/

theorem Frame.next {p : Part → Prop} {r s t : State} (h : Frame p r t) : Frame p r (stateOf s (.next t)) := h

theorem Frame.gate {p : Part → Prop} {r s : State} {o : Out} (h : Frame p r s) (k : Frame p r (stateOf s o)) :
    Frame p r (stateOf s (gate s o)) := by unfold Machine.gate; split <;> assumption

theorem Frame.gateEngine {p : Part → Prop} {r s : State} {c : Ch} {o : Out} (h : Frame p r s)
    (k : Frame p r (stateOf s o)) : Frame p r (stateOf s (gateEngine c s o)) := by
  unfold Machine.gateEngine; split <;> assumption

theorem Frame.run {p : Part → Prop} {r s : State} {l : List (State → Out)}
    (hl : ∀ f ∈ l, ∀ s, Frame p r s → Frame p r (stateOf s (f s))) (h : Frame p r s) :
    Frame p r (l.foldl (fun s f => stateOf s (f s)) s) := by
  induction l generalizing s with
  | nil => exact h
  | cons f l ih => exact ih (fun g hg => hl g (List.mem_cons_of_mem _ hg)) (hl f (List.mem_cons_self ..) s h)

theorem State.wr_frame {p : Part → Prop} {r s : State} {a : Nat} {w : W32} (hregs : p .regs) (h : Frame p r s) :
    Frame p r (s.wr a w) := by
  refine h.trans ⟨?_, rfl, rfl, rfl, rfl, id, fun e => regsWf_write e⟩
  intro q hq
  cases q <;> first | rfl | exact absurd hregs hq

theorem State.onChan_frame {p : Part → Prop} {r s : State} {c : Ch} {f : Chan → Chan} (hchan : p (.chan c))
    (h : Frame p r s) : Frame p r (s.onChan c f) := by
  refine h.trans ⟨?_, rfl, rfl, rfl, rfl, id, id⟩
  intro q hq
  cases q with
  | chan k =>
    show (s.chans.set c (f (s.chan c)))[k] = s.chans[k]
    have hk : c ≠ k := fun e => hq (e ▸ hchan)
    exact Vector.getElem_set_ne _ _ (fun e => hk (Fin.ext e))
  | _ => rfl

end Sys2Proof.Machine
end

