-- ==== Sys2Proof/Laws/FrameBase.lean ====
section
/-! SUPPORT. What each operation of State, Ops, Transfer, Host, Flash, Context may change (`Frame`). -/

namespace Sys2Proof.Machine

/-! ### Ops -/

theorem State.put_frame {p : Part → Prop} {r s a1 a2} (h_regs : p .regs) (h : Frame p r s) : Frame p r (State.put s a1
    a2) := by
  unfold State.put
  repeat' with_reducible first | assumption | refine State.wr_frame ?_ ?_

theorem State.puti_frame {p : Part → Prop} {r s a1 a2} (h_regs : p .regs) (h : Frame p r s) : Frame p r (State.puti s a1
    a2) := by
  unfold State.puti
  repeat' with_reducible first | assumption | refine State.put_frame ?_ ?_

theorem State.putb_frame {p : Part → Prop} {r s a1 a2} (h_regs : p .regs) (h : Frame p r s) : Frame p r (State.putb s a1
    a2) := by
  unfold State.putb
  repeat' with_reducible first | assumption | refine State.put_frame ?_ ?_

theorem State.bump_frame {p : Part → Prop} {r s a1 a2} (h_regs : p .regs) (h : Frame p r s) : Frame p r (State.bump s a1
    a2) := by
  unfold State.bump
  repeat' with_reducible first | assumption | refine State.put_frame ?_ ?_

theorem State.clearAll_frame {p : Part → Prop} {r s a1} (h_regs : p .regs) (h : Frame p r s) :
    Frame p r (State.clearAll s a1) := by
  induction a1 generalizing s with
  | nil => exact h
  | cons f fs ih => exact ih (State.put_frame h_regs h)

theorem State.onSrv_frame {p : Part → Prop} {r s a1 a2} (h_c1 : p (.chan a1)) (h : Frame p r s) : Frame p r (State.onSrv
    s a1 a2) := by
  unfold State.onSrv
  repeat' with_reducible first | assumption | refine State.onChan_frame ?_ ?_

theorem State.onRdc_frame {p : Part → Prop} {r s a1 a2} (h_c1 : p (.chan a1)) (h : Frame p r s) : Frame p r (State.onRdc
    s a1 a2) := by
  unfold State.onRdc
  repeat' with_reducible first | assumption | refine State.onChan_frame ?_ ?_

theorem State.onWrc_frame {p : Part → Prop} {r s a1 a2} (h_c1 : p (.chan a1)) (h : Frame p r s) : Frame p r (State.onWrc
    s a1 a2) := by
  unfold State.onWrc
  repeat' with_reducible first | assumption | refine State.onChan_frame ?_ ?_

theorem State.onMot_frame {p : Part → Prop} {r s a1 a2} (h_c1 : p (.chan a1)) (h : Frame p r s) : Frame p r (State.onMot
    s a1 a2) := by
  unfold State.onMot
  repeat' with_reducible first | assumption | refine State.onChan_frame ?_ ?_

theorem State.onSpn_frame {p : Part → Prop} {r s a1 a2} (h_c1 : p (.chan a1)) (h : Frame p r s) : Frame p r (State.onSpn
    s a1 a2) := by
  unfold State.onSpn
  repeat' with_reducible first | assumption | refine State.onChan_frame ?_ ?_

theorem State.onDcm_frame {p : Part → Prop} {r s a1 a2} (h_c1 : p (.chan a1)) (h : Frame p r s) : Frame p r (State.onDcm
    s a1 a2) := by
  unfold State.onDcm
  repeat' with_reducible first | assumption | refine State.onChan_frame ?_ ?_

theorem State.onLoop_frame {p : Part → Prop} {r s a1 a2 a3} (h_c1 : p (.chan a1)) (h : Frame p r s) : Frame p r
    (State.onLoop s a1 a2 a3) := by
  unfold State.onLoop
  repeat' with_reducible first | assumption | refine State.onSrv_frame ?_ ?_

theorem State.onSig_frame {p : Part → Prop} {r s a1 a2 a3} (h_c1 : p (.chan a1)) (h : Frame p r s) : Frame p r
    (State.onSig s a1 a2 a3) := by
  unfold State.onSig
  repeat' with_reducible first | assumption | refine State.onRdc_frame ?_ ?_

theorem State.onAxis_frame {p : Part → Prop} {r s a1 a2 a3} (h_c1 : p (.chan a1)) (h : Frame p r s) : Frame p r
    (State.onAxis s a1 a2 a3) := by
  unfold State.onAxis
  repeat' with_reducible first | assumption | refine State.onMot_frame ?_ ?_

theorem State.onTile_frame {p : Part → Prop} {r s a1 a2} (h_c1 : p (.chan a1)) (h : Frame p r s) : Frame p r
    (State.onTile s a1 a2) := by
  unfold State.onTile
  repeat' with_reducible first | assumption | refine State.onRdc_frame ?_ ?_

theorem State.onBus_frame {p : Part → Prop} {r s a1 a2} (h_buses : p .buses) (h : Frame p r s) : Frame p r (State.onBus
    s a1 a2) := by
  unfold State.onBus
  repeat' with_reducible
    first
    | assumption | refine Frame.upd rfl rfl rfl ?_ ?_ ?_ ?_ ?_ ?_ ?_ ?_ ?_ ?_ ?_ ?_ ?_ ?_ ?_ ?_ ?_ ?_ | exact Or.inl rfl
    | exact Or.inr (by assumption)

theorem State.onHlt_frame {p : Part → Prop} {r s a1} (h_hlt : p .hlt) (h : Frame p r s) : Frame p r (State.onHlt s a1)
    := by
  unfold State.onHlt
  repeat' with_reducible
    first
    | assumption | refine Frame.upd rfl rfl rfl ?_ ?_ ?_ ?_ ?_ ?_ ?_ ?_ ?_ ?_ ?_ ?_ ?_ ?_ ?_ ?_ ?_ ?_ | exact Or.inl rfl
    | exact Or.inr (by assumption)

theorem State.raise_frame {p : Part → Prop} {r s a1 a2} (h_regs : p .regs) (h : Frame p r s) : Frame p r (State.raise s
    a1 a2) := by
  unfold State.raise
  repeat' with_reducible first | assumption | refine State.wr_frame ?_ ?_

theorem State.persist_frame {p : Part → Prop} {r s a1} (h_hlt : p .hlt) (h : Frame p r s) : Frame p r (State.persist s
    a1) := by
  unfold State.persist
  repeat' with_reducible first | assumption | refine State.onHlt_frame ?_ ?_

theorem State.logEvent_frame {p : Part → Prop} {r s a1} (h_hlt : p .hlt) (h : Frame p r s) : Frame p r (State.logEvent s
    a1) := by
  unfold State.logEvent
  repeat' with_reducible first | assumption | refine State.onHlt_frame ?_ ?_

theorem State.logChange_frame {p : Part → Prop} {r s a1 a2 a3 a4 a5 a6 a7} (h_hlt : p .hlt) (h : Frame p r s) : Frame p
    r (State.logChange s a1 a2 a3 a4 a5 a6 a7) := by
  unfold State.logChange
  repeat' with_reducible
    first
    | assumption | refine State.onHlt_frame ?_ ?_ | refine State.persist_frame ?_ ?_ | refine Frame.ite ?_ ?_

theorem touchLock_frame {p : Part → Prop} {r a0 a1 s} (h_locks : p .locks) (h : Frame p r s) : Frame p r (touchLock a0
    a1 s) := by
  unfold touchLock
  repeat' with_reducible
    first
    | assumption | refine Frame.upd rfl rfl rfl ?_ ?_ ?_ ?_ ?_ ?_ ?_ ?_ ?_ ?_ ?_ ?_ ?_ ?_ ?_ ?_ ?_ ?_ | exact Or.inl rfl
    | exact Or.inr (by assumption)

theorem lockWrite_frame {p : Part → Prop} {r a0 a1 a2 s} (h_locks : p .locks) (h_hlt : p .hlt) (h : Frame p r s) : Frame
    p r (lockWrite a0 a1 a2 s) := by
  unfold lockWrite
  repeat' with_reducible
    first
    | assumption | refine State.logChange_frame ?_ ?_
    | refine Frame.upd rfl rfl rfl ?_ ?_ ?_ ?_ ?_ ?_ ?_ ?_ ?_ ?_ ?_ ?_ ?_ ?_ ?_ ?_ ?_ ?_ | exact Or.inl rfl
    | exact Or.inr (by assumption)

theorem State.expert_frame {p : Part → Prop} {r s o b f}  (h_locks : p .locks) (h_hlt : p .hlt) (hf : ∀ s, Frame p r s →
    Frame p r (f s)) (h : Frame p r s) :
    Frame p r (State.expert s o b f) := by
  unfold State.expert
  repeat' with_reducible first | assumption | refine hf _ ?_ | refine lockWrite_frame ?_ ?_ ?_ | refine Frame.ite ?_ ?_

theorem State.expertAt_frame {p : Part → Prop} {r s o a t rwl f}  (h_locks : p .locks) (h_hlt : p .hlt) (hf : ∀ s, Frame
    p r s → Frame p r (f s))
    (h : Frame p r s) : Frame p r (State.expertAt s o a t rwl f) := by
  unfold State.expertAt
  repeat' with_reducible
    first
    | assumption | refine hf _ ?_ | refine State.expert_frame ?_ ?_ (fun _ _ => ?_) ?_ | refine touchLock_frame ?_ ?_
    | split

theorem State.seqWrite_frame {p : Part → Prop} {r s a1 a2 a3} (h_regs : p .regs) (h_locks : p .locks) (h_hlt : p .hlt)
    (h : Frame p r s) : Frame p r (State.seqWrite s a1 a2 a3) := by
  unfold State.seqWrite
  repeat' with_reducible
    first
    | assumption | refine State.expertAt_frame ?_ ?_ (fun _ _ => ?_) ?_ | refine State.logChange_frame ?_ ?_
    | refine State.wr_frame ?_ ?_ | split

theorem State.seqPut_frame {p : Part → Prop} {r s a1 a2 a3} (h_regs : p .regs) (h_locks : p .locks) (h_hlt : p .hlt) (h
    : Frame p r s) : Frame p r (State.seqPut s a1 a2 a3) := by
  unfold State.seqPut
  repeat' with_reducible first | assumption | refine State.seqWrite_frame ?_ ?_ ?_ ?_ | split

theorem stageWrite_frame {p : Part → Prop} {r a0 a1 s} (h_c0 : p (.chan a0)) (h : Frame p r s) : Frame p r (stageWrite
    a0 a1 s) := by
  unfold stageWrite
  repeat' with_reducible first | assumption | refine State.onChan_frame ?_ ?_

theorem State.stageReg_frame {p : Part → Prop} {r s a1 a2} (h_locks : p .locks) (h_hlt : p .hlt) (h_c1 : p (.chan a1))
    (h : Frame p r s) : Frame p r (State.stageReg s a1 a2) := by
  unfold State.stageReg
  repeat' with_reducible
    first
    | assumption | refine State.expertAt_frame ?_ ?_ (fun _ _ => ?_) ?_ | refine stageWrite_frame ?_ ?_ | split

theorem State.stageSeq_frame {p : Part → Prop} {r s a1 a2 a3 a4} (h_locks : p .locks) (h_hlt : p .hlt) (h_c1 : p (.chan
    a1)) (h : Frame p r s) : Frame p r (State.stageSeq s a1 a2 a3 a4) := by
  unfold State.stageSeq
  repeat' with_reducible first | assumption | refine State.stageReg_frame ?_ ?_ ?_ ?_

theorem State.onRcd_frame {p : Part → Prop} {r s a1} (h_rcd : p .rcd) (h : Frame p r s) : Frame p r (State.onRcd s a1)
    := by
  unfold State.onRcd
  repeat' with_reducible
    first
    | assumption | refine Frame.upd rfl rfl rfl ?_ ?_ ?_ ?_ ?_ ?_ ?_ ?_ ?_ ?_ ?_ ?_ ?_ ?_ ?_ ?_ ?_ ?_ | exact Or.inl rfl
    | exact Or.inr (by assumption)

theorem State.onAcc_frame {p : Part → Prop} {r s a1 a2} (h_rcd : p .rcd) (h : Frame p r s) : Frame p r (State.onAcc s a1
    a2) := by
  unfold State.onAcc
  repeat' with_reducible first | assumption | refine State.onRcd_frame ?_ ?_

theorem recTrigger_frame {p : Part → Prop} {r a0 a1 s} (h_regs : p .regs) (h_rcd : p .rcd) (h : Frame p r s) : Frame p r
    (recTrigger a0 a1 s) := by
  unfold recTrigger
  repeat' with_reducible
    first
    | assumption | refine State.putb_frame ?_ ?_ | refine State.onAcc_frame ?_ ?_ | refine State.onRcd_frame ?_ ?_
    | refine Frame.each (fun _ _ _ => ?_) ?_ | refine Frame.ite ?_ ?_

theorem State.fault_frame {p : Part → Prop} {r s a1 a2 a3 a4 a5} (h_hlt : p .hlt) (h : Frame p r s) : Frame p r
    (State.fault s a1 a2 a3 a4 a5) := by
  unfold State.fault
  repeat' with_reducible first | assumption | refine State.onHlt_frame ?_ ?_

theorem State.faultCh_frame {p : Part → Prop} {r s a1 a2 a3 a4} (h_regs : p .regs) (h_hlt : p .hlt) (h_rcd : p .rcd) (h
    : Frame p r s) : Frame p r (State.faultCh s a1 a2 a3 a4) := by
  unfold State.faultCh
  repeat' with_reducible
    first
    | assumption | refine State.fault_frame ?_ ?_ | refine recTrigger_frame ?_ ?_ ?_ | refine Frame.ite ?_ ?_

/-! ### Transfer -/

theorem holdTransfer_frame {p : Part → Prop} {r a0 s} (h_regs : p .regs) (h_c0 : p (.chan a0)) (h : Frame p r s) : Frame
    p r (holdTransfer a0 s) := by
  unfold holdTransfer
  repeat' with_reducible first | assumption | refine State.onRdc_frame ?_ ?_ | refine State.putb_frame ?_ ?_

theorem driverDue_frame {p : Part → Prop} {r a0 a1 a2 s} (h_c0 : p (.chan a0)) (h : Frame p r s) : Frame p r (driverDue
    a0 a1 a2 s) := by
  unfold driverDue
  repeat' with_reducible first | assumption | refine State.onWrc_frame ?_ ?_

theorem setLadder_frame {p : Part → Prop} {r a0 a1 s} (h_regs : p .regs) (h : Frame p r s) : Frame p r (setLadder a0 a1
    s) := by
  unfold setLadder
  repeat' with_reducible first | assumption | refine State.puti_frame ?_ ?_

theorem stopReadAt_frame {p : Part → Prop} {r a0 a1 s} (h_regs : p .regs) (h_c0 : p (.chan a0)) (h : Frame p r s) :
    Frame p r (stopReadAt a0 a1 s) := by
  unfold stopReadAt
  repeat' with_reducible
    first
    | assumption | refine setLadder_frame ?_ ?_ | refine State.onRdc_frame ?_ ?_ | refine Frame.ite ?_ ?_

theorem stopRead_frame {p : Part → Prop} {r a0 s} (h_regs : p .regs) (h_c0 : p (.chan a0)) (h : Frame p r s) : Frame p r
    (stopRead a0 s) := by
  unfold stopRead
  repeat' with_reducible first | assumption | refine stopReadAt_frame ?_ ?_ ?_

theorem vlogAdd_frame {p : Part → Prop} {r a0 a1 s} (h_regs : p .regs) (h_c0 : p (.chan a0)) (h : Frame p r s) : Frame p
    r (vlogAdd a0 a1 s) := by
  unfold vlogAdd
  repeat' with_reducible
    first
    | assumption | refine State.onWrc_frame ?_ ?_ | refine State.put_frame ?_ ?_ | refine Frame.ite ?_ ?_

theorem showReloc_frame {p : Part → Prop} {r a0 s} (h_regs : p .regs) (h : Frame p r s) : Frame p r (showReloc a0 s) :=
    by
  unfold showReloc
  repeat' with_reducible first | assumption | refine State.put_frame ?_ ?_

theorem reportAbandoned_frame {p : Part → Prop} {r a0 s} (h_regs : p .regs) (h_c0 : p (.chan a0)) (h : Frame p r s) :
    Frame p r (reportAbandoned a0 s) := by
  unfold reportAbandoned
  repeat' with_reducible
    first
    | assumption | refine State.onWrc_frame ?_ ?_ | refine showReloc_frame ?_ ?_ | refine vlogAdd_frame ?_ ?_ ?_ | split

theorem noteAbort_frame {p : Part → Prop} {r a0 a1 s} (h_regs : p .regs) (h : Frame p r s) : Frame p r (noteAbort a0 a1
    s) := by
  unfold noteAbort
  repeat' with_reducible
    first
    | assumption | refine State.raise_frame ?_ ?_ | refine State.bump_frame ?_ ?_ | refine State.put_frame ?_ ?_

theorem abortWrite_frame {p : Part → Prop} {r a0 a1 s} (h_regs : p .regs) (h_c0 : p (.chan a0)) (h : Frame p r s) :
    Frame p r (abortWrite a0 a1 s) := by
  unfold abortWrite
  repeat' with_reducible
    first
    | assumption | refine State.put_frame ?_ ?_ | refine State.onWrc_frame ?_ ?_ | refine noteAbort_frame ?_ ?_
    | refine stopRead_frame ?_ ?_ ?_ | refine reportAbandoned_frame ?_ ?_ ?_ | split

theorem stopTransfer_frame {p : Part → Prop} {r a0 a1 s} (h_regs : p .regs) (h_c0 : p (.chan a0)) (h : Frame p r s) :
    Frame p r (stopTransfer a0 a1 s) := by
  unfold stopTransfer
  repeat' with_reducible
    first
    | assumption | refine holdTransfer_frame ?_ ?_ ?_ | refine stopRead_frame ?_ ?_ ?_
    | refine abortWrite_frame ?_ ?_ ?_

theorem abortBoundary_frame {p : Part → Prop} {r a0 s} (h_regs : p .regs) (h_c0 : p (.chan a0)) (h : Frame p r s) :
    Frame p r (abortBoundary a0 s) := by
  unfold abortBoundary
  repeat' with_reducible
    first
    | assumption | refine reportAbandoned_frame ?_ ?_ ?_ | refine State.onWrc_frame ?_ ?_ | refine State.put_frame ?_ ?_
    | refine Frame.ite ?_ ?_

/-! ### Host -/

theorem State.onHost_frame {p : Part → Prop} {r s a1} (h_host : p .host) (h : Frame p r s) : Frame p r (State.onHost s
    a1) := by
  unfold State.onHost
  repeat' with_reducible
    first
    | assumption | refine Frame.upd rfl rfl rfl ?_ ?_ ?_ ?_ ?_ ?_ ?_ ?_ ?_ ?_ ?_ ?_ ?_ ?_ ?_ ?_ ?_ ?_ | exact Or.inl rfl
    | exact Or.inr (by assumption)

theorem State.send_frame {p : Part → Prop} {r s a1} (h_host : p .host) (h : Frame p r s) : Frame p r (State.send s a1)
    := by
  unfold State.send
  repeat' with_reducible first | assumption | refine State.onHost_frame ?_ ?_

theorem State.onFn_frame {p : Part → Prop} {r s a1 a2} (h_host : p .host) (h : Frame p r s) : Frame p r (State.onFn s a1
    a2) := by
  unfold State.onFn
  repeat' with_reducible first | assumption | refine State.onHost_frame ?_ ?_ | split

theorem State.onPort_frame {p : Part → Prop} {r s a1 a2} (h_host : p .host) (h : Frame p r s) : Frame p r (State.onPort
    s a1 a2) := by
  unfold State.onPort
  repeat' with_reducible first | assumption | refine State.onHost_frame ?_ ?_

theorem State.onRing_frame {p : Part → Prop} {r s a1 a2} (h_host : p .host) (h : Frame p r s) : Frame p r (State.onRing
    s a1 a2) := by
  unfold State.onRing
  repeat' with_reducible first | assumption | refine State.onHost_frame ?_ ?_

theorem interrupt_frame {p : Part → Prop} {r a0 a1 s} (h_host : p .host) (h : Frame p r s) : Frame p r (interrupt a0 a1
    s) := by
  unfold interrupt
  repeat' with_reducible
    first
    | assumption | refine State.onFn_frame ?_ ?_ | refine State.send_frame ?_ ?_ | refine Frame.ite ?_ ?_

theorem unmaskAll_frame {p : Part → Prop} {r a0 s} (h_host : p .host) (h : Frame p r s) : Frame p r (unmaskAll a0 s) :=
    by
  unfold unmaskAll
  repeat' with_reducible
    first
    | assumption | refine State.send_frame ?_ ?_ | refine State.onFn_frame ?_ ?_
    | refine Frame.each (fun _ _ _ => ?_) ?_ | refine Frame.ite ?_ ?_

theorem writeRun_frame {p : Part → Prop} {r a0 a1 a2 s} (h_host : p .host) (h : Frame p r s) : Frame p r (writeRun a0 a1
    a2 s) := by
  unfold writeRun
  repeat' with_reducible first | assumption | refine State.send_frame ?_ ?_ | refine Frame.foldl (fun _ _ _ => ?_) ?_

theorem writeBuf_frame {p : Part → Prop} {r f l off data s}  (h_host : p .host) (h : Frame p r s) :
    Frame p r (writeBuf f l off data s) := by
  induction l generalizing off data s with
  | nil => exact h
  | cons x l ih =>
    unfold writeBuf
    repeat' with_reducible first | assumption | refine ih ?_ | refine writeRun_frame ?_ ?_ | refine Frame.ite ?_ ?_

theorem writeRecord_frame {p : Part → Prop} {r a0 a1 a2 a3 a4 a5 a6 a7 s} (h_host : p .host) (h : Frame p r s) : Frame p
    r (writeRecord a0 a1 a2 a3 a4 a5 a6 a7 s) := by
  unfold writeRecord
  repeat' with_reducible first | assumption | refine State.send_frame ?_ ?_ | refine Frame.ite ?_ ?_

theorem postEvent_frame {p : Part → Prop} {r a0 a1 a2 a3 a4 s} (h_regs : p .regs) (h_host : p .host) (h : Frame p r s) :
    Frame p r (postEvent a0 a1 a2 a3 a4 s) := by
  unfold postEvent
  repeat' with_reducible
    first
    | assumption | lift_lets -underBinder | (intro x; subst x) | refine State.onFn_frame ?_ ?_
    | refine State.bump_frame ?_ ?_ | refine State.send_frame ?_ ?_ | refine interrupt_frame ?_ ?_
    | refine State.put_frame ?_ ?_ | split

theorem logViolation_frame {p : Part → Prop} {r a0 a1 a2 a3 s} (h_regs : p .regs) (h_hlt : p .hlt) (h : Frame p r s) :
    Frame p r (logViolation a0 a1 a2 a3 s) := by
  unfold logViolation
  repeat' with_reducible
    first
    | assumption | refine State.onHlt_frame ?_ ?_ | refine State.bump_frame ?_ ?_ | refine State.raise_frame ?_ ?_
    | refine Frame.ite ?_ ?_

theorem violation_frame {p : Part → Prop} {r a0 a1 a2 a3 s} (h_regs : p .regs) (h_hlt : p .hlt) (h_host : p .host) (h :
    Frame p r s) : Frame p r (violation a0 a1 a2 a3 s) := by
  unfold violation
  repeat' with_reducible
    first
    | assumption | refine logViolation_frame ?_ ?_ ?_ | refine State.raise_frame ?_ ?_ | refine State.bump_frame ?_ ?_
    | refine State.onFn_frame ?_ ?_ | refine postEvent_frame ?_ ?_ ?_ | refine Frame.ite ?_ ?_

/-! ### Flash -/

theorem State.onFls_frame {p : Part → Prop} {r s a1} (h_fls : p .fls) (h : Frame p r s) : Frame p r (State.onFls s a1)
    := by
  unfold State.onFls
  repeat' with_reducible
    first
    | assumption | refine Frame.upd rfl rfl rfl ?_ ?_ ?_ ?_ ?_ ?_ ?_ ?_ ?_ ?_ ?_ ?_ ?_ ?_ ?_ ?_ ?_ ?_ | exact Or.inl rfl
    | exact Or.inr (by assumption)

theorem State.onBank_frame {p : Part → Prop} {r s a1 a2} (h_fls : p .fls) (h : Frame p r s) : Frame p r (State.onBank s
    a1 a2) := by
  unfold State.onBank
  repeat' with_reducible first | assumption | refine State.onFls_frame ?_ ?_

theorem flashPut_frame {p : Part → Prop} {r a0 a1 s} (h_fls : p .fls) (h : Frame p r s) : Frame p r (flashPut a0 a1 s)
    := by
  unfold flashPut
  repeat' with_reducible first | assumption | refine State.onFls_frame ?_ ?_

theorem readWhileBusy_frame {p : Part → Prop} {r s} (h_regs : p .regs) (h : Frame p r s) : Frame p r (readWhileBusy s)
    := by
  unfold readWhileBusy
  repeat' with_reducible
    first
    | assumption | refine State.raise_frame ?_ ?_ | refine State.bump_frame ?_ ?_ | refine State.putb_frame ?_ ?_

theorem readWord_frame {p : Part → Prop} {r a0 a1 s} (h_regs : p .regs) (h_hlt : p .hlt) (h : Frame p r s) : Frame p r
    (readWord a0 a1 s).2.2 := by
  unfold readWord
  repeat' with_reducible
    first
    | assumption | lift_lets -underBinder | (intro x; subst x) | refine State.bump_frame ?_ ?_
    | refine State.fault_frame ?_ ?_ | refine State.raise_frame ?_ ?_ | split

theorem opEnd_frame {p : Part → Prop} {r a0 a1 s} (h_regs : p .regs) (h : Frame p r s) : Frame p r (opEnd a0 a1 s) := by
  unfold opEnd
  repeat' with_reducible first | assumption | refine State.raise_frame ?_ ?_ | refine State.put_frame ?_ ?_

theorem bankInUse_frame {p : Part → Prop} {r a0 s} (h_regs : p .regs) (h : Frame p r s) : Frame p r (bankInUse a0 s) :=
    by
  unfold bankInUse
  repeat' with_reducible first | assumption | refine opEnd_frame ?_ ?_ | refine State.bump_frame ?_ ?_

theorem loadData_frame {p : Part → Prop} {r a0 a1 s} (h_regs : p .regs) (h : Frame p r s) : Frame p r (loadData a0 a1 s)
    := by
  unfold loadData
  repeat' with_reducible first | assumption | refine State.put_frame ?_ ?_ | refine Frame.each (fun _ _ _ => ?_) ?_

theorem cmdRead_frame {p : Part → Prop} {r a0 a1 a2 s} (h_regs : p .regs) (h_hlt : p .hlt) (h : Frame p r s) : Frame p r
    (cmdRead a0 a1 a2 s) := by
  unfold cmdRead
  repeat' with_reducible
    first
    | assumption | refine opEnd_frame ?_ ?_ | refine readWhileBusy_frame ?_ ?_ | refine loadData_frame ?_ ?_
    | refine readWord_frame ?_ ?_ ?_ | refine Frame.ite ?_ ?_

theorem cmdProgram_frame {p : Part → Prop} {r a0 a1 s} (h_regs : p .regs) (h_fls : p .fls) (h : Frame p r s) : Frame p r
    (cmdProgram a0 a1 s) := by
  unfold cmdProgram
  repeat' with_reducible
    first
    | assumption | refine opEnd_frame ?_ ?_ | refine bankInUse_frame ?_ ?_ | refine State.bump_frame ?_ ?_
    | refine State.put_frame ?_ ?_ | refine State.onBank_frame ?_ ?_ | refine Frame.ite ?_ ?_

theorem cmdErase_frame {p : Part → Prop} {r a0 a1 s} (h_regs : p .regs) (h_fls : p .fls) (h : Frame p r s) : Frame p r
    (cmdErase a0 a1 s) := by
  unfold cmdErase
  repeat' with_reducible
    first
    | assumption | refine opEnd_frame ?_ ?_ | refine bankInUse_frame ?_ ?_ | refine State.onFls_frame ?_ ?_
    | refine State.put_frame ?_ ?_ | refine State.onBank_frame ?_ ?_ | refine Frame.ite ?_ ?_

theorem suspendAccept_frame {p : Part → Prop} {r a0 s} (h_regs : p .regs) (h_fls : p .fls) (h : Frame p r s) : Frame p r
    (suspendAccept a0 s) := by
  unfold suspendAccept
  repeat' with_reducible first | assumption | refine State.bump_frame ?_ ?_ | refine State.onBank_frame ?_ ?_

theorem cmdSuspend_frame {p : Part → Prop} {r a0 s} (h_regs : p .regs) (h_fls : p .fls) (h : Frame p r s) : Frame p r
    (cmdSuspend a0 s) := by
  unfold cmdSuspend
  repeat' with_reducible
    first
    | assumption | refine opEnd_frame ?_ ?_ | refine suspendAccept_frame ?_ ?_ ?_ | refine State.bump_frame ?_ ?_
    | refine State.putb_frame ?_ ?_ | refine Frame.ite ?_ ?_

theorem resumeErase_frame {p : Part → Prop} {r a0 s} (h_regs : p .regs) (h_fls : p .fls) (h : Frame p r s) : Frame p r
    (resumeErase a0 s) := by
  unfold resumeErase
  repeat' with_reducible first | assumption | refine State.put_frame ?_ ?_ | refine State.onBank_frame ?_ ?_

theorem cmdResume_frame {p : Part → Prop} {r a0 s} (h_regs : p .regs) (h_fls : p .fls) (h : Frame p r s) : Frame p r
    (cmdResume a0 s) := by
  unfold cmdResume
  repeat' with_reducible
    first
    | assumption | refine State.putb_frame ?_ ?_ | refine bankInUse_frame ?_ ?_ | refine opEnd_frame ?_ ?_
    | refine resumeErase_frame ?_ ?_ ?_ | refine State.onBank_frame ?_ ?_ | refine Frame.ite ?_ ?_

theorem flashCmd_frame {p : Part → Prop} {r a0 a1 a2 a3 s} (h_regs : p .regs) (h_hlt : p .hlt) (h_fls : p .fls) (h :
    Frame p r s) : Frame p r (flashCmd a0 a1 a2 a3 s) := by
  unfold flashCmd
  repeat' with_reducible
    first
    | assumption | refine opEnd_frame ?_ ?_ | refine cmdRead_frame ?_ ?_ ?_ | refine cmdProgram_frame ?_ ?_ ?_
    | refine cmdErase_frame ?_ ?_ ?_ | refine cmdSuspend_frame ?_ ?_ ?_ | refine cmdResume_frame ?_ ?_ ?_ | split

theorem eraseRecords_frame {p : Part → Prop} {r a0 s} (h_map : p .map) (h_str : p .str) (h : Frame p r s) : Frame p r
    (eraseRecords a0 s) := by
  unfold eraseRecords
  repeat' with_reducible
    first
    | assumption | refine Frame.ite ?_ ?_
    | refine Frame.upd rfl rfl rfl ?_ ?_ ?_ ?_ ?_ ?_ ?_ ?_ ?_ ?_ ?_ ?_ ?_ ?_ ?_ ?_ ?_ ?_ | exact Or.inl rfl
    | exact Or.inr (by assumption)

theorem eraseSector_frame {p : Part → Prop} {r a0 a1 s} (h_map : p .map) (h_str : p .str) (h_fls : p .fls) (h : Frame p
    r s) : Frame p r (eraseSector a0 a1 s) := by
  unfold eraseSector
  repeat' with_reducible
    first
    | assumption | refine eraseRecords_frame ?_ ?_ ?_ | refine State.onFls_frame ?_ ?_ | refine flashPut_frame ?_ ?_
    | refine Frame.foldl (fun _ _ _ => ?_) ?_ | refine Frame.ite ?_ ?_

theorem execFlashProgramDone_frame {p : Part → Prop} {r a0 a1 s} (h_regs : p .regs) (h_hlt : p .hlt) (h_fls : p .fls) (h
    : Frame p r s) : Frame p r (stateOf s (execFlashProgramDone a0 a1 s)) := by
  unfold execFlashProgramDone
  repeat' with_reducible
    first
    | assumption | lift_lets -underBinder | (intro x; subst x) | refine Frame.gate ?_ ?_ | refine Frame.next ?_
    | refine State.bump_frame ?_ ?_ | refine State.onBank_frame ?_ ?_ | refine State.put_frame ?_ ?_
    | refine flashPut_frame ?_ ?_ | refine opEnd_frame ?_ ?_ | refine State.fault_frame ?_ ?_
    | refine resumeErase_frame ?_ ?_ ?_ | split

theorem execFlashEraseDone_frame {p : Part → Prop} {r a0 a1 s} (h_regs : p .regs) (h_map : p .map) (h_str : p .str)
    (h_fls : p .fls) (h : Frame p r s) : Frame p r (stateOf s (execFlashEraseDone a0 a1 s)) := by
  unfold execFlashEraseDone
  repeat' with_reducible
    first
    | assumption | refine Frame.gate ?_ ?_ | refine Frame.next ?_ | refine State.onFls_frame ?_ ?_
    | refine eraseSector_frame ?_ ?_ ?_ ?_ | refine State.bump_frame ?_ ?_ | refine State.onBank_frame ?_ ?_
    | refine State.putb_frame ?_ ?_ | refine State.put_frame ?_ ?_ | refine opEnd_frame ?_ ?_ | split

theorem execFlashSuspendAccept_frame {p : Part → Prop} {r a0 s} (h_regs : p .regs) (h_fls : p .fls) (h : Frame p r s) :
    Frame p r (stateOf s (execFlashSuspendAccept a0 s)) := by
  unfold execFlashSuspendAccept
  repeat' with_reducible
    first
    | assumption | refine Frame.gate ?_ ?_ | refine Frame.next ?_ | refine suspendAccept_frame ?_ ?_ ?_
    | refine State.putb_frame ?_ ?_ | refine Frame.ite ?_ ?_

theorem execFlashSuspended_frame {p : Part → Prop} {r a0 s} (h_regs : p .regs) (h_fls : p .fls) (h : Frame p r s) :
    Frame p r (stateOf s (execFlashSuspended a0 s)) := by
  unfold execFlashSuspended
  repeat' with_reducible
    first
    | assumption | refine Frame.gate ?_ ?_ | refine Frame.next ?_ | refine opEnd_frame ?_ ?_
    | refine State.put_frame ?_ ?_ | refine State.onBank_frame ?_ ?_ | refine Frame.ite ?_ ?_

theorem coreRestart_frame {p : Part → Prop} {r s} (h_hlt : p .hlt) (h_fls : p .fls) (h : Frame p r s) : Frame p r
    (coreRestart s) := by
  unfold coreRestart
  repeat' with_reducible first | assumption | refine State.onFls_frame ?_ ?_ | refine State.fault_frame ?_ ?_

theorem execFlashCoreRead_frame {p : Part → Prop} {r a0 a1 a2 a3 s} (h_regs : p .regs) (h_hlt : p .hlt) (h_fls : p .fls)
    (h : Frame p r s) : Frame p r (stateOf s (execFlashCoreRead a0 a1 a2 a3 s)) := by
  unfold execFlashCoreRead
  repeat' with_reducible
    first
    | assumption | refine Frame.gate ?_ ?_ | refine Frame.next ?_ | refine State.onFls_frame ?_ ?_
    | refine readWhileBusy_frame ?_ ?_ | refine readWord_frame ?_ ?_ ?_ | refine coreRestart_frame ?_ ?_ ?_
    | refine Frame.ite ?_ ?_

theorem divertEnd_frame {p : Part → Prop} {r s} (h_regs : p .regs) (h_fls : p .fls) (h : Frame p r s) : Frame p r
    (divertEnd s) := by
  unfold divertEnd
  repeat' with_reducible first | assumption | refine State.onFls_frame ?_ ?_ | refine State.putb_frame ?_ ?_

theorem divertEffect_frame {p : Part → Prop} {r s} (h_regs : p .regs) (h_fls : p .fls) (h : Frame p r s) : Frame p r
    (divertEffect s) := by
  unfold divertEffect
  repeat' with_reducible
    first
    | assumption | refine State.putb_frame ?_ ?_ | refine divertEnd_frame ?_ ?_ ?_ | refine Frame.ite ?_ ?_

theorem execFetchDivertEnd_frame {p : Part → Prop} {r s} (h_regs : p .regs) (h_fls : p .fls) (h : Frame p r s) : Frame p
    r (stateOf s (execFetchDivertEnd s)) := by
  unfold execFetchDivertEnd
  repeat' with_reducible
    first
    | assumption | refine Frame.gate ?_ ?_ | refine Frame.next ?_ | refine divertEnd_frame ?_ ?_ ?_
    | refine Frame.ite ?_ ?_

theorem execFetchStall_frame {p : Part → Prop} {r a0 s} (h_hlt : p .hlt) (h_fls : p .fls) (h : Frame p r s) : Frame p r
    (stateOf s (execFetchStall a0 s)) := by
  unfold execFetchStall
  repeat' with_reducible
    first
    | assumption | refine Frame.gate ?_ ?_ | refine Frame.next ?_ | refine State.onFls_frame ?_ ?_
    | refine State.fault_frame ?_ ?_ | split

theorem execFlashFlagScan_frame {p : Part → Prop} {r s} (h_regs : p .regs) (h_map : p .map) (h_str : p .str) (h_fls : p
    .fls) (h : Frame p r s) : Frame p r (stateOf s (execFlashFlagScan s)) := by
  unfold execFlashFlagScan
  repeat' with_reducible
    first
    | assumption | refine Frame.gate ?_ ?_ | refine Frame.next ?_ | refine State.bump_frame ?_ ?_
    | refine eraseSector_frame ?_ ?_ ?_ ?_ | refine State.onFls_frame ?_ ?_ | refine State.put_frame ?_ ?_
    | refine State.raise_frame ?_ ?_ | refine State.putb_frame ?_ ?_ | refine State.wr_frame ?_ ?_
    | refine Frame.each (fun _ _ _ => ?_) ?_ | refine Frame.ite ?_ ?_

theorem selectImage_frame {p : Part → Prop} {r a0 s} (h_regs : p .regs) (h_map : p .map) (h_str : p .str) (h_fls : p .fls)
    (h : Frame p r s) : Frame p r (selectImage a0 s) := by
  unfold selectImage
  repeat' with_reducible
    first
    | assumption | lift_lets -underBinder | (intro x; subst x) | refine flashPut_frame ?_ ?_
    | refine eraseSector_frame ?_ ?_ ?_ ?_ | refine State.bump_frame ?_ ?_ | split | dsimp -zeta -proj only

theorem execImageCheck_frame {p : Part → Prop} {r s} (h_regs : p .regs) (h_fls : p .fls) (h : Frame p r s) : Frame p r
    (stateOf s (execImageCheck s)) := by
  unfold execImageCheck
  repeat' with_reducible
    first
    | assumption | lift_lets -underBinder | refine Frame.gate ?_ ?_ | refine Frame.next ?_
    | refine State.put_frame ?_ ?_ | refine State.onFls_frame ?_ ?_ | refine State.putb_frame ?_ ?_ | split

theorem flsClear_frame {p : Part → Prop} {r s} (h_regs : p .regs) (h : Frame p r s) : Frame p r (flsClear s) := by
  unfold flsClear
  repeat' with_reducible first | assumption | refine State.clearAll_frame ?_ ?_

/-! ### Context -/

theorem headWait_frame {p : Part → Prop} {r a0 s} (h_regs : p .regs) (h_host : p .host) (h : Frame p r s) : Frame p r
    (headWait a0 s) := by
  unfold headWait
  repeat' with_reducible
    first
    | assumption | refine State.onRing_frame ?_ ?_ | refine State.putb_frame ?_ ?_ | refine State.bump_frame ?_ ?_
    | refine Frame.ite ?_ ?_

theorem putCtxs_frame {p : Part → Prop} {r a0 a1 s} (h_regs : p .regs) (h_host : p .host) (h : Frame p r s) : Frame p r
    (putCtxs a0 a1 s) := by
  unfold putCtxs
  repeat' with_reducible
    first
    | assumption | refine State.onHost_frame ?_ ?_ | refine State.put_frame ?_ ?_ | refine headWait_frame ?_ ?_ ?_

theorem onCtx_frame {p : Part → Prop} {r a0 a1 s} (h_regs : p .regs) (h_host : p .host) (h : Frame p r s) : Frame p r
    (onCtx a0 a1 s) := by
  unfold onCtx
  repeat' with_reducible first | assumption | refine putCtxs_frame ?_ ?_ ?_ | split

theorem releaseCtx_frame {p : Part → Prop} {r a0 s} (h_regs : p .regs) (h_host : p .host) (h_map : p .map) (h : Frame p
    r s) : Frame p r (releaseCtx a0 s) := by
  unfold releaseCtx
  repeat' with_reducible
    first
    | assumption | refine putCtxs_frame ?_ ?_ ?_ | refine State.onPort_frame ?_ ?_
    | refine Frame.upd rfl rfl rfl ?_ ?_ ?_ ?_ ?_ ?_ ?_ ?_ ?_ ?_ ?_ ?_ ?_ ?_ ?_ ?_ ?_ ?_ | exact Or.inl rfl
    | exact Or.inr (by assumption)

theorem unplace_frame {p : Part → Prop} {r a0 a1 s} (h_str : p .str) (h : Frame p r s) : Frame p r (unplace a0 a1 s) :=
    by
  unfold unplace
  repeat' with_reducible
    first
    | assumption | refine Frame.upd rfl rfl rfl ?_ ?_ ?_ ?_ ?_ ?_ ?_ ?_ ?_ ?_ ?_ ?_ ?_ ?_ ?_ ?_ ?_ ?_ | exact Or.inl rfl
    | exact Or.inr (by assumption)

theorem stageRecord_frame {p : Part → Prop} {r a0 a1 a2 s} (h_regs : p .regs) (h_host : p .host) (h : Frame p r s) :
    Frame p r (stageRecord a0 a1 a2 s) := by
  unfold stageRecord
  repeat' with_reducible
    first
    | assumption | refine writeRecord_frame ?_ ?_ | refine interrupt_frame ?_ ?_ | refine onCtx_frame ?_ ?_ ?_
    | refine Frame.ite ?_ ?_

theorem finish_frame {p : Part → Prop} {r a0 a1 a2 a3 s} (h_regs : p .regs) (h_host : p .host) (h_map : p .map) (h_str :
    p .str) (h : Frame p r s) : Frame p r (finish a0 a1 a2 a3 s) := by
  unfold finish
  repeat' with_reducible
    first
    | assumption | refine State.bump_frame ?_ ?_ | refine writeRecord_frame ?_ ?_ | refine interrupt_frame ?_ ?_
    | refine releaseCtx_frame ?_ ?_ ?_ ?_ | refine unplace_frame ?_ ?_ | refine Frame.ite ?_ ?_

theorem finishId_frame {p : Part → Prop} {r a0 a1 a2 a3 s} (h_regs : p .regs) (h_host : p .host) (h_map : p .map) (h_str
    : p .str) (h : Frame p r s) : Frame p r (finishId a0 a1 a2 a3 s) := by
  unfold finishId
  repeat' with_reducible first | assumption | refine finish_frame ?_ ?_ ?_ ?_ ?_ | split

theorem guardAt_frame {p : Part → Prop} {r a0 a1 s} (h_regs : p .regs) (h : Frame p r s) : Frame p r (guardAt a0 a1 s).2
    := by
  unfold guardAt
  repeat' with_reducible first | assumption | refine State.putb_frame ?_ ?_ | split

theorem sealMiss_frame {p : Part → Prop} {r a0 a1 s} (h_regs : p .regs) (h_hlt : p .hlt) (h : Frame p r s) : Frame p r
    (sealMiss a0 a1 s) := by
  unfold sealMiss
  repeat' with_reducible
    first
    | assumption | refine State.bump_frame ?_ ?_ | refine State.put_frame ?_ ?_ | refine State.fault_frame ?_ ?_
    | refine State.raise_frame ?_ ?_ | refine Frame.ite ?_ ?_

theorem guardCheck_frame {p : Part → Prop} {r a0 a1 a2 a3 s} (h_regs : p .regs) (h_hlt : p .hlt) (h : Frame p r s) :
    Frame p r (guardCheck a0 a1 a2 a3 s).2 := by
  unfold guardCheck
  repeat' with_reducible
    first
    | assumption | refine guardAt_frame ?_ ?_ | refine sealMiss_frame ?_ ?_ ?_ | split
    | refine Frame.snd (by assumption) ?_

theorem dropReset_frame {p : Part → Prop} {r a0 s} (h_regs : p .regs) (h_hlt : p .hlt) (h_host : p .host) (h_map : p
    .map) (h_str : p .str) (h : Frame p r s) : Frame p r (dropReset a0 s) := by
  unfold dropReset
  repeat' with_reducible
    first
    | assumption | refine State.logEvent_frame ?_ ?_ | refine releaseCtx_frame ?_ ?_ ?_ ?_ | refine unplace_frame ?_ ?_

theorem resetCtx_frame {p : Part → Prop} {r a0 s} (h_regs : p .regs) (h_hlt : p .hlt) (h_host : p .host) (h_map : p
    .map) (h_str : p .str) (h : Frame p r s) : Frame p r (resetCtx a0 s) := by
  unfold resetCtx
  repeat' with_reducible
    first
    | assumption | refine dropReset_frame ?_ ?_ ?_ ?_ ?_ ?_ | refine unplace_frame ?_ ?_ | refine onCtx_frame ?_ ?_ ?_
    | refine Frame.ite ?_ ?_

end Sys2Proof.Machine
end

