-- ==== Sys2Proof/Laws/FrameMap.lean ====
section
/-! SUPPORT. What each operation of MapCache, Map may change (`Frame`). -/

namespace Sys2Proof.Machine

/-! ### MapCache -/

theorem State.onMca_frame {p : Part → Prop} {r s a1} (h_mca : p .mca) (h : Frame p r s) : Frame p r (State.onMca s a1)
    := by
  unfold State.onMca
  repeat' with_reducible
    first
    | assumption | refine Frame.upd rfl rfl rfl ?_ ?_ ?_ ?_ ?_ ?_ ?_ ?_ ?_ ?_ ?_ ?_ ?_ ?_ ?_ ?_ ?_ ?_ | exact Or.inl rfl
    | exact Or.inr (by assumption)

theorem hitLine_frame {p : Part → Prop} {r a0 a1 s} (h_regs : p .regs) (h_mca : p .mca) (h : Frame p r s) : Frame p r
    (hitLine a0 a1 s) := by
  unfold hitLine
  repeat' with_reducible
    first
    | assumption | refine State.bump_frame ?_ ?_ | refine State.onMca_frame ?_ ?_ | refine Frame.ite ?_ ?_

theorem serveReq_frame {p : Part → Prop} {r a0 s} (h_regs : p .regs) (h_mca : p .mca) (h : Frame p r s) : Frame p r
    (serveReq a0 s) := by
  unfold serveReq
  repeat' with_reducible
    first
    | assumption | refine State.onMca_frame ?_ ?_ | refine State.bump_frame ?_ ?_ | refine hitLine_frame ?_ ?_ ?_
    | split

theorem serveWaiting_frame {p : Part → Prop} {r n s}  (h_regs : p .regs) (h_mca : p .mca) (h : Frame p r s) : Frame p r
    (serveWaiting n s) := by
  induction n generalizing s with
  | zero => exact h
  | succ n ih =>
    unfold serveWaiting
    repeat' with_reducible
      first
      | assumption | refine ih ?_ | refine serveReq_frame ?_ ?_ ?_ | refine State.onMca_frame ?_ ?_ | split

theorem startPrefetch_frame {p : Part → Prop} {r s} (h_regs : p .regs) (h_mca : p .mca) (h : Frame p r s) : Frame p r
    (startPrefetch s) := by
  unfold startPrefetch
  repeat' with_reducible
    first
    | assumption | lift_lets -underBinder | (intro x; subst x) | refine State.onMca_frame ?_ ?_
    | refine State.bump_frame ?_ ?_ | split

theorem track_frame {p : Part → Prop} {r a0 a1 s} (h_mca : p .mca) (h : Frame p r s) : Frame p r (track a0 a1 s) := by
  unfold track
  repeat' with_reducible
    first
    | assumption | lift_lets -underBinder | (intro x; subst x) | refine State.onMca_frame ?_ ?_ | split

theorem execMapCacheAccess_frame {p : Part → Prop} {r a0 a1 a2 s} (h_regs : p .regs) (h_mca : p .mca) (h : Frame p r s)
    : Frame p r (stateOf s (execMapCacheAccess a0 a1 a2 s)) := by
  unfold execMapCacheAccess
  repeat' with_reducible
    first
    | assumption | refine Frame.gate ?_ ?_ | refine Frame.next ?_ | refine startPrefetch_frame ?_ ?_ ?_
    | refine track_frame ?_ ?_ | refine serveReq_frame ?_ ?_ ?_ | refine Frame.ite ?_ ?_

theorem endFill_frame {p : Part → Prop} {r s} (h_regs : p .regs) (h_mca : p .mca) (h : Frame p r s) : Frame p r (endFill
    s) := by
  unfold endFill
  repeat' with_reducible
    first
    | assumption | lift_lets -underBinder | (intro x; subst x) | refine State.onMca_frame ?_ ?_
    | refine startPrefetch_frame ?_ ?_ ?_ | refine serveWaiting_frame ?_ ?_ ?_ | refine State.bump_frame ?_ ?_ | split

theorem execCacheFillDone_frame {p : Part → Prop} {r s} (h_regs : p .regs) (h_mca : p .mca) (h : Frame p r s) : Frame p
    r (stateOf s (execCacheFillDone s)) := by
  unfold execCacheFillDone
  repeat' with_reducible
    first
    | assumption | refine Frame.gate ?_ ?_ | refine Frame.next ?_ | refine endFill_frame ?_ ?_ ?_

theorem execCacheEvictDone_frame {p : Part → Prop} {r s} (h_regs : p .regs) (h_mca : p .mca) (h : Frame p r s) : Frame p
    r (stateOf s (execCacheEvictDone s)) := by
  unfold execCacheEvictDone
  repeat' with_reducible
    first
    | assumption | refine Frame.gate ?_ ?_ | refine Frame.next ?_ | refine State.onMca_frame ?_ ?_
    | refine endFill_frame ?_ ?_ ?_ | refine startPrefetch_frame ?_ ?_ ?_ | refine serveWaiting_frame ?_ ?_ ?_
    | refine Frame.ite ?_ ?_

theorem invalidateLine_frame {p : Part → Prop} {r a0 s} (h_regs : p .regs) (h_mca : p .mca) (h : Frame p r s) : Frame p
    r (invalidateLine a0 s) := by
  unfold invalidateLine
  repeat' with_reducible first | assumption | refine State.bump_frame ?_ ?_ | refine State.onMca_frame ?_ ?_ | split

theorem invalidateRange_frame {p : Part → Prop} {r a0 a1 s} (h_regs : p .regs) (h_mca : p .mca) (h : Frame p r s) :
    Frame p r (invalidateRange a0 a1 s) := by
  unfold invalidateRange
  repeat' with_reducible
    first
    | assumption | refine invalidateLine_frame ?_ ?_ ?_ | refine Frame.each (fun _ _ _ => ?_) ?_

theorem preloadLine_frame {p : Part → Prop} {r a0 a1 s} (h_mca : p .mca) (h : Frame p r s) : Frame p r (preloadLine a0
    a1 s) := by
  unfold preloadLine
  repeat' with_reducible first | assumption | refine State.onMca_frame ?_ ?_ | split

theorem mcaOpEffect_frame {p : Part → Prop} {r a0 s} (h_regs : p .regs) (h_mca : p .mca) (h : Frame p r s) : Frame p r
    (mcaOpEffect a0 s) := by
  unfold mcaOpEffect
  repeat' with_reducible
    first
    | assumption | lift_lets -underBinder | (intro x; subst x) | refine State.putb_frame ?_ ?_
    | refine State.raise_frame ?_ ?_ | refine State.put_frame ?_ ?_ | refine preloadLine_frame ?_ ?_
    | refine State.onMca_frame ?_ ?_ | refine invalidateRange_frame ?_ ?_ ?_ | refine Frame.each (fun _ _ _ => ?_) ?_
    | split

theorem unlockWay_frame {p : Part → Prop} {r a0 s} (h_mca : p .mca) (h : Frame p r s) : Frame p r (unlockWay a0 s) := by
  unfold unlockWay
  repeat' with_reducible first | assumption | refine State.onMca_frame ?_ ?_

theorem mcaLockEffect_frame {p : Part → Prop} {r a0 a1 s} (h_regs : p .regs) (h_mca : p .mca) (h : Frame p r s) : Frame
    p r (mcaLockEffect a0 a1 s) := by
  unfold mcaLockEffect
  repeat' with_reducible
    first
    | assumption | refine State.put_frame ?_ ?_ | refine unlockWay_frame ?_ ?_ | refine State.raise_frame ?_ ?_
    | refine Frame.each (fun _ _ _ => ?_) ?_ | refine Frame.ite ?_ ?_

theorem disableWay_frame {p : Part → Prop} {r a0 s} (h_regs : p .regs) (h_hlt : p .hlt) (h_mca : p .mca) (h : Frame p r
    s) : Frame p r (disableWay a0 s) := by
  unfold disableWay
  repeat' with_reducible
    first
    | assumption | refine State.put_frame ?_ ?_ | refine State.onMca_frame ?_ ?_ | refine State.fault_frame ?_ ?_
    | refine State.raise_frame ?_ ?_ | refine State.bump_frame ?_ ?_ | refine Frame.ite ?_ ?_

theorem wayCorrected_frame {p : Part → Prop} {r a0 s} (h_regs : p .regs) (h_hlt : p .hlt) (h_mca : p .mca) (h : Frame p
    r s) : Frame p r (wayCorrected a0 s) := by
  unfold wayCorrected
  repeat' with_reducible
    first
    | assumption | refine State.onMca_frame ?_ ?_ | refine State.bump_frame ?_ ?_ | refine disableWay_frame ?_ ?_ ?_ ?_
    | refine Frame.ite ?_ ?_

theorem mcaClear_frame {p : Part → Prop} {r s} (h_regs : p .regs) (h : Frame p r s) : Frame p r (mcaClear s) := by
  unfold mcaClear
  repeat' with_reducible first | assumption | refine State.clearAll_frame ?_ ?_

/-! ### Map -/

theorem State.onMap_frame {p : Part → Prop} {r s a1} (h_map : p .map) (h : Frame p r s) : Frame p r (State.onMap s a1)
    := by
  unfold State.onMap
  repeat' with_reducible
    first
    | assumption | refine Frame.upd rfl rfl rfl ?_ ?_ ?_ ?_ ?_ ?_ ?_ ?_ ?_ ?_ ?_ ?_ ?_ ?_ ?_ ?_ ?_ ?_ | exact Or.inl rfl
    | exact Or.inr (by assumption)

theorem setExt_frame {p : Part → Prop} {r a0 a1 s} (h_map : p .map) (h : Frame p r s) : Frame p r (setExt a0 a1 s) := by
  unfold setExt
  repeat' with_reducible first | assumption | refine State.onMap_frame ?_ ?_

theorem showMap_frame {p : Part → Prop} {r s} (h_regs : p .regs) (h : Frame p r s) : Frame p r (showMap s) := by
  unfold showMap
  repeat' with_reducible first | assumption | refine State.put_frame ?_ ?_

theorem ensureDisc_frame {p : Part → Prop} {r want d s k t}  (h_map : p .map) (e : ensureDisc want d s = some (k, t))
    (h : Frame p r s) : Frame p r t := by
  unfold ensureDisc at e
  split at e
  · cases e; exact h
  · obtain ⟨k', _, e⟩ := Option.map_eq_some_iff.mp e
    cases e
    exact State.onMap_frame h_map h

theorem takePage_frame {p : Part → Prop} {r a b l s k t}  (h_map : p .map) (e : takePage a b l s = some (k, t))
    (h : Frame p r s) : Frame p r t := by
  unfold takePage at e
  obtain ⟨k', _, e⟩ := Option.map_eq_some_iff.mp e
  cases e
  repeat' with_reducible first | assumption | refine setExt_frame ?_ ?_ | refine State.onMap_frame ?_ ?_

theorem asPatched_frame {p : Part → Prop} {r a b s k t}  (h_regs : p .regs) (h_map : p .map) (e : asPatched a b s = some
    (k, t))
    (h : Frame p r s) : Frame p r t := by
  unfold asPatched at e
  split at e
  · exact takePage_frame h_map e h
  · cases e; exact h
  · split at e
    · cases e
    · next he =>
      obtain ⟨x, hx, e⟩ := Option.map_eq_some_iff.mp e
      cases e
      exact State.bump_frame h_regs (takePage_frame h_map hx (ensureDisc_frame h_map he h))
  · cases e

theorem dropPage_frame {p : Part → Prop} {r a0 s} (h_map : p .map) (h : Frame p r s) : Frame p r (dropPage a0 s) := by
  unfold dropPage
  repeat' with_reducible first | assumption | refine State.onMap_frame ?_ ?_ | split

theorem storeExt_frame {p : Part → Prop} {r a0 a1 s} (h_hlt : p .hlt) (h_map : p .map) (h : Frame p r s) : Frame p r
    (storeExt a0 a1 s) := by
  unfold storeExt
  repeat' with_reducible
    first
    | assumption | refine dropPage_frame ?_ ?_ | refine setExt_frame ?_ ?_ | refine State.fault_frame ?_ ?_ | split

theorem storePatch_frame {p : Part → Prop} {r a n q disc s t}  (h_regs : p .regs) (h_map : p .map) (e : storePatch a n q
    disc s = some t)
    (h : Frame p r s) : Frame p r t := by
  unfold storePatch at e
  split at e
  · cases e
  · next he =>
    split at e
    · cases e
    · next hd =>
      cases e
      exact State.onMap_frame h_map (ensureDisc_frame h_map hd (asPatched_frame h_regs h_map he h))

theorem noteDirty_frame {p : Part → Prop} {r a0 a1 s} (h_map : p .map) (h : Frame p r s) : Frame p r (noteDirty a0 a1 s)
    := by
  unfold noteDirty
  repeat' with_reducible first | assumption | refine State.onMap_frame ?_ ?_

theorem applyExtent_frame {p : Part → Prop} {r a0 a1 a2 s} (h_regs : p .regs) (h_hlt : p .hlt) (h_map : p .map) (h :
    Frame p r s) : Frame p r (applyExtent a0 a1 a2 s) := by
  unfold applyExtent
  repeat' with_reducible
    first
    | assumption | refine storeExt_frame ?_ ?_ ?_ | refine noteDirty_frame ?_ ?_ | refine State.onMap_frame ?_ ?_
    | refine State.raise_frame ?_ ?_ | split | refine storePatch_frame ?_ ?_ (by assumption) ?_
    | refine Frame.getD (fun _ _ => ?_) ?_

theorem dropNs_frame {p : Part → Prop} {r a0 s} (h_map : p .map) (h : Frame p r s) : Frame p r (dropNs a0 s) := by
  unfold dropNs
  repeat' with_reducible first | assumption | refine State.onMap_frame ?_ ?_ | split

theorem onNs_frame {p : Part → Prop} {r a0 a1 s} (h_map : p .map) (h : Frame p r s) : Frame p r (onNs a0 a1 s) := by
  unfold onNs
  repeat' with_reducible first | assumption | refine State.onMap_frame ?_ ?_

theorem importAbsent_frame {p : Part → Prop} {r a0 s} (h_map : p .map) (h : Frame p r s) : Frame p r (importAbsent a0 s)
    := by
  unfold importAbsent
  repeat' with_reducible first | assumption | refine setExt_frame ?_ ?_ | refine Frame.each (fun _ _ _ => ?_) ?_

theorem moveHome_frame {p : Part → Prop} {r a0 a1 s} (h_map : p .map) (h : Frame p r s) : Frame p r (moveHome a0 a1 s)
    := by
  unfold moveHome
  repeat' with_reducible first | assumption | refine State.onMap_frame ?_ ?_

theorem setDiscEntry_frame {p : Part → Prop} {r a0 a1 s} (h_map : p .map) (h : Frame p r s) : Frame p r (setDiscEntry a0
    a1 s) := by
  unfold setDiscEntry
  repeat' with_reducible
    first
    | assumption | refine State.onMap_frame ?_ ?_ | refine moveHome_frame ?_ ?_ | refine Frame.ite ?_ ?_

theorem markItems_frame {p : Part → Prop} {r a0 a1 s} (h_map : p .map) (h : Frame p r s) : Frame p r (markItems a0 a1 s)
    := by
  unfold markItems
  repeat' with_reducible first | assumption | refine State.onMap_frame ?_ ?_

theorem deleteNs_frame {p : Part → Prop} {r a0 s} (h_regs : p .regs) (h_map : p .map) (h_mca : p .mca) (h : Frame p r s)
    : Frame p r (deleteNs a0 s) := by
  unfold deleteNs
  repeat' with_reducible
    first
    | assumption | refine dropNs_frame ?_ ?_ | refine State.onMap_frame ?_ ?_ | refine invalidateRange_frame ?_ ?_ ?_
    | split

theorem applyChange_frame {p : Part → Prop} {r a0 a1 s} (h_regs : p .regs) (h_hlt : p .hlt) (h_map : p .map) (h_mca : p
    .mca) (h : Frame p r s) : Frame p r (applyChange a0 a1 s) := by
  unfold applyChange
  repeat' with_reducible
    first
    | assumption | lift_lets -underBinder | (intro x; subst x) | refine applyExtent_frame ?_ ?_ ?_ ?_
    | refine State.onMap_frame ?_ ?_ | refine deleteNs_frame ?_ ?_ ?_ ?_ | refine onNs_frame ?_ ?_
    | refine setDiscEntry_frame ?_ ?_ | refine importAbsent_frame ?_ ?_ | split

theorem onPiece_frame {p : Part → Prop} {r a0 a1 a2 s} (h_regs : p .regs) (h_host : p .host) (h : Frame p r s) : Frame p
    r (onPiece a0 a1 a2 s) := by
  unfold onPiece
  repeat' with_reducible first | assumption | refine onCtx_frame ?_ ?_ ?_

theorem settle_frame {p : Part → Prop} {r a0 s} (h_regs : p .regs) (h_host : p .host) (h_map : p .map) (h_str : p .str)
    (h : Frame p r s) : Frame p r (settle a0 s) := by
  unfold settle
  repeat' with_reducible first | assumption | refine finish_frame ?_ ?_ ?_ ?_ ?_ | split

theorem failPiece_frame {p : Part → Prop} {r a0 a1 a2 a3 s} (h_regs : p .regs) (h_host : p .host) (h_map : p .map)
    (h_str : p .str) (h : Frame p r s) : Frame p r (failPiece a0 a1 a2 a3 s) := by
  unfold failPiece
  repeat' with_reducible
    first
    | assumption | refine onPiece_frame ?_ ?_ ?_ | refine onCtx_frame ?_ ?_ ?_ | refine settle_frame ?_ ?_ ?_ ?_ ?_
    | refine unplace_frame ?_ ?_ | split

theorem commitPiece_frame {p : Part → Prop} {r a0 a1 s} (h_regs : p .regs) (h_host : p .host) (h : Frame p r s) : Frame
    p r (commitPiece a0 a1 s) := by
  unfold commitPiece
  repeat' with_reducible first | assumption | refine onCtx_frame ?_ ?_ ?_ | refine onPiece_frame ?_ ?_ ?_ | split

theorem journalFull_frame {p : Part → Prop} {r s} (h_regs : p .regs) (h_hlt : p .hlt) (h : Frame p r s) : Frame p r
    (journalFull s) := by
  unfold journalFull
  repeat' with_reducible
    first
    | assumption | refine State.raise_frame ?_ ?_ | refine State.putb_frame ?_ ?_ | refine State.logEvent_frame ?_ ?_
    | refine Frame.each (fun _ _ _ => ?_) ?_ | refine Frame.ite ?_ ?_

theorem beginCommit_frame {p : Part → Prop} {r a0 s} (h_regs : p .regs) (h_hlt : p .hlt) (h_host : p .host) (h_map : p
    .map) (h : Frame p r s) : Frame p r (beginCommit a0 s) := by
  unfold beginCommit
  repeat' with_reducible
    first
    | assumption | refine journalFull_frame ?_ ?_ ?_ | refine State.putb_frame ?_ ?_ | refine onPiece_frame ?_ ?_ ?_
    | refine onCtx_frame ?_ ?_ ?_ | refine State.onMap_frame ?_ ?_ | refine Frame.each (fun _ _ _ => ?_) ?_ | split

theorem execMapCommit_frame {p : Part → Prop} {r s} (h_regs : p .regs) (h_hlt : p .hlt) (h_host : p .host) (h_map : p
    .map) (h_str : p .str) (h : Frame p r s) : Frame p r (stateOf s (execMapCommit s)) := by
  unfold execMapCommit
  repeat' with_reducible
    first
    | assumption | lift_lets -underBinder | (intro x; subst x) | refine Frame.gate ?_ ?_ | refine Frame.next ?_
    | refine beginCommit_frame ?_ ?_ ?_ ?_ ?_ | refine State.onMap_frame ?_ ?_ | refine State.raise_frame ?_ ?_
    | refine failPiece_frame ?_ ?_ ?_ ?_ ?_ | refine Frame.each (fun _ _ _ => ?_) ?_ | split

theorem applyRecords_frame {p : Part → Prop} {r a0 s} (h_regs : p .regs) (h_hlt : p .hlt) (h_map : p .map) (h_mca : p
    .mca) (h : Frame p r s) : Frame p r (applyRecords a0 s) := by
  unfold applyRecords
  repeat' with_reducible
    first
    | assumption | refine applyChange_frame ?_ ?_ ?_ ?_ ?_ | refine Frame.each (fun _ _ _ => ?_) ?_

theorem execJournalRecordProgrammed_frame {p : Part → Prop} {r s} (h_regs : p .regs) (h_hlt : p .hlt) (h_host : p .host)
    (h_map : p .map) (h_mca : p .mca) (h_str : p .str) (h : Frame p r s) : Frame p r (stateOf s
    (execJournalRecordProgrammed s)) := by
  unfold execJournalRecordProgrammed
  repeat' with_reducible
    first
    | assumption | refine Frame.gate ?_ ?_ | refine Frame.next ?_ | refine journalFull_frame ?_ ?_ ?_
    | refine State.onMap_frame ?_ ?_ | refine State.bump_frame ?_ ?_ | refine applyRecords_frame ?_ ?_ ?_ ?_ ?_
    | refine commitPiece_frame ?_ ?_ ?_ | refine settle_frame ?_ ?_ ?_ ?_ ?_ | refine finishId_frame ?_ ?_ ?_ ?_ ?_
    | refine showMap_frame ?_ ?_ | refine Frame.each (fun _ _ _ => ?_) ?_ | split

theorem execMapBaseRewrite_frame {p : Part → Prop} {r s} (h_regs : p .regs) (h_map : p .map) (h : Frame p r s) : Frame p
    r (stateOf s (execMapBaseRewrite s)) := by
  unfold execMapBaseRewrite
  repeat' with_reducible
    first
    | assumption | refine Frame.gate ?_ ?_ | refine Frame.next ?_ | refine State.onMap_frame ?_ ?_
    | refine State.bump_frame ?_ ?_ | refine State.putb_frame ?_ ?_ | refine showMap_frame ?_ ?_
    | refine Frame.ite ?_ ?_

theorem replay_frame {p : Part → Prop} {r base n l s}  (h_regs : p .regs) (h_hlt : p .hlt) (h_map : p .map) (h_mca : p
    .mca) (h : Frame p r s) : Frame p r (replay base n l s) := by
  induction n generalizing l s with
  | zero => exact h
  | succ n ih =>
    unfold replay
    repeat' with_reducible
      first
      | assumption | lift_lets -underBinder | (intro x; subst x) | refine ih ?_
      | refine applyChange_frame ?_ ?_ ?_ ?_ ?_ | refine State.onMap_frame ?_ ?_
      | refine Frame.each (fun _ _ _ => ?_) ?_ | split

theorem noteBad_frame {p : Part → Prop} {r a0 a1 s} (h_regs : p .regs) (h_map : p .map) (h_str : p .str) (h : Frame p r
    s) : Frame p r (noteBad a0 a1 s) := by
  unfold noteBad
  repeat' with_reducible
    first
    | assumption | refine State.onMap_frame ?_ ?_ | refine State.put_frame ?_ ?_
    | refine Frame.upd rfl rfl rfl ?_ ?_ ?_ ?_ ?_ ?_ ?_ ?_ ?_ ?_ ?_ ?_ ?_ ?_ ?_ ?_ ?_ ?_ | exact Or.inl rfl
    | exact Or.inr (by assumption)

theorem execMapRecovery_frame {p : Part → Prop} {r a0 a1 s} (h_regs : p .regs) (h_locks : p .locks) (h_hlt : p .hlt)
    (h_map : p .map) (h_mca : p .mca) (h_str : p .str) (h : Frame p r s) : Frame p r (stateOf s (execMapRecovery a0 a1
    s)) := by
  unfold execMapRecovery
  repeat' with_reducible
    first
    | assumption | refine Frame.gate ?_ ?_ | refine Frame.next ?_ | refine noteBad_frame ?_ ?_ ?_ ?_
    | refine State.onMap_frame ?_ ?_ | refine importAbsent_frame ?_ ?_ | refine replay_frame ?_ ?_ ?_ ?_ ?_
    | refine State.put_frame ?_ ?_ | refine showMap_frame ?_ ?_ | refine State.seqPut_frame ?_ ?_ ?_ ?_
    | refine Frame.each (fun _ _ _ => ?_) ?_ | refine Frame.ite ?_ ?_

theorem mapClear_frame {p : Part → Prop} {r s} (h_regs : p .regs) (h : Frame p r s) : Frame p r (mapClear s) := by
  unfold mapClear
  repeat' with_reducible first | assumption | refine State.clearAll_frame ?_ ?_

end Sys2Proof.Machine
end

