-- ==== Sys2Proof/Laws/FrameDrive.lean ====
section
/-! SUPPORT. What each operation of ServoRun, Motion, Servo, Spindle, VmBus, Recorder, Mode may change (`Frame`). -/

namespace Sys2Proof.Machine

/-! ### ServoRun -/

theorem exchange_frame {p : Part → Prop} {r s a1 a2} (h_regs : p .regs) (h : Frame p r s) : Frame p r (exchange s a1 a2)
    := by
  unfold exchange
  repeat' with_reducible first | assumption | refine State.wr_frame ?_ ?_

theorem swapBanks_frame {p : Part → Prop} {r a0 a1 s} (h_regs : p .regs) (h : Frame p r s) : Frame p r (swapBanks a0 a1
    s) := by
  unfold swapBanks
  repeat' with_reducible first | assumption | refine exchange_frame ?_ ?_ | refine Frame.foldl (fun _ _ _ => ?_) ?_

theorem storeLoop_frame {p : Part → Prop} {r a0 a1 a2 s} (h_regs : p .regs) (h_c0 : p (.chan a0)) (h : Frame p r s) :
    Frame p r (storeLoop a0 a1 a2 s) := by
  unfold storeLoop
  repeat' with_reducible
    first
    | assumption | refine State.onLoop_frame ?_ ?_ | refine State.puti_frame ?_ ?_ | refine State.put_frame ?_ ?_
    | refine State.putb_frame ?_ ?_

theorem setLoopSt_frame {p : Part → Prop} {r a0 a1 a2 s} (h_regs : p .regs) (h : Frame p r s) : Frame p r (setLoopSt a0
    a1 a2 s) := by
  unfold setLoopSt
  repeat' with_reducible first | assumption | refine State.put_frame ?_ ?_

theorem latchInputs_frame {p : Part → Prop} {r a0 a1 s} (h_regs : p .regs) (h : Frame p r s) : Frame p r (latchInputs a0
    a1 s) := by
  unfold latchInputs
  repeat' with_reducible first | assumption | refine State.puti_frame ?_ ?_ | refine Frame.foldl (fun _ _ _ => ?_) ?_

theorem routineInput_frame {p : Part → Prop} {r a0 a1 s} (h_c0 : p (.chan a0)) (h : Frame p r s) : Frame p r
    (routineInput a0 a1 s) := by
  unfold routineInput
  repeat' with_reducible first | assumption | refine State.onSrv_frame ?_ ?_

theorem profileOpen_frame {p : Part → Prop} {r a0 a1 a2 s} (h_c0 : p (.chan a0)) (h : Frame p r s) : Frame p r
    (profileOpen a0 a1 a2 s) := by
  unfold profileOpen
  repeat' with_reducible first | assumption | refine State.onLoop_frame ?_ ?_

theorem routineProfile_frame {p : Part → Prop} {r a0 a1 s} (h_c0 : p (.chan a0)) (h : Frame p r s) : Frame p r
    (routineProfile a0 a1 s) := by
  unfold routineProfile
  repeat' with_reducible
    first
    | assumption | lift_lets -underBinder | (intro x; subst x) | refine profileOpen_frame ?_ ?_
    | refine State.onMot_frame ?_ ?_ | refine State.onSrv_frame ?_ ?_ | refine State.onLoop_frame ?_ ?_ | split

theorem countRuns_frame {p : Part → Prop} {r a0 a1 a2 a3 s} (h_c0 : p (.chan a0)) (h : Frame p r s) : Frame p r
    (countRuns a0 a1 a2 a3 s) := by
  unfold countRuns
  repeat' with_reducible first | assumption | refine State.onLoop_frame ?_ ?_ | refine Frame.ite ?_ ?_

theorem runLoop_frame {p : Part → Prop} {r a0 a1 s} (h_regs : p .regs) (h_c0 : p (.chan a0)) (h : Frame p r s) : Frame p
    r (runLoop a0 a1 s) := by
  unfold runLoop
  repeat' with_reducible
    first
    | assumption | refine storeLoop_frame ?_ ?_ ?_ | refine State.onLoop_frame ?_ ?_ | refine State.putb_frame ?_ ?_
    | refine State.puti_frame ?_ ?_ | refine countRuns_frame ?_ ?_ | refine State.bump_frame ?_ ?_
    | refine State.raise_frame ?_ ?_ | refine Frame.ite ?_ ?_

theorem restoreLoop_frame {p : Part → Prop} {r a0 a1 a2 s} (h_regs : p .regs) (h_c0 : p (.chan a0)) (h : Frame p r s) :
    Frame p r (restoreLoop a0 a1 a2 s) := by
  unfold restoreLoop
  repeat' with_reducible
    first
    | assumption | refine State.onLoop_frame ?_ ?_ | refine State.wr_frame ?_ ?_
    | refine Frame.foldl (fun _ _ _ => ?_) ?_

theorem holdLoop_frame {p : Part → Prop} {r a0 a1 a2 s} (h_regs : p .regs) (h_c0 : p (.chan a0)) (h : Frame p r s) :
    Frame p r (holdLoop a0 a1 a2 s) := by
  unfold holdLoop
  repeat' with_reducible
    first
    | assumption | refine setLoopSt_frame ?_ ?_ | refine State.onLoop_frame ?_ ?_ | refine Frame.ite ?_ ?_

theorem releaseLoop_frame {p : Part → Prop} {r a0 a1 s} (h_regs : p .regs) (h : Frame p r s) : Frame p r (releaseLoop a0
    a1 s) := by
  unfold releaseLoop
  repeat' with_reducible first | assumption | refine setLoopSt_frame ?_ ?_ | refine Frame.ite ?_ ?_

theorem monitorHold_frame {p : Part → Prop} {r a0 a1 a2 a3 s} (h_regs : p .regs) (h_c0 : p (.chan a0)) (h : Frame p r s)
    : Frame p r (monitorHold a0 a1 a2 a3 s) := by
  unfold monitorHold
  repeat' with_reducible
    first
    | assumption | refine holdLoop_frame ?_ ?_ ?_ | refine restoreLoop_frame ?_ ?_ ?_
    | refine Frame.foldl (fun _ _ _ => ?_) ?_ | refine Frame.ite ?_ ?_

theorem lockFlags_frame {p : Part → Prop} {r a0 s} (h_regs : p .regs) (h : Frame p r s) : Frame p r (lockFlags a0 s) :=
    by
  unfold lockFlags
  repeat' with_reducible first | assumption | refine State.putb_frame ?_ ?_

theorem routineMonitor_frame {p : Part → Prop} {r a0 a1 a2 s} (h_regs : p .regs) (h_c0 : p (.chan a0)) (h : Frame p r s)
    : Frame p r (routineMonitor a0 a1 a2 s) := by
  unfold routineMonitor
  repeat' with_reducible
    first
    | assumption | refine monitorHold_frame ?_ ?_ ?_ | refine State.putb_frame ?_ ?_ | refine State.onSrv_frame ?_ ?_
    | refine lockFlags_frame ?_ ?_ | refine Frame.ite ?_ ?_

theorem routineInject_frame {p : Part → Prop} {r a0 a1 s} (h_c0 : p (.chan a0)) (h : Frame p r s) : Frame p r
    (routineInject a0 a1 s) := by
  unfold routineInject
  repeat' with_reducible
    first
    | assumption | refine State.onLoop_frame ?_ ?_ | refine Frame.foldl (fun _ _ _ => ?_) ?_ | refine Frame.ite ?_ ?_

theorem routineOutput_frame {p : Part → Prop} {r a0 s} (h_regs : p .regs) (h_c0 : p (.chan a0)) (h : Frame p r s) :
    Frame p r (routineOutput a0 s) := by
  unfold routineOutput
  repeat' with_reducible
    first
    | assumption | refine State.puti_frame ?_ ?_ | refine State.onSrv_frame ?_ ?_
    | refine Frame.foldl (fun _ _ _ => ?_) ?_ | refine Frame.ite ?_ ?_

theorem runRoutine_frame {p : Part → Prop} {r c n s0 k} {sr : State × List (Fin 7)} (h_regs : p .regs) (h_c0 : p (.chan
    c))
    (h : Frame p r sr.1) : Frame p r (runRoutine c n s0 k sr).1 := by
  unfold runRoutine
  repeat' with_reducible
    first
    | assumption | lift_lets -underBinder | (intro x; subst x) | refine routineInput_frame ?_ ?_
    | refine holdLoop_frame ?_ ?_ ?_ | refine runLoop_frame ?_ ?_ ?_ | refine routineMonitor_frame ?_ ?_ ?_
    | refine routineProfile_frame ?_ ?_ | refine routineInject_frame ?_ ?_ | refine routineOutput_frame ?_ ?_ ?_ | split

theorem runSlot_frame {p : Part → Prop} {r c n s0 q} {sr : State × List (Fin 7)} (h_regs : p .regs) (h_c0 : p (.chan c))
    (h : Frame p r sr.1) : Frame p r (runSlot c n s0 sr q).1 := by
  unfold runSlot
  repeat' with_reducible first | assumption | refine State.onSrv_frame ?_ ?_ | refine runRoutine_frame ?_ ?_ ?_ | split

theorem runSlots_frame {p : Part → Prop} {r c n s0} {l : List (Nat × TtSlot)} {sr : State × List (Fin 7)}
    (h_regs : p .regs) (h_c0 : p (.chan c)) (h : Frame p r sr.1) : Frame p r (l.foldl (runSlot c n s0) sr).1 := by
  induction l generalizing sr with
  | nil => exact h
  | cons q l ih => exact ih (runSlot_frame h_regs h_c0 h)

theorem servoTick_frame {p : Part → Prop} {r c n s} (h_regs : p .regs) (h_c0 : p (.chan c)) (h : Frame p r s) :
    Frame p r (servoTick c n s) := by
  unfold servoTick
  repeat' with_reducible first | assumption | refine runSlots_frame ?_ ?_ ?_ | refine State.onSrv_frame ?_ ?_

/-! ### Motion -/

theorem limitLeft_frame {p : Part → Prop} {r a0 a1 a2 s} (h_regs : p .regs) (h_c0 : p (.chan a0)) (h : Frame p r s) :
    Frame p r (limitLeft a0 a1 a2 s) := by
  unfold limitLeft
  repeat' with_reducible
    first
    | assumption | refine State.onAxis_frame ?_ ?_ | refine State.putb_frame ?_ ?_ | refine Frame.ite ?_ ?_

theorem limitHit_frame {p : Part → Prop} {r a0 a1 a2 a3 s} (h_regs : p .regs) (h_c0 : p (.chan a0)) (h : Frame p r s) :
    Frame p r (limitHit a0 a1 a2 a3 s) := by
  unfold limitHit
  repeat' with_reducible
    first
    | assumption | refine State.raise_frame ?_ ?_ | refine State.putb_frame ?_ ?_ | refine State.onAxis_frame ?_ ?_

theorem takeMove_frame {p : Part → Prop} {r a0 a1 a2 s} (h_regs : p .regs) (h_c0 : p (.chan a0)) (h : Frame p r s) :
    Frame p r (takeMove a0 a1 a2 s) := by
  unfold takeMove
  repeat' with_reducible
    first
    | assumption | lift_lets -underBinder | (intro x; subst x) | refine limitLeft_frame ?_ ?_ ?_
    | refine State.onMot_frame ?_ ?_ | refine State.onAxis_frame ?_ ?_ | split

theorem axSlow_frame {p : Part → Prop} {r a0 a1 a2 s} (h_regs : p .regs) (h_c0 : p (.chan a0)) (h : Frame p r s) : Frame
    p r (axSlow a0 a1 a2 s) := by
  unfold axSlow
  repeat' with_reducible
    first
    | assumption | refine State.putb_frame ?_ ?_ | refine State.onAxis_frame ?_ ?_ | refine Frame.ite ?_ ?_

theorem axProfile_frame {p : Part → Prop} {r a0 a1 a2 s} (h_regs : p .regs) (h_c0 : p (.chan a0)) (h : Frame p r s) :
    Frame p r (axProfile a0 a1 a2 s) := by
  unfold axProfile
  repeat' with_reducible
    first
    | assumption | refine State.onAxis_frame ?_ ?_ | refine axSlow_frame ?_ ?_ ?_ | refine takeMove_frame ?_ ?_ ?_
    | refine State.bump_frame ?_ ?_ | refine State.onMot_frame ?_ ?_ | refine State.putb_frame ?_ ?_
    | refine State.raise_frame ?_ ?_ | refine Frame.ite ?_ ?_

theorem axLimited_frame {p : Part → Prop} {r a0 a1 a2 a3 a4 s} (h_regs : p .regs) (h_c0 : p (.chan a0)) (h : Frame p r
    s) : Frame p r (axLimited a0 a1 a2 a3 a4 s) := by
  unfold axLimited
  repeat' with_reducible
    first
    | assumption | refine limitLeft_frame ?_ ?_ ?_ | refine limitHit_frame ?_ ?_ ?_ | refine State.onAxis_frame ?_ ?_
    | refine Frame.ite ?_ ?_

theorem axFollow_frame {p : Part → Prop} {r a0 a1 s} (h_regs : p .regs) (h_c0 : p (.chan a0)) (h : Frame p r s) : Frame
    p r (axFollow a0 a1 s) := by
  unfold axFollow
  repeat' with_reducible
    first
    | assumption | refine State.putb_frame ?_ ?_ | refine axLimited_frame ?_ ?_ ?_ | refine Frame.ite ?_ ?_

theorem axTarget_frame {p : Part → Prop} {r a0 a1 s} (h_regs : p .regs) (h_c0 : p (.chan a0)) (h : Frame p r s) : Frame
    p r (axTarget a0 a1 s) := by
  unfold axTarget
  repeat' with_reducible
    first
    | assumption | refine axSlow_frame ?_ ?_ ?_ | refine axLimited_frame ?_ ?_ ?_ | refine State.putb_frame ?_ ?_
    | refine Frame.ite ?_ ?_

theorem setPhase_frame {p : Part → Prop} {r a0 a1 a2 s} (h_regs : p .regs) (h_c0 : p (.chan a0)) (h : Frame p r s) :
    Frame p r (setPhase a0 a1 a2 s) := by
  unfold setPhase
  repeat' with_reducible first | assumption | refine State.put_frame ?_ ?_ | refine State.onAxis_frame ?_ ?_

theorem homeEnd_frame {p : Part → Prop} {r a0 a1 s} (h_regs : p .regs) (h_c0 : p (.chan a0)) (h : Frame p r s) : Frame p
    r (homeEnd a0 a1 s) := by
  unfold homeEnd
  repeat' with_reducible
    first
    | assumption | refine State.onAxis_frame ?_ ?_ | refine State.put_frame ?_ ?_ | refine State.putb_frame ?_ ?_
    | refine State.raise_frame ?_ ?_

theorem axHome_frame {p : Part → Prop} {r a0 a1 s} (h_regs : p .regs) (h_c0 : p (.chan a0)) (h : Frame p r s) : Frame p
    r (axHome a0 a1 s) := by
  unfold axHome
  repeat' with_reducible
    first
    | assumption | refine limitLeft_frame ?_ ?_ ?_ | refine State.onAxis_frame ?_ ?_ | refine setPhase_frame ?_ ?_ ?_
    | refine homeEnd_frame ?_ ?_ ?_ | refine Frame.ite ?_ ?_

theorem homeSample_frame {p : Part → Prop} {r a0 a1 a2 s} (h_c0 : p (.chan a0)) (h : Frame p r s) : Frame p r
    (homeSample a0 a1 a2 s) := by
  unfold homeSample
  repeat' with_reducible first | assumption | refine State.onAxis_frame ?_ ?_

theorem axShow_frame {p : Part → Prop} {r a0 a1 s} (h_regs : p .regs) (h : Frame p r s) : Frame p r (axShow a0 a1 s) :=
    by
  unfold axShow
  repeat' with_reducible
    first
    | assumption | refine State.puti_frame ?_ ?_ | refine State.putb_frame ?_ ?_ | refine State.put_frame ?_ ?_
    | refine Frame.ite ?_ ?_

theorem homeStart_frame {p : Part → Prop} {r a0 a1 s} (h_regs : p .regs) (h_c0 : p (.chan a0)) (h : Frame p r s) : Frame
    p r (homeStart a0 a1 s) := by
  unfold homeStart
  repeat' with_reducible
    first
    | assumption | refine State.put_frame ?_ ?_ | refine State.onAxis_frame ?_ ?_ | refine State.putb_frame ?_ ?_
    | refine setPhase_frame ?_ ?_ ?_

theorem axPendingMode_frame {p : Part → Prop} {r a0 a1 s} (h_regs : p .regs) (h_c0 : p (.chan a0)) (h : Frame p r s) :
    Frame p r (axPendingMode a0 a1 s) := by
  unfold axPendingMode
  repeat' with_reducible
    first
    | assumption | lift_lets -underBinder | (intro x; subst x) | refine homeStart_frame ?_ ?_ ?_
    | refine State.put_frame ?_ ?_ | refine State.onAxis_frame ?_ ?_ | split

theorem axHold_frame {p : Part → Prop} {r a0 a1 s} (h_regs : p .regs) (h_c0 : p (.chan a0)) (h : Frame p r s) : Frame p
    r (axHold a0 a1 s) := by
  unfold axHold
  repeat' with_reducible first | assumption | refine State.onAxis_frame ?_ ?_ | refine axSlow_frame ?_ ?_ ?_

theorem axisBoundary_frame {p : Part → Prop} {r a0 a1 a2 s} (h_c0 : p (.chan a0)) (h : Frame p r s) : Frame p r
    (axisBoundary a0 a1 a2 s) := by
  unfold axisBoundary
  repeat' with_reducible
    first
    | assumption | refine State.onAxis_frame ?_ ?_ | refine homeSample_frame ?_ ?_ | refine Frame.ite ?_ ?_

theorem axisTick_frame {p : Part → Prop} {r a0 a1 a2 s} (h_regs : p .regs) (h_c0 : p (.chan a0)) (h : Frame p r s) :
    Frame p r (axisTick a0 a1 a2 s) := by
  unfold axisTick
  repeat' with_reducible
    first
    | assumption | refine axPendingMode_frame ?_ ?_ ?_ | refine State.onAxis_frame ?_ ?_ | refine axHold_frame ?_ ?_ ?_
    | refine axProfile_frame ?_ ?_ ?_ | refine axFollow_frame ?_ ?_ ?_ | refine axTarget_frame ?_ ?_ ?_
    | refine axHome_frame ?_ ?_ ?_ | refine axShow_frame ?_ ?_ | split

theorem axFollowNow_frame {p : Part → Prop} {r a0 a1 s} (h_regs : p .regs) (h_c0 : p (.chan a0)) (h : Frame p r s) :
    Frame p r (axFollowNow a0 a1 s) := by
  unfold axFollowNow
  repeat' with_reducible
    first
    | assumption | refine State.put_frame ?_ ?_ | refine State.onAxis_frame ?_ ?_ | refine Frame.ite ?_ ?_

theorem seekReturn_frame {p : Part → Prop} {r a0 s} (h_regs : p .regs) (h_c0 : p (.chan a0)) (h : Frame p r s) : Frame p
    r (seekReturn a0 s) := by
  unfold seekReturn
  repeat' with_reducible
    first
    | assumption | refine State.onLoop_frame ?_ ?_ | refine State.onMot_frame ?_ ?_ | refine releaseLoop_frame ?_ ?_
    | refine axFollowNow_frame ?_ ?_ ?_ | refine Frame.ite ?_ ?_

theorem seekTick_frame {p : Part → Prop} {r a0 a1 s} (h_regs : p .regs) (h_c0 : p (.chan a0)) (h : Frame p r s) : Frame
    p r (seekTick a0 a1 s) := by
  unfold seekTick
  repeat' with_reducible
    first
    | assumption | refine State.onMot_frame ?_ ?_ | refine State.put_frame ?_ ?_ | refine seekReturn_frame ?_ ?_ ?_
    | refine Frame.ite ?_ ?_

theorem motionTick_frame {p : Part → Prop} {r a0 a1 s} (h_regs : p .regs) (h_c0 : p (.chan a0)) (h : Frame p r s) :
    Frame p r (motionTick a0 a1 s) := by
  unfold motionTick
  repeat' with_reducible first | assumption | refine seekTick_frame ?_ ?_ ?_ | refine axisTick_frame ?_ ?_ ?_

theorem axFlush_frame {p : Part → Prop} {r a0 a1 s} (h_regs : p .regs) (h_c0 : p (.chan a0)) (h : Frame p r s) : Frame p
    r (axFlush a0 a1 s) := by
  unfold axFlush
  repeat' with_reducible first | assumption | refine State.putb_frame ?_ ?_ | refine State.onAxis_frame ?_ ?_

theorem axAbort_frame {p : Part → Prop} {r a0 a1 s} (h_regs : p .regs) (h_c0 : p (.chan a0)) (h : Frame p r s) : Frame p
    r (axAbort a0 a1 s) := by
  unfold axAbort
  repeat' with_reducible
    first
    | assumption | refine axFlush_frame ?_ ?_ ?_ | refine State.put_frame ?_ ?_ | refine State.onAxis_frame ?_ ?_
    | refine Frame.ite ?_ ?_

theorem axSetMode_frame {p : Part → Prop} {r a0 a1 a2 s} (h_regs : p .regs) (h_c0 : p (.chan a0)) (h : Frame p r s) :
    Frame p r (axSetMode a0 a1 a2 s) := by
  unfold axSetMode
  repeat' with_reducible
    first
    | assumption | refine State.onAxis_frame ?_ ?_ | refine homeStart_frame ?_ ?_ ?_ | refine State.put_frame ?_ ?_
    | refine Frame.ite ?_ ?_

theorem axCtlEffect_frame {p : Part → Prop} {r a0 a1 a2 a3 s} (h_regs : p .regs) (h_c0 : p (.chan a0)) (h : Frame p r s)
    : Frame p r (axCtlEffect a0 a1 a2 a3 s) := by
  unfold axCtlEffect
  repeat' with_reducible
    first
    | assumption | refine State.putb_frame ?_ ?_ | refine axAbort_frame ?_ ?_ ?_ | refine axSetMode_frame ?_ ?_ ?_
    | refine Frame.ite ?_ ?_

theorem axQcmdEffect_frame {p : Part → Prop} {r a0 a1 a2 s} (h_regs : p .regs) (h_c0 : p (.chan a0)) (h : Frame p r s) :
    Frame p r (axQcmdEffect a0 a1 a2 s) := by
  unfold axQcmdEffect
  repeat' with_reducible
    first
    | assumption | refine State.raise_frame ?_ ?_ | refine State.bump_frame ?_ ?_ | refine State.onAxis_frame ?_ ?_
    | refine State.putb_frame ?_ ?_ | refine State.put_frame ?_ ?_ | refine Frame.ite ?_ ?_

theorem seekCount_frame {p : Part → Prop} {r a0 a1 s} (h_regs : p .regs) (h_c0 : p (.chan a0)) (h : Frame p r s) : Frame
    p r (seekCount a0 a1 s) := by
  unfold seekCount
  repeat' with_reducible
    first
    | assumption | refine setLoopSt_frame ?_ ?_ | refine State.onSrv_frame ?_ ?_ | refine State.onMot_frame ?_ ?_

theorem seekStart_frame {p : Part → Prop} {r a0 a1 s} (h_regs : p .regs) (h_c0 : p (.chan a0)) (h : Frame p r s) : Frame
    p r (seekStart a0 a1 s) := by
  unfold seekStart
  repeat' with_reducible
    first
    | assumption | refine State.raise_frame ?_ ?_ | refine State.bump_frame ?_ ?_ | refine State.put_frame ?_ ?_
    | refine seekCount_frame ?_ ?_ ?_ | refine State.onMot_frame ?_ ?_ | refine stopTransfer_frame ?_ ?_ ?_
    | refine holdLoop_frame ?_ ?_ ?_ | refine axFlush_frame ?_ ?_ ?_ | refine State.onAxis_frame ?_ ?_
    | refine Frame.ite ?_ ?_

theorem motSeekEffect_frame {p : Part → Prop} {r a0 a1 s} (h_regs : p .regs) (h_c0 : p (.chan a0)) (h : Frame p r s) :
    Frame p r (motSeekEffect a0 a1 s) := by
  unfold motSeekEffect
  repeat' with_reducible
    first
    | assumption | refine seekStart_frame ?_ ?_ ?_ | refine State.onMot_frame ?_ ?_ | refine Frame.ite ?_ ?_

theorem seekResume_frame {p : Part → Prop} {r a0 s} (h_regs : p .regs) (h_c0 : p (.chan a0)) (h : Frame p r s) : Frame p
    r (seekResume a0 s) := by
  unfold seekResume
  repeat' with_reducible first | assumption | refine seekStart_frame ?_ ?_ ?_ | refine State.onMot_frame ?_ ?_ | split

theorem execHoldDelayExpiry_frame {p : Part → Prop} {r a0 a1 s} (h_c0 : p (.chan a0)) (h : Frame p r s) : Frame p r
    (stateOf s (execHoldDelayExpiry a0 a1 s)) := by
  unfold execHoldDelayExpiry
  repeat' with_reducible
    first
    | assumption | refine Frame.gateEngine ?_ ?_ | refine Frame.next ?_ | refine State.onAxis_frame ?_ ?_
    | refine Frame.ite ?_ ?_

theorem homeCapture_frame {p : Part → Prop} {r a0 a1 s} (h_regs : p .regs) (h_c0 : p (.chan a0)) (h : Frame p r s) :
    Frame p r (homeCapture a0 a1 s) := by
  unfold homeCapture
  repeat' with_reducible first | assumption | refine State.puti_frame ?_ ?_ | refine State.onAxis_frame ?_ ?_

theorem execHomeInputChange_frame {p : Part → Prop} {r a0 a1 s} (h_regs : p .regs) (h_c0 : p (.chan a0)) (h : Frame p r
    s) : Frame p r (stateOf s (execHomeInputChange a0 a1 s)) := by
  unfold execHomeInputChange
  repeat' with_reducible
    first
    | assumption | lift_lets -underBinder | refine Frame.gate ?_ ?_ | refine Frame.next ?_
    | refine State.putb_frame ?_ ?_ | refine State.onAxis_frame ?_ ?_ | refine homeCapture_frame ?_ ?_ ?_ | split

theorem homingFail_frame {p : Part → Prop} {r a0 a1 s} (h_regs : p .regs) (h_hlt : p .hlt) (h_rcd : p .rcd) (h_c0 : p
    (.chan a0)) (h : Frame p r s) : Frame p r (homingFail a0 a1 s) := by
  unfold homingFail
  repeat' with_reducible
    first
    | assumption | refine axFlush_frame ?_ ?_ ?_ | refine State.putb_frame ?_ ?_ | refine State.put_frame ?_ ?_
    | refine State.faultCh_frame ?_ ?_ ?_ ?_ | refine State.raise_frame ?_ ?_

theorem execSeekCountTimeout_frame {p : Part → Prop} {r a0 s} (h_regs : p .regs) (h_c0 : p (.chan a0)) (h : Frame p r s)
    : Frame p r (stateOf s (execSeekCountTimeout a0 s)) := by
  unfold execSeekCountTimeout
  repeat' with_reducible
    first
    | assumption | lift_lets -underBinder | (intro x; subst x) | refine Frame.gateEngine ?_ ?_ | refine Frame.next ?_
    | refine State.put_frame ?_ ?_ | refine State.bump_frame ?_ ?_ | refine seekReturn_frame ?_ ?_ ?_
    | refine State.onSrv_frame ?_ ?_ | split

/-! ### Servo -/

theorem closeLoop_frame {p : Part → Prop} {r a0 a1 s} (h_c0 : p (.chan a0)) (h : Frame p r s) : Frame p r (closeLoop a0
    a1 s) := by
  unfold closeLoop
  repeat' with_reducible first | assumption | refine State.onLoop_frame ?_ ?_ | refine Frame.ite ?_ ?_

theorem openLoop_frame {p : Part → Prop} {r a0 a1 s} (h_regs : p .regs) (h_c0 : p (.chan a0)) (h : Frame p r s) : Frame
    p r (openLoop a0 a1 s) := by
  unfold openLoop
  repeat' with_reducible first | assumption | refine setLoopSt_frame ?_ ?_ | refine State.onLoop_frame ?_ ?_

theorem openHeld_frame {p : Part → Prop} {r a0 a1 s} (h_regs : p .regs) (h_c0 : p (.chan a0)) (h : Frame p r s) : Frame
    p r (openHeld a0 a1 s) := by
  unfold openHeld
  repeat' with_reducible first | assumption | refine setLoopSt_frame ?_ ?_ | refine State.onLoop_frame ?_ ?_

theorem openMove_frame {p : Part → Prop} {r a0 a1 a2 a3 s} (h_regs : p .regs) (h_c0 : p (.chan a0)) (h : Frame p r s) :
    Frame p r (openMove a0 a1 a2 a3 s) := by
  unfold openMove
  repeat' with_reducible first | assumption | refine setLoopSt_frame ?_ ?_ | refine State.onLoop_frame ?_ ?_

theorem holdCmd_frame {p : Part → Prop} {r a0 a1 s} (h_regs : p .regs) (h_c0 : p (.chan a0)) (h : Frame p r s) : Frame p
    r (holdCmd a0 a1 s) := by
  unfold holdCmd
  repeat' with_reducible first | assumption | refine State.onLoop_frame ?_ ?_ | refine holdLoop_frame ?_ ?_ ?_

theorem closeOrRelease_frame {p : Part → Prop} {r a0 a1 s} (h_regs : p .regs) (h_c0 : p (.chan a0)) (h : Frame p r s) :
    Frame p r (closeOrRelease a0 a1 s) := by
  unfold closeOrRelease
  repeat' with_reducible first | assumption | refine closeLoop_frame ?_ ?_ | refine releaseLoop_frame ?_ ?_

theorem swapEffect_frame {p : Part → Prop} {r a0 a1 s} (h_regs : p .regs) (h : Frame p r s) : Frame p r (swapEffect a0
    a1 s) := by
  unfold swapEffect
  repeat' with_reducible first | assumption | refine swapBanks_frame ?_ ?_ | refine State.putb_frame ?_ ?_

theorem loopCtlEffect_frame {p : Part → Prop} {r a0 a1 a2 s} (h_regs : p .regs) (h_c0 : p (.chan a0)) (h : Frame p r s)
    : Frame p r (loopCtlEffect a0 a1 a2 s) := by
  unfold loopCtlEffect
  repeat' with_reducible
    first
    | assumption | refine swapEffect_frame ?_ ?_ | refine closeLoop_frame ?_ ?_ | refine openLoop_frame ?_ ?_ ?_
    | refine holdCmd_frame ?_ ?_ ?_ | refine releaseLoop_frame ?_ ?_ | split

theorem swapTt_frame {p : Part → Prop} {r a0 s} (h_regs : p .regs) (h : Frame p r s) : Frame p r (swapTt a0 s) := by
  unfold swapTt
  repeat' with_reducible first | assumption | refine exchange_frame ?_ ?_ | refine Frame.foldl (fun _ _ _ => ?_) ?_

theorem ttSwapNow_frame {p : Part → Prop} {r a0 s} (h_regs : p .regs) (h : Frame p r s) : Frame p r (ttSwapNow a0 s) :=
    by
  unfold ttSwapNow
  repeat' with_reducible
    first
    | assumption | refine State.putb_frame ?_ ?_ | refine swapTt_frame ?_ ?_ | refine State.raise_frame ?_ ?_
    | refine Frame.ite ?_ ?_

theorem ttSwapEffect_frame {p : Part → Prop} {r a0 a1 s} (h_regs : p .regs) (h : Frame p r s) : Frame p r (ttSwapEffect
    a0 a1 s) := by
  unfold ttSwapEffect
  repeat' with_reducible
    first
    | assumption | refine ttSwapNow_frame ?_ ?_ | refine State.putb_frame ?_ ?_ | refine State.raise_frame ?_ ?_
    | refine Frame.ite ?_ ?_

theorem jumpStart_frame {p : Part → Prop} {r a0 a1 s} (h_regs : p .regs) (h_c0 : p (.chan a0)) (h : Frame p r s) : Frame
    p r (jumpStart a0 a1 s) := by
  unfold jumpStart
  repeat' with_reducible
    first
    | assumption | refine stopTransfer_frame ?_ ?_ ?_ | refine holdCmd_frame ?_ ?_ ?_ | refine openHeld_frame ?_ ?_ ?_
    | refine State.onSrv_frame ?_ ?_

theorem seekDrop_frame {p : Part → Prop} {r a0 s} (h_regs : p .regs) (h_c0 : p (.chan a0)) (h : Frame p r s) : Frame p r
    (seekDrop a0 s) := by
  unfold seekDrop
  repeat' with_reducible
    first
    | assumption | refine State.onMot_frame ?_ ?_ | refine State.put_frame ?_ ?_ | refine axFollowNow_frame ?_ ?_ ?_
    | refine axFlush_frame ?_ ?_ ?_ | refine Frame.ite ?_ ?_

theorem oneBeamStart_frame {p : Part → Prop} {r a0 a1 a2 s} (h_regs : p .regs) (h_c0 : p (.chan a0)) (h : Frame p r s) :
    Frame p r (oneBeamStart a0 a1 a2 s) := by
  unfold oneBeamStart
  repeat' with_reducible first | assumption | refine State.onSrv_frame ?_ ?_ | refine holdCmd_frame ?_ ?_ ?_

theorem beginRecovery_frame {p : Part → Prop} {r a0 a1 s} (h_regs : p .regs) (h_c0 : p (.chan a0)) (h : Frame p r s) :
    Frame p r (beginRecovery a0 a1 s) := by
  unfold beginRecovery
  repeat' with_reducible
    first
    | assumption | refine State.put_frame ?_ ?_ | refine holdCmd_frame ?_ ?_ ?_ | refine seekDrop_frame ?_ ?_ ?_
    | refine State.onSrv_frame ?_ ?_ | refine oneBeamStart_frame ?_ ?_ ?_ | refine Frame.foldl (fun _ _ _ => ?_) ?_
    | split

theorem startRecovery_frame {p : Part → Prop} {r a0 a1 s} (h_regs : p .regs) (h_c0 : p (.chan a0)) (h : Frame p r s) :
    Frame p r (startRecovery a0 a1 s) := by
  unfold startRecovery
  repeat' with_reducible first | assumption | refine beginRecovery_frame ?_ ?_ ?_ | refine State.put_frame ?_ ?_

theorem detect_frame {p : Part → Prop} {r a0 a1 a2 a3 a4 a5 s} (h_regs : p .regs) (h_hlt : p .hlt) (h_rcd : p .rcd)
    (h_c0 : p (.chan a0)) (h : Frame p r s) : Frame p r (detect a0 a1 a2 a3 a4 a5 s) := by
  unfold detect
  repeat' with_reducible
    first
    | assumption | refine State.putb_frame ?_ ?_ | refine State.bump_frame ?_ ?_
    | refine State.faultCh_frame ?_ ?_ ?_ ?_ | refine State.raise_frame ?_ ?_ | refine stopTransfer_frame ?_ ?_ ?_
    | refine State.onDcm_frame ?_ ?_ | refine startRecovery_frame ?_ ?_ ?_ | refine Frame.ite ?_ ?_

theorem clearWatch_frame {p : Part → Prop} {r a0 s} (h_c0 : p (.chan a0)) (h : Frame p r s) : Frame p r (clearWatch a0
    s) := by
  unfold clearWatch
  repeat' with_reducible first | assumption | refine State.onLoop_frame ?_ ?_ | refine State.onSrv_frame ?_ ?_

theorem detectBeam_frame {p : Part → Prop} {r a0 s} (h_regs : p .regs) (h_hlt : p .hlt) (h_rcd : p .rcd) (h_c0 : p
    (.chan a0)) (h : Frame p r s) : Frame p r (detectBeam a0 s) := by
  unfold detectBeam
  repeat' with_reducible first | assumption | refine clearWatch_frame ?_ ?_ | refine detect_frame ?_ ?_ ?_ ?_ ?_

theorem recoveryFail_frame {p : Part → Prop} {r a0 s} (h_regs : p .regs) (h_hlt : p .hlt) (h_rcd : p .rcd) (h_c0 : p
    (.chan a0)) (h : Frame p r s) : Frame p r (recoveryFail a0 s) := by
  unfold recoveryFail
  repeat' with_reducible
    first
    | assumption | refine State.faultCh_frame ?_ ?_ ?_ ?_ | refine State.raise_frame ?_ ?_
    | refine State.bump_frame ?_ ?_ | refine openMove_frame ?_ ?_ ?_ | refine seekDrop_frame ?_ ?_ ?_
    | refine holdCmd_frame ?_ ?_ ?_ | refine State.put_frame ?_ ?_ | refine State.onSrv_frame ?_ ?_
    | refine Frame.foldl (fun _ _ _ => ?_) ?_

theorem attemptFailed_frame {p : Part → Prop} {r a0 s} (h_regs : p .regs) (h_hlt : p .hlt) (h_rcd : p .rcd) (h_c0 : p
    (.chan a0)) (h : Frame p r s) : Frame p r (attemptFailed a0 s) := by
  unfold attemptFailed
  repeat' with_reducible
    first
    | assumption | lift_lets -underBinder | (intro x; subst x) | refine recoveryFail_frame ?_ ?_ ?_ ?_ ?_
    | refine State.put_frame ?_ ?_ | refine State.onSrv_frame ?_ ?_ | refine beginRecovery_frame ?_ ?_ ?_ | split

theorem acquireStart_frame {p : Part → Prop} {r a0 s} (h_regs : p .regs) (h_c0 : p (.chan a0)) (h : Frame p r s) : Frame
    p r (acquireStart a0 s) := by
  unfold acquireStart
  repeat' with_reducible
    first
    | assumption | refine openLoop_frame ?_ ?_ ?_ | refine State.onLoop_frame ?_ ?_ | refine State.put_frame ?_ ?_
    | refine State.onMot_frame ?_ ?_ | refine State.onSrv_frame ?_ ?_ | refine Frame.foldl (fun _ _ _ => ?_) ?_

theorem seqTick_frame {p : Part → Prop} {r a0 a1 s} (h_regs : p .regs) (h_c0 : p (.chan a0)) (h : Frame p r s) : Frame p
    r (seqTick a0 a1 s) := by
  unfold seqTick
  repeat' with_reducible
    first
    | assumption | lift_lets -underBinder | (intro x; subst x) | refine State.onSrv_frame ?_ ?_
    | refine closeOrRelease_frame ?_ ?_ ?_ | refine holdCmd_frame ?_ ?_ ?_ | refine axFollowNow_frame ?_ ?_ ?_
    | refine State.onMot_frame ?_ ?_ | refine State.putb_frame ?_ ?_ | refine openMove_frame ?_ ?_ ?_
    | refine openHeld_frame ?_ ?_ ?_ | refine State.onLoop_frame ?_ ?_ | split

theorem sumLock_frame {p : Part → Prop} {r a0 a1 s} (h_regs : p .regs) (h : Frame p r s) : Frame p r (sumLock a0 a1 s)
    := by
  unfold sumLock
  repeat' with_reducible first | assumption | refine State.putb_frame ?_ ?_

theorem addressBack_frame {p : Part → Prop} {r a0 a1 s} (h_regs : p .regs) (h_c0 : p (.chan a0)) (h : Frame p r s) :
    Frame p r (addressBack a0 a1 s) := by
  unfold addressBack
  repeat' with_reducible
    first
    | assumption | refine State.onSrv_frame ?_ ?_ | refine State.onMot_frame ?_ ?_ | refine State.put_frame ?_ ?_
    | refine seekStart_frame ?_ ?_ ?_ | refine Frame.ite ?_ ?_

theorem addressStep_frame {p : Part → Prop} {r a0 a1 s} (h_regs : p .regs) (h_hlt : p .hlt) (h_rcd : p .rcd) (h_c0 : p
    (.chan a0)) (h : Frame p r s) : Frame p r (addressStep a0 a1 s) := by
  unfold addressStep
  repeat' with_reducible
    first
    | assumption | lift_lets -underBinder | (intro x; subst x) | refine addressBack_frame ?_ ?_ ?_
    | refine State.bump_frame ?_ ?_ | refine recoveryFail_frame ?_ ?_ ?_ ?_ ?_ | refine State.onSrv_frame ?_ ?_
    | refine jumpStart_frame ?_ ?_ ?_ | refine State.put_frame ?_ ?_ | split

theorem addressValid_frame {p : Part → Prop} {r a0 a1 s} (h_regs : p .regs) (h_hlt : p .hlt) (h_rcd : p .rcd) (h_c0 : p
    (.chan a0)) (h : Frame p r s) : Frame p r (addressValid a0 a1 s) := by
  unfold addressValid
  repeat' with_reducible
    first
    | assumption | refine State.put_frame ?_ ?_ | refine State.onSrv_frame ?_ ?_ | refine State.onDcm_frame ?_ ?_
    | refine State.onAcc_frame ?_ ?_ | refine addressStep_frame ?_ ?_ ?_ ?_ ?_ | refine sumLock_frame ?_ ?_

theorem addressInvalid_frame {p : Part → Prop} {r a0 s} (h_regs : p .regs) (h_c0 : p (.chan a0)) (h : Frame p r s) :
    Frame p r (addressInvalid a0 s) := by
  unfold addressInvalid
  repeat' with_reducible first | assumption | refine State.onSrv_frame ?_ ?_ | refine sumLock_frame ?_ ?_

theorem execSaAddress_frame {p : Part → Prop} {r a0 a1 a2 s} (h_regs : p .regs) (h_hlt : p .hlt) (h_rcd : p .rcd) (h_c0
    : p (.chan a0)) (h : Frame p r s) : Frame p r (stateOf s (execSaAddress a0 a1 a2 s)) := by
  unfold execSaAddress
  repeat' with_reducible
    first
    | assumption | refine Frame.gateEngine ?_ ?_ | refine Frame.next ?_ | refine State.onSrv_frame ?_ ?_
    | refine addressValid_frame ?_ ?_ ?_ ?_ ?_ | refine addressInvalid_frame ?_ ?_ ?_ | split

theorem execWobblePllLock_frame {p : Part → Prop} {r a0 a1 s} (h_c0 : p (.chan a0)) (h : Frame p r s) : Frame p r
    (stateOf s (execWobblePllLock a0 a1 s)) := by
  unfold execWobblePllLock
  repeat' with_reducible
    first
    | assumption | refine Frame.gateEngine ?_ ?_ | refine Frame.next ?_ | refine State.onSrv_frame ?_ ?_

theorem execWobblePllLockLoss_frame {p : Part → Prop} {r a0 s} (h_c0 : p (.chan a0)) (h : Frame p r s) : Frame p r
    (stateOf s (execWobblePllLockLoss a0 s)) := by
  unfold execWobblePllLockLoss
  repeat' with_reducible
    first
    | assumption | refine Frame.gateEngine ?_ ?_ | refine Frame.next ?_ | refine State.onSrv_frame ?_ ?_
    | refine Frame.ite ?_ ?_

theorem execWobbleReadStop_frame {p : Part → Prop} {r a0 s} (h_regs : p .regs) (h_hlt : p .hlt) (h_rcd : p .rcd) (h_c0 :
    p (.chan a0)) (h : Frame p r s) : Frame p r (stateOf s (execWobbleReadStop a0 s)) := by
  unfold execWobbleReadStop
  repeat' with_reducible
    first
    | assumption | refine Frame.gateEngine ?_ ?_ | refine Frame.next ?_ | refine State.onAcc_frame ?_ ?_
    | refine State.onSrv_frame ?_ ?_ | refine stopReadAt_frame ?_ ?_ ?_ | refine detectBeam_frame ?_ ?_ ?_ ?_ ?_
    | refine Frame.ite ?_ ?_

theorem execRoutineOverrun_frame {p : Part → Prop} {r a0 s} (h_regs : p .regs) (h_hlt : p .hlt) (h_rcd : p .rcd) (h_c0 :
    p (.chan a0)) (h : Frame p r s) : Frame p r (stateOf s (execRoutineOverrun a0 s)) := by
  unfold execRoutineOverrun
  repeat' with_reducible
    first
    | assumption | refine Frame.gateEngine ?_ ?_ | refine Frame.next ?_ | refine State.onSrv_frame ?_ ?_
    | refine State.bump_frame ?_ ?_ | refine State.put_frame ?_ ?_ | refine State.putb_frame ?_ ?_
    | refine State.faultCh_frame ?_ ?_ ?_ ?_ | refine State.raise_frame ?_ ?_ | split

theorem execTtSwapApply_frame {p : Part → Prop} {r a0 s} (h_regs : p .regs) (h : Frame p r s) : Frame p r (stateOf s
    (execTtSwapApply a0 s)) := by
  unfold execTtSwapApply
  repeat' with_reducible
    first
    | assumption | refine Frame.gateEngine ?_ ?_ | refine Frame.next ?_ | refine ttSwapNow_frame ?_ ?_
    | refine Frame.ite ?_ ?_

theorem execHoldResume_frame {p : Part → Prop} {r a0 s} (h_regs : p .regs) (h_c0 : p (.chan a0)) (h : Frame p r s) :
    Frame p r (stateOf s (execHoldResume a0 s)) := by
  unfold execHoldResume
  repeat' with_reducible
    first
    | assumption | refine Frame.gateEngine ?_ ?_ | refine Frame.next ?_ | refine releaseLoop_frame ?_ ?_
    | refine State.onSrv_frame ?_ ?_ | refine Frame.foldl (fun _ _ _ => ?_) ?_ | refine Frame.ite ?_ ?_

theorem execFocusCapture_frame {p : Part → Prop} {r a0 s} (h_c0 : p (.chan a0)) (h : Frame p r s) : Frame p r (stateOf s
    (execFocusCapture a0 s)) := by
  unfold execFocusCapture
  repeat' with_reducible
    first
    | assumption | refine Frame.gateEngine ?_ ?_ | refine Frame.next ?_ | refine State.onSrv_frame ?_ ?_
    | refine closeLoop_frame ?_ ?_ | split

theorem execFocusSweepEnd_frame {p : Part → Prop} {r a0 s} (h_c0 : p (.chan a0)) (h : Frame p r s) : Frame p r (stateOf
    s (execFocusSweepEnd a0 s)) := by
  unfold execFocusSweepEnd
  repeat' with_reducible
    first
    | assumption | refine Frame.gateEngine ?_ ?_ | refine Frame.next ?_ | refine State.onSrv_frame ?_ ?_
    | refine State.onLoop_frame ?_ ?_ | refine Frame.ite ?_ ?_

theorem execTrackCapture_frame {p : Part → Prop} {r a0 s} (h_regs : p .regs) (h_c0 : p (.chan a0)) (h : Frame p r s) :
    Frame p r (stateOf s (execTrackCapture a0 s)) := by
  unfold execTrackCapture
  repeat' with_reducible
    first
    | assumption | refine Frame.gateEngine ?_ ?_ | refine Frame.next ?_ | refine closeOrRelease_frame ?_ ?_ ?_
    | refine State.onSrv_frame ?_ ?_ | refine Frame.ite ?_ ?_

theorem execAcquireAddressTimeout_frame {p : Part → Prop} {r a0 s} (h_regs : p .regs) (h_hlt : p .hlt) (h_rcd : p .rcd)
    (h_c0 : p (.chan a0)) (h : Frame p r s) : Frame p r (stateOf s (execAcquireAddressTimeout a0 s)) := by
  unfold execAcquireAddressTimeout
  repeat' with_reducible
    first
    | assumption | refine Frame.gateEngine ?_ ?_ | refine Frame.next ?_ | refine attemptFailed_frame ?_ ?_ ?_ ?_ ?_
    | refine Frame.ite ?_ ?_

theorem execLayerJumpCorrectorDone_frame {p : Part → Prop} {r a0 s} (h_regs : p .regs) (h_c0 : p (.chan a0)) (h : Frame
    p r s) : Frame p r (stateOf s (execLayerJumpCorrectorDone a0 s)) := by
  unfold execLayerJumpCorrectorDone
  repeat' with_reducible
    first
    | assumption | refine Frame.gateEngine ?_ ?_ | refine Frame.next ?_ | refine openMove_frame ?_ ?_ ?_
    | refine State.onSrv_frame ?_ ?_ | refine Frame.ite ?_ ?_

theorem execLayerJumpProfileEnd_frame {p : Part → Prop} {r a0 s} (h_c0 : p (.chan a0)) (h : Frame p r s) : Frame p r
    (stateOf s (execLayerJumpProfileEnd a0 s)) := by
  unfold execLayerJumpProfileEnd
  repeat' with_reducible
    first
    | assumption | refine Frame.gateEngine ?_ ?_ | refine Frame.next ?_ | refine State.onSrv_frame ?_ ?_
    | refine State.onLoop_frame ?_ ?_ | split

theorem execLayerJumpCaptureTimeout_frame {p : Part → Prop} {r a0 s} (h_regs : p .regs) (h_c0 : p (.chan a0)) (h : Frame
    p r s) : Frame p r (stateOf s (execLayerJumpCaptureTimeout a0 s)) := by
  unfold execLayerJumpCaptureTimeout
  repeat' with_reducible
    first
    | assumption | refine Frame.gateEngine ?_ ?_ | refine Frame.next ?_ | refine startRecovery_frame ?_ ?_ ?_
    | refine Frame.ite ?_ ?_

theorem execFocusDrop_frame {p : Part → Prop} {r a0 s} (h_regs : p .regs) (h_hlt : p .hlt) (h_rcd : p .rcd) (h_c0 : p
    (.chan a0)) (h : Frame p r s) : Frame p r (stateOf s (execFocusDrop a0 s)) := by
  unfold execFocusDrop
  repeat' with_reducible
    first
    | assumption | refine Frame.gateEngine ?_ ?_ | refine Frame.next ?_ | refine clearWatch_frame ?_ ?_
    | refine detect_frame ?_ ?_ ?_ ?_ ?_ | refine Frame.ite ?_ ?_

theorem execServoBeamLoss_frame {p : Part → Prop} {r a0 s} (h_regs : p .regs) (h_hlt : p .hlt) (h_rcd : p .rcd) (h_c0 :
    p (.chan a0)) (h : Frame p r s) : Frame p r (stateOf s (execServoBeamLoss a0 s)) := by
  unfold execServoBeamLoss
  repeat' with_reducible
    first
    | assumption | refine Frame.gateEngine ?_ ?_ | refine Frame.next ?_ | refine detectBeam_frame ?_ ?_ ?_ ?_ ?_
    | refine Frame.ite ?_ ?_

theorem execTrackSlip_frame {p : Part → Prop} {r a0 s} (h_regs : p .regs) (h_hlt : p .hlt) (h_rcd : p .rcd) (h_c0 : p
    (.chan a0)) (h : Frame p r s) : Frame p r (stateOf s (execTrackSlip a0 s)) := by
  unfold execTrackSlip
  repeat' with_reducible
    first
    | assumption | refine Frame.gateEngine ?_ ?_ | refine Frame.next ?_ | refine clearWatch_frame ?_ ?_
    | refine detect_frame ?_ ?_ ?_ ?_ ?_ | refine Frame.ite ?_ ?_

theorem execOneBeamEnd_frame {p : Part → Prop} {r a0 s} (h_regs : p .regs) (h_c0 : p (.chan a0)) (h : Frame p r s) :
    Frame p r (stateOf s (execOneBeamEnd a0 s)) := by
  unfold execOneBeamEnd
  repeat' with_reducible
    first
    | assumption | refine Frame.gateEngine ?_ ?_ | refine Frame.next ?_ | refine releaseLoop_frame ?_ ?_
    | refine State.put_frame ?_ ?_ | refine State.onSrv_frame ?_ ?_ | refine Frame.ite ?_ ?_

theorem execRecoveryDone_frame {p : Part → Prop} {r a0 s} (h_regs : p .regs) (h_c0 : p (.chan a0)) (h : Frame p r s) :
    Frame p r (stateOf s (execRecoveryDone a0 s)) := by
  unfold execRecoveryDone
  repeat' with_reducible
    first
    | assumption | refine Frame.gateEngine ?_ ?_ | refine Frame.next ?_ | refine State.put_frame ?_ ?_
    | refine State.onSrv_frame ?_ ?_ | refine Frame.ite ?_ ?_

theorem attemptTimeout_frame {p : Part → Prop} {r a0 s} (h_regs : p .regs) (h_hlt : p .hlt) (h_rcd : p .rcd) (h_c0 : p
    (.chan a0)) (h : Frame p r s) : Frame p r (attemptTimeout a0 s) := by
  unfold attemptTimeout
  repeat' with_reducible
    first
    | assumption | refine recoveryFail_frame ?_ ?_ ?_ ?_ ?_ | refine attemptFailed_frame ?_ ?_ ?_ ?_ ?_
    | refine Frame.ite ?_ ?_

/-! ### Spindle -/

theorem setSpn_frame {p : Part → Prop} {r a0 a1 s} (h_regs : p .regs) (h_c0 : p (.chan a0)) (h : Frame p r s) : Frame p
    r (setSpn a0 a1 s) := by
  unfold setSpn
  repeat' with_reducible first | assumption | refine State.put_frame ?_ ?_ | refine State.onSpn_frame ?_ ?_

theorem selectDtc_frame {p : Part → Prop} {r a0 s} (h_regs : p .regs) (h_c0 : p (.chan a0)) (h : Frame p r s) : Frame p
    r (selectDtc a0 s) := by
  unfold selectDtc
  repeat' with_reducible
    first
    | assumption | refine State.onSpn_frame ?_ ?_ | refine State.put_frame ?_ ?_ | refine State.bump_frame ?_ ?_
    | refine Frame.ite ?_ ?_

theorem selectSix_frame {p : Part → Prop} {r a0 a1 s} (h_regs : p .regs) (h_c0 : p (.chan a0)) (h : Frame p r s) : Frame
    p r (selectSix a0 a1 s) := by
  unfold selectSix
  repeat' with_reducible first | assumption | refine State.put_frame ?_ ?_ | refine State.onSpn_frame ?_ ?_

theorem selectNext_frame {p : Part → Prop} {r a0 s} (h_regs : p .regs) (h_c0 : p (.chan a0)) (h : Frame p r s) : Frame p
    r (selectNext a0 s) := by
  unfold selectNext
  repeat' with_reducible
    first
    | assumption | lift_lets -underBinder | (intro x; subst x) | refine State.onSpn_frame ?_ ?_
    | refine selectDtc_frame ?_ ?_ ?_ | refine selectSix_frame ?_ ?_ ?_ | split

theorem seedObs_frame {p : Part → Prop} {r a0 a1 a2 a3 a4 s} (h_c0 : p (.chan a0)) (h : Frame p r s) : Frame p r
    (seedObs a0 a1 a2 a3 a4 s) := by
  unfold seedObs
  repeat' with_reducible first | assumption | refine State.onSpn_frame ?_ ?_

theorem speedHold_frame {p : Part → Prop} {r a0 s} (h_regs : p .regs) (h_c0 : p (.chan a0)) (h : Frame p r s) : Frame p
    r (speedHold a0 s) := by
  unfold speedHold
  repeat' with_reducible first | assumption | refine holdCmd_frame ?_ ?_ ?_

theorem shortStart_frame {p : Part → Prop} {r a0 a1 s} (h_regs : p .regs) (h_c0 : p (.chan a0)) (h : Frame p r s) :
    Frame p r (shortStart a0 a1 s) := by
  unfold shortStart
  repeat' with_reducible
    first
    | assumption | refine setSpn_frame ?_ ?_ ?_ | refine State.onSpn_frame ?_ ?_ | refine speedHold_frame ?_ ?_ ?_

theorem watchStart_frame {p : Part → Prop} {r a0 a1 s} (h_regs : p .regs) (h_c0 : p (.chan a0)) (h : Frame p r s) :
    Frame p r (watchStart a0 a1 s) := by
  unfold watchStart
  repeat' with_reducible
    first
    | assumption | refine State.put_frame ?_ ?_ | refine speedHold_frame ?_ ?_ ?_ | refine setSpn_frame ?_ ?_ ?_
    | refine State.onSpn_frame ?_ ?_

theorem attemptFail_frame {p : Part → Prop} {r a0 s} (h_regs : p .regs) (h_hlt : p .hlt) (h_rcd : p .rcd) (h_c0 : p
    (.chan a0)) (h : Frame p r s) : Frame p r (attemptFail a0 s) := by
  unfold attemptFail
  repeat' with_reducible
    first
    | assumption | refine State.onSpn_frame ?_ ?_ | refine State.bump_frame ?_ ?_ | refine State.raise_frame ?_ ?_
    | refine State.faultCh_frame ?_ ?_ ?_ ?_ | refine setSpn_frame ?_ ?_ ?_ | refine Frame.ite ?_ ?_

theorem catchFails_frame {p : Part → Prop} {r a0 s} (h_regs : p .regs) (h_c0 : p (.chan a0)) (h : Frame p r s) : Frame p
    r (catchFails a0 s) := by
  unfold catchFails
  repeat' with_reducible
    first
    | assumption | refine shortStart_frame ?_ ?_ ?_ | refine State.raise_frame ?_ ?_ | refine State.bump_frame ?_ ?_

theorem catchStart_frame {p : Part → Prop} {r a0 s} (h_regs : p .regs) (h_hlt : p .hlt) (h_rcd : p .rcd) (h_c0 : p
    (.chan a0)) (h : Frame p r s) : Frame p r (catchStart a0 s) := by
  unfold catchStart
  repeat' with_reducible
    first
    | assumption | refine State.faultCh_frame ?_ ?_ ?_ ?_ | refine State.raise_frame ?_ ?_
    | refine State.bump_frame ?_ ?_ | refine stopTransfer_frame ?_ ?_ ?_ | refine speedHold_frame ?_ ?_ ?_
    | refine State.onDcm_frame ?_ ?_ | refine setSpn_frame ?_ ?_ ?_ | refine State.onSpn_frame ?_ ?_
    | refine Frame.ite ?_ ?_

theorem catchCollect_frame {p : Part → Prop} {r a0 s} (h_regs : p .regs) (h_c0 : p (.chan a0)) (h : Frame p r s) : Frame
    p r (catchCollect a0 s) := by
  unfold catchCollect
  repeat' with_reducible first | assumption | refine setSpn_frame ?_ ?_ ?_ | refine State.onSpn_frame ?_ ?_

theorem dtcResume_frame {p : Part → Prop} {r a0 s} (h_regs : p .regs) (h_c0 : p (.chan a0)) (h : Frame p r s) : Frame p
    r (dtcResume a0 s) := by
  unfold dtcResume
  repeat' with_reducible
    first
    | assumption | refine State.onSpn_frame ?_ ?_ | refine selectNext_frame ?_ ?_ ?_ | refine setSpn_frame ?_ ?_ ?_
    | refine releaseLoop_frame ?_ ?_ | refine State.put_frame ?_ ?_ | refine Frame.ite ?_ ?_

theorem catchSeed_frame {p : Part → Prop} {r a0 a1 a2 a3 s} (h_regs : p .regs) (h_c0 : p (.chan a0)) (h : Frame p r s) :
    Frame p r (catchSeed a0 a1 a2 a3 s) := by
  unfold catchSeed
  repeat' with_reducible
    first
    | assumption | refine catchFails_frame ?_ ?_ ?_ | refine dtcResume_frame ?_ ?_ ?_ | refine seedObs_frame ?_ ?_
    | refine Frame.ite ?_ ?_

theorem startNow_frame {p : Part → Prop} {r a0 s} (h_regs : p .regs) (h_c0 : p (.chan a0)) (h : Frame p r s) : Frame p r
    (startNow a0 s) := by
  unfold startNow
  repeat' with_reducible
    first
    | assumption | refine State.raise_frame ?_ ?_ | refine watchStart_frame ?_ ?_ ?_ | refine Frame.ite ?_ ?_

theorem brakeNow_frame {p : Part → Prop} {r a0 s} (h_regs : p .regs) (h_c0 : p (.chan a0)) (h : Frame p r s) : Frame p r
    (brakeNow a0 s) := by
  unfold brakeNow
  repeat' with_reducible
    first
    | assumption | lift_lets -underBinder | (intro x; subst x) | refine State.onSpn_frame ?_ ?_
    | refine shortStart_frame ?_ ?_ ?_ | refine setSpn_frame ?_ ?_ ?_ | refine speedHold_frame ?_ ?_ ?_ | split

theorem coastNow_frame {p : Part → Prop} {r a0 s} (h_regs : p .regs) (h_c0 : p (.chan a0)) (h : Frame p r s) : Frame p r
    (coastNow a0 s) := by
  unfold coastNow
  repeat' with_reducible
    first
    | assumption | refine State.put_frame ?_ ?_ | refine setSpn_frame ?_ ?_ ?_ | refine State.onSpn_frame ?_ ?_
    | refine Frame.ite ?_ ?_

theorem spnCommand_frame {p : Part → Prop} {r a0 a1 s} (h_regs : p .regs) (h_c0 : p (.chan a0)) (h : Frame p r s) :
    Frame p r (spnCommand a0 a1 s) := by
  unfold spnCommand
  repeat' with_reducible
    first
    | assumption | refine State.onSpn_frame ?_ ?_ | refine startNow_frame ?_ ?_ ?_ | refine brakeNow_frame ?_ ?_ ?_
    | refine coastNow_frame ?_ ?_ ?_ | split

theorem spnHeld_frame {p : Part → Prop} {r a0 s} (h_regs : p .regs) (h_c0 : p (.chan a0)) (h : Frame p r s) : Frame p r
    (spnHeld a0 s) := by
  unfold spnHeld
  repeat' with_reducible first | assumption | refine spnCommand_frame ?_ ?_ ?_ | refine State.onSpn_frame ?_ ?_ | split

theorem patternTick_frame {p : Part → Prop} {r a0 s} (h_regs : p .regs) (h_c0 : p (.chan a0)) (h : Frame p r s) : Frame
    p r (patternTick a0 s) := by
  unfold patternTick
  repeat' with_reducible
    first
    | assumption | refine State.onSpn_frame ?_ ?_ | refine State.putb_frame ?_ ?_ | refine State.bump_frame ?_ ?_
    | refine State.put_frame ?_ ?_ | refine Frame.ite ?_ ?_

theorem observerTick_frame {p : Part → Prop} {r a0 a1 a2 s} (h_regs : p .regs) (h_c0 : p (.chan a0)) (h : Frame p r s) :
    Frame p r (observerTick a0 a1 a2 s) := by
  unfold observerTick
  repeat' with_reducible
    first
    | assumption | lift_lets -underBinder | (intro x; subst x) | refine State.onSpn_frame ?_ ?_
    | refine State.putb_frame ?_ ?_ | refine State.bump_frame ?_ ?_ | split

theorem lossTick_frame {p : Part → Prop} {r a0 s} (h_regs : p .regs) (h_hlt : p .hlt) (h_rcd : p .rcd) (h_c0 : p (.chan
    a0)) (h : Frame p r s) : Frame p r (lossTick a0 s) := by
  unfold lossTick
  repeat' with_reducible
    first
    | assumption | refine State.bump_frame ?_ ?_ | refine catchStart_frame ?_ ?_ ?_ ?_ ?_ | refine Frame.ite ?_ ?_

theorem startTick_frame {p : Part → Prop} {r a0 s} (h_regs : p .regs) (h_hlt : p .hlt) (h_rcd : p .rcd) (h_c0 : p (.chan
    a0)) (h : Frame p r s) : Frame p r (startTick a0 s) := by
  unfold startTick
  repeat' with_reducible
    first
    | assumption | refine attemptFail_frame ?_ ?_ ?_ ?_ ?_ | refine State.put_frame ?_ ?_ | refine closeLoop_frame ?_ ?_
    | refine openLoop_frame ?_ ?_ ?_ | refine State.bump_frame ?_ ?_ | refine State.raise_frame ?_ ?_
    | refine setSpn_frame ?_ ?_ ?_ | refine Frame.ite ?_ ?_

theorem sixTick_frame {p : Part → Prop} {r a0 a1 s} (h_regs : p .regs) (h_c0 : p (.chan a0)) (h : Frame p r s) : Frame p
    r (sixTick a0 a1 s) := by
  unfold sixTick
  repeat' with_reducible
    first
    | assumption | refine setSpn_frame ?_ ?_ ?_ | refine State.onSpn_frame ?_ ?_ | refine Frame.ite ?_ ?_

theorem brakeTick_frame {p : Part → Prop} {r a0 s} (h_regs : p .regs) (h_c0 : p (.chan a0)) (h : Frame p r s) : Frame p
    r (brakeTick a0 s) := by
  unfold brakeTick
  repeat' with_reducible
    first
    | assumption | lift_lets -underBinder | (intro x; subst x) | refine shortStart_frame ?_ ?_ ?_
    | refine State.onSpn_frame ?_ ?_ | split

theorem probeTick_frame {p : Part → Prop} {r a0 a1 s} (h_c0 : p (.chan a0)) (h : Frame p r s) : Frame p r (probeTick a0
    a1 s) := by
  unfold probeTick
  repeat' with_reducible first | assumption | refine State.onSpn_frame ?_ ?_ | refine Frame.ite ?_ ?_

theorem spnShow_frame {p : Part → Prop} {r a0 s} (h_regs : p .regs) (h : Frame p r s) : Frame p r (spnShow a0 s) := by
  unfold spnShow
  repeat' with_reducible first | assumption | refine State.puti_frame ?_ ?_ | refine State.put_frame ?_ ?_

theorem spindleTick_frame {p : Part → Prop} {r a0 a1 a2 s} (h_regs : p .regs) (h_hlt : p .hlt) (h_rcd : p .rcd) (h_c0 :
    p (.chan a0)) (h : Frame p r s) : Frame p r (spindleTick a0 a1 a2 s) := by
  unfold spindleTick
  repeat' with_reducible
    first
    | assumption | refine patternTick_frame ?_ ?_ ?_ | refine probeTick_frame ?_ ?_ | refine observerTick_frame ?_ ?_ ?_
    | refine startTick_frame ?_ ?_ ?_ ?_ ?_ | refine lossTick_frame ?_ ?_ ?_ ?_ ?_ | refine brakeTick_frame ?_ ?_ ?_
    | refine sixTick_frame ?_ ?_ ?_ | refine spnShow_frame ?_ ?_ | refine selectNext_frame ?_ ?_ ?_

theorem spnPowerFail_frame {p : Part → Prop} {r a0 s} (h_regs : p .regs) (h_c0 : p (.chan a0)) (h : Frame p r s) : Frame
    p r (spnPowerFail a0 s) := by
  unfold spnPowerFail
  repeat' with_reducible
    first
    | assumption | refine State.onSpn_frame ?_ ?_ | refine coastNow_frame ?_ ?_ ?_ | refine Frame.ite ?_ ?_

theorem execCurrentLimit_frame {p : Part → Prop} {r a0 a1 s} (h_c0 : p (.chan a0)) (h : Frame p r s) : Frame p r
    (stateOf s (execCurrentLimit a0 a1 s)) := by
  unfold execCurrentLimit
  repeat' with_reducible
    first
    | assumption | refine Frame.gateEngine ?_ ?_ | refine Frame.next ?_ | refine State.onSpn_frame ?_ ?_
    | refine Frame.ite ?_ ?_

theorem collectEdge_frame {p : Part → Prop} {r a0 a1 s} (h_regs : p .regs) (h_c0 : p (.chan a0)) (h : Frame p r s) :
    Frame p r (collectEdge a0 a1 s) := by
  unfold collectEdge
  repeat' with_reducible
    first
    | assumption | lift_lets -underBinder | (intro x; subst x) | refine State.onSpn_frame ?_ ?_
    | refine State.bump_frame ?_ ?_ | refine catchSeed_frame ?_ ?_ ?_ | split

theorem sixHandBack_frame {p : Part → Prop} {r a0 a1 a2 s} (h_regs : p .regs) (h_c0 : p (.chan a0)) (h : Frame p r s) :
    Frame p r (sixHandBack a0 a1 a2 s) := by
  unfold sixHandBack
  repeat' with_reducible
    first
    | assumption | refine seedObs_frame ?_ ?_ | refine State.onSpn_frame ?_ ?_ | refine shortStart_frame ?_ ?_ ?_
    | refine selectNext_frame ?_ ?_ ?_ | refine setSpn_frame ?_ ?_ ?_ | refine Frame.ite ?_ ?_

theorem sixEdgeIn_frame {p : Part → Prop} {r a0 a1 a2 s} (h_regs : p .regs) (h_c0 : p (.chan a0)) (h : Frame p r s) :
    Frame p r (sixEdgeIn a0 a1 a2 s) := by
  unfold sixEdgeIn
  repeat' with_reducible
    first
    | assumption | refine State.onSpn_frame ?_ ?_ | refine sixHandBack_frame ?_ ?_ ?_ | refine Frame.ite ?_ ?_

theorem execBemfEdge_frame {p : Part → Prop} {r a0 a1 a2 a3 s} (h_regs : p .regs) (h_hlt : p .hlt) (h_rcd : p .rcd)
    (h_c0 : p (.chan a0)) (h : Frame p r s) : Frame p r (stateOf s (execBemfEdge a0 a1 a2 a3 s)) := by
  unfold execBemfEdge
  repeat' with_reducible
    first
    | assumption | lift_lets -underBinder | refine Frame.gateEngine ?_ ?_ | refine Frame.next ?_
    | refine State.onAcc_frame ?_ ?_ | refine sixEdgeIn_frame ?_ ?_ ?_ | refine State.onSpn_frame ?_ ?_
    | refine collectEdge_frame ?_ ?_ ?_ | refine State.bump_frame ?_ ?_ | refine catchStart_frame ?_ ?_ ?_ ?_ ?_ | split

theorem execStartWatchTimeout_frame {p : Part → Prop} {r a0 s} (h_regs : p .regs) (h_c0 : p (.chan a0)) (h : Frame p r
    s) : Frame p r (stateOf s (execStartWatchTimeout a0 s)) := by
  unfold execStartWatchTimeout
  repeat' with_reducible
    first
    | assumption | refine Frame.gateEngine ?_ ?_ | refine Frame.next ?_ | refine setSpn_frame ?_ ?_ ?_
    | refine State.onSpn_frame ?_ ?_ | refine Frame.ite ?_ ?_

theorem execProbeEnd_frame {p : Part → Prop} {r a0 s} (h_regs : p .regs) (h_hlt : p .hlt) (h_rcd : p .rcd) (h_c0 : p
    (.chan a0)) (h : Frame p r s) : Frame p r (stateOf s (execProbeEnd a0 s)) := by
  unfold execProbeEnd
  repeat' with_reducible
    first
    | assumption | refine Frame.gateEngine ?_ ?_ | refine Frame.next ?_ | refine attemptFail_frame ?_ ?_ ?_ ?_ ?_
    | refine speedHold_frame ?_ ?_ ?_ | refine seedObs_frame ?_ ?_ | refine selectNext_frame ?_ ?_ ?_
    | refine setSpn_frame ?_ ?_ ?_ | refine State.onSpn_frame ?_ ?_ | refine Frame.ite ?_ ?_

theorem execStartTimeout_frame {p : Part → Prop} {r a0 s} (h_regs : p .regs) (h_hlt : p .hlt) (h_rcd : p .rcd) (h_c0 : p
    (.chan a0)) (h : Frame p r s) : Frame p r (stateOf s (execStartTimeout a0 s)) := by
  unfold execStartTimeout
  repeat' with_reducible
    first
    | assumption | refine Frame.gateEngine ?_ ?_ | refine Frame.next ?_ | refine attemptFail_frame ?_ ?_ ?_ ?_ ?_
    | split

theorem execStartPauseEnd_frame {p : Part → Prop} {r a0 s} (h_regs : p .regs) (h_c0 : p (.chan a0)) (h : Frame p r s) :
    Frame p r (stateOf s (execStartPauseEnd a0 s)) := by
  unfold execStartPauseEnd
  repeat' with_reducible
    first
    | assumption | refine Frame.gateEngine ?_ ?_ | refine Frame.next ?_ | refine watchStart_frame ?_ ?_ ?_
    | refine Frame.ite ?_ ?_

theorem execSixStepCommutation_frame {p : Part → Prop} {r a0 s} (h_regs : p .regs) (h_c0 : p (.chan a0)) (h : Frame p r
    s) : Frame p r (stateOf s (execSixStepCommutation a0 s)) := by
  unfold execSixStepCommutation
  repeat' with_reducible
    first
    | assumption | refine Frame.gateEngine ?_ ?_ | refine Frame.next ?_ | refine selectSix_frame ?_ ?_ ?_
    | refine State.onSpn_frame ?_ ?_ | split

theorem execCommutationLost_frame {p : Part → Prop} {r a0 s} (h_regs : p .regs) (h_hlt : p .hlt) (h_rcd : p .rcd) (h_c0
    : p (.chan a0)) (h : Frame p r s) : Frame p r (stateOf s (execCommutationLost a0 s)) := by
  unfold execCommutationLost
  repeat' with_reducible
    first
    | assumption | refine Frame.gateEngine ?_ ?_ | refine Frame.next ?_ | refine catchStart_frame ?_ ?_ ?_ ?_ ?_
    | refine State.bump_frame ?_ ?_ | refine Frame.ite ?_ ?_

theorem execCatchCoastEnd_frame {p : Part → Prop} {r a0 s} (h_regs : p .regs) (h_c0 : p (.chan a0)) (h : Frame p r s) :
    Frame p r (stateOf s (execCatchCoastEnd a0 s)) := by
  unfold execCatchCoastEnd
  repeat' with_reducible
    first
    | assumption | refine Frame.gateEngine ?_ ?_ | refine Frame.next ?_ | refine shortStart_frame ?_ ?_ ?_
    | refine State.onSpn_frame ?_ ?_ | refine Frame.ite ?_ ?_

theorem execCatchTimeout_frame {p : Part → Prop} {r a0 s} (h_regs : p .regs) (h_c0 : p (.chan a0)) (h : Frame p r s) :
    Frame p r (stateOf s (execCatchTimeout a0 s)) := by
  unfold execCatchTimeout
  repeat' with_reducible
    first
    | assumption | refine Frame.gateEngine ?_ ?_ | refine Frame.next ?_ | refine catchFails_frame ?_ ?_ ?_
    | refine Frame.ite ?_ ?_

theorem execShortV0Start_frame {p : Part → Prop} {r a0 s} (h_regs : p .regs) (h_c0 : p (.chan a0)) (h : Frame p r s) :
    Frame p r (stateOf s (execShortV0Start a0 s)) := by
  unfold execShortV0Start
  repeat' with_reducible
    first
    | assumption | refine Frame.gateEngine ?_ ?_ | refine Frame.next ?_ | refine selectNext_frame ?_ ?_ ?_
    | refine State.onSpn_frame ?_ ?_ | refine Frame.ite ?_ ?_

theorem execSpindleStopped_frame {p : Part → Prop} {r a0 s} (h_regs : p .regs) (h_c0 : p (.chan a0)) (h : Frame p r s) :
    Frame p r (stateOf s (execSpindleStopped a0 s)) := by
  unfold execSpindleStopped
  repeat' with_reducible
    first
    | assumption | refine Frame.gateEngine ?_ ?_ | refine Frame.next ?_ | refine State.raise_frame ?_ ?_
    | refine State.put_frame ?_ ?_ | refine setSpn_frame ?_ ?_ ?_ | refine State.onSpn_frame ?_ ?_
    | refine startNow_frame ?_ ?_ ?_ | split

/-! ### VmBus -/

theorem busTick_frame {p : Part → Prop} {r a0 a1 s} (h_regs : p .regs) (h_buses : p .buses) (h : Frame p r s) : Frame p
    r (busTick a0 a1 s) := by
  unfold busTick
  repeat' with_reducible first | assumption | refine State.put_frame ?_ ?_ | refine State.onBus_frame ?_ ?_

theorem onBusChans_frame {p : Part → Prop} {r b f s} (hf : ∀ c s, Frame p r s → Frame p r (f c s)) (h : Frame p r s) :
    Frame p r (onBusChans b f s) := by
  unfold onBusChans
  repeat' with_reducible
    first
    | assumption | exact hf _ _ (by assumption) | refine Frame.each (fun _ _ _ => ?_) ?_ | refine Frame.ite ?_ ?_

theorem busStopSpindle_frame {p : Part → Prop} {r a0 a1 s} (h_regs : p .regs) (h_c0 : p (.chan a0)) (h : Frame p r s) :
    Frame p r (busStopSpindle a0 a1 s) := by
  unfold busStopSpindle
  repeat' with_reducible
    first
    | assumption | refine State.onSpn_frame ?_ ?_ | refine State.onDcm_frame ?_ ?_ | refine setSpn_frame ?_ ?_ ?_
    | refine Frame.ite ?_ ?_

theorem busFreeSpindle_frame {p : Part → Prop} {r a0 s} (h_regs : p .regs) (h_c0 : p (.chan a0)) (h : Frame p r s) :
    Frame p r (busFreeSpindle a0 s) := by
  unfold busFreeSpindle
  repeat' with_reducible
    first
    | assumption | refine State.onDcm_frame ?_ ?_ | refine catchCollect_frame ?_ ?_ ?_ | refine State.onSpn_frame ?_ ?_
    | refine State.bump_frame ?_ ?_ | refine speedHold_frame ?_ ?_ ?_ | refine shortStart_frame ?_ ?_ ?_
    | refine setSpn_frame ?_ ?_ ?_ | refine spnHeld_frame ?_ ?_ ?_ | split

theorem execChopperOn_frame {p : Part → Prop} {r a0 a1 s} (h_regs : p .regs) (h_buses : p .buses) (h : Frame p r s) :
    Frame p r (stateOf s (execChopperOn a0 a1 s)) := by
  unfold execChopperOn
  repeat' with_reducible
    first
    | assumption | refine Frame.gate ?_ ?_ | refine Frame.next ?_ | refine State.bump_frame ?_ ?_
    | refine State.putb_frame ?_ ?_ | refine State.onBus_frame ?_ ?_ | refine Frame.ite ?_ ?_

theorem execChopperOff_frame {p : Part → Prop} {r a0 a1 s} (h_regs : p .regs) (h_buses : p .buses) (h : Frame p r s) :
    Frame p r (stateOf s (execChopperOff a0 a1 s)) := by
  unfold execChopperOff
  repeat' with_reducible
    first
    | assumption | refine Frame.gate ?_ ?_ | refine Frame.next ?_ | refine State.onBus_frame ?_ ?_
    | refine State.putb_frame ?_ ?_ | refine Frame.ite ?_ ?_

theorem chopperClamp_frame {p : Part → Prop} {r a0 s} (h_regs : p .regs) (h_c0 : p (.chan a0)) (h : Frame p r s) : Frame
    p r (chopperClamp a0 s) := by
  unfold chopperClamp
  repeat' with_reducible
    first
    | assumption | refine State.putb_frame ?_ ?_ | refine shortStart_frame ?_ ?_ ?_ | refine Frame.ite ?_ ?_

theorem execChopperFault_frame {p : Part → Prop} {r a0 a1 s} (h_regs : p .regs) (h_hlt : p .hlt) (h_buses : p .buses)
    (h_all : ∀ k, p (.chan k)) (h : Frame p r s) : Frame p r (stateOf s (execChopperFault a0 a1 s)) := by
  unfold execChopperFault
  repeat' with_reducible
    first
    | assumption | exact h_all _ | refine Frame.gate ?_ ?_ | refine Frame.next ?_ | refine State.putb_frame ?_ ?_
    | refine State.onBus_frame ?_ ?_ | refine State.put_frame ?_ ?_ | refine onBusChans_frame (fun _ _ _ => ?_) ?_
    | refine chopperClamp_frame ?_ ?_ ?_ | refine State.fault_frame ?_ ?_ | refine State.raise_frame ?_ ?_
    | refine Frame.ite ?_ ?_

theorem chopClear_frame {p : Part → Prop} {r a0 s} (h_regs : p .regs) (h : Frame p r s) : Frame p r (chopClear a0 s) :=
    by
  unfold chopClear
  repeat' with_reducible
    first
    | assumption | refine State.put_frame ?_ ?_ | refine State.putb_frame ?_ ?_
    | refine onBusChans_frame (fun _ _ _ => ?_) ?_ | refine Frame.ite ?_ ?_

theorem vmbCtlEffect_frame {p : Part → Prop} {r a0 a1 s} (h_regs : p .regs) (h : Frame p r s) : Frame p r (vmbCtlEffect
    a0 a1 s) := by
  unfold vmbCtlEffect
  repeat' with_reducible
    first
    | assumption | refine chopClear_frame ?_ ?_ | refine State.put_frame ?_ ?_ | refine Frame.ite ?_ ?_

theorem execBufferStop_frame {p : Part → Prop} {r a0 a1 s} (h_regs : p .regs) (h_hlt : p .hlt) (h_buses : p .buses)
    (h_all : ∀ k, p (.chan k)) (h : Frame p r s) : Frame p r (stateOf s (execBufferStop a0 a1 s)) := by
  unfold execBufferStop
  repeat' with_reducible
    first
    | assumption | exact h_all _ | refine Frame.gate ?_ ?_ | refine Frame.next ?_ | refine State.bump_frame ?_ ?_
    | refine State.putb_frame ?_ ?_ | refine State.onBus_frame ?_ ?_ | refine State.fault_frame ?_ ?_
    | refine State.raise_frame ?_ ?_ | refine onBusChans_frame (fun _ _ _ => ?_) ?_
    | refine busStopSpindle_frame ?_ ?_ ?_ | refine stopTransfer_frame ?_ ?_ ?_ | refine Frame.ite ?_ ?_

theorem busRelease_frame {p : Part → Prop} {r a0 s} (h_regs : p .regs) (h_all : ∀ k, p (.chan k)) (h : Frame p r s) :
    Frame p r (busRelease a0 s) := by
  unfold busRelease
  repeat' with_reducible
    first
    | assumption | exact h_all _ | refine onBusChans_frame (fun _ _ _ => ?_) ?_ | refine busFreeSpindle_frame ?_ ?_ ?_
    | refine Frame.ite ?_ ?_

theorem execBufferStopRelease_frame {p : Part → Prop} {r a0 s} (h_regs : p .regs) (h_all : ∀ k, p (.chan k)) (h : Frame
    p r s) : Frame p r (stateOf s (execBufferStopRelease a0 s)) := by
  unfold execBufferStopRelease
  repeat' with_reducible
    first
    | assumption | refine Frame.gate ?_ ?_ | refine Frame.next ?_ | refine busRelease_frame ?_ ?_ ?_
    | refine State.putb_frame ?_ ?_ | refine Frame.ite ?_ ?_

theorem execUndervoltStop_frame {p : Part → Prop} {r a0 s} (h_regs : p .regs) (h_hlt : p .hlt) (h_all : ∀ k, p (.chan
    k)) (h : Frame p r s) : Frame p r (stateOf s (execUndervoltStop a0 s)) := by
  unfold execUndervoltStop
  repeat' with_reducible
    first
    | assumption | exact h_all _ | refine Frame.gate ?_ ?_ | refine Frame.next ?_ | refine State.bump_frame ?_ ?_
    | refine State.putb_frame ?_ ?_ | refine State.fault_frame ?_ ?_ | refine State.raise_frame ?_ ?_
    | refine onBusChans_frame (fun _ _ _ => ?_) ?_ | refine busStopSpindle_frame ?_ ?_ ?_
    | refine stopTransfer_frame ?_ ?_ ?_ | refine Frame.ite ?_ ?_

theorem execUndervoltRelease_frame {p : Part → Prop} {r a0 s} (h_regs : p .regs) (h_all : ∀ k, p (.chan k)) (h : Frame p
    r s) : Frame p r (stateOf s (execUndervoltRelease a0 s)) := by
  unfold execUndervoltRelease
  repeat' with_reducible
    first
    | assumption | refine Frame.gate ?_ ?_ | refine Frame.next ?_ | refine busRelease_frame ?_ ?_ ?_
    | refine State.putb_frame ?_ ?_ | refine Frame.ite ?_ ?_

/-! ### Recorder -/

theorem recChange_frame {p : Part → Prop} {r a0 a1 a2 a3 s} (h_rcd : p .rcd) (h : Frame p r s) : Frame p r (recChange a0
    a1 a2 a3 s) := by
  unfold recChange
  repeat' with_reducible first | assumption | refine State.onAcc_frame ?_ ?_ | refine Frame.ite ?_ ?_

theorem clearEngine_frame {p : Part → Prop} {r a0 s} (h_regs : p .regs) (h : Frame p r s) : Frame p r (clearEngine a0 s)
    := by
  unfold clearEngine
  repeat' with_reducible first | assumption | refine State.wr_frame ?_ ?_ | refine Frame.foldl (fun _ _ _ => ?_) ?_

theorem loadImage_frame {p : Part → Prop} {r a0 a1 s} (h_regs : p .regs) (h_c0 : p (.chan a0)) (h : Frame p r s) : Frame
    p r (loadImage a0 a1 s) := by
  unfold loadImage
  repeat' with_reducible
    first
    | assumption | refine clearEngine_frame ?_ ?_ | refine State.wr_frame ?_ ?_ | refine State.onChan_frame ?_ ?_
    | refine Frame.foldl (fun _ _ _ => ?_) ?_

theorem areaWritten_frame {p : Part → Prop} {r s} (h_regs : p .regs) (h : Frame p r s) : Frame p r (areaWritten s) := by
  unfold areaWritten
  repeat' with_reducible first | assumption | refine State.putb_frame ?_ ?_

theorem recFinish_frame {p : Part → Prop} {r a0 s} (h_regs : p .regs) (h_hlt : p .hlt) (h_rcd : p .rcd) (h : Frame p r
    s) : Frame p r (recFinish a0 s) := by
  unfold recFinish
  repeat' with_reducible
    first
    | assumption | refine areaWritten_frame ?_ ?_ | refine State.onRcd_frame ?_ ?_ | refine State.put_frame ?_ ?_
    | refine State.putb_frame ?_ ?_ | refine State.logEvent_frame ?_ ?_

theorem recOverflow_frame {p : Part → Prop} {r a0 s} (h_regs : p .regs) (h_hlt : p .hlt) (h_rcd : p .rcd) (h : Frame p r
    s) : Frame p r (recOverflow a0 s) := by
  unfold recOverflow
  repeat' with_reducible
    first
    | assumption | refine State.put_frame ?_ ?_ | refine recFinish_frame ?_ ?_ ?_ ?_ | refine Frame.ite ?_ ?_

theorem recStore_frame {p : Part → Prop} {r a0 a1 s} (h_regs : p .regs) (h_hlt : p .hlt) (h_rcd : p .rcd) (h : Frame p r
    s) : Frame p r (recStore a0 a1 s) := by
  unfold recStore
  repeat' with_reducible
    first
    | assumption | lift_lets -underBinder | (intro x; subst x) | refine State.onRcd_frame ?_ ?_
    | refine recOverflow_frame ?_ ?_ ?_ ?_ | refine recFinish_frame ?_ ?_ ?_ ?_ | refine areaWritten_frame ?_ ?_ | split

theorem recTick_frame {p : Part → Prop} {r a0 s} (h_regs : p .regs) (h_hlt : p .hlt) (h_rcd : p .rcd) (h : Frame p r s)
    : Frame p r (recTick a0 s) := by
  unfold recTick
  repeat' with_reducible
    first
    | assumption | refine recStore_frame ?_ ?_ ?_ ?_ | refine State.onRcd_frame ?_ ?_
    | refine Frame.each (fun _ _ _ => ?_) ?_

theorem replayMiss_frame {p : Part → Prop} {r a0 a1 s} (h_regs : p .regs) (h : Frame p r s) : Frame p r (replayMiss a0
    a1 s) := by
  unfold replayMiss
  repeat' with_reducible
    first
    | assumption | refine State.put_frame ?_ ?_ | refine State.bump_frame ?_ ?_ | refine Frame.ite ?_ ?_

theorem replayEnter_frame {p : Part → Prop} {r a0 s} (h_regs : p .regs) (h_rcd : p .rcd) (h_c0 : p (.chan a0)) (h :
    Frame p r s) : Frame p r (replayEnter a0 s) := by
  unfold replayEnter
  repeat' with_reducible
    first
    | assumption | refine loadImage_frame ?_ ?_ ?_ | refine State.put_frame ?_ ?_ | refine State.onRcd_frame ?_ ?_
    | refine replayMiss_frame ?_ ?_ | refine Frame.ite ?_ ?_

theorem replayLeave_frame {p : Part → Prop} {r a0 s} (h_c0 : p (.chan a0)) (h : Frame p r s) : Frame p r (replayLeave a0
    s) := by
  unfold replayLeave
  repeat' with_reducible first | assumption | refine State.onSrv_frame ?_ ?_

/-! ### Mode -/

theorem profileCheck_frame {p : Part → Prop} {r a0 s} (h_c0 : p (.chan a0)) (h : Frame p r s) : Frame p r (profileCheck
    a0 s) := by
  unfold profileCheck
  repeat' with_reducible first | assumption | refine State.onDcm_frame ?_ ?_

theorem profileFields_frame {p : Part → Prop} {r a0 a1 s} (h_locks : p .locks) (h_hlt : p .hlt) (h_c0 : p (.chan a0)) (h
    : Frame p r s) : Frame p r (profileFields a0 a1 s) := by
  unfold profileFields
  repeat' with_reducible
    first
    | assumption | refine State.stageSeq_frame ?_ ?_ ?_ ?_ | refine Frame.each (fun _ _ _ => ?_) ?_

theorem demandSpeed_frame {p : Part → Prop} {r a0 s} (h_c0 : p (.chan a0)) (h : Frame p r s) : Frame p r (demandSpeed a0
    s) := by
  unfold demandSpeed
  repeat' with_reducible first | assumption | refine State.onDcm_frame ?_ ?_

theorem profileEffect_frame {p : Part → Prop} {r a0 s} (h_locks : p .locks) (h_hlt : p .hlt) (h_c0 : p (.chan a0)) (h :
    Frame p r s) : Frame p r (profileEffect a0 s) := by
  unfold profileEffect
  repeat' with_reducible
    first
    | assumption | refine profileFields_frame ?_ ?_ ?_ ?_ | refine State.onDcm_frame ?_ ?_
    | refine demandSpeed_frame ?_ ?_ | refine Frame.ite ?_ ?_

theorem execProfileApply_frame {p : Part → Prop} {r a0 s} (h_regs : p .regs) (h_locks : p .locks) (h_hlt : p .hlt) (h_c0
    : p (.chan a0)) (h : Frame p r s) : Frame p r (stateOf s (execProfileApply a0 s)) := by
  unfold execProfileApply
  repeat' with_reducible
    first
    | assumption | refine Frame.gate ?_ ?_ | refine Frame.next ?_ | refine State.put_frame ?_ ?_
    | refine profileEffect_frame ?_ ?_ ?_ ?_ | refine State.onDcm_frame ?_ ?_ | refine Frame.ite ?_ ?_

theorem ladderMargin_frame {p : Part → Prop} {r a0 s} (h_regs : p .regs) (h_locks : p .locks) (h_hlt : p .hlt) (h_c0 : p
    (.chan a0)) (h : Frame p r s) : Frame p r (ladderMargin a0 s) := by
  unfold ladderMargin
  repeat' with_reducible
    first
    | assumption | refine State.onDcm_frame ?_ ?_ | refine profileEffect_frame ?_ ?_ ?_ ?_
    | refine State.bump_frame ?_ ?_ | refine State.putb_frame ?_ ?_ | refine Frame.ite ?_ ?_

theorem ladderMarginEnd_frame {p : Part → Prop} {r a0 s} (h_regs : p .regs) (h_locks : p .locks) (h_hlt : p .hlt) (h_c0
    : p (.chan a0)) (h : Frame p r s) : Frame p r (ladderMarginEnd a0 s) := by
  unfold ladderMarginEnd
  repeat' with_reducible
    first
    | assumption | refine State.onDcm_frame ?_ ?_ | refine profileEffect_frame ?_ ?_ ?_ ?_
    | refine State.putb_frame ?_ ?_ | refine Frame.ite ?_ ?_

theorem allowEffect_frame {p : Part → Prop} {r a0 a1 a2 s} (h_regs : p .regs) (h_c0 : p (.chan a0)) (h : Frame p r s) :
    Frame p r (allowEffect a0 a1 a2 s) := by
  unfold allowEffect
  repeat' with_reducible
    first
    | assumption | refine profileCheck_frame ?_ ?_ | refine State.raise_frame ?_ ?_ | refine State.bump_frame ?_ ?_
    | refine Frame.ite ?_ ?_

theorem profileValueEffect_frame {p : Part → Prop} {r a0 a1 s} (h_c0 : p (.chan a0)) (h : Frame p r s) : Frame p r
    (profileValueEffect a0 a1 s) := by
  unfold profileValueEffect
  repeat' with_reducible first | assumption | refine State.onDcm_frame ?_ ?_ | refine Frame.ite ?_ ?_

theorem noteErr_frame {p : Part → Prop} {r a0 a1 s} (h_regs : p .regs) (h : Frame p r s) : Frame p r (noteErr a0 a1 s)
    := by
  unfold noteErr
  repeat' with_reducible first | assumption | refine State.put_frame ?_ ?_

theorem modeFail_frame {p : Part → Prop} {r a0 a1 s} (h_regs : p .regs) (h : Frame p r s) : Frame p r (modeFail a0 a1 s)
    := by
  unfold modeFail
  repeat' with_reducible
    first
    | assumption | refine State.raise_frame ?_ ?_ | refine State.bump_frame ?_ ?_ | refine noteErr_frame ?_ ?_

theorem headTo_frame {p : Part → Prop} {r a0 a1 s} (h_regs : p .regs) (h_locks : p .locks) (h_hlt : p .hlt) (h : Frame p
    r s) : Frame p r (headTo a0 a1 s) := by
  unfold headTo
  repeat' with_reducible first | assumption | refine State.put_frame ?_ ?_ | refine State.seqPut_frame ?_ ?_ ?_ ?_

theorem fallback_frame {p : Part → Prop} {r a0 a1 a2 s} (h_regs : p .regs) (h_locks : p .locks) (h_hlt : p .hlt) (h_c0 :
    p (.chan a0)) (h : Frame p r s) : Frame p r (fallback a0 a1 a2 s) := by
  unfold fallback
  repeat' with_reducible
    first
    | assumption | refine headTo_frame ?_ ?_ ?_ ?_ | refine modeFail_frame ?_ ?_ | refine State.onDcm_frame ?_ ?_

theorem stopChan_frame {p : Part → Prop} {r a0 a1 a2 a3 s} (h_regs : p .regs) (h_locks : p .locks) (h_hlt : p .hlt)
    (h_c0 : p (.chan a0)) (h : Frame p r s) : Frame p r (stopChan a0 a1 a2 a3 s) := by
  unfold stopChan
  repeat' with_reducible
    first
    | assumption | refine fallback_frame ?_ ?_ ?_ ?_ ?_ | refine State.raise_frame ?_ ?_ | refine State.bump_frame ?_ ?_
    | refine State.putb_frame ?_ ?_ | refine State.onDcm_frame ?_ ?_

theorem blockWrite_frame {p : Part → Prop} {r a0 s} (h_regs : p .regs) (h_locks : p .locks) (h_hlt : p .hlt) (h : Frame
    p r s) : Frame p r (blockWrite a0 s) := by
  unfold blockWrite
  repeat' with_reducible
    first
    | assumption | refine State.putb_frame ?_ ?_ | refine noteErr_frame ?_ ?_ | refine headTo_frame ?_ ?_ ?_ ?_
    | refine Frame.ite ?_ ?_

theorem setMode_frame {p : Part → Prop} {r a0 a1 s} (h_regs : p .regs) (h_c0 : p (.chan a0)) (h : Frame p r s) : Frame p
    r (setMode a0 a1 s) := by
  unfold setMode
  repeat' with_reducible
    first
    | assumption | refine State.onDcm_frame ?_ ?_ | refine State.put_frame ?_ ?_ | refine State.raise_frame ?_ ?_
    | refine Frame.ite ?_ ?_

theorem frontEnds_frame {p : Part → Prop} {r a0 a1 s} (h_regs : p .regs) (h_locks : p .locks) (h_hlt : p .hlt) (h :
    Frame p r s) : Frame p r (frontEnds a0 a1 s) := by
  unfold frontEnds
  repeat' with_reducible
    first
    | assumption | refine State.seqPut_frame ?_ ?_ ?_ ?_ | refine Frame.each (fun _ _ _ => ?_) ?_

theorem parkFromOff_frame {p : Part → Prop} {r a0 s} (h_regs : p .regs) (h_locks : p .locks) (h_hlt : p .hlt) (h_c0 : p
    (.chan a0)) (h : Frame p r s) : Frame p r (parkFromOff a0 s) := by
  unfold parkFromOff
  repeat' with_reducible
    first
    | assumption | refine driverDue_frame ?_ ?_ | refine frontEnds_frame ?_ ?_ ?_ ?_ | refine homeStart_frame ?_ ?_ ?_
    | refine setMode_frame ?_ ?_ ?_ | refine Frame.each (fun _ _ _ => ?_) ?_ | refine Frame.ite ?_ ?_

theorem axesOff_frame {p : Part → Prop} {r a0 s} (h_regs : p .regs) (h_c0 : p (.chan a0)) (h : Frame p r s) : Frame p r
    (axesOff a0 s) := by
  unfold axesOff
  repeat' with_reducible
    first
    | assumption | refine State.putb_frame ?_ ?_ | refine State.onAxis_frame ?_ ?_ | refine State.put_frame ?_ ?_
    | refine Frame.each (fun _ _ _ => ?_) ?_

theorem offEnter_frame {p : Part → Prop} {r a0 s} (h_regs : p .regs) (h_locks : p .locks) (h_hlt : p .hlt) (h_c0 : p
    (.chan a0)) (h : Frame p r s) : Frame p r (offEnter a0 s) := by
  unfold offEnter
  repeat' with_reducible
    first
    | assumption | refine State.onAxis_frame ?_ ?_ | refine axesOff_frame ?_ ?_ ?_ | refine frontEnds_frame ?_ ?_ ?_ ?_
    | refine driverDue_frame ?_ ?_ | refine State.onWrc_frame ?_ ?_ | refine setMode_frame ?_ ?_ ?_
    | refine State.onDcm_frame ?_ ?_ | refine Frame.each (fun _ _ _ => ?_) ?_

theorem spinUpEnter_frame {p : Part → Prop} {r a0 s} (h_regs : p .regs) (h_c0 : p (.chan a0)) (h : Frame p r s) : Frame
    p r (spinUpEnter a0 s) := by
  unfold spinUpEnter
  repeat' with_reducible
    first
    | assumption | refine driverDue_frame ?_ ?_ | refine State.onWrc_frame ?_ ?_ | refine State.onDcm_frame ?_ ?_
    | refine State.onSrv_frame ?_ ?_ | refine spnCommand_frame ?_ ?_ ?_ | refine demandSpeed_frame ?_ ?_
    | refine setMode_frame ?_ ?_ ?_

theorem axesFollow_frame {p : Part → Prop} {r a0 s} (h_regs : p .regs) (h_c0 : p (.chan a0)) (h : Frame p r s) : Frame p
    r (axesFollow a0 s) := by
  unfold axesFollow
  repeat' with_reducible first | assumption | refine axSetMode_frame ?_ ?_ ?_

theorem acquireEnter_frame {p : Part → Prop} {r a0 s} (h_regs : p .regs) (h_c0 : p (.chan a0)) (h : Frame p r s) : Frame
    p r (acquireEnter a0 s) := by
  unfold acquireEnter
  repeat' with_reducible
    first
    | assumption | refine setMode_frame ?_ ?_ ?_ | refine axesFollow_frame ?_ ?_ ?_ | refine State.onDcm_frame ?_ ?_
    | refine acquireStart_frame ?_ ?_ ?_ | refine State.onSrv_frame ?_ ?_

theorem openToZero_frame {p : Part → Prop} {r a0 s} (h_regs : p .regs) (h_c0 : p (.chan a0)) (h : Frame p r s) : Frame p
    r (openToZero a0 s) := by
  unfold openToZero
  repeat' with_reducible first | assumption | refine openMove_frame ?_ ?_ ?_

theorem acquireAgain_frame {p : Part → Prop} {r a0 s} (h_regs : p .regs) (h_c0 : p (.chan a0)) (h : Frame p r s) : Frame
    p r (acquireAgain a0 s) := by
  unfold acquireAgain
  repeat' with_reducible
    first
    | assumption | refine openToZero_frame ?_ ?_ ?_ | refine stopTransfer_frame ?_ ?_ ?_ | refine State.put_frame ?_ ?_
    | refine State.onSrv_frame ?_ ?_ | refine State.onMot_frame ?_ ?_ | refine setMode_frame ?_ ?_ ?_
    | refine axesFollow_frame ?_ ?_ ?_ | refine axFlush_frame ?_ ?_ ?_ | refine demandSpeed_frame ?_ ?_
    | refine State.onDcm_frame ?_ ?_

theorem seekEnter_frame {p : Part → Prop} {r a0 s} (h_regs : p .regs) (h_c0 : p (.chan a0)) (h : Frame p r s) : Frame p
    r (seekEnter a0 s) := by
  unfold seekEnter
  repeat' with_reducible
    first
    | assumption | refine setMode_frame ?_ ?_ ?_ | refine stopTransfer_frame ?_ ?_ ?_ | refine demandSpeed_frame ?_ ?_
    | refine State.onSrv_frame ?_ ?_ | refine State.onDcm_frame ?_ ?_

theorem restartAll_frame {p : Part → Prop} {r a0 s} (h_locks : p .locks) (h_hlt : p .hlt) (h_c0 : p (.chan a0)) (h :
    Frame p r s) : Frame p r (restartAll a0 s) := by
  unfold restartAll
  repeat' with_reducible
    first
    | assumption | refine State.stageSeq_frame ?_ ?_ ?_ ?_ | refine Frame.each (fun _ _ _ => ?_) ?_

theorem brakeEnter_frame {p : Part → Prop} {r a0 s} (h_regs : p .regs) (h_c0 : p (.chan a0)) (h : Frame p r s) : Frame p
    r (brakeEnter a0 s) := by
  unfold brakeEnter
  repeat' with_reducible
    first
    | assumption | refine openToZero_frame ?_ ?_ ?_ | refine stopTransfer_frame ?_ ?_ ?_ | refine holdCmd_frame ?_ ?_ ?_
    | refine State.put_frame ?_ ?_ | refine State.onSrv_frame ?_ ?_ | refine State.onMot_frame ?_ ?_
    | refine driverDue_frame ?_ ?_ | refine axFlush_frame ?_ ?_ ?_ | refine State.onAxis_frame ?_ ?_
    | refine spnCommand_frame ?_ ?_ ?_ | refine setMode_frame ?_ ?_ ?_ | refine State.onDcm_frame ?_ ?_
    | refine Frame.each (fun _ _ _ => ?_) ?_ | refine Frame.ite ?_ ?_

theorem parkFromBrake_frame {p : Part → Prop} {r a0 s} (h_regs : p .regs) (h_c0 : p (.chan a0)) (h : Frame p r s) :
    Frame p r (parkFromBrake a0 s) := by
  unfold parkFromBrake
  repeat' with_reducible
    first
    | assumption | refine driverDue_frame ?_ ?_ | refine State.onWrc_frame ?_ ?_ | refine State.onDcm_frame ?_ ?_
    | refine State.putb_frame ?_ ?_ | refine setMode_frame ?_ ?_ ?_ | refine axSetMode_frame ?_ ?_ ?_

theorem loadShape_frame {p : Part → Prop} {r a0 s} (h_c0 : p (.chan a0)) (h : Frame p r s) : Frame p r (loadShape a0 s)
    := by
  unfold loadShape
  repeat' with_reducible
    first
    | assumption | refine driverDue_frame ?_ ?_ | refine State.onWrc_frame ?_ ?_
    | refine Frame.each (fun _ _ _ => ?_) ?_ | refine Frame.ite ?_ ?_

theorem levelFrames_frame {p : Part → Prop} {r a0 s} (h_c0 : p (.chan a0)) (h : Frame p r s) : Frame p r (levelFrames a0
    s) := by
  unfold levelFrames
  repeat' with_reducible
    first
    | assumption | refine State.onWrc_frame ?_ ?_ | refine Frame.each (fun _ _ _ => ?_) ?_ | refine Frame.ite ?_ ?_

theorem workEnter_frame {p : Part → Prop} {r a0 a1 s} (h_regs : p .regs) (h_c0 : p (.chan a0)) (h : Frame p r s) : Frame
    p r (workEnter a0 a1 s) := by
  unfold workEnter
  repeat' with_reducible
    first
    | assumption | refine levelFrames_frame ?_ ?_ | refine loadShape_frame ?_ ?_ | refine driverDue_frame ?_ ?_
    | refine setMode_frame ?_ ?_ ?_ | refine State.onDcm_frame ?_ ?_ | refine Frame.ite ?_ ?_

theorem servoFailed_frame {p : Part → Prop} {r a0 a1 s} (h_regs : p .regs) (h_locks : p .locks) (h_hlt : p .hlt) (h_c0 :
    p (.chan a0)) (h : Frame p r s) : Frame p r (servoFailed a0 a1 s) := by
  unfold servoFailed
  repeat' with_reducible
    first
    | assumption | refine fallback_frame ?_ ?_ ?_ ?_ ?_ | refine State.onSrv_frame ?_ ?_
    | refine acquireAgain_frame ?_ ?_ ?_ | refine noteErr_frame ?_ ?_ | refine Frame.ite ?_ ?_

theorem acquireFailed_frame {p : Part → Prop} {r a0 s} (h_regs : p .regs) (h_locks : p .locks) (h_hlt : p .hlt) (h_c0 :
    p (.chan a0)) (h : Frame p r s) : Frame p r (acquireFailed a0 s) := by
  unfold acquireFailed
  repeat' with_reducible
    first
    | assumption | refine State.onSrv_frame ?_ ?_ | refine State.onDcm_frame ?_ ?_ | refine openToZero_frame ?_ ?_ ?_
    | refine fallback_frame ?_ ?_ ?_ ?_ ?_ | refine Frame.ite ?_ ?_

theorem acquireJudge_frame {p : Part → Prop} {r a0 s} (h_regs : p .regs) (h_locks : p .locks) (h_hlt : p .hlt) (h_c0 : p
    (.chan a0)) (h : Frame p r s) : Frame p r (acquireJudge a0 s) := by
  unfold acquireJudge
  repeat' with_reducible
    first
    | assumption | refine acquireStart_frame ?_ ?_ ?_ | refine State.onSrv_frame ?_ ?_ | refine State.onDcm_frame ?_ ?_
    | refine acquireFailed_frame ?_ ?_ ?_ ?_ ?_ | refine seekEnter_frame ?_ ?_ ?_ | refine Frame.ite ?_ ?_

theorem loadTables_frame {p : Part → Prop} {r a0 a1 s} (h_locks : p .locks) (h_hlt : p .hlt) (h_c0 : p (.chan a0)) (h :
    Frame p r s) : Frame p r (loadTables a0 a1 s) := by
  unfold loadTables
  repeat' with_reducible
    first
    | assumption | refine State.expert_frame ?_ ?_ (fun _ _ => ?_) ?_ | refine State.stageSeq_frame ?_ ?_ ?_ ?_
    | refine Frame.each (fun _ _ _ => ?_) ?_ | split

theorem seekJudge_frame {p : Part → Prop} {r a0 s} (h_regs : p .regs) (h_locks : p .locks) (h_hlt : p .hlt) (h_c0 : p
    (.chan a0)) (h : Frame p r s) : Frame p r (seekJudge a0 s) := by
  unfold seekJudge
  repeat' with_reducible
    first
    | assumption | refine jumpStart_frame ?_ ?_ ?_ | refine seekStart_frame ?_ ?_ ?_
    | refine loadTables_frame ?_ ?_ ?_ ?_ | refine restartAll_frame ?_ ?_ ?_ ?_ | refine State.onDcm_frame ?_ ?_
    | refine workEnter_frame ?_ ?_ ?_ | refine Frame.ite ?_ ?_

theorem jumpBack_frame {p : Part → Prop} {r a0 s} (h_regs : p .regs) (h_c0 : p (.chan a0)) (h : Frame p r s) : Frame p r
    (jumpBack a0 s) := by
  unfold jumpBack
  repeat' with_reducible first | assumption | refine seekStart_frame ?_ ?_ ?_

theorem workJudge_frame {p : Part → Prop} {r a0 s} (h_regs : p .regs) (h_locks : p .locks) (h_hlt : p .hlt) (h_c0 : p
    (.chan a0)) (h : Frame p r s) : Frame p r (workJudge a0 s) := by
  unfold workJudge
  repeat' with_reducible
    first
    | assumption | refine servoFailed_frame ?_ ?_ ?_ ?_ ?_ | refine seekEnter_frame ?_ ?_ ?_
    | refine workEnter_frame ?_ ?_ ?_ | refine jumpBack_frame ?_ ?_ ?_ | refine Frame.ite ?_ ?_

theorem transition_frame {p : Part → Prop} {r a0 s} (h_regs : p .regs) (h_locks : p .locks) (h_hlt : p .hlt) (h_rcd : p
    .rcd) (h_c0 : p (.chan a0)) (h : Frame p r s) : Frame p r (transition a0 s) := by
  unfold transition
  repeat' with_reducible
    first
    | assumption | lift_lets -underBinder | (intro x; subst x) | refine parkFromOff_frame ?_ ?_ ?_ ?_ ?_
    | refine offEnter_frame ?_ ?_ ?_ ?_ ?_ | refine setMode_frame ?_ ?_ ?_ | refine replayEnter_frame ?_ ?_ ?_ ?_
    | refine spinUpEnter_frame ?_ ?_ ?_ | refine brakeEnter_frame ?_ ?_ ?_ | refine acquireEnter_frame ?_ ?_ ?_
    | refine acquireJudge_frame ?_ ?_ ?_ ?_ ?_ | refine servoFailed_frame ?_ ?_ ?_ ?_ ?_
    | refine seekJudge_frame ?_ ?_ ?_ ?_ ?_ | refine parkFromBrake_frame ?_ ?_ ?_ | refine replayLeave_frame ?_ ?_
    | refine workJudge_frame ?_ ?_ ?_ ?_ ?_ | split

theorem execModeTransition_frame {p : Part → Prop} {r a0 s} (h_regs : p .regs) (h_locks : p .locks) (h_hlt : p .hlt)
    (h_rcd : p .rcd) (h_c0 : p (.chan a0)) (h : Frame p r s) : Frame p r (stateOf s (execModeTransition a0 s)) := by
  unfold execModeTransition
  repeat' with_reducible
    first
    | assumption | refine Frame.gate ?_ ?_ | refine Frame.next ?_ | refine transition_frame ?_ ?_ ?_ ?_ ?_ ?_
    | refine Frame.ite ?_ ?_

theorem stopClrEffect_frame {p : Part → Prop} {r a0 s} (h_regs : p .regs) (h_c0 : p (.chan a0)) (h : Frame p r s) :
    Frame p r (stopClrEffect a0 s) := by
  unfold stopClrEffect
  repeat' with_reducible
    first
    | assumption | refine State.onDcm_frame ?_ ?_ | refine State.putb_frame ?_ ?_ | refine spnCommand_frame ?_ ?_ ?_
    | refine Frame.ite ?_ ?_

theorem dcmCtlEffect_frame {p : Part → Prop} {r a0 a1 a2 s} (h_regs : p .regs) (h_c0 : p (.chan a0)) (h : Frame p r s) :
    Frame p r (dcmCtlEffect a0 a1 a2 s) := by
  unfold dcmCtlEffect
  repeat' with_reducible
    first
    | assumption | refine State.putb_frame ?_ ?_ | refine State.clearAll_frame ?_ ?_
    | refine stopClrEffect_frame ?_ ?_ ?_ | refine modeFail_frame ?_ ?_ | refine State.put_frame ?_ ?_
    | refine State.onDcm_frame ?_ ?_ | refine profileCheck_frame ?_ ?_ | refine Frame.ite ?_ ?_

theorem execSpinupTimeout_frame {p : Part → Prop} {r a0 s} (h_regs : p .regs) (h_locks : p .locks) (h_hlt : p .hlt)
    (h_c0 : p (.chan a0)) (h : Frame p r s) : Frame p r (stateOf s (execSpinupTimeout a0 s)) := by
  unfold execSpinupTimeout
  repeat' with_reducible
    first
    | assumption | refine Frame.gate ?_ ?_ | refine Frame.next ?_ | refine fallback_frame ?_ ?_ ?_ ?_ ?_ | split

theorem execSeekTimeout_frame {p : Part → Prop} {r a0 s} (h_regs : p .regs) (h_locks : p .locks) (h_hlt : p .hlt) (h_c0
    : p (.chan a0)) (h : Frame p r s) : Frame p r (stateOf s (execSeekTimeout a0 s)) := by
  unfold execSeekTimeout
  repeat' with_reducible
    first
    | assumption | refine Frame.gate ?_ ?_ | refine Frame.next ?_ | refine servoFailed_frame ?_ ?_ ?_ ?_ ?_
    | refine Frame.ite ?_ ?_

theorem execBrakeTimeout_frame {p : Part → Prop} {r a0 s} (h_regs : p .regs) (h_locks : p .locks) (h_hlt : p .hlt) (h_c0
    : p (.chan a0)) (h : Frame p r s) : Frame p r (stateOf s (execBrakeTimeout a0 s)) := by
  unfold execBrakeTimeout
  repeat' with_reducible
    first
    | assumption | refine Frame.gate ?_ ?_ | refine Frame.next ?_ | refine parkFromBrake_frame ?_ ?_ ?_
    | refine axFlush_frame ?_ ?_ ?_ | refine spnCommand_frame ?_ ?_ ?_ | refine stopChan_frame ?_ ?_ ?_ ?_ ?_
    | refine Frame.ite ?_ ?_

theorem execBusWaitTimeout_frame {p : Part → Prop} {r a0 s} (h_regs : p .regs) (h_locks : p .locks) (h_hlt : p .hlt)
    (h_c0 : p (.chan a0)) (h : Frame p r s) : Frame p r (stateOf s (execBusWaitTimeout a0 s)) := by
  unfold execBusWaitTimeout
  repeat' with_reducible
    first
    | assumption | refine Frame.gate ?_ ?_ | refine Frame.next ?_ | refine fallback_frame ?_ ?_ ?_ ?_ ?_
    | refine State.onDcm_frame ?_ ?_ | split

theorem execTransferResume_frame {p : Part → Prop} {r a0 s} (h_regs : p .regs) (h : Frame p r s) : Frame p r (stateOf s
    (execTransferResume a0 s)) := by
  unfold execTransferResume
  repeat' with_reducible
    first
    | assumption | refine Frame.gate ?_ ?_ | refine Frame.next ?_ | refine State.putb_frame ?_ ?_
    | refine Frame.ite ?_ ?_

theorem execRecoveryAttemptTimeout_frame {p : Part → Prop} {r a0 s} (h_regs : p .regs) (h_locks : p .locks) (h_hlt : p
    .hlt) (h_rcd : p .rcd) (h_c0 : p (.chan a0)) (h : Frame p r s) : Frame p r (stateOf s (execRecoveryAttemptTimeout a0
    s)) := by
  unfold execRecoveryAttemptTimeout
  repeat' with_reducible
    first
    | assumption | refine Frame.gateEngine ?_ ?_ | refine Frame.next ?_ | refine attemptTimeout_frame ?_ ?_ ?_ ?_ ?_
    | refine servoFailed_frame ?_ ?_ ?_ ?_ ?_ | refine Frame.ite ?_ ?_

theorem execHomingPhaseFail_frame {p : Part → Prop} {r a0 a1 s} (h_regs : p .regs) (h_locks : p .locks) (h_hlt : p .hlt)
    (h_rcd : p .rcd) (h_c0 : p (.chan a0)) (h : Frame p r s) : Frame p r (stateOf s (execHomingPhaseFail a0 a1 s)) := by
  unfold execHomingPhaseFail
  repeat' with_reducible
    first
    | assumption | refine Frame.gateEngine ?_ ?_ | refine Frame.next ?_ | refine homingFail_frame ?_ ?_ ?_ ?_ ?_
    | refine fallback_frame ?_ ?_ ?_ ?_ ?_ | refine Frame.ite ?_ ?_

theorem execPwrfailAssert_frame {p : Part → Prop} {r s} (h_pwr : p .pwr) (h : Frame p r s) : Frame p r (stateOf s
    (execPwrfailAssert s)) := by
  unfold execPwrfailAssert
  repeat' with_reducible
    first
    | assumption | refine Frame.gate ?_ ?_ | refine Frame.next ?_
    | refine Frame.upd rfl rfl rfl ?_ ?_ ?_ ?_ ?_ ?_ ?_ ?_ ?_ ?_ ?_ ?_ ?_ ?_ ?_ ?_ ?_ ?_ | exact Or.inl rfl
    | exact Or.inr (by assumption)

theorem pwrfailChan_frame {p : Part → Prop} {r a0 s} (h_regs : p .regs) (h_c0 : p (.chan a0)) (h : Frame p r s) : Frame
    p r (pwrfailChan a0 s) := by
  unfold pwrfailChan
  repeat' with_reducible
    first
    | assumption | refine State.putb_frame ?_ ?_ | refine abortWrite_frame ?_ ?_ ?_ | refine State.onWrc_frame ?_ ?_

theorem execPwrfailConfirmed_frame {p : Part → Prop} {r s} (h_regs : p .regs) (h_pwr : p .pwr) (h_all : ∀ k, p (.chan
    k)) (h : Frame p r s) : Frame p r (stateOf s (execPwrfailConfirmed s)) := by
  unfold execPwrfailConfirmed
  repeat' with_reducible
    first
    | assumption | exact h_all _ | refine Frame.gate ?_ ?_ | refine Frame.next ?_ | refine State.putb_frame ?_ ?_
    | refine pwrfailChan_frame ?_ ?_ ?_ | refine Frame.each (fun _ _ _ => ?_) ?_ | refine Frame.ite ?_ ?_
    | refine Frame.upd rfl rfl rfl ?_ ?_ ?_ ?_ ?_ ?_ ?_ ?_ ?_ ?_ ?_ ?_ ?_ ?_ ?_ ?_ ?_ ?_ | exact Or.inl rfl
    | exact Or.inr (by assumption)

theorem powerChan_frame {p : Part → Prop} {r a0 s} (h_regs : p .regs) (h_c0 : p (.chan a0)) (h : Frame p r s) : Frame p
    r (powerChan a0 s) := by
  unfold powerChan
  repeat' with_reducible
    first
    | assumption | refine spnPowerFail_frame ?_ ?_ ?_ | refine stopTransfer_frame ?_ ?_ ?_
    | refine openLoop_frame ?_ ?_ ?_ | refine State.put_frame ?_ ?_ | refine State.onSrv_frame ?_ ?_
    | refine State.onMot_frame ?_ ?_ | refine axSetMode_frame ?_ ?_ ?_ | refine axFlush_frame ?_ ?_ ?_
    | refine State.onDcm_frame ?_ ?_ | refine setMode_frame ?_ ?_ ?_ | refine Frame.each (fun _ _ _ => ?_) ?_
    | refine Frame.ite ?_ ?_

theorem powerBoundary_frame {p : Part → Prop} {r s} (h_regs : p .regs) (h_pwr : p .pwr) (h_all : ∀ k, p (.chan k)) (h :
    Frame p r s) : Frame p r (powerBoundary s) := by
  unfold powerBoundary
  repeat' with_reducible
    first
    | assumption | exact h_all _ | refine powerChan_frame ?_ ?_ ?_ | refine Frame.each (fun _ _ _ => ?_) ?_
    | refine Frame.ite ?_ ?_ | refine Frame.upd rfl rfl rfl ?_ ?_ ?_ ?_ ?_ ?_ ?_ ?_ ?_ ?_ ?_ ?_ ?_ ?_ ?_ ?_ ?_ ?_
    | exact Or.inl rfl | exact Or.inr (by assumption)

theorem execPwrfailDeassert_frame {p : Part → Prop} {r s} (h_regs : p .regs) (h_pwr : p .pwr) (h_all : ∀ k, p (.chan k))
    (h : Frame p r s) : Frame p r (stateOf s (execPwrfailDeassert s)) := by
  unfold execPwrfailDeassert
  repeat' with_reducible
    first
    | assumption | exact h_all _ | refine Frame.gate ?_ ?_ | refine Frame.next ?_ | refine State.putb_frame ?_ ?_
    | refine spnHeld_frame ?_ ?_ ?_ | refine Frame.each (fun _ _ _ => ?_) ?_ | refine Frame.ite ?_ ?_
    | refine Frame.upd rfl rfl rfl ?_ ?_ ?_ ?_ ?_ ?_ ?_ ?_ ?_ ?_ ?_ ?_ ?_ ?_ ?_ ?_ ?_ ?_ | exact Or.inl rfl
    | exact Or.inr (by assumption)

theorem execPwrfailRestart_frame {p : Part → Prop} {r s} (h_regs : p .regs) (h_pwr : p .pwr) (h_all : ∀ k, p (.chan k))
    (h : Frame p r s) : Frame p r (stateOf s (execPwrfailRestart s)) := by
  unfold execPwrfailRestart
  repeat' with_reducible
    first
    | assumption | exact h_all _ | refine Frame.gate ?_ ?_ | refine Frame.next ?_ | refine State.onDcm_frame ?_ ?_
    | refine spnCommand_frame ?_ ?_ ?_ | refine demandSpeed_frame ?_ ?_ | refine Frame.each (fun _ _ _ => ?_) ?_
    | refine Frame.ite ?_ ?_ | refine Frame.upd rfl rfl rfl ?_ ?_ ?_ ?_ ?_ ?_ ?_ ?_ ?_ ?_ ?_ ?_ ?_ ?_ ?_ ?_ ?_ ?_
    | exact Or.inl rfl | exact Or.inr (by assumption)

theorem timebaseChan_frame {p : Part → Prop} {r a0 s} (h_regs : p .regs) (h_locks : p .locks) (h_hlt : p .hlt) (h_c0 : p
    (.chan a0)) (h : Frame p r s) : Frame p r (timebaseChan a0 s) := by
  unfold timebaseChan
  repeat' with_reducible
    first
    | assumption | refine stopTransfer_frame ?_ ?_ ?_ | refine State.onWrc_frame ?_ ?_
    | refine stopChan_frame ?_ ?_ ?_ ?_ ?_ | refine spnCommand_frame ?_ ?_ ?_ | refine frontEnds_frame ?_ ?_ ?_ ?_
    | refine driverDue_frame ?_ ?_ | refine axesOff_frame ?_ ?_ ?_ | refine setMode_frame ?_ ?_ ?_
    | refine State.onDcm_frame ?_ ?_ | refine Frame.ite ?_ ?_

theorem loseTimebase_frame {p : Part → Prop} {r s : State} (h_tb : p .tb) (h : Frame p r s) :
    Frame p r { s with tb := { s.tb with lost := true } } := by
  refine h.trans ⟨?_, rfl, rfl, rfl, rfl, fun _ => rfl, id⟩
  intro q hq
  cases q <;> first | rfl | exact absurd h_tb hq

theorem execTimebaseLost_frame {p : Part → Prop} {r s}  (h_regs : p .regs) (h_tb : p .tb) (h_locks : p .locks) (h_hlt :
    p .hlt) (h_all : ∀ k, p (.chan k)) (h : Frame p r s) :
    Frame p r (stateOf s (execTimebaseLost s)) := by
  unfold execTimebaseLost
  repeat' with_reducible
    first
    | assumption | exact h_all _ | refine Frame.gate ?_ ?_ | refine Frame.next ?_ | refine loseTimebase_frame ?_ ?_
    | refine timebaseChan_frame ?_ ?_ ?_ ?_ ?_ | refine State.fault_frame ?_ ?_ | refine Frame.each (fun _ _ _ => ?_) ?_
    | refine Frame.ite ?_ ?_

end Sys2Proof.Machine
end

