-- ==== Sys2Proof/Laws/FrameData.lean ====
section
/-! SUPPORT. What each operation of ReadChannel, WriteChannel, Disc, Stripe may change (`Frame`). -/

namespace Sys2Proof.Machine

/-! ### ReadChannel -/

theorem showDefects_frame {p : Part → Prop} {r a0 s} (h_regs : p .regs) (h : Frame p r s) : Frame p r (showDefects a0 s)
    := by
  unfold showDefects
  repeat' with_reducible first | assumption | refine State.putb_frame ?_ ?_ | refine Frame.foldl (fun _ _ _ => ?_) ?_

theorem setTaps_frame {p : Part → Prop} {r a0 a1 a2 s} (h_regs : p .regs) (h : Frame p r s) : Frame p r (setTaps a0 a1
    a2 s) := by
  unfold setTaps
  repeat' with_reducible first | assumption | refine State.puti_frame ?_ ?_ | refine Frame.foldl (fun _ _ _ => ?_) ?_

theorem setCoupling_frame {p : Part → Prop} {r a0 a1 a2 a3 s} (h_regs : p .regs) (h : Frame p r s) : Frame p r
    (setCoupling a0 a1 a2 a3 s) := by
  unfold setCoupling
  repeat' with_reducible first | assumption | refine State.puti_frame ?_ ?_

theorem noteClip_frame {p : Part → Prop} {r a0 a1 a2 s} (h_regs : p .regs) (h : Frame p r s) : Frame p r (noteClip a0 a1
    a2 s) := by
  unfold noteClip
  repeat' with_reducible first | assumption | refine State.putb_frame ?_ ?_ | refine Frame.ite ?_ ?_

theorem rowEqualise_frame {p : Part → Prop} {r a0 a1 a2 a3 a4 a5 a6 s} (h_regs : p .regs) (h_c0 : p (.chan a0)) (h :
    Frame p r s) : Frame p r (rowEqualise a0 a1 a2 a3 a4 a5 a6 s).2 := by
  unfold rowEqualise
  repeat' with_reducible
    first
    | assumption | lift_lets -underBinder | (intro x; subst x) | refine State.onSig_frame ?_ ?_
    | refine setTaps_frame ?_ ?_ | refine setCoupling_frame ?_ ?_ | split

theorem restartDue_frame {p : Part → Prop} {r a0 s} (h_regs : p .regs) (h_c0 : p (.chan a0)) (h : Frame p r s) : Frame p
    r (restartDue a0 s) := by
  unfold restartDue
  repeat' with_reducible
    first
    | assumption | refine setTaps_frame ?_ ?_ | refine setCoupling_frame ?_ ?_ | refine State.putb_frame ?_ ?_
    | refine State.onRdc_frame ?_ ?_ | refine Frame.foldl (fun _ _ _ => ?_) ?_ | refine Frame.ite ?_ ?_

theorem gainStep_frame {p : Part → Prop} {r a0 a1 a2 a3 s} (h_regs : p .regs) (h : Frame p r s) : Frame p r (gainStep a0
    a1 a2 a3 s) := by
  unfold gainStep
  repeat' with_reducible first | assumption | refine State.put_frame ?_ ?_ | refine Frame.ite ?_ ?_

theorem alignMeas_frame {p : Part → Prop} {r a0 a1 a2 s} (h_regs : p .regs) (h_hlt : p .hlt) (h_rcd : p .rcd) (h_c0 : p
    (.chan a0)) (h : Frame p r s) : Frame p r (alignMeas a0 a1 a2 s) := by
  unfold alignMeas
  repeat' with_reducible
    first
    | assumption | refine State.onSig_frame ?_ ?_ | refine State.put_frame ?_ ?_ | refine State.putb_frame ?_ ?_
    | refine State.onTile_frame ?_ ?_ | refine State.faultCh_frame ?_ ?_ ?_ ?_ | refine State.raise_frame ?_ ?_
    | refine Frame.ite ?_ ?_

theorem delayStep_frame {p : Part → Prop} {r a0 a1 s} (h_regs : p .regs) (h : Frame p r s) : Frame p r (delayStep a0 a1
    s) := by
  unfold delayStep
  repeat' with_reducible first | assumption | refine State.put_frame ?_ ?_ | refine Frame.ite ?_ ?_

theorem sigBoundary_frame {p : Part → Prop} {r a0 a1 a2 s} (h_regs : p .regs) (h_hlt : p .hlt) (h_rcd : p .rcd) (h_c0 :
    p (.chan a0)) (h : Frame p r s) : Frame p r (sigBoundary a0 a1 a2 s) := by
  unfold sigBoundary
  repeat' with_reducible
    first
    | assumption | refine State.putb_frame ?_ ?_ | refine gainStep_frame ?_ ?_ | refine delayStep_frame ?_ ?_
    | refine State.put_frame ?_ ?_ | refine alignMeas_frame ?_ ?_ ?_ ?_ ?_ | split

theorem writeBegin_frame {p : Part → Prop} {r a0 s} (h_regs : p .regs) (h_c0 : p (.chan a0)) (h : Frame p r s) : Frame p
    r (writeBegin a0 s) := by
  unfold writeBegin
  repeat' with_reducible
    first
    | assumption | refine State.put_frame ?_ ?_ | refine State.onWrc_frame ?_ ?_ | refine Frame.ite ?_ ?_

theorem wedgeWrites_frame {p : Part → Prop} {r a0 s} (h_c0 : p (.chan a0)) (h : Frame p r s) : Frame p r (wedgeWrites a0
    s).2 := by
  unfold wedgeWrites
  repeat' with_reducible first | assumption | refine State.onRdc_frame ?_ ?_

theorem newSlotSignals_frame {p : Part → Prop} {r a0 s} (h_c0 : p (.chan a0)) (h : Frame p r s) : Frame p r
    (newSlotSignals a0 s) := by
  unfold newSlotSignals
  repeat' with_reducible
    first
    | assumption | refine State.onSig_frame ?_ ?_ | refine State.onRdc_frame ?_ ?_
    | refine Frame.foldl (fun _ _ _ => ?_) ?_

theorem slotBoundary_frame {p : Part → Prop} {r a0 s} (h_regs : p .regs) (h_c0 : p (.chan a0)) (h : Frame p r s) : Frame
    p r (slotBoundary a0 s) := by
  unfold slotBoundary
  repeat' with_reducible
    first
    | assumption | refine State.onRdc_frame ?_ ?_ | refine setLadder_frame ?_ ?_ | refine newSlotSignals_frame ?_ ?_
    | refine jumpBack_frame ?_ ?_ ?_ | refine Frame.ite ?_ ?_

theorem wedgeBoundaryRest_frame {p : Part → Prop} {r a0 a1 s} (h_regs : p .regs) (h_hlt : p .hlt) (h_rcd : p .rcd) (h_c0
    : p (.chan a0)) (h : Frame p r s) : Frame p r (wedgeBoundaryRest a0 a1 s) := by
  unfold wedgeBoundaryRest
  repeat' with_reducible
    first
    | assumption | refine restartDue_frame ?_ ?_ ?_ | refine sigBoundary_frame ?_ ?_ ?_ ?_ ?_
    | refine State.onRdc_frame ?_ ?_ | refine State.onDcm_frame ?_ ?_ | refine State.onSrv_frame ?_ ?_
    | refine writeBegin_frame ?_ ?_ ?_ | refine slotBoundary_frame ?_ ?_ ?_ | refine Frame.foldl (fun _ _ _ => ?_) ?_
    | split

theorem armFail_frame {p : Part → Prop} {r a0 s} (h_regs : p .regs) (h_rcd : p .rcd) (h_c0 : p (.chan a0)) (h : Frame p
    r s) : Frame p r (armFail a0 s) := by
  unfold armFail
  repeat' with_reducible
    first
    | assumption | refine State.bump_frame ?_ ?_ | refine State.onAcc_frame ?_ ?_ | refine State.onSrv_frame ?_ ?_

theorem rereadStart_frame {p : Part → Prop} {r a0 a1 s} (h_c0 : p (.chan a0)) (h : Frame p r s) : Frame p r (rereadStart
    a0 a1 s) := by
  unfold rereadStart
  repeat' with_reducible first | assumption | refine State.onRdc_frame ?_ ?_

theorem ladderTick_frame {p : Part → Prop} {r a0 a1 s} (h_regs : p .regs) (h : Frame p r s) : Frame p r (ladderTick a0
    a1 s) := by
  unfold ladderTick
  repeat' with_reducible first | assumption | refine setLadder_frame ?_ ?_ | split

theorem readStart_frame {p : Part → Prop} {r a0 a1 a2 s} (h_c0 : p (.chan a0)) (h : Frame p r s) : Frame p r (readStart
    a0 a1 a2 s) := by
  unfold readStart
  repeat' with_reducible first | assumption | refine State.onRdc_frame ?_ ?_

theorem execTileReadStart_frame {p : Part → Prop} {r a0 a1 s} (h_regs : p .regs) (h_rcd : p .rcd) (h_c0 : p (.chan a0))
    (h : Frame p r s) : Frame p r (stateOf s (execTileReadStart a0 a1 s)) := by
  unfold execTileReadStart
  repeat' with_reducible
    first
    | assumption | refine Frame.gate ?_ ?_ | refine Frame.next ?_ | refine rereadStart_frame ?_ ?_
    | refine armFail_frame ?_ ?_ ?_ ?_ | refine readStart_frame ?_ ?_ | split

theorem pllSteps_frame {p : Part → Prop} {r a0 a1 a2 a3 s} (h_regs : p .regs) (h_c0 : p (.chan a0)) (h : Frame p r s) :
    Frame p r (pllSteps a0 a1 a2 a3 s) := by
  unfold pllSteps
  repeat' with_reducible
    first
    | assumption | refine State.onSig_frame ?_ ?_ | refine State.put_frame ?_ ?_ | refine State.puti_frame ?_ ?_
    | refine State.putb_frame ?_ ?_ | refine Frame.ite ?_ ?_

theorem pllPreamble_frame {p : Part → Prop} {r a0 a1 a2 s} (h_regs : p .regs) (h_c0 : p (.chan a0)) (h : Frame p r s) :
    Frame p r (pllPreamble a0 a1 a2 s) := by
  unfold pllPreamble
  repeat' with_reducible
    first
    | assumption | refine pllSteps_frame ?_ ?_ ?_ | refine State.onSig_frame ?_ ?_ | refine State.putb_frame ?_ ?_
    | refine Frame.ite ?_ ?_

theorem wedgeFound_frame {p : Part → Prop} {r a0 a1 a2 a3 s} (h_regs : p .regs) (h_hlt : p .hlt) (h_rcd : p .rcd) (h_c0
    : p (.chan a0)) (h : Frame p r s) : Frame p r (wedgeFound a0 a1 a2 a3 s) := by
  unfold wedgeFound
  repeat' with_reducible
    first
    | assumption | refine State.onSig_frame ?_ ?_ | refine State.put_frame ?_ ?_ | refine State.putb_frame ?_ ?_
    | refine State.onTile_frame ?_ ?_ | refine alignMeas_frame ?_ ?_ ?_ ?_ ?_ | split

theorem placement_frame {p : Part → Prop} {r a0 a1 s} (h_regs : p .regs) (h_c0 : p (.chan a0)) (h : Frame p r s) : Frame
    p r (placement a0 a1 s) := by
  unfold placement
  repeat' with_reducible
    first
    | assumption | refine State.puti_frame ?_ ?_ | refine State.onWrc_frame ?_ ?_ | refine State.bump_frame ?_ ?_
    | refine Frame.ite ?_ ?_

theorem execWedgeSync_frame {p : Part → Prop} {r a0 a1 a2 s} (h_regs : p .regs) (h_hlt : p .hlt) (h_rcd : p .rcd) (h_c0
    : p (.chan a0)) (h : Frame p r s) : Frame p r (stateOf s (execWedgeSync a0 a1 a2 s)) := by
  unfold execWedgeSync
  repeat' with_reducible
    first
    | assumption | refine Frame.gate ?_ ?_ | refine Frame.next ?_ | refine noteClip_frame ?_ ?_
    | refine pllPreamble_frame ?_ ?_ ?_ | refine placement_frame ?_ ?_ ?_ | refine wedgeFound_frame ?_ ?_ ?_ ?_ ?_
    | refine State.bump_frame ?_ ?_ | refine State.onSig_frame ?_ ?_ | split

theorem rowOpen_frame {p : Part → Prop} {r a0 a1 s} (h_regs : p .regs) (h_c0 : p (.chan a0)) (h : Frame p r s) : Frame p
    r (rowOpen a0 a1 s) := by
  unfold rowOpen
  repeat' with_reducible
    first
    | assumption | lift_lets -underBinder | (intro x; subst x) | refine State.onTile_frame ?_ ?_
    | refine State.raise_frame ?_ ?_ | refine State.bump_frame ?_ ?_ | split

theorem insertedCount_frame {p : Part → Prop} {r a0 a1 a2 s} (h_regs : p .regs) (h_c0 : p (.chan a0)) (h : Frame p r s)
    : Frame p r (insertedCount a0 a1 a2 s) := by
  unfold insertedCount
  repeat' with_reducible
    first
    | assumption | refine State.onSig_frame ?_ ?_ | refine State.bump_frame ?_ ?_ | refine State.putb_frame ?_ ?_
    | refine State.raise_frame ?_ ?_ | refine State.onTile_frame ?_ ?_ | refine Frame.ite ?_ ?_

theorem execSectorSync_frame {p : Part → Prop} {r a0 a1 a2 a3 s} (h_regs : p .regs) (h_c0 : p (.chan a0)) (h : Frame p r
    s) : Frame p r (stateOf s (execSectorSync a0 a1 a2 a3 s)) := by
  unfold execSectorSync
  repeat' with_reducible
    first
    | assumption | lift_lets -underBinder | (intro x; subst x) | refine Frame.gate ?_ ?_ | refine Frame.next ?_
    | refine noteClip_frame ?_ ?_ | refine rowOpen_frame ?_ ?_ ?_ | refine State.onTile_frame ?_ ?_
    | refine State.onSig_frame ?_ ?_ | refine State.bump_frame ?_ ?_ | refine insertedCount_frame ?_ ?_ ?_ | split

theorem execDefectSpanStart_frame {p : Part → Prop} {r a0 a1 a2 a3 s} (h_regs : p .regs) (h_c0 : p (.chan a0)) (h :
    Frame p r s) : Frame p r (stateOf s (execDefectSpanStart a0 a1 a2 a3 s)) := by
  unfold execDefectSpanStart
  repeat' with_reducible
    first
    | assumption | refine Frame.gate ?_ ?_ | refine Frame.next ?_ | refine State.put_frame ?_ ?_
    | refine State.onSig_frame ?_ ?_ | refine showDefects_frame ?_ ?_ | refine State.bump_frame ?_ ?_
    | refine Frame.ite ?_ ?_

theorem execDefectSpanEnd_frame {p : Part → Prop} {r a0 a1 a2 a3 s} (h_regs : p .regs) (h_c0 : p (.chan a0)) (h : Frame
    p r s) : Frame p r (stateOf s (execDefectSpanEnd a0 a1 a2 a3 s)) := by
  unfold execDefectSpanEnd
  repeat' with_reducible
    first
    | assumption | refine Frame.gate ?_ ?_ | refine Frame.next ?_ | refine State.put_frame ?_ ?_
    | refine showDefects_frame ?_ ?_ | refine State.onSig_frame ?_ ?_ | refine Frame.ite ?_ ?_

theorem execDropoutStart_frame {p : Part → Prop} {r a0 a1 a2 a3 s} (h_regs : p .regs) (h_c0 : p (.chan a0)) (h : Frame p
    r s) : Frame p r (stateOf s (execDropoutStart a0 a1 a2 a3 s)) := by
  unfold execDropoutStart
  repeat' with_reducible
    first
    | assumption | refine Frame.gate ?_ ?_ | refine Frame.next ?_ | refine State.put_frame ?_ ?_
    | refine showDefects_frame ?_ ?_ | refine State.onSig_frame ?_ ?_ | refine Frame.ite ?_ ?_

theorem execDropoutEnd_frame {p : Part → Prop} {r a0 a1 a2 a3 s} (h_regs : p .regs) (h_c0 : p (.chan a0)) (h : Frame p r
    s) : Frame p r (stateOf s (execDropoutEnd a0 a1 a2 a3 s)) := by
  unfold execDropoutEnd
  repeat' with_reducible
    first
    | assumption | refine Frame.gate ?_ ?_ | refine Frame.next ?_ | refine State.put_frame ?_ ?_
    | refine showDefects_frame ?_ ?_ | refine State.onSig_frame ?_ ?_ | refine Frame.ite ?_ ?_

theorem onWhich_frame {p : Part → Prop} {r a0 a1 a2 s} (h_c0 : p (.chan a0)) (h : Frame p r s) : Frame p r (onWhich a0
    a1 a2 s) := by
  unfold onWhich
  repeat' with_reducible first | assumption | refine State.onRdc_frame ?_ ?_

theorem cutRow_frame {p : Part → Prop} {r a0 a1 a2 s} (h_regs : p .regs) (h_c0 : p (.chan a0)) (h : Frame p r s) : Frame
    p r (cutRow a0 a1 a2 s) := by
  unfold cutRow
  repeat' with_reducible first | assumption | refine onWhich_frame ?_ ?_ | refine State.bump_frame ?_ ?_ | split

theorem queueRoom_frame {p : Part → Prop} {r a0 s} (h_regs : p .regs) (h_c0 : p (.chan a0)) (h : Frame p r s) : Frame p
    r (queueRoom a0 s) := by
  unfold queueRoom
  repeat' with_reducible
    first
    | assumption | lift_lets -underBinder | (intro x; subst x) | refine State.onRdc_frame ?_ ?_
    | refine cutRow_frame ?_ ?_ ?_ | split

theorem rowSlots_frame {p : Part → Prop} {r a0 a1 a2 s} (h_regs : p .regs) (h_c0 : p (.chan a0)) (h : Frame p r s) :
    Frame p r (rowSlots a0 a1 a2 s) := by
  unfold rowSlots
  repeat' with_reducible
    first
    | assumption | lift_lets -underBinder | (intro x; subst x) | refine State.bump_frame ?_ ?_
    | refine onWhich_frame ?_ ?_ | refine Frame.foldl (fun _ _ _ => ?_) ?_ | split

theorem rowWritten_frame {p : Part → Prop} {r a0 a1 s} (h_regs : p .regs) (h_c0 : p (.chan a0)) (h : Frame p r s) :
    Frame p r (rowWritten a0 a1 s) := by
  unfold rowWritten
  repeat' with_reducible first | assumption | refine State.onWrc_frame ?_ ?_ | refine State.put_frame ?_ ?_ | split

theorem rowStore_frame {p : Part → Prop} {r a0 a1 a2 a3 a4 s} (h_regs : p .regs) (h_c0 : p (.chan a0)) (h : Frame p r s)
    : Frame p r (rowStore a0 a1 a2 a3 a4 s) := by
  unfold rowStore
  repeat' with_reducible
    first
    | assumption | refine rowEqualise_frame ?_ ?_ ?_ | refine onWhich_frame ?_ ?_
    | refine Frame.foldlSnd (fun _ _ _ => ?_) ?_

theorem rowClip_frame {p : Part → Prop} {r a0 a1 s} (h_regs : p .regs) (h : Frame p r s) : Frame p r (rowClip a0 a1 s)
    := by
  unfold rowClip
  repeat' with_reducible first | assumption | refine noteClip_frame ?_ ?_ | refine Frame.foldl (fun _ _ _ => ?_) ?_

theorem execSectorRowComplete_frame {p : Part → Prop} {r a0 a1 a2 s} (h_regs : p .regs) (h_c0 : p (.chan a0)) (h : Frame
    p r s) : Frame p r (stateOf s (execSectorRowComplete a0 a1 a2 s)) := by
  unfold execSectorRowComplete
  repeat' with_reducible
    first
    | assumption | refine Frame.gate ?_ ?_ | refine Frame.next ?_ | refine rowStore_frame ?_ ?_ ?_
    | refine rowClip_frame ?_ ?_ | refine pllSteps_frame ?_ ?_ ?_ | refine queueRoom_frame ?_ ?_ ?_
    | refine rowSlots_frame ?_ ?_ ?_ | refine onWhich_frame ?_ ?_ | refine rowWritten_frame ?_ ?_ ?_
    | refine Frame.foldl (fun _ _ _ => ?_) ?_ | split

theorem syncWon_frame {p : Part → Prop} {r a0 a1 a2 a3 a4 s} (h_regs : p .regs) (h_c0 : p (.chan a0)) (h : Frame p r s)
    : Frame p r (syncWon a0 a1 a2 a3 a4 s) := by
  unfold syncWon
  repeat' with_reducible first | assumption | refine State.onSig_frame ?_ ?_ | refine State.bump_frame ?_ ?_ | split

theorem execLdpcDecodeDone_frame {p : Part → Prop} {r a0 a1 a2 s} (h_regs : p .regs) (h_c0 : p (.chan a0)) (h : Frame p
    r s) : Frame p r (stateOf s (execLdpcDecodeDone a0 a1 a2 s)) := by
  unfold execLdpcDecodeDone
  repeat' with_reducible
    first
    | assumption | lift_lets -underBinder | (intro x; subst x) | refine Frame.gate ?_ ?_ | refine Frame.next ?_
    | refine syncWon_frame ?_ ?_ ?_ | refine State.bump_frame ?_ ?_ | refine onWhich_frame ?_ ?_ | split

theorem queueReloc_frame {p : Part → Prop} {r a0 a1 a2 a3 s} (h_regs : p .regs) (h_c0 : p (.chan a0)) (h : Frame p r s)
    : Frame p r (queueReloc a0 a1 a2 a3 s) := by
  unfold queueReloc
  repeat' with_reducible
    first
    | assumption | refine showReloc_frame ?_ ?_ | refine State.onWrc_frame ?_ ?_ | refine State.bump_frame ?_ ?_
    | refine Frame.ite ?_ ?_

theorem scheduleReloc_frame {p : Part → Prop} {r a0 a1 s} (h_regs : p .regs) (h_c0 : p (.chan a0)) (h : Frame p r s) :
    Frame p r (scheduleReloc a0 a1 s).2 := by
  unfold scheduleReloc
  repeat' with_reducible
    first
    | assumption | refine State.bump_frame ?_ ?_ | refine queueReloc_frame ?_ ?_ ?_
    | refine Frame.foldl (fun _ _ _ => ?_) ?_ | refine Frame.ite ?_ ?_

theorem tileStatus_frame {p : Part → Prop} {r a0 a1 a2 a3 a4 s} (h_regs : p .regs) (h : Frame p r s) : Frame p r
    (tileStatus a0 a1 a2 a3 a4 s) := by
  unfold tileStatus
  repeat' with_reducible first | assumption | refine State.put_frame ?_ ?_

theorem finishTile_frame {p : Part → Prop} {r a0 a1 a2 a3 s} (h_regs : p .regs) (h_locks : p .locks) (h_hlt : p .hlt)
    (h_rcd : p .rcd) (h_c0 : p (.chan a0)) (h : Frame p r s) : Frame p r (finishTile a0 a1 a2 a3 s) := by
  unfold finishTile
  repeat' with_reducible
    first
    | assumption | refine scheduleReloc_frame ?_ ?_ ?_ | refine tileStatus_frame ?_ ?_
    | refine State.faultCh_frame ?_ ?_ ?_ ?_ | refine State.raise_frame ?_ ?_ | refine State.bump_frame ?_ ?_
    | refine State.onDcm_frame ?_ ?_ | refine ladderMarginEnd_frame ?_ ?_ ?_ ?_ ?_ | refine State.onRdc_frame ?_ ?_
    | split

theorem attemptStart_frame {p : Part → Prop} {r a0 a1 s} (h_regs : p .regs) (h_locks : p .locks) (h_hlt : p .hlt) (h_c0
    : p (.chan a0)) (h : Frame p r s) : Frame p r (attemptStart a0 a1 s) := by
  unfold attemptStart
  repeat' with_reducible
    first
    | assumption | refine restartAll_frame ?_ ?_ ?_ ?_ | refine State.onRdc_frame ?_ ?_ | refine jumpBack_frame ?_ ?_ ?_
    | refine Frame.ite ?_ ?_

theorem enterRung_frame {p : Part → Prop} {r c t u er n k s}  (h_regs : p .regs) (h_locks : p .locks) (h_hlt : p .hlt)
    (h_rcd : p .rcd) (h_c0 : p (.chan c)) (h : Frame p r s) :
    Frame p r (enterRung c t u er n k s) := by
  induction n generalizing t k s with
  | zero => unfold enterRung; repeat' with_reducible first | assumption | refine finishTile_frame ?_ ?_ ?_ ?_ ?_ ?_
  | succ n ih =>
    unfold enterRung
    repeat' with_reducible
      first
      | assumption | refine ih ?_ | refine finishTile_frame ?_ ?_ ?_ ?_ ?_ ?_ | refine State.bump_frame ?_ ?_
      | refine ladderMargin_frame ?_ ?_ ?_ ?_ ?_ | refine attemptStart_frame ?_ ?_ ?_ ?_ ?_
      | refine State.onRdc_frame ?_ ?_ | refine Frame.ite ?_ ?_

theorem outerJudge_frame {p : Part → Prop} {r a0 a1 a2 s} (h_regs : p .regs) (h_locks : p .locks) (h_hlt : p .hlt)
    (h_rcd : p .rcd) (h_c0 : p (.chan a0)) (h : Frame p r s) : Frame p r (outerJudge a0 a1 a2 s) := by
  unfold outerJudge
  repeat' with_reducible
    first
    | assumption | refine finishTile_frame ?_ ?_ ?_ ?_ ?_ ?_ | refine State.onRdc_frame ?_ ?_
    | refine enterRung_frame ?_ ?_ ?_ ?_ ?_ ?_ | refine attemptStart_frame ?_ ?_ ?_ ?_ ?_ | refine Frame.ite ?_ ?_

theorem outerStep_frame {p : Part → Prop} {r c t s}  (h_regs : p .regs) (h_locks : p .locks) (h_hlt : p .hlt) (h_rcd : p
    .rcd) (h_c0 : p (.chan c)) (h : Frame p r s) : Frame p r (outerStep c t s) :=
  outerJudge_frame h_regs h_locks h_hlt h_rcd h_c0 h

theorem execOuterDecodeDone_frame {p : Part → Prop} {r a0 s} (h_regs : p .regs) (h_locks : p .locks) (h_hlt : p .hlt)
    (h_rcd : p .rcd) (h_c0 : p (.chan a0)) (h : Frame p r s) : Frame p r (stateOf s (execOuterDecodeDone a0 s)) := by
  unfold execOuterDecodeDone
  repeat' with_reducible
    first
    | assumption | refine Frame.gate ?_ ?_ | refine Frame.next ?_ | refine outerStep_frame ?_ ?_ ?_ ?_ ?_ ?_
    | refine State.onRdc_frame ?_ ?_ | split

theorem mergeAttempt_frame {p : Part → Prop} {r a0 a1 s} (h_regs : p .regs) (h : Frame p r s) : Frame p r (mergeAttempt
    a0 a1 s).2 := by
  unfold mergeAttempt
  repeat' with_reducible
    first
    | assumption | lift_lets -underBinder | (intro x; subst x) | refine State.bump_frame ?_ ?_
    | refine Frame.foldlSnd (fun _ _ _ => ?_) ?_ | split

theorem execLadderReread_frame {p : Part → Prop} {r a0 s} (h_regs : p .regs) (h_locks : p .locks) (h_hlt : p .hlt)
    (h_rcd : p .rcd) (h_c0 : p (.chan a0)) (h : Frame p r s) : Frame p r (stateOf s (execLadderReread a0 s)) := by
  unfold execLadderReread
  repeat' with_reducible
    first
    | assumption | lift_lets -underBinder | (intro x; subst x) | refine Frame.gate ?_ ?_ | refine Frame.next ?_
    | refine mergeAttempt_frame ?_ ?_ | refine outerStep_frame ?_ ?_ ?_ ?_ ?_ ?_ | split

/-! ### WriteChannel -/

theorem linkFail_frame {p : Part → Prop} {r a0 s} (h_regs : p .regs) (h_hlt : p .hlt) (h_rcd : p .rcd) (h_c0 : p (.chan
    a0)) (h : Frame p r s) : Frame p r (linkFail a0 s) := by
  unfold linkFail
  repeat' with_reducible
    first
    | assumption | refine State.putb_frame ?_ ?_ | refine State.faultCh_frame ?_ ?_ ?_ ?_
    | refine State.raise_frame ?_ ?_ | refine abortWrite_frame ?_ ?_ ?_

theorem statusByte_frame {p : Part → Prop} {r a0 a1 s} (h_regs : p .regs) (h_hlt : p .hlt) (h_rcd : p .rcd) (h_c0 : p
    (.chan a0)) (h : Frame p r s) : Frame p r (statusByte a0 a1 s) := by
  unfold statusByte
  repeat' with_reducible
    first
    | assumption | refine State.put_frame ?_ ?_ | refine abortWrite_frame ?_ ?_ ?_ | refine State.onWrc_frame ?_ ?_
    | refine linkFail_frame ?_ ?_ ?_ ?_ ?_ | refine Frame.ite ?_ ?_

theorem frameDone_frame {p : Part → Prop} {r a0 a1 s} (h_c0 : p (.chan a0)) (h : Frame p r s) : Frame p r (frameDone a0
    a1 s) := by
  unfold frameDone
  repeat' with_reducible first | assumption | refine State.onWrc_frame ?_ ?_ | refine Frame.ite ?_ ?_

theorem execDriverFrame_frame {p : Part → Prop} {r a0 a1 s} (h_regs : p .regs) (h_hlt : p .hlt) (h_rcd : p .rcd) (h_c0 :
    p (.chan a0)) (h : Frame p r s) : Frame p r (stateOf s (execDriverFrame a0 a1 s)) := by
  unfold execDriverFrame
  repeat' with_reducible
    first
    | assumption | lift_lets -underBinder | (intro x; subst x) | refine Frame.gate ?_ ?_ | refine Frame.next ?_
    | refine State.onWrc_frame ?_ ?_ | refine statusByte_frame ?_ ?_ ?_ ?_ ?_ | refine State.putb_frame ?_ ?_
    | refine frameDone_frame ?_ ?_ | refine linkFail_frame ?_ ?_ ?_ ?_ ?_ | refine State.bump_frame ?_ ?_ | split

theorem execDriverStatusPoll_frame {p : Part → Prop} {r a0 s} (h_c0 : p (.chan a0)) (h : Frame p r s) : Frame p r
    (stateOf s (execDriverStatusPoll a0 s)) := by
  unfold execDriverStatusPoll
  repeat' with_reducible
    first
    | assumption | refine Frame.gate ?_ ?_ | refine Frame.next ?_ | refine State.onWrc_frame ?_ ?_
    | refine Frame.ite ?_ ?_

theorem execBankSwap_frame {p : Part → Prop} {r a0 s} (h_regs : p .regs) (h_c0 : p (.chan a0)) (h : Frame p r s) : Frame
    p r (stateOf s (execBankSwap a0 s)) := by
  unfold execBankSwap
  repeat' with_reducible
    first
    | assumption | refine Frame.gate ?_ ?_ | refine Frame.next ?_ | refine State.onWrc_frame ?_ ?_
    | refine State.puti_frame ?_ ?_ | refine levelFrames_frame ?_ ?_ | refine State.putb_frame ?_ ?_
    | refine Frame.each (fun _ _ _ => ?_) ?_ | refine Frame.ite ?_ ?_

theorem execApcUpdate_frame {p : Part → Prop} {r a0 a1 a2 a3 s} (h_regs : p .regs) (h : Frame p r s) : Frame p r
    (stateOf s (execApcUpdate a0 a1 a2 a3 s)) := by
  unfold execApcUpdate
  repeat' with_reducible
    first
    | assumption | refine Frame.gate ?_ ?_ | refine Frame.next ?_ | refine State.put_frame ?_ ?_
    | refine State.raise_frame ?_ ?_ | refine Frame.ite ?_ ?_

theorem execRapcUpdate_frame {p : Part → Prop} {r a0 a1 s} (h_regs : p .regs) (h_c0 : p (.chan a0)) (h : Frame p r s) :
    Frame p r (stateOf s (execRapcUpdate a0 a1 s)) := by
  unfold execRapcUpdate
  repeat' with_reducible
    first
    | assumption | refine Frame.gate ?_ ?_ | refine Frame.next ?_ | refine State.put_frame ?_ ?_
    | refine State.raise_frame ?_ ?_ | refine driverDue_frame ?_ ?_ | refine State.onWrc_frame ?_ ?_
    | refine Frame.ite ?_ ?_

theorem rpcBeam_frame {p : Part → Prop} {r a0 a1 a2 s} (h_regs : p .regs) (h_hlt : p .hlt) (h_rcd : p .rcd) (h_c0 : p
    (.chan a0)) (h : Frame p r s) : Frame p r (rpcBeam a0 a1 a2 s) := by
  unfold rpcBeam
  repeat' with_reducible
    first
    | assumption | refine State.put_frame ?_ ?_ | refine State.puti_frame ?_ ?_ | refine State.faultCh_frame ?_ ?_ ?_ ?_
    | refine State.raise_frame ?_ ?_ | refine State.onWrc_frame ?_ ?_ | refine Frame.ite ?_ ?_

theorem rpcTile_frame {p : Part → Prop} {r a0 a1 s} (h_regs : p .regs) (h_hlt : p .hlt) (h_rcd : p .rcd) (h_c0 : p
    (.chan a0)) (h : Frame p r s) : Frame p r (rpcTile a0 a1 s) := by
  unfold rpcTile
  repeat' with_reducible
    first
    | assumption | refine rpcBeam_frame ?_ ?_ ?_ ?_ ?_ | refine Frame.each (fun _ _ _ => ?_) ?_

theorem writeStart_frame {p : Part → Prop} {r a0 a1 s} (h_regs : p .regs) (h_c0 : p (.chan a0)) (h : Frame p r s) :
    Frame p r (writeStart a0 a1 s) := by
  unfold writeStart
  repeat' with_reducible
    first
    | assumption | refine State.onWrc_frame ?_ ?_ | refine State.onRdc_frame ?_ ?_ | refine State.put_frame ?_ ?_

theorem execTileWriteStart_frame {p : Part → Prop} {r a0 a1 s} (h_regs : p .regs) (h_rcd : p .rcd) (h_c0 : p (.chan a0))
    (h : Frame p r s) : Frame p r (stateOf s (execTileWriteStart a0 a1 s)) := by
  unfold execTileWriteStart
  repeat' with_reducible
    first
    | assumption | refine Frame.gate ?_ ?_ | refine Frame.next ?_ | refine jumpBack_frame ?_ ?_ ?_
    | refine State.bump_frame ?_ ?_ | refine armFail_frame ?_ ?_ ?_ ?_ | refine writeStart_frame ?_ ?_ ?_ | split

theorem spareFullRaise_frame {p : Part → Prop} {r a0 a1 a2 s} (h_regs : p .regs) (h_hlt : p .hlt) (h_rcd : p .rcd) (h_c0
    : p (.chan a0)) (h : Frame p r s) : Frame p r (spareFullRaise a0 a1 a2 s) := by
  unfold spareFullRaise
  repeat' with_reducible
    first
    | assumption | refine State.onWrc_frame ?_ ?_ | refine State.faultCh_frame ?_ ?_ ?_ ?_
    | refine State.raise_frame ?_ ?_ | refine Frame.ite ?_ ?_

theorem spareJudged_frame {p : Part → Prop} {r a0 a1 a2 a3 s} (h_regs : p .regs) (h_c0 : p (.chan a0)) (h : Frame p r s)
    : Frame p r (spareJudged a0 a1 a2 a3 s) := by
  unfold spareJudged
  repeat' with_reducible
    first
    | assumption | refine State.bump_frame ?_ ?_ | refine State.onDcm_frame ?_ ?_ | refine showReloc_frame ?_ ?_
    | refine State.onWrc_frame ?_ ?_

theorem judgeTile_frame {p : Part → Prop} {r a0 a1 a2 s} (h_regs : p .regs) (h_hlt : p .hlt) (h_rcd : p .rcd) (h_c0 : p
    (.chan a0)) (h : Frame p r s) : Frame p r (judgeTile a0 a1 a2 s) := by
  unfold judgeTile
  repeat' with_reducible
    first
    | assumption | refine State.bump_frame ?_ ?_ | refine vlogAdd_frame ?_ ?_ ?_
    | refine spareFullRaise_frame ?_ ?_ ?_ ?_ ?_ | refine State.onWrc_frame ?_ ?_ | refine spareJudged_frame ?_ ?_ ?_
    | refine showReloc_frame ?_ ?_ | refine State.raise_frame ?_ ?_ | refine State.faultCh_frame ?_ ?_ ?_ ?_
    | refine rpcTile_frame ?_ ?_ ?_ ?_ ?_ | refine Frame.ite ?_ ?_

theorem execTileVerifyJudge_frame {p : Part → Prop} {r a0 s} (h_regs : p .regs) (h_hlt : p .hlt) (h_rcd : p .rcd) (h_c0
    : p (.chan a0)) (h : Frame p r s) : Frame p r (stateOf s (execTileVerifyJudge a0 s)) := by
  unfold execTileVerifyJudge
  repeat' with_reducible
    first
    | assumption | lift_lets -underBinder | (intro x; subst x) | refine Frame.gate ?_ ?_ | refine Frame.next ?_
    | refine judgeTile_frame ?_ ?_ ?_ ?_ ?_ | refine State.onWrc_frame ?_ ?_ | refine State.onRdc_frame ?_ ?_ | split

theorem handTile_frame {p : Part → Prop} {r a0 a1 s} (h_c0 : p (.chan a0)) (h : Frame p r s) : Frame p r (handTile a0 a1
    s) := by
  unfold handTile
  repeat' with_reducible first | assumption | refine State.onWrc_frame ?_ ?_

theorem bufferTick_frame {p : Part → Prop} {r a0 a1 s} (h_c0 : p (.chan a0)) (h : Frame p r s) : Frame p r (bufferTick
    a0 a1 s) := by
  unfold bufferTick
  repeat' with_reducible first | assumption | refine State.onWrc_frame ?_ ?_

theorem safeClrEffect_frame {p : Part → Prop} {r a0 s} (h_regs : p .regs) (h : Frame p r s) : Frame p r (safeClrEffect
    a0 s) := by
  unfold safeClrEffect
  repeat' with_reducible first | assumption | refine State.putb_frame ?_ ?_ | refine Frame.ite ?_ ?_

theorem wrcCtlEffect_frame {p : Part → Prop} {r a0 a1 s} (h_regs : p .regs) (h : Frame p r s) : Frame p r (wrcCtlEffect
    a0 a1 s) := by
  unfold wrcCtlEffect
  repeat' with_reducible
    first
    | assumption | refine State.clearAll_frame ?_ ?_ | refine safeClrEffect_frame ?_ ?_ | refine Frame.ite ?_ ?_

/-! ### Disc -/

theorem setDisc_frame {p : Part → Prop} {r a0 a1 s} (h_regs : p .regs) (h : Frame p r s) : Frame p r (setDisc a0 a1 s)
    := by
  unfold setDisc
  repeat' with_reducible first | assumption | refine State.put_frame ?_ ?_

theorem setLoaded_frame {p : Part → Prop} {r a0 a1 s} (h_regs : p .regs) (h_locks : p .locks) (h_hlt : p .hlt) (h :
    Frame p r s) : Frame p r (setLoaded a0 a1 s) := by
  unfold setLoaded
  repeat' with_reducible first | assumption | refine State.putb_frame ?_ ?_ | refine State.seqPut_frame ?_ ?_ ?_ ?_

theorem setBlank_frame {p : Part → Prop} {r a0 a1 a2 a3 a4 s} (h_c0 : p (.chan a0)) (h : Frame p r s) : Frame p r
    (setBlank a0 a1 a2 a3 a4 s) := by
  unfold setBlank
  repeat' with_reducible first | assumption | refine State.onDcm_frame ?_ ?_

theorem placeMeta_frame {p : Part → Prop} {r c f blocks s}  (h_c0 : p (.chan c)) (h : Frame p r s) :
    Frame p r (placeMeta c f blocks s) := by
  induction f generalizing blocks s with
  | zero => exact h
  | succ f ih =>
    unfold placeMeta
    repeat' with_reducible
      first
      | assumption | refine ih ?_ | refine setBlank_frame ?_ ?_ | refine State.onDcm_frame ?_ ?_ | split

theorem putMeta_frame {p : Part → Prop} {r a0 a1 s} (h_c0 : p (.chan a0)) (h : Frame p r s) : Frame p r (putMeta a0 a1
    s) := by
  unfold putMeta
  repeat' with_reducible first | assumption | refine State.onDcm_frame ?_ ?_ | refine placeMeta_frame ?_ ?_

theorem writeMeta_frame {p : Part → Prop} {r a0 a1 s} (h_c0 : p (.chan a0)) (h : Frame p r s) : Frame p r (writeMeta a0
    a1 s) := by
  unfold writeMeta
  repeat' with_reducible first | assumption | refine State.onDcm_frame ?_ ?_

theorem releaseMeta_frame {p : Part → Prop} {r a0 s} (h_c0 : p (.chan a0)) (h : Frame p r s) : Frame p r (releaseMeta a0
    s) := by
  unfold releaseMeta
  repeat' with_reducible
    first
    | assumption | refine putMeta_frame ?_ ?_ | refine State.onDcm_frame ?_ ?_ | refine Frame.ite ?_ ?_

theorem releaseAll_frame {p : Part → Prop} {r s} (h_all : ∀ k, p (.chan k)) (h : Frame p r s) : Frame p r (releaseAll s)
    := by
  unfold releaseAll
  repeat' with_reducible
    first
    | assumption | exact h_all _ | refine releaseMeta_frame ?_ ?_ | refine Frame.each (fun _ _ _ => ?_) ?_

theorem feedMeta_frame {p : Part → Prop} {r a0 s} (h_c0 : p (.chan a0)) (h : Frame p r s) : Frame p r (feedMeta a0 s) :=
    by
  unfold feedMeta
  repeat' with_reducible first | assumption | refine handTile_frame ?_ ?_ | refine State.onDcm_frame ?_ ?_ | split

theorem takeMeta_frame {p : Part → Prop} {r a0 s} (h_c0 : p (.chan a0)) (h : Frame p r s) : Frame p r (takeMeta a0 s) :=
    by
  unfold takeMeta
  repeat' with_reducible
    first
    | assumption | refine State.onWrc_frame ?_ ?_ | refine State.onDcm_frame ?_ ?_ | refine placeMeta_frame ?_ ?_
    | refine Frame.each (fun _ _ _ => ?_) ?_ | split

theorem serveMeta_frame {p : Part → Prop} {r a0 s} (h_map : p .map) (h_c0 : p (.chan a0)) (h : Frame p r s) : Frame p r
    (serveMeta a0 s) := by
  unfold serveMeta
  repeat' with_reducible
    first
    | assumption | lift_lets -underBinder | (intro x; subst x) | refine takeMeta_frame ?_ ?_
    | refine feedMeta_frame ?_ ?_ | refine releaseMeta_frame ?_ ?_ | refine State.onMap_frame ?_ ?_
    | refine markItems_frame ?_ ?_ | refine State.onDcm_frame ?_ ?_ | split

theorem copiesDone_frame {p : Part → Prop} {r a0 s} (h_str : p .str) (h : Frame p r s) : Frame p r (copiesDone a0 s) :=
    by
  unfold copiesDone
  repeat' with_reducible
    first
    | assumption | refine Frame.upd rfl rfl rfl ?_ ?_ ?_ ?_ ?_ ?_ ?_ ?_ ?_ ?_ ?_ ?_ ?_ ?_ ?_ ?_ ?_ ?_ | exact Or.inl rfl
    | exact Or.inr (by assumption)

theorem writeCheckpoint_frame {p : Part → Prop} {r a0 s} (h_map : p .map) (h_str : p .str) (h_c0 : p (.chan a0)) (h :
    Frame p r s) : Frame p r (writeCheckpoint a0 s) := by
  unfold writeCheckpoint
  repeat' with_reducible
    first
    | assumption | refine copiesDone_frame ?_ ?_ | refine State.onWrc_frame ?_ ?_ | refine State.onMap_frame ?_ ?_
    | refine writeMeta_frame ?_ ?_ | refine State.onDcm_frame ?_ ?_

theorem execMapCheckpointWrite_frame {p : Part → Prop} {r a0 s} (h_map : p .map) (h_str : p .str) (h_c0 : p (.chan a0))
    (h : Frame p r s) : Frame p r (stateOf s (execMapCheckpointWrite a0 s)) := by
  unfold execMapCheckpointWrite
  repeat' with_reducible
    first
    | assumption | refine Frame.gate ?_ ?_ | refine Frame.next ?_ | refine serveMeta_frame ?_ ?_ ?_
    | refine writeCheckpoint_frame ?_ ?_ ?_ ?_ | refine Frame.ite ?_ ?_

theorem execWeltCopyWrite_frame {p : Part → Prop} {r a0 s} (h_map : p .map) (h_str : p .str) (h_c0 : p (.chan a0)) (h :
    Frame p r s) : Frame p r (stateOf s (execWeltCopyWrite a0 s)) := by
  unfold execWeltCopyWrite
  repeat' with_reducible
    first
    | assumption | refine Frame.gate ?_ ?_ | refine Frame.next ?_ | refine serveMeta_frame ?_ ?_ ?_
    | refine writeMeta_frame ?_ ?_ | refine copiesDone_frame ?_ ?_ | refine Frame.ite ?_ ?_

/-! ### Stripe -/

theorem State.onStr_frame {p : Part → Prop} {r s a1} (h_str : p .str) (h : Frame p r s) : Frame p r (State.onStr s a1)
    := by
  unfold State.onStr
  repeat' with_reducible
    first
    | assumption | refine Frame.upd rfl rfl rfl ?_ ?_ ?_ ?_ ?_ ?_ ?_ ?_ ?_ ?_ ?_ ?_ ?_ ?_ ?_ ?_ ?_ ?_ | exact Or.inl rfl
    | exact Or.inr (by assumption)

theorem onSet_frame {p : Part → Prop} {r a0 a1 s} (h_str : p .str) (h : Frame p r s) : Frame p r (onSet a0 a1 s) := by
  unfold onSet
  repeat' with_reducible first | assumption | refine State.onStr_frame ?_ ?_

theorem writeSetRecords_frame {p : Part → Prop} {r a0 a1 s} (h_str : p .str) (h_all : ∀ k, p (.chan k)) (h : Frame p r
    s) : Frame p r (writeSetRecords a0 a1 s) := by
  unfold writeSetRecords
  repeat' with_reducible
    first
    | assumption | exact h_all _ | refine writeMeta_frame ?_ ?_ | refine onSet_frame ?_ ?_
    | refine Frame.each (fun _ _ _ => ?_) ?_ | split

theorem writeSet_frame {p : Part → Prop} {r a0 s} (h_str : p .str) (h_all : ∀ k, p (.chan k)) (h : Frame p r s) : Frame
    p r (writeSet a0 s).2 := by
  unfold writeSet
  repeat' with_reducible
    first
    | assumption | lift_lets -underBinder | (intro x; subst x) | refine State.onStr_frame ?_ ?_
    | refine writeSetRecords_frame ?_ ?_ ?_ | split

theorem excAdd_frame {p : Part → Prop} {r a0 s} (h_regs : p .regs) (h_str : p .str) (h : Frame p r s) : Frame p r
    (excAdd a0 s) := by
  unfold excAdd
  repeat' with_reducible
    first
    | assumption | refine State.onStr_frame ?_ ?_ | refine State.raise_frame ?_ ?_ | refine State.putb_frame ?_ ?_
    | refine Frame.ite ?_ ?_

theorem weltCopies_frame {p : Part → Prop} {r a0 s} (h_str : p .str) (h : Frame p r s) : Frame p r (weltCopies a0 s) :=
    by
  unfold weltCopies
  repeat' with_reducible first | assumption | refine State.onStr_frame ?_ ?_

theorem weltProgram_frame {p : Part → Prop} {r w s t}  (h_regs : p .regs) (h_str : p .str) (e : weltProgram w s = some
    t)
    (h : Frame p r s) : Frame p r t := by
  unfold weltProgram at e
  obtain ⟨k, _, e⟩ := Option.map_eq_some_iff.mp e
  cases e
  repeat' with_reducible
    first
    | assumption | refine State.onStr_frame ?_ ?_ | refine excAdd_frame ?_ ?_ ?_ | refine weltCopies_frame ?_ ?_
    | refine State.put_frame ?_ ?_ | refine State.bump_frame ?_ ?_

theorem weltFull_frame {p : Part → Prop} {r s} (h_regs : p .regs) (h : Frame p r s) : Frame p r (weltFull s) := by
  unfold weltFull
  repeat' with_reducible
    first
    | assumption | refine State.raise_frame ?_ ?_ | refine State.putb_frame ?_ ?_ | refine Frame.ite ?_ ?_

theorem execWeltSectorErase_frame {p : Part → Prop} {r a0 s} (h_regs : p .regs) (h_str : p .str) (h : Frame p r s) :
    Frame p r (stateOf s (execWeltSectorErase a0 s)) := by
  unfold execWeltSectorErase
  repeat' with_reducible
    first
    | assumption | refine Frame.gate ?_ ?_ | refine Frame.next ?_ | refine State.onStr_frame ?_ ?_
    | refine State.putb_frame ?_ ?_ | refine State.put_frame ?_ ?_ | refine State.bump_frame ?_ ?_
    | refine Frame.ite ?_ ?_

theorem setOpen_frame {p : Part → Prop} {r a0 s} (h_str : p .str) (h : Frame p r s) : Frame p r (setOpen a0 s) := by
  unfold setOpen
  repeat' with_reducible first | assumption | refine State.onStr_frame ?_ ?_

theorem placeBlock_frame {p : Part → Prop} {r a0 a1 s} (h_str : p .str) (h : Frame p r s) : Frame p r (placeBlock a0 a1
    s) := by
  unfold placeBlock
  repeat' with_reducible first | assumption | refine State.onStr_frame ?_ ?_ | refine setOpen_frame ?_ ?_ | split

theorem placeBlocks_frame {p : Part → Prop} {r a0 a1 s} (h_str : p .str) (h : Frame p r s) : Frame p r (placeBlocks a0
    a1 s) := by
  unfold placeBlocks
  repeat' with_reducible
    first
    | assumption | refine placeBlock_frame ?_ ?_ | refine Frame.each (fun _ _ _ => ?_) ?_ | split

theorem closeSoon_frame {p : Part → Prop} {r a0 s} (h_str : p .str) (h : Frame p r s) : Frame p r (closeSoon a0 s) := by
  unfold closeSoon
  repeat' with_reducible first | assumption | refine State.onStr_frame ?_ ?_

theorem execCoalesceTimeout_frame {p : Part → Prop} {r a0 s} (h_str : p .str) (h : Frame p r s) : Frame p r (stateOf s
    (execCoalesceTimeout a0 s)) := by
  unfold execCoalesceTimeout
  repeat' with_reducible
    first
    | assumption | refine Frame.gate ?_ ?_ | refine Frame.next ?_ | refine setOpen_frame ?_ ?_ | split

theorem queueRewrite_frame {p : Part → Prop} {r a0 s} (h_regs : p .regs) (h_str : p .str) (h : Frame p r s) : Frame p r
    (queueRewrite a0 s) := by
  unfold queueRewrite
  repeat' with_reducible
    first
    | assumption | refine State.onStr_frame ?_ ?_ | refine State.bump_frame ?_ ?_ | refine Frame.ite ?_ ?_

theorem placeRewrites_frame {p : Part → Prop} {r s} (h_str : p .str) (h : Frame p r s) : Frame p r (placeRewrites s) :=
    by
  unfold placeRewrites
  repeat' with_reducible
    first
    | assumption | refine State.onStr_frame ?_ ?_ | refine placeBlocks_frame ?_ ?_
    | refine Frame.each (fun _ _ _ => ?_) ?_

theorem onStripe_frame {p : Part → Prop} {r a0 a1 s} (h_str : p .str) (h : Frame p r s) : Frame p r (onStripe a0 a1 s)
    := by
  unfold onStripe
  repeat' with_reducible first | assumption | refine State.onStr_frame ?_ ?_

theorem feedMember_frame {p : Part → Prop} {r a0 a1 s} (h_str : p .str) (h_all : ∀ k, p (.chan k)) (h : Frame p r s) :
    Frame p r (feedMember a0 a1 s) := by
  unfold feedMember
  repeat' with_reducible
    first
    | assumption | exact h_all _ | refine onStripe_frame ?_ ?_ | refine handTile_frame ?_ ?_ | split

theorem feedStripes_frame {p : Part → Prop} {r s} (h_str : p .str) (h_all : ∀ k, p (.chan k)) (h : Frame p r s) : Frame
    p r (feedStripes s) := by
  unfold feedStripes
  repeat' with_reducible first | assumption | refine feedMember_frame ?_ ?_ ?_ | refine Frame.each (fun _ _ _ => ?_) ?_

theorem execSpareTileWrite_frame {p : Part → Prop} {r a0 s} (h_regs : p .regs) (h_hlt : p .hlt) (h_rcd : p .rcd) (h_c0 :
    p (.chan a0)) (h : Frame p r s) : Frame p r (stateOf s (execSpareTileWrite a0 s)) := by
  unfold execSpareTileWrite
  repeat' with_reducible
    first
    | assumption | refine Frame.gate ?_ ?_ | refine Frame.next ?_ | refine spareFullRaise_frame ?_ ?_ ?_ ?_ ?_
    | refine State.onDcm_frame ?_ ?_ | refine showReloc_frame ?_ ?_ | refine State.onWrc_frame ?_ ?_ | split

theorem fillSet_frame {p : Part → Prop} {r a0 s} (h_str : p .str) (h_all : ∀ k, p (.chan k)) (h : Frame p r s) : Frame p
    r (fillSet a0 s) := by
  unfold fillSet
  repeat' with_reducible
    first
    | assumption | refine onSet_frame ?_ ?_ | refine writeSetRecords_frame ?_ ?_ ?_ | refine State.onStr_frame ?_ ?_
    | split

theorem fillSets_frame {p : Part → Prop} {r s} (h_str : p .str) (h_all : ∀ k, p (.chan k)) (h : Frame p r s) : Frame p r
    (fillSets s) := by
  unfold fillSets
  repeat' with_reducible first | assumption | refine fillSet_frame ?_ ?_ ?_ | refine Frame.each (fun _ _ _ => ?_) ?_

theorem serveChannels_frame {p : Part → Prop} {r s} (h_map : p .map) (h_str : p .str) (h_all : ∀ k, p (.chan k)) (h :
    Frame p r s) : Frame p r (serveChannels s) := by
  unfold serveChannels
  repeat' with_reducible
    first
    | assumption | exact h_all _ | refine serveMeta_frame ?_ ?_ ?_ | refine releaseAll_frame ?_ ?_
    | refine fillSets_frame ?_ ?_ ?_ | refine placeRewrites_frame ?_ ?_ | refine feedStripes_frame ?_ ?_ ?_
    | refine Frame.each (fun _ _ _ => ?_) ?_ | refine Frame.ite ?_ ?_

theorem reopen_frame {p : Part → Prop} {r a0 s} (h_regs : p .regs) (h_host : p .host) (h_str : p .str) (h : Frame p r s)
    : Frame p r (reopen a0 s) := by
  unfold reopen
  repeat' with_reducible
    first
    | assumption | refine State.onStr_frame ?_ ?_ | refine onCtx_frame ?_ ?_ ?_ | refine Frame.each (fun _ _ _ => ?_) ?_

theorem checkOut_frame {p : Part → Prop} {r poison x l s}  (h_regs : p .regs) (h_hlt : p .hlt) (h_host : p .host) (h_map
    : p .map) (h_str : p .str) (h : Frame p r s) :
    Frame p r (checkOut poison x l s).2 := by
  induction l generalizing s with
  | nil => exact h
  | cons i l ih =>
    unfold checkOut
    repeat' with_reducible
      first
      | assumption | refine ih ?_ | refine guardCheck_frame ?_ ?_ ?_ | refine failPiece_frame ?_ ?_ ?_ ?_ ?_ | split
      | refine Frame.snd (by assumption) ?_

theorem checkAll_frame {p : Part → Prop} {r poison x l s}  (h_regs : p .regs) (h_hlt : p .hlt) (h_host : p .host) (h_map
    : p .map) (h_str : p .str) (h : Frame p r s) :
    Frame p r (checkAll poison x l s).2 := by
  induction l generalizing x s with
  | nil => exact h
  | cons i l ih =>
    unfold checkAll
    repeat' with_reducible first | assumption | refine ih ?_ | refine checkOut_frame ?_ ?_ ?_ ?_ ?_ ?_

theorem takePos_frame {p : Part → Prop} {r a0 a1 s} (h_all : ∀ k, p (.chan k)) (h : Frame p r s) : Frame p r (takePos a0
    a1 s) := by
  unfold takePos
  repeat' with_reducible
    first
    | assumption | exact h_all _ | refine setBlank_frame ?_ ?_ | refine Frame.each (fun _ _ _ => ?_) ?_ | split

theorem execStripeClose_frame {p : Part → Prop} {r a0 a1 s} (h_regs : p .regs) (h_hlt : p .hlt) (h_host : p .host)
    (h_map : p .map) (h_str : p .str) (h_all : ∀ k, p (.chan k)) (h : Frame p r s) : Frame p r (stateOf s
    (execStripeClose a0 a1 s)) := by
  unfold execStripeClose
  repeat' with_reducible
    first
    | assumption | lift_lets -underBinder | (intro x; subst x) | refine Frame.gate ?_ ?_ | refine Frame.next ?_
    | refine releaseAll_frame ?_ ?_ | refine reopen_frame ?_ ?_ ?_ ?_ | refine fillSet_frame ?_ ?_ ?_
    | refine weltFull_frame ?_ ?_ | refine checkAll_frame ?_ ?_ ?_ ?_ ?_ ?_ | refine setOpen_frame ?_ ?_
    | refine State.onStr_frame ?_ ?_ | refine State.bump_frame ?_ ?_ | refine serveChannels_frame ?_ ?_ ?_ ?_
    | refine takePos_frame ?_ ?_ | split | refine weltProgram_frame ?_ ?_ (by assumption) ?_

theorem abandonStripe_frame {p : Part → Prop} {r a0 a1 a2 s} (h_regs : p .regs) (h_host : p .host) (h_map : p .map)
    (h_str : p .str) (h : Frame p r s) : Frame p r (abandonStripe a0 a1 a2 s) := by
  unfold abandonStripe
  repeat' with_reducible
    first
    | assumption | refine State.onStr_frame ?_ ?_ | refine State.bump_frame ?_ ?_
    | refine failPiece_frame ?_ ?_ ?_ ?_ ?_ | refine Frame.each (fun _ _ _ => ?_) ?_

theorem takeVerdict_frame {p : Part → Prop} {r a0 a1 a2 s} (h_str : p .str) (h_c2 : p (.chan a2)) (h : Frame p r s) :
    Frame p r (takeVerdict a0 a1 a2 s) := by
  unfold takeVerdict
  repeat' with_reducible first | assumption | refine State.onWrc_frame ?_ ?_ | refine onStripe_frame ?_ ?_ | split

theorem takeRelocs_frame {p : Part → Prop} {r a0 a1 a2 s} (h_str : p .str) (h_c2 : p (.chan a2)) (h : Frame p r s) :
    Frame p r (takeRelocs a0 a1 a2 s) := by
  unfold takeRelocs
  repeat' with_reducible
    first
    | assumption | lift_lets -underBinder | (intro x; subst x) | refine State.onWrc_frame ?_ ?_
    | refine onStripe_frame ?_ ?_ | refine placeBlocks_frame ?_ ?_ | refine Frame.each (fun _ _ _ => ?_) ?_ | split

theorem takeHandedBack_frame {p : Part → Prop} {r a0 s} (h_regs : p .regs) (h_str : p .str) (h_c0 : p (.chan a0)) (h :
    Frame p r s) : Frame p r (takeHandedBack a0 s) := by
  unfold takeHandedBack
  repeat' with_reducible
    first
    | assumption | refine State.onWrc_frame ?_ ?_ | refine queueRewrite_frame ?_ ?_ ?_
    | refine Frame.each (fun _ _ _ => ?_) ?_ | refine Frame.ite ?_ ?_

theorem placeAgain_frame {p : Part → Prop} {r a0 a1 s} (h_regs : p .regs) (h_host : p .host) (h_map : p .map) (h_str : p
    .str) (h_all : ∀ k, p (.chan k)) (h : Frame p r s) : Frame p r (placeAgain a0 a1 s) := by
  unfold placeAgain
  repeat' with_reducible
    first
    | assumption | lift_lets -underBinder | (intro x; subst x) | refine weltFull_frame ?_ ?_
    | refine abandonStripe_frame ?_ ?_ ?_ ?_ ?_ | refine releaseAll_frame ?_ ?_ | refine fillSet_frame ?_ ?_ ?_
    | refine State.onStr_frame ?_ ?_ | refine serveChannels_frame ?_ ?_ ?_ ?_ | refine takePos_frame ?_ ?_
    | refine State.bump_frame ?_ ?_ | split | refine weltProgram_frame ?_ ?_ (by assumption) ?_
    | refine Frame.bind (fun _ _ _ _ => ?_) (fun _ _ => ?_) (by assumption)

theorem stripeDone_frame {p : Part → Prop} {r a0 a1 s} (h_regs : p .regs) (h_host : p .host) (h_map : p .map) (h_str : p
    .str) (h : Frame p r s) : Frame p r (stripeDone a0 a1 s) := by
  unfold stripeDone
  repeat' with_reducible
    first
    | assumption | lift_lets -underBinder | (intro x; subst x) | refine State.onStr_frame ?_ ?_
    | refine onPiece_frame ?_ ?_ ?_ | refine State.onMap_frame ?_ ?_ | refine Frame.each (fun _ _ _ => ?_) ?_ | split

theorem execStripeComplete_frame {p : Part → Prop} {r a0 s} (h_regs : p .regs) (h_host : p .host) (h_map : p .map)
    (h_str : p .str) (h_all : ∀ k, p (.chan k)) (h : Frame p r s) : Frame p r (stateOf s (execStripeComplete a0 s)) :=
    by
  unfold execStripeComplete
  repeat' with_reducible
    first
    | assumption | exact h_all _ | lift_lets -underBinder | (intro x; subst x) | refine Frame.gate ?_ ?_
    | refine Frame.next ?_ | refine serveChannels_frame ?_ ?_ ?_ ?_ | refine takeHandedBack_frame ?_ ?_ ?_ ?_
    | refine takeRelocs_frame ?_ ?_ ?_ | refine takeVerdict_frame ?_ ?_ ?_ | refine placeAgain_frame ?_ ?_ ?_ ?_ ?_ ?_
    | refine weltFull_frame ?_ ?_ | refine stripeDone_frame ?_ ?_ ?_ ?_ ?_ | refine abandonStripe_frame ?_ ?_ ?_ ?_ ?_
    | refine Frame.each (fun _ _ _ => ?_) ?_ | split | refine weltProgram_frame ?_ ?_ (by assumption) ?_

theorem strClear_frame {p : Part → Prop} {r s} (h_regs : p .regs) (h : Frame p r s) : Frame p r (strClear s) := by
  unfold strClear
  repeat' with_reducible first | assumption | refine State.clearAll_frame ?_ ?_

theorem seaClear_frame {p : Part → Prop} {r s} (h_regs : p .regs) (h : Frame p r s) : Frame p r (seaClear s) := by
  unfold seaClear
  repeat' with_reducible first | assumption | refine State.clearAll_frame ?_ ?_

end Sys2Proof.Machine
end

