-- ==== Sys2Proof/Laws/FrameHost.lean ====
section
/-! SUPPORT. What each operation of HostLink, Rings, Io, Resole may change (`Frame`). -/

namespace Sys2Proof.Machine

/-! ### HostLink -/

theorem execConfigRequest_frame {p : Part → Prop} {r a0 a1 s} (h_regs : p .regs) (h_host : p .host) (h : Frame p r s) :
    Frame p r (stateOf s (execConfigRequest a0 a1 s)) := by
  unfold execConfigRequest
  repeat' with_reducible
    first
    | assumption | refine Frame.gate ?_ ?_ | refine Frame.next ?_ | refine State.send_frame ?_ ?_
    | refine State.onFn_frame ?_ ?_ | refine unmaskAll_frame ?_ ?_ | refine State.putb_frame ?_ ?_ | split

theorem execLinkTrainingStart_frame {p : Part → Prop} {r a0 s} (h_regs : p .regs) (h_host : p .host) (h : Frame p r s) :
    Frame p r (stateOf s (execLinkTrainingStart a0 s)) := by
  unfold execLinkTrainingStart
  repeat' with_reducible
    first
    | assumption | refine Frame.gate ?_ ?_ | refine Frame.next ?_ | refine State.onPort_frame ?_ ?_
    | refine State.putb_frame ?_ ?_ | refine Frame.ite ?_ ?_

theorem showLinks_frame {p : Part → Prop} {r s} (h_regs : p .regs) (h : Frame p r s) : Frame p r (showLinks s) := by
  unfold showLinks
  repeat' with_reducible first | assumption | refine State.put_frame ?_ ?_

theorem execLinkUp_frame {p : Part → Prop} {r a0 a1 a2 s} (h_regs : p .regs) (h : Frame p r s) : Frame p r (stateOf s
    (execLinkUp a0 a1 a2 s)) := by
  unfold execLinkUp
  repeat' with_reducible
    first
    | assumption | refine Frame.gate ?_ ?_ | refine Frame.next ?_ | refine State.put_frame ?_ ?_
    | refine showLinks_frame ?_ ?_ | refine State.raise_frame ?_ ?_ | refine State.putb_frame ?_ ?_
    | refine Frame.ite ?_ ?_

theorem ringsToReset_frame {p : Part → Prop} {r a0 s} (h_regs : p .regs) (h_host : p .host) (h : Frame p r s) : Frame p
    r (ringsToReset a0 s) := by
  unfold ringsToReset
  repeat' with_reducible
    first
    | assumption | refine State.onHost_frame ?_ ?_ | refine State.wr_frame ?_ ?_
    | refine Frame.foldl (fun _ _ _ => ?_) ?_

theorem resetFns_frame {p : Part → Prop} {r a0 s} (h_regs : p .regs) (h_locks : p .locks) (h_hlt : p .hlt) (h_host : p
    .host) (h_map : p .map) (h_str : p .str) (h : Frame p r s) : Frame p r (resetFns a0 s) := by
  unfold resetFns
  repeat' with_reducible
    first
    | assumption | refine State.raise_frame ?_ ?_ | refine State.put_frame ?_ ?_
    | refine resetCtx_frame ?_ ?_ ?_ ?_ ?_ ?_ | refine ringsToReset_frame ?_ ?_ ?_ | refine State.onFn_frame ?_ ?_
    | refine State.onPort_frame ?_ ?_ | refine Frame.each (fun _ _ _ => ?_) ?_
    | refine Frame.upd rfl rfl rfl ?_ ?_ ?_ ?_ ?_ ?_ ?_ ?_ ?_ ?_ ?_ ?_ ?_ ?_ ?_ ?_ ?_ ?_ | exact Or.inl rfl
    | exact Or.inr (by assumption)

theorem execFlrVf_frame {p : Part → Prop} {r a0 s} (h_regs : p .regs) (h_locks : p .locks) (h_hlt : p .hlt) (h_host : p
    .host) (h_map : p .map) (h_str : p .str) (h : Frame p r s) : Frame p r (stateOf s (execFlrVf a0 s)) := by
  unfold execFlrVf
  repeat' with_reducible
    first
    | assumption | refine Frame.gate ?_ ?_ | refine Frame.next ?_ | refine resetFns_frame ?_ ?_ ?_ ?_ ?_ ?_ ?_
    | refine Frame.ite ?_ ?_

theorem resetPort_frame {p : Part → Prop} {r a0 s} (h_regs : p .regs) (h_locks : p .locks) (h_hlt : p .hlt) (h_host : p
    .host) (h_map : p .map) (h_str : p .str) (h : Frame p r s) : Frame p r (resetPort a0 s) := by
  unfold resetPort
  repeat' with_reducible
    first
    | assumption | refine State.put_frame ?_ ?_ | refine State.putb_frame ?_ ?_
    | refine resetFns_frame ?_ ?_ ?_ ?_ ?_ ?_ ?_

theorem execFlrPf_frame {p : Part → Prop} {r a0 s} (h_regs : p .regs) (h_locks : p .locks) (h_hlt : p .hlt) (h_host : p
    .host) (h_map : p .map) (h_str : p .str) (h : Frame p r s) : Frame p r (stateOf s (execFlrPf a0 s)) := by
  unfold execFlrPf
  repeat' with_reducible
    first
    | assumption | refine Frame.gate ?_ ?_ | refine Frame.next ?_ | refine resetPort_frame ?_ ?_ ?_ ?_ ?_ ?_ ?_
    | refine Frame.ite ?_ ?_

theorem execVfEnableClear_frame {p : Part → Prop} {r a0 s} (h_regs : p .regs) (h_locks : p .locks) (h_hlt : p .hlt)
    (h_host : p .host) (h_map : p .map) (h_str : p .str) (h : Frame p r s) : Frame p r (stateOf s (execVfEnableClear a0
    s)) := by
  unfold execVfEnableClear
  repeat' with_reducible
    first
    | assumption | refine Frame.gate ?_ ?_ | refine Frame.next ?_ | refine State.putb_frame ?_ ?_
    | refine resetFns_frame ?_ ?_ ?_ ?_ ?_ ?_ ?_ | refine Frame.ite ?_ ?_

theorem execNumvfsWrite_frame {p : Part → Prop} {r a0 a1 s} (h_regs : p .regs) (h_host : p .host) (h : Frame p r s) :
    Frame p r (stateOf s (execNumvfsWrite a0 a1 s)) := by
  unfold execNumvfsWrite
  repeat' with_reducible
    first
    | assumption | refine Frame.gate ?_ ?_ | refine Frame.next ?_ | refine State.send_frame ?_ ?_
    | refine State.put_frame ?_ ?_ | refine Frame.ite ?_ ?_

theorem execD3hotToD0_frame {p : Part → Prop} {r a0 s} (h_regs : p .regs) (h_locks : p .locks) (h_hlt : p .hlt) (h_host
    : p .host) (h_map : p .map) (h_str : p .str) (h : Frame p r s) : Frame p r (stateOf s (execD3hotToD0 a0 s)) := by
  unfold execD3hotToD0
  repeat' with_reducible
    first
    | assumption | refine Frame.gate ?_ ?_ | refine Frame.next ?_ | refine State.onFn_frame ?_ ?_
    | refine resetPort_frame ?_ ?_ ?_ ?_ ?_ ?_ ?_ | refine resetFns_frame ?_ ?_ ?_ ?_ ?_ ?_ ?_ | refine Frame.ite ?_ ?_

theorem takeSubsys_frame {p : Part → Prop} {r a0 s} (h_host : p .host) (h : Frame p r s) : Frame p r (takeSubsys a0 s)
    := by
  unfold takeSubsys
  repeat' with_reducible first | assumption | refine State.onPort_frame ?_ ?_

theorem execLinkDown_frame {p : Part → Prop} {r a0 a1 s} (h_regs : p .regs) (h_locks : p .locks) (h_hlt : p .hlt)
    (h_host : p .host) (h_map : p .map) (h_str : p .str) (h : Frame p r s) : Frame p r (stateOf s (execLinkDown a0 a1
    s)) := by
  unfold execLinkDown
  repeat' with_reducible
    first
    | assumption | refine Frame.gate ?_ ?_ | refine Frame.next ?_ | refine resetPort_frame ?_ ?_ ?_ ?_ ?_ ?_ ?_
    | refine State.putb_frame ?_ ?_ | refine takeSubsys_frame ?_ ?_ | refine State.onPort_frame ?_ ?_
    | refine showLinks_frame ?_ ?_ | refine State.raise_frame ?_ ?_ | refine State.wr_frame ?_ ?_
    | refine Frame.ite ?_ ?_

theorem execFunctionResetEnd_frame {p : Part → Prop} {r a0 s} (h_regs : p .regs) (h : Frame p r s) : Frame p r (stateOf
    s (execFunctionResetEnd a0 s)) := by
  unfold execFunctionResetEnd
  repeat' with_reducible
    first
    | assumption | refine Frame.gate ?_ ?_ | refine Frame.next ?_ | refine State.put_frame ?_ ?_
    | refine Frame.ite ?_ ?_

theorem reportError_frame {p : Part → Prop} {r a0 a1 a2 s} (h_host : p .host) (h : Frame p r s) : Frame p r (reportError
    a0 a1 a2 s) := by
  unfold reportError
  repeat' with_reducible first | assumption | refine State.onFn_frame ?_ ?_ | refine State.send_frame ?_ ?_

theorem tableWrite_frame {p : Part → Prop} {r a0 a1 a2 s} (h_host : p .host) (h : Frame p r s) : Frame p r (tableWrite
    a0 a1 a2 s) := by
  unfold tableWrite
  repeat' with_reducible first | assumption | refine State.onFn_frame ?_ ?_ | refine Frame.ite ?_ ?_

theorem execBar2Access_frame {p : Part → Prop} {r a0 a1 a2 s} (h_host : p .host) (h : Frame p r s) : Frame p r (stateOf
    s (execBar2Access a0 a1 a2 s)) := by
  unfold execBar2Access
  repeat' with_reducible
    first
    | assumption | refine Frame.gate ?_ ?_ | refine Frame.next ?_ | refine State.send_frame ?_ ?_
    | refine reportError_frame ?_ ?_ | refine unmaskAll_frame ?_ ?_ | refine tableWrite_frame ?_ ?_ | split

theorem execMsixUnmask_frame {p : Part → Prop} {r a0 a1 s} (h_host : p .host) (h : Frame p r s) : Frame p r (stateOf s
    (execMsixUnmask a0 a1 s)) := by
  unfold execMsixUnmask
  repeat' with_reducible
    first
    | assumption | refine Frame.gate ?_ ?_ | refine Frame.next ?_ | refine unmaskAll_frame ?_ ?_
    | refine State.onFn_frame ?_ ?_ | split

theorem execAerError_frame {p : Part → Prop} {r a0 a1 a2 s} (h_host : p .host) (h : Frame p r s) : Frame p r (stateOf s
    (execAerError a0 a1 a2 s)) := by
  unfold execAerError
  repeat' with_reducible
    first
    | assumption | refine Frame.gate ?_ ?_ | refine Frame.next ?_ | refine reportError_frame ?_ ?_

theorem execUnsupportedRequest_frame {p : Part → Prop} {r a0 a1 s} (h_host : p .host) (h : Frame p r s) : Frame p r
    (stateOf s (execUnsupportedRequest a0 a1 s)) := by
  unfold execUnsupportedRequest
  repeat' with_reducible
    first
    | assumption | refine Frame.gate ?_ ?_ | refine Frame.next ?_ | refine reportError_frame ?_ ?_
    | refine State.send_frame ?_ ?_ | refine Frame.ite ?_ ?_

theorem execTenantReadDenied_frame {p : Part → Prop} {r a0 a1 s} (h_regs : p .regs) (h_host : p .host) (h : Frame p r s)
    : Frame p r (stateOf s (execTenantReadDenied a0 a1 s)) := by
  unfold execTenantReadDenied
  repeat' with_reducible
    first
    | assumption | refine Frame.gate ?_ ?_ | refine Frame.next ?_ | refine State.send_frame ?_ ?_
    | refine State.bump_frame ?_ ?_ | refine Frame.ite ?_ ?_

theorem sendReads_frame {p : Part → Prop} {r q n s}  (h_host : p .host) (h : Frame p r s) : Frame p r (sendReads q n s)
    := by
  induction n generalizing s with
  | zero => exact h
  | succ n ih =>
    unfold sendReads
    repeat' with_reducible
      first
      | assumption | lift_lets -underBinder | (intro x; subst x) | refine ih ?_ | refine State.send_frame ?_ ?_
      | refine State.onPort_frame ?_ ?_ | split

theorem readBuf_frame {p : Part → Prop} {r a0 a1 s} (h_host : p .host) (h : Frame p r s) : Frame p r (readBuf a0 a1 s)
    := by
  unfold readBuf
  repeat' with_reducible first | assumption | refine sendReads_frame ?_ ?_ | refine State.onPort_frame ?_ ?_

theorem dmaFault_frame {p : Part → Prop} {r a0 a1 s} (h_regs : p .regs) (h_hlt : p .hlt) (h_host : p .host) (h_map : p
    .map) (h_str : p .str) (h : Frame p r s) : Frame p r (dmaFault a0 a1 s) := by
  unfold dmaFault
  repeat' with_reducible
    first
    | assumption | refine violation_frame ?_ ?_ ?_ ?_ | refine finish_frame ?_ ?_ ?_ ?_ ?_ | split

theorem execDmaCompletion_frame {p : Part → Prop} {r a0 a1 a2 s} (h_regs : p .regs) (h_hlt : p .hlt) (h_host : p .host)
    (h_map : p .map) (h_str : p .str) (h : Frame p r s) : Frame p r (stateOf s (execDmaCompletion a0 a1 a2 s)) := by
  unfold execDmaCompletion
  repeat' with_reducible
    first
    | assumption | refine Frame.gate ?_ ?_ | refine Frame.next ?_ | refine sendReads_frame ?_ ?_
    | refine State.onPort_frame ?_ ?_ | refine dmaFault_frame ?_ ?_ ?_ ?_ ?_ ?_ | refine reportError_frame ?_ ?_ | split

theorem execCompletionTimeout_frame {p : Part → Prop} {r a0 a1 s} (h_regs : p .regs) (h_hlt : p .hlt) (h_host : p .host)
    (h_map : p .map) (h_str : p .str) (h : Frame p r s) : Frame p r (stateOf s (execCompletionTimeout a0 a1 s)) := by
  unfold execCompletionTimeout
  repeat' with_reducible
    first
    | assumption | refine Frame.gate ?_ ?_ | refine Frame.next ?_ | refine State.onPort_frame ?_ ?_
    | refine dmaFault_frame ?_ ?_ ?_ ?_ ?_ ?_ | refine reportError_frame ?_ ?_ | refine sendReads_frame ?_ ?_ | split

/-! ### Rings -/

theorem ringRun_frame {p : Part → Prop} {r a0 s} (h_regs : p .regs) (h_host : p .host) (h : Frame p r s) : Frame p r
    (ringRun a0 s) := by
  unfold ringRun
  repeat' with_reducible
    first
    | assumption | refine State.put_frame ?_ ?_ | refine headWait_frame ?_ ?_ ?_ | refine State.onRing_frame ?_ ?_

theorem dropGrants_frame {p : Part → Prop} {r a0 s} (h_host : p .host) (h : Frame p r s) : Frame p r (dropGrants a0 s)
    := by
  unfold dropGrants
  repeat' with_reducible first | assumption | refine State.onHost_frame ?_ ?_

theorem ringDrain_frame {p : Part → Prop} {r a0 s} (h_regs : p .regs) (h_host : p .host) (h_map : p .map) (h_str : p
    .str) (h : Frame p r s) : Frame p r (ringDrain a0 s) := by
  unfold ringDrain
  repeat' with_reducible
    first
    | assumption | refine headWait_frame ?_ ?_ ?_ | refine dropGrants_frame ?_ ?_ | refine State.putb_frame ?_ ?_
    | refine State.put_frame ?_ ?_ | refine releaseCtx_frame ?_ ?_ ?_ ?_ | refine unplace_frame ?_ ?_
    | refine State.onRing_frame ?_ ?_ | refine Frame.each (fun _ _ _ => ?_) ?_

theorem rcCtlEffect_frame {p : Part → Prop} {r a0 a1 s} (h_regs : p .regs) (h_host : p .host) (h_map : p .map) (h_str :
    p .str) (h : Frame p r s) : Frame p r (rcCtlEffect a0 a1 s) := by
  unfold rcCtlEffect
  repeat' with_reducible
    first
    | assumption | refine State.putb_frame ?_ ?_ | refine ringRun_frame ?_ ?_ ?_ | refine ringDrain_frame ?_ ?_ ?_ ?_ ?_
    | refine Frame.ite ?_ ?_

theorem execDrainComplete_frame {p : Part → Prop} {r a0 a1 s} (h_regs : p .regs) (h_host : p .host) (h : Frame p r s) :
    Frame p r (stateOf s (execDrainComplete a0 a1 s)) := by
  unfold execDrainComplete
  repeat' with_reducible
    first
    | assumption | refine Frame.gate ?_ ?_ | refine Frame.next ?_ | refine writeRecord_frame ?_ ?_
    | refine State.putb_frame ?_ ?_ | refine State.put_frame ?_ ?_ | refine interrupt_frame ?_ ?_
    | refine State.onRing_frame ?_ ?_ | refine Frame.each (fun _ _ _ => ?_) ?_ | split

theorem roundBegin_frame {p : Part → Prop} {r s} (h_host : p .host) (h : Frame p r s) : Frame p r (roundBegin s) := by
  unfold roundBegin
  repeat' with_reducible
    first
    | assumption | refine State.onRing_frame ?_ ?_ | refine State.onHost_frame ?_ ?_
    | refine Frame.each (fun _ _ _ => ?_) ?_

theorem walkBegin_frame {p : Part → Prop} {r s} (h_host : p .host) (h : Frame p r s) : Frame p r (walkBegin s) := by
  unfold walkBegin
  repeat' with_reducible
    first
    | assumption | refine State.onRing_frame ?_ ?_ | refine State.onHost_frame ?_ ?_
    | refine Frame.each (fun _ _ _ => ?_) ?_

theorem ioGrant_frame {p : Part → Prop} {r s} (h_host : p .host) (h : Frame p r s) : Frame p r (ioGrant s) := by
  unfold ioGrant
  repeat' with_reducible
    first
    | assumption | lift_lets -underBinder | (intro x; subst x) | refine walkBegin_frame ?_ ?_
    | refine roundBegin_frame ?_ ?_ | refine State.onHost_frame ?_ ?_ | split

theorem execArbiterGrant_frame {p : Part → Prop} {r s} (h_host : p .host) (h : Frame p r s) : Frame p r (stateOf s
    (execArbiterGrant s)) := by
  unfold execArbiterGrant
  repeat' with_reducible
    first
    | assumption | refine Frame.gate ?_ ?_ | refine Frame.next ?_ | refine State.onHost_frame ?_ ?_
    | refine ioGrant_frame ?_ ?_ | split

theorem headNext_frame {p : Part → Prop} {r a0 s} (h_regs : p .regs) (h : Frame p r s) : Frame p r (headNext a0 s) := by
  unfold headNext
  repeat' with_reducible
    first
    | assumption | refine State.putb_frame ?_ ?_ | refine State.put_frame ?_ ?_ | refine Frame.ite ?_ ?_

theorem grantUsed_frame {p : Part → Prop} {r a0 a1 s} (h_host : p .host) (h : Frame p r s) : Frame p r (grantUsed a0 a1
    s) := by
  unfold grantUsed
  repeat' with_reducible
    first
    | assumption | refine State.onHost_frame ?_ ?_ | refine State.onRing_frame ?_ ?_ | refine Frame.ite ?_ ?_

theorem fetchFault_frame {p : Part → Prop} {r a0 a1 a2 s} (h_regs : p .regs) (h_hlt : p .hlt) (h_host : p .host) (h :
    Frame p r s) : Frame p r (fetchFault a0 a1 a2 s) := by
  unfold fetchFault
  repeat' with_reducible
    first
    | assumption | refine violation_frame ?_ ?_ ?_ ?_ | refine writeRecord_frame ?_ ?_ | refine interrupt_frame ?_ ?_
    | refine dropGrants_frame ?_ ?_ | refine State.raise_frame ?_ ?_ | refine headNext_frame ?_ ?_
    | refine State.put_frame ?_ ?_

theorem fetchMarks_frame {p : Part → Prop} {r a0 s} (h_map : p .map) (h : Frame p r s) : Frame p r (fetchMarks a0 s) :=
    by
  unfold fetchMarks
  repeat' with_reducible
    first
    | assumption | refine Frame.ite ?_ ?_
    | refine Frame.upd rfl rfl rfl ?_ ?_ ?_ ?_ ?_ ?_ ?_ ?_ ?_ ?_ ?_ ?_ ?_ ?_ ?_ ?_ ?_ ?_ | exact Or.inl rfl
    | exact Or.inr (by assumption)

theorem takeEntry_frame {p : Part → Prop} {r a0 a1 a2 a3 s} (h_regs : p .regs) (h_hlt : p .hlt) (h_host : p .host)
    (h_map : p .map) (h_str : p .str) (h : Frame p r s) : Frame p r (takeEntry a0 a1 a2 a3 s) := by
  unfold takeEntry
  repeat' with_reducible
    first
    | assumption | lift_lets -underBinder | (intro x; subst x) | refine State.onHost_frame ?_ ?_
    | refine State.bump_frame ?_ ?_ | refine headNext_frame ?_ ?_ | refine putCtxs_frame ?_ ?_ ?_
    | refine fetchMarks_frame ?_ ?_ | refine violation_frame ?_ ?_ ?_ ?_ | refine finish_frame ?_ ?_ ?_ ?_ ?_ | split

theorem execEntryFetched_frame {p : Part → Prop} {r a0 s} (h_regs : p .regs) (h_hlt : p .hlt) (h_host : p .host) (h_map
    : p .map) (h_str : p .str) (h : Frame p r s) : Frame p r (stateOf s (execEntryFetched a0 s)) := by
  unfold execEntryFetched
  repeat' with_reducible
    first
    | assumption | refine Frame.gate ?_ ?_ | refine Frame.next ?_ | refine dropGrants_frame ?_ ?_
    | refine State.raise_frame ?_ ?_ | refine State.bump_frame ?_ ?_ | refine State.onHost_frame ?_ ?_
    | refine fetchFault_frame ?_ ?_ ?_ ?_ | refine takeEntry_frame ?_ ?_ ?_ ?_ ?_ ?_ | refine grantUsed_frame ?_ ?_
    | split

theorem doorbellRun_frame {p : Part → Prop} {r a0 a1 a2 a3 s} (h_regs : p .regs) (h_hlt : p .hlt) (h_host : p .host) (h
    : Frame p r s) : Frame p r (doorbellRun a0 a1 a2 a3 s) := by
  unfold doorbellRun
  repeat' with_reducible
    first
    | assumption | refine violation_frame ?_ ?_ ?_ ?_ | refine headWait_frame ?_ ?_ ?_ | refine State.put_frame ?_ ?_
    | refine Frame.ite ?_ ?_

theorem bellWrite_frame {p : Part → Prop} {r a0 a1 a2 a3 s} (h_regs : p .regs) (h_hlt : p .hlt) (h_host : p .host) (h :
    Frame p r s) : Frame p r (bellWrite a0 a1 a2 a3 s) := by
  unfold bellWrite
  repeat' with_reducible
    first
    | assumption | lift_lets -underBinder | (intro x; subst x) | refine violation_frame ?_ ?_ ?_ ?_
    | refine State.bump_frame ?_ ?_ | refine doorbellRun_frame ?_ ?_ ?_ ?_ | split

theorem execDoorbell_frame {p : Part → Prop} {r a0 a1 a2 a3 s} (h_regs : p .regs) (h_hlt : p .hlt) (h_host : p .host) (h
    : Frame p r s) : Frame p r (stateOf s (execDoorbell a0 a1 a2 a3 s)) := by
  unfold execDoorbell
  repeat' with_reducible
    first
    | assumption | refine Frame.gate ?_ ?_ | refine Frame.next ?_ | refine bellWrite_frame ?_ ?_ ?_ ?_

theorem stagedStart_frame {p : Part → Prop} {r a0 a1 a2 a3 s} (h_regs : p .regs) (h_hlt : p .hlt) (h_host : p .host)
    (h_map : p .map) (h_str : p .str) (h : Frame p r s) : Frame p r (stagedStart a0 a1 a2 a3 s) := by
  unfold stagedStart
  repeat' with_reducible
    first
    | assumption | lift_lets -underBinder | (intro x; subst x) | refine finish_frame ?_ ?_ ?_ ?_ ?_
    | refine violation_frame ?_ ?_ ?_ ?_ | refine readBuf_frame ?_ ?_ | refine onCtx_frame ?_ ?_ ?_ | split

theorem stagedDoorbell_frame {p : Part → Prop} {r a0 a1 a2 a3 a4 s} (h_regs : p .regs) (h_hlt : p .hlt) (h_host : p
    .host) (h_map : p .map) (h_str : p .str) (h : Frame p r s) : Frame p r (stagedDoorbell a0 a1 a2 a3 a4 s) := by
  unfold stagedDoorbell
  repeat' with_reducible
    first
    | assumption | refine violation_frame ?_ ?_ ?_ ?_ | refine stagedStart_frame ?_ ?_ ?_ ?_ ?_ ?_ | split

theorem stagingWrite_frame {p : Part → Prop} {r a0 a1 a2 a3 a4 s} (h_regs : p .regs) (h_hlt : p .hlt) (h_host : p .host)
    (h_map : p .map) (h_str : p .str) (h : Frame p r s) : Frame p r (stagingWrite a0 a1 a2 a3 a4 s) := by
  unfold stagingWrite
  repeat' with_reducible
    first
    | assumption | lift_lets -underBinder | (intro x; subst x) | refine violation_frame ?_ ?_ ?_ ?_
    | refine State.bump_frame ?_ ?_ | refine State.onRing_frame ?_ ?_ | refine stagedDoorbell_frame ?_ ?_ ?_ ?_ ?_ ?_
    | split

theorem execStagingDoorbell_frame {p : Part → Prop} {r a0 a1 a2 a3 a4 s} (h_regs : p .regs) (h_hlt : p .hlt) (h_host : p
    .host) (h_map : p .map) (h_str : p .str) (h : Frame p r s) : Frame p r (stateOf s (execStagingDoorbell a0 a1 a2 a3
    a4 s)) := by
  unfold execStagingDoorbell
  repeat' with_reducible
    first
    | assumption | refine Frame.gate ?_ ?_ | refine Frame.next ?_ | refine stagingWrite_frame ?_ ?_ ?_ ?_ ?_ ?_

theorem startWrite_frame {p : Part → Prop} {r a0 s} (h_regs : p .regs) (h_host : p .host) (h : Frame p r s) : Frame p r
    (startWrite a0 s) := by
  unfold startWrite
  repeat' with_reducible
    first
    | assumption | refine stageRecord_frame ?_ ?_ ?_ | refine onCtx_frame ?_ ?_ ?_ | refine readBuf_frame ?_ ?_
    | refine Frame.ite ?_ ?_

theorem execBufferReservation_frame {p : Part → Prop} {r s} (h_regs : p .regs) (h_host : p .host) (h : Frame p r s) :
    Frame p r (stateOf s (execBufferReservation s)) := by
  unfold execBufferReservation
  repeat' with_reducible
    first
    | assumption | lift_lets -underBinder | (intro x; subst x) | refine Frame.gate ?_ ?_ | refine Frame.next ?_
    | refine startWrite_frame ?_ ?_ ?_ | refine onCtx_frame ?_ ?_ ?_ | split

theorem execGrantExpiry_frame {p : Part → Prop} {r a0 s} (h_regs : p .regs) (h_host : p .host) (h_map : p .map) (h_str :
    p .str) (h : Frame p r s) : Frame p r (stateOf s (execGrantExpiry a0 s)) := by
  unfold execGrantExpiry
  repeat' with_reducible
    first
    | assumption | refine Frame.gate ?_ ?_ | refine Frame.next ?_ | refine finish_frame ?_ ?_ ?_ ?_ ?_
    | refine State.raise_frame ?_ ?_ | refine State.bump_frame ?_ ?_ | split

theorem hqeClear_frame {p : Part → Prop} {r s} (h_regs : p .regs) (h : Frame p r s) : Frame p r (hqeClear s) := by
  unfold hqeClear
  repeat' with_reducible
    first
    | assumption | refine State.clearAll_frame ?_ ?_ | refine State.wr_frame ?_ ?_
    | refine Frame.foldl (fun _ _ _ => ?_) ?_

theorem evqEffect_frame {p : Part → Prop} {r a0 a1 a2 s} (h_regs : p .regs) (h_host : p .host) (h : Frame p r s) : Frame
    p r (evqEffect a0 a1 a2 s) := by
  unfold evqEffect
  repeat' with_reducible
    first
    | assumption | lift_lets -underBinder | (intro x; subst x) | refine State.put_frame ?_ ?_
    | refine State.onFn_frame ?_ ?_ | split

/-! ### Io -/

theorem park_frame {p : Part → Prop} {r a0 s} (h_regs : p .regs) (h_host : p .host) (h : Frame p r s) : Frame p r (park
    a0 s) := by
  unfold park
  repeat' with_reducible first | assumption | refine onCtx_frame ?_ ?_ ?_

theorem sidingRelease_frame {p : Part → Prop} {r s} (h_regs : p .regs) (h_host : p .host) (h : Frame p r s) : Frame p r
    (sidingRelease s) := by
  unfold sidingRelease
  repeat' with_reducible
    first
    | assumption | refine onCtx_frame ?_ ?_ ?_ | refine Frame.each (fun _ _ _ => ?_) ?_ | refine Frame.ite ?_ ?_

theorem deliverBlocks_frame {p : Part → Prop} {r x l s}  (h_regs : p .regs) (h_hlt : p .hlt) (h : Frame p r s) : Frame p
    r (deliverBlocks x l s).2.2 := by
  induction l generalizing s with
  | nil => exact h
  | cons i l ih =>
    unfold deliverBlocks
    repeat' with_reducible
      first
      | assumption | lift_lets -underBinder | (intro x; subst x) | refine ih ?_ | refine guardCheck_frame ?_ ?_ ?_
      | split | refine Frame.snd (by assumption) ?_

theorem endRead_frame {p : Part → Prop} {r a0 a1 a2 s} (h_regs : p .regs) (h_hlt : p .hlt) (h_host : p .host) (h_map : p
    .map) (h_str : p .str) (h : Frame p r s) : Frame p r (endRead a0 a1 a2 s) := by
  unfold endRead
  repeat' with_reducible
    first
    | assumption | refine deliverBlocks_frame ?_ ?_ ?_ | refine writeBuf_frame ?_ ?_
    | refine finish_frame ?_ ?_ ?_ ?_ ?_ | split | refine Frame.snd2 (by assumption) ?_

theorem endVerify_frame {p : Part → Prop} {r a0 a1 a2 s} (h_regs : p .regs) (h_host : p .host) (h_map : p .map) (h_str :
    p .str) (h : Frame p r s) : Frame p r (endVerify a0 a1 a2 s) := by
  unfold endVerify
  repeat' with_reducible first | assumption | refine finish_frame ?_ ?_ ?_ ?_ ?_ | split

theorem settleRead_frame {p : Part → Prop} {r a0 s} (h_regs : p .regs) (h_hlt : p .hlt) (h_host : p .host) (h_map : p
    .map) (h_str : p .str) (h : Frame p r s) : Frame p r (settleRead a0 s) := by
  unfold settleRead
  repeat' with_reducible
    first
    | assumption | lift_lets -underBinder | (intro x; subst x) | refine endVerify_frame ?_ ?_ ?_ ?_ ?_
    | refine endRead_frame ?_ ?_ ?_ ?_ ?_ ?_ | split

theorem silent_frame {p : Part → Prop} {r a0 s} (h_regs : p .regs) (h_hlt : p .hlt) (h : Frame p r s) : Frame p r
    (silent a0 s) := by
  unfold silent
  repeat' with_reducible
    first
    | assumption | refine State.fault_frame ?_ ?_ | refine State.raise_frame ?_ ?_ | refine State.bump_frame ?_ ?_

theorem gotBlock_frame {p : Part → Prop} {r a0 a1 a2 s} (h_regs : p .regs) (h_host : p .host) (h : Frame p r s) : Frame
    p r (gotBlock a0 a1 a2 s) := by
  unfold gotBlock
  repeat' with_reducible first | assumption | refine onCtx_frame ?_ ?_ ?_

theorem lostBlock_frame {p : Part → Prop} {r a0 a1 a2 a3 s} (h_regs : p .regs) (h_host : p .host) (h : Frame p r s) :
    Frame p r (lostBlock a0 a1 a2 a3 s) := by
  unfold lostBlock
  repeat' with_reducible first | assumption | refine onCtx_frame ?_ ?_ ?_

theorem toRung5_frame {p : Part → Prop} {r a0 a1 a2 a3 s} (h_regs : p .regs) (h_host : p .host) (h : Frame p r s) :
    Frame p r (toRung5 a0 a1 a2 a3 s) := by
  unfold toRung5
  repeat' with_reducible first | assumption | refine onCtx_frame ?_ ?_ ?_ | refine lostBlock_frame ?_ ?_ ?_ | split

theorem takeBlock_frame {p : Part → Prop} {r a0 a1 a2 a3 a4 s} (h_regs : p .regs) (h_hlt : p .hlt) (h_host : p .host) (h
    : Frame p r s) : Frame p r (takeBlock a0 a1 a2 a3 a4 s) := by
  unfold takeBlock
  repeat' with_reducible
    first
    | assumption | refine guardCheck_frame ?_ ?_ ?_ | refine toRung5_frame ?_ ?_ ?_ | refine gotBlock_frame ?_ ?_ ?_
    | refine silent_frame ?_ ?_ ?_ | refine sealMiss_frame ?_ ?_ ?_ | refine Frame.ite ?_ ?_

theorem wantTile_frame {p : Part → Prop} {r a0 a1 a2 s} (h_c0 : p (.chan a0)) (h : Frame p r s) : Frame p r (wantTile a0
    a1 a2 s) := by
  unfold wantTile
  repeat' with_reducible first | assumption | refine State.onRdc_frame ?_ ?_

theorem readBlock_frame {p : Part → Prop} {r a0 a1 a2 a3 s} (h_regs : p .regs) (h_hlt : p .hlt) (h_host : p .host) (h_c2
    : p (.chan a2)) (h : Frame p r s) : Frame p r (readBlock a0 a1 a2 a3 s) := by
  unfold readBlock
  repeat' with_reducible
    first
    | assumption | refine wantTile_frame ?_ ?_ | refine onCtx_frame ?_ ?_ ?_ | refine takeBlock_frame ?_ ?_ ?_ ?_
    | refine lostBlock_frame ?_ ?_ ?_ | refine State.onRdc_frame ?_ ?_ | split

theorem stepBlock_frame {p : Part → Prop} {r a0 a1 s} (h_regs : p .regs) (h_hlt : p .hlt) (h_host : p .host) (h_all : ∀
    k, p (.chan k)) (h : Frame p r s) : Frame p r (stepBlock a0 a1 s) := by
  unfold stepBlock
  repeat' with_reducible
    first
    | assumption | exact h_all _ | refine gotBlock_frame ?_ ?_ ?_ | refine lostBlock_frame ?_ ?_ ?_
    | refine toRung5_frame ?_ ?_ ?_ | refine readBlock_frame ?_ ?_ ?_ ?_ ?_ | split

theorem pruneReads_frame {p : Part → Prop} {r a0 s} (h_c0 : p (.chan a0)) (h : Frame p r s) : Frame p r (pruneReads a0
    s) := by
  unfold pruneReads
  repeat' with_reducible first | assumption | refine State.onRdc_frame ?_ ?_ | refine Frame.ite ?_ ?_

theorem readOn_frame {p : Part → Prop} {r a0 s} (h_regs : p .regs) (h_hlt : p .hlt) (h_host : p .host) (h_map : p .map)
    (h_str : p .str) (h_all : ∀ k, p (.chan k)) (h : Frame p r s) : Frame p r (readOn a0 s) := by
  unfold readOn
  repeat' with_reducible
    first
    | assumption | exact h_all _ | refine park_frame ?_ ?_ ?_ | refine stepBlock_frame ?_ ?_ ?_ ?_ ?_
    | refine settleRead_frame ?_ ?_ ?_ ?_ ?_ ?_ | refine pruneReads_frame ?_ ?_ | refine Frame.each (fun _ _ _ => ?_) ?_
    | split

theorem withOp_frame {p : Part → Prop} {r op id s f} (hf : ∀ x, Frame p r (f x)) (h : Frame p r s) :
    Frame p r (withOp op id s f) := by
  unfold withOp
  repeat' with_reducible first | assumption | exact hf _ | split

theorem execRead_frame {p : Part → Prop} {r a0 s} (h_regs : p .regs) (h_hlt : p .hlt) (h_host : p .host) (h_map : p
    .map) (h_str : p .str) (h_all : ∀ k, p (.chan k)) (h : Frame p r s) : Frame p r (stateOf s (execRead a0 s)) := by
  unfold execRead
  repeat' with_reducible
    first
    | assumption | refine Frame.gate ?_ ?_ | refine Frame.next ?_ | refine withOp_frame (fun _ => ?_) ?_
    | refine readOn_frame ?_ ?_ ?_ ?_ ?_ ?_ ?_

theorem execVerify_frame {p : Part → Prop} {r a0 s} (h_regs : p .regs) (h_hlt : p .hlt) (h_host : p .host) (h_map : p
    .map) (h_str : p .str) (h_all : ∀ k, p (.chan k)) (h : Frame p r s) : Frame p r (stateOf s (execVerify a0 s)) := by
  unfold execVerify
  repeat' with_reducible
    first
    | assumption | refine Frame.gate ?_ ?_ | refine Frame.next ?_ | refine withOp_frame (fun _ => ?_) ?_
    | refine readOn_frame ?_ ?_ ?_ ?_ ?_ ?_ ?_

theorem execMemberTimeout_frame {p : Part → Prop} {r a0 s} (h_regs : p .regs) (h_host : p .host) (h : Frame p r s) :
    Frame p r (stateOf s (execMemberTimeout a0 s)) := by
  unfold execMemberTimeout
  repeat' with_reducible
    first
    | assumption | refine Frame.gate ?_ ?_ | refine Frame.next ?_ | refine State.bump_frame ?_ ?_
    | refine onCtx_frame ?_ ?_ ?_ | split

theorem survivorSlots_frame {p : Part → Prop} {r k x i miss tiles l s}  (h_regs : p .regs) (h_hlt : p .hlt) (h : Frame p
    r s) :
    Frame p r (survivorSlots k x i miss tiles l s).2.2 := by
  induction l generalizing s with
  | nil => exact h
  | cons y l ih =>
    unfold survivorSlots
    repeat' with_reducible
      first
      | assumption | lift_lets -underBinder | (intro x; subst x) | refine ih ?_ | refine guardCheck_frame ?_ ?_ ?_
      | refine silent_frame ?_ ?_ ?_ | refine sealMiss_frame ?_ ?_ ?_ | split | refine Frame.snd (by assumption) ?_

theorem rung5At_frame {p : Part → Prop} {r a0 a1 a2 a3 a4 a5 a6 s} (h_regs : p .regs) (h_hlt : p .hlt) (h_str : p .str)
    (h : Frame p r s) : Frame p r (rung5At a0 a1 a2 a3 a4 a5 a6 s).2.2 := by
  unfold rung5At
  repeat' with_reducible
    first
    | assumption | lift_lets -underBinder | (intro x; subst x) | refine survivorSlots_frame ?_ ?_ ?_
    | refine queueRewrite_frame ?_ ?_ ?_ | refine Frame.each (fun _ _ _ => ?_) ?_ | split
    | refine Frame.snd2 (by assumption) ?_

theorem rung5Block_frame {p : Part → Prop} {r a0 a1 a2 s} (h_regs : p .regs) (h_hlt : p .hlt) (h_host : p .host) (h_str
    : p .str) (h : Frame p r s) : Frame p r (rung5Block a0 a1 a2 s) := by
  unfold rung5Block
  repeat' with_reducible
    first
    | assumption | lift_lets -underBinder | (intro x; subst x) | refine rung5At_frame ?_ ?_ ?_ ?_
    | refine guardCheck_frame ?_ ?_ ?_ | refine gotBlock_frame ?_ ?_ ?_ | refine queueRewrite_frame ?_ ?_ ?_
    | refine State.bump_frame ?_ ?_ | refine sealMiss_frame ?_ ?_ ?_ | refine lostBlock_frame ?_ ?_ ?_
    | refine park_frame ?_ ?_ ?_ | refine Frame.ite ?_ ?_ | split | refine Frame.snd2 (by assumption) ?_

theorem rung5Slots_frame {p : Part → Prop} {r c k m tiles l t s}  (h_regs : p .regs) (h_hlt : p .hlt) (h_str : p .str)
    (h : Frame p r s) :
    Frame p r (rung5Slots c k m tiles l t s).2 := by
  induction l generalizing t s with
  | nil => exact h
  | cons i l ih =>
    unfold rung5Slots
    repeat' with_reducible
      first
      | assumption | lift_lets -underBinder | (intro x; subst x) | refine ih ?_ | refine rung5At_frame ?_ ?_ ?_ ?_
      | refine State.bump_frame ?_ ?_ | refine guardCheck_frame ?_ ?_ ?_ | refine queueRewrite_frame ?_ ?_ ?_
      | refine sealMiss_frame ?_ ?_ ?_ | split | refine Frame.snd (by assumption) ?_
      | refine Frame.snd2 (by assumption) ?_

theorem rung5Tile_frame {p : Part → Prop} {r a0 a1 s} (h_regs : p .regs) (h_locks : p .locks) (h_hlt : p .hlt) (h_str :
    p .str) (h_rcd : p .rcd) (h_c0 : p (.chan a0)) (h : Frame p r s) : Frame p r (rung5Tile a0 a1 s) := by
  unfold rung5Tile
  repeat' with_reducible
    first
    | assumption | refine finishTile_frame ?_ ?_ ?_ ?_ ?_ ?_ | refine rung5Slots_frame ?_ ?_ ?_ ?_ | split

theorem execStripeReconstruct_frame {p : Part → Prop} {r a0 a1 a2 a3 s} (h_regs : p .regs) (h_locks : p .locks) (h_hlt :
    p .hlt) (h_host : p .host) (h_map : p .map) (h_str : p .str) (h_rcd : p .rcd) (h_c2 : p (.chan a2)) (h : Frame p r
    s) : Frame p r (stateOf s (execStripeReconstruct a0 a1 a2 a3 s)) := by
  unfold execStripeReconstruct
  repeat' with_reducible
    first
    | assumption | refine Frame.gate ?_ ?_ | refine Frame.next ?_ | refine settleRead_frame ?_ ?_ ?_ ?_ ?_ ?_
    | refine rung5Block_frame ?_ ?_ ?_ ?_ ?_ | refine rung5Tile_frame ?_ ?_ ?_ ?_ ?_ ?_ ?_ | split

theorem writeAbsent_frame {p : Part → Prop} {r a0 a1 a2 s} (h_regs : p .regs) (h_host : p .host) (h_map : p .map) (h_str
    : p .str) (h : Frame p r s) : Frame p r (writeAbsent a0 a1 a2 s) := by
  unfold writeAbsent
  repeat' with_reducible
    first
    | assumption | refine park_frame ?_ ?_ ?_ | refine finish_frame ?_ ?_ ?_ ?_ ?_ | refine Frame.ite ?_ ?_

theorem placeWrite_frame {p : Part → Prop} {r a0 s} (h_regs : p .regs) (h_host : p .host) (h_map : p .map) (h_str : p
    .str) (h_all : ∀ k, p (.chan k)) (h : Frame p r s) : Frame p r (placeWrite a0 s) := by
  unfold placeWrite
  repeat' with_reducible
    first
    | assumption | refine writeSet_frame ?_ ?_ ?_ | refine writeAbsent_frame ?_ ?_ ?_ ?_ ?_
    | refine finish_frame ?_ ?_ ?_ ?_ ?_ | refine placeBlocks_frame ?_ ?_ | refine releaseAll_frame ?_ ?_
    | refine onCtx_frame ?_ ?_ ?_ | refine closeSoon_frame ?_ ?_ | split

theorem execWrite_frame {p : Part → Prop} {r a0 s} (h_regs : p .regs) (h_host : p .host) (h_map : p .map) (h_str : p
    .str) (h_all : ∀ k, p (.chan k)) (h : Frame p r s) : Frame p r (stateOf s (execWrite a0 s)) := by
  unfold execWrite
  repeat' with_reducible
    first
    | assumption | refine Frame.gate ?_ ?_ | refine Frame.next ?_ | refine withOp_frame (fun _ => ?_) ?_
    | refine settle_frame ?_ ?_ ?_ ?_ ?_ | refine placeWrite_frame ?_ ?_ ?_ ?_ ?_ ?_ | refine Frame.ite ?_ ?_

theorem hostBlock_frame {p : Part → Prop} {r a0 a1 a2 s} (h_regs : p .regs) (h_hlt : p .hlt) (h : Frame p r s) : Frame p
    r (hostBlock a0 a1 a2 s).2.2 := by
  unfold hostBlock
  repeat' with_reducible
    first
    | assumption | lift_lets -underBinder | (intro x; subst x) | refine guardAt_frame ?_ ?_
    | refine sealMiss_frame ?_ ?_ ?_ | split | refine Frame.snd (by assumption) ?_

theorem hostBlocks_frame {p : Part → Prop} {r x data l s}  (h_regs : p .regs) (h_hlt : p .hlt) (h : Frame p r s) :
    Frame p r (hostBlocks x data l s).2.2.2 := by
  induction l generalizing s with
  | nil => exact h
  | cons i l ih =>
    unfold hostBlocks
    repeat' with_reducible
      first
      | assumption | refine ih ?_ | refine hostBlock_frame ?_ ?_ ?_ | refine guardCheck_frame ?_ ?_ ?_ | split
      | refine Frame.snd2 (by assumption) ?_

theorem failBlocks_frame {p : Part → Prop} {r a0 a1 s} (h_regs : p .regs) (h_host : p .host) (h_map : p .map) (h_str : p
    .str) (h : Frame p r s) : Frame p r (failBlocks a0 a1 s) := by
  unfold failBlocks
  repeat' with_reducible
    first
    | assumption | refine failPiece_frame ?_ ?_ ?_ ?_ ?_ | refine Frame.each (fun _ _ _ => ?_) ?_ | split

theorem execDataReceived_frame {p : Part → Prop} {r a0 a1 s} (h_regs : p .regs) (h_hlt : p .hlt) (h_host : p .host)
    (h_map : p .map) (h_str : p .str) (h_all : ∀ k, p (.chan k)) (h : Frame p r s) : Frame p r (stateOf s
    (execDataReceived a0 a1 s)) := by
  unfold execDataReceived
  repeat' with_reducible
    first
    | assumption | lift_lets -underBinder | (intro x; subst x) | refine Frame.gate ?_ ?_ | refine Frame.next ?_
    | refine withOp_frame (fun _ => ?_) ?_ | refine hostBlocks_frame ?_ ?_ ?_ | refine finish_frame ?_ ?_ ?_ ?_ ?_
    | refine onCtx_frame ?_ ?_ ?_ | refine stageRecord_frame ?_ ?_ ?_ | refine failBlocks_frame ?_ ?_ ?_ ?_ ?_
    | refine settle_frame ?_ ?_ ?_ ?_ ?_ | refine placeWrite_frame ?_ ?_ ?_ ?_ ?_ ?_ | split
    | refine Frame.snd3 (by assumption) ?_

theorem execFlush_frame {p : Part → Prop} {r a0 s} (h_regs : p .regs) (h_host : p .host) (h_map : p .map) (h_str : p
    .str) (h : Frame p r s) : Frame p r (stateOf s (execFlush a0 s)) := by
  unfold execFlush
  repeat' with_reducible
    first
    | assumption | refine Frame.gate ?_ ?_ | refine Frame.next ?_ | refine withOp_frame (fun _ => ?_) ?_
    | refine finish_frame ?_ ?_ ?_ ?_ ?_ | refine closeSoon_frame ?_ ?_ | refine Frame.ite ?_ ?_

theorem execQueryLocation_frame {p : Part → Prop} {r a0 s} (h_regs : p .regs) (h_host : p .host) (h_map : p .map) (h_str
    : p .str) (h : Frame p r s) : Frame p r (stateOf s (execQueryLocation a0 s)) := by
  unfold execQueryLocation
  repeat' with_reducible
    first
    | assumption | refine Frame.gate ?_ ?_ | refine Frame.next ?_ | refine withOp_frame (fun _ => ?_) ?_
    | refine park_frame ?_ ?_ ?_ | refine finish_frame ?_ ?_ ?_ ?_ ?_ | refine writeBuf_frame ?_ ?_ | split

theorem execSidingTimeout_frame {p : Part → Prop} {r a0 s} (h_regs : p .regs) (h_hlt : p .hlt) (h_host : p .host) (h_map
    : p .map) (h_str : p .str) (h : Frame p r s) : Frame p r (stateOf s (execSidingTimeout a0 s)) := by
  unfold execSidingTimeout
  repeat' with_reducible
    first
    | assumption | refine Frame.gate ?_ ?_ | refine Frame.next ?_ | refine finish_frame ?_ ?_ ?_ ?_ ?_
    | refine endRead_frame ?_ ?_ ?_ ?_ ?_ ?_ | split

/-! ### Resole -/

theorem showRebuild_frame {p : Part → Prop} {r s} (h_regs : p .regs) (h : Frame p r s) : Frame p r (showRebuild s) := by
  unfold showRebuild
  repeat' with_reducible first | assumption | refine State.putb_frame ?_ ?_ | refine State.put_frame ?_ ?_ | split

theorem onRebuild_frame {p : Part → Prop} {r a0 s} (h_regs : p .regs) (h_str : p .str) (h : Frame p r s) : Frame p r
    (onRebuild a0 s) := by
  unfold onRebuild
  repeat' with_reducible first | assumption | refine showRebuild_frame ?_ ?_ | refine State.onStr_frame ?_ ?_

theorem programRebuild_frame {p : Part → Prop} {r a0 s} (h_regs : p .regs) (h_str : p .str) (h : Frame p r s) : Frame p
    r (programRebuild a0 s) := by
  unfold programRebuild
  repeat' with_reducible
    first
    | assumption | refine weltFull_frame ?_ ?_ | split | refine weltProgram_frame ?_ ?_ (by assumption) ?_
    | refine Frame.getD (fun _ _ => ?_) ?_

theorem beginRebuild_frame {p : Part → Prop} {r a0 a1 a2 s} (h_regs : p .regs) (h_str : p .str) (h_all : ∀ k, p (.chan
    k)) (h : Frame p r s) : Frame p r (beginRebuild a0 a1 a2 s) := by
  unfold beginRebuild
  repeat' with_reducible
    first
    | assumption | refine onSet_frame ?_ ?_ | refine writeSetRecords_frame ?_ ?_ ?_ | refine State.onStr_frame ?_ ?_
    | refine showRebuild_frame ?_ ?_ | refine programRebuild_frame ?_ ?_ ?_

theorem execRebuildStart_frame {p : Part → Prop} {r a0 s} (h_regs : p .regs) (h_host : p .host) (h_map : p .map) (h_str
    : p .str) (h_all : ∀ k, p (.chan k)) (h : Frame p r s) : Frame p r (stateOf s (execRebuildStart a0 s)) := by
  unfold execRebuildStart
  repeat' with_reducible
    first
    | assumption | lift_lets -underBinder | (intro x; subst x) | refine Frame.gate ?_ ?_ | refine Frame.next ?_
    | refine releaseAll_frame ?_ ?_ | refine withOp_frame (fun _ => ?_) ?_ | refine finish_frame ?_ ?_ ?_ ?_ ?_
    | refine onCtx_frame ?_ ?_ ?_ | refine fillSet_frame ?_ ?_ ?_ | refine weltFull_frame ?_ ?_
    | refine beginRebuild_frame ?_ ?_ ?_ ?_ | split

theorem rebuildAt_frame {p : Part → Prop} {r a0 a1 a2 a3 a4 a5 a6 s} (h_regs : p .regs) (h_hlt : p .hlt) (h_str : p
    .str) (h : Frame p r s) : Frame p r (rebuildAt a0 a1 a2 a3 a4 a5 a6 s).2 := by
  unfold rebuildAt
  repeat' with_reducible
    first
    | assumption | refine rung5At_frame ?_ ?_ ?_ ?_ | split | refine Frame.snd2 (by assumption) ?_

theorem rebuildAll_frame {p : Part → Prop} {r k rb layer zone tile tiles l s}  (h_regs : p .regs) (h_hlt : p .hlt)
    (h_str : p .str) (h : Frame p r s) :
    Frame p r (rebuildAll k rb layer zone tile tiles l s).2 := by
  induction l generalizing s with
  | nil => exact h
  | cons i l ih =>
    unfold rebuildAll
    repeat' with_reducible first | assumption | refine ih ?_ | refine rebuildAt_frame ?_ ?_ ?_ ?_

theorem advance_frame {p : Part → Prop} {r s} (h_regs : p .regs) (h_str : p .str) (h : Frame p r s) : Frame p r (advance
    s) := by
  unfold advance
  repeat' with_reducible
    first
    | assumption | lift_lets -underBinder | (intro x; subst x) | refine onRebuild_frame ?_ ?_ ?_
    | refine programRebuild_frame ?_ ?_ ?_ | split

theorem replMissing_frame {p : Part → Prop} {r a0 a1 a2 s} (h_regs : p .regs) (h_str : p .str) (h : Frame p r s) : Frame
    p r (replMissing a0 a1 a2 s) := by
  unfold replMissing
  repeat' with_reducible
    first
    | assumption | lift_lets -underBinder | (intro x; subst x) | refine weltCopies_frame ?_ ?_
    | refine excAdd_frame ?_ ?_ ?_ | refine queueRewrite_frame ?_ ?_ ?_ | refine Frame.each (fun _ _ _ => ?_) ?_ | split

theorem endRebuild_frame {p : Part → Prop} {r a0 a1 s} (h_regs : p .regs) (h_host : p .host) (h_str : p .str) (h : Frame
    p r s) : Frame p r (endRebuild a0 a1 s) := by
  unfold endRebuild
  repeat' with_reducible
    first
    | assumption | refine showRebuild_frame ?_ ?_ | refine State.onStr_frame ?_ ?_ | refine postEvent_frame ?_ ?_ ?_
    | refine State.raise_frame ?_ ?_

theorem rebuildClose_frame {p : Part → Prop} {r a0 a1 s} (h_regs : p .regs) (h_str : p .str)
    (h_all : ∀ k, p (.chan k)) (h : Frame p r s) : Frame p r (rebuildClose a0 a1 s) := by
  unfold rebuildClose
  repeat' with_reducible
    first
    | assumption | exact h_all _ | refine writeMeta_frame ?_ ?_ | refine writeSetRecords_frame ?_ ?_ ?_
    | refine onSet_frame ?_ ?_ | refine programRebuild_frame ?_ ?_ ?_ | refine releaseAll_frame ?_ ?_ | refine Frame.ite ?_ ?_

theorem handRebuilt_frame {p : Part → Prop} {r a0 a1 a2 a3 s} (h_regs : p .regs) (h_hlt : p .hlt) (h_host : p .host)
    (h_str : p .str) (h_all : ∀ k, p (.chan k)) (h : Frame p r s) : Frame p r (handRebuilt a0 a1 a2 a3 s) := by
  unfold handRebuilt
  repeat' with_reducible
    first
    | assumption | exact h_all _ | refine endRebuild_frame ?_ ?_ ?_ ?_ | refine rebuildClose_frame ?_ ?_ ?_ ?_ | refine State.fault_frame ?_ ?_ | refine State.onStr_frame ?_ ?_
    | refine onRebuild_frame ?_ ?_ ?_ | refine State.raise_frame ?_ ?_ | refine State.put_frame ?_ ?_
    | refine State.bump_frame ?_ ?_ | refine setBlank_frame ?_ ?_ | refine handTile_frame ?_ ?_ | refine Frame.ite ?_ ?_

theorem rebuiltIndices_frame {p : Part → Prop} {r a0 a1 a2 s} (h_regs : p .regs) (h_hlt : p .hlt) (h_str : p .str) (h :
    Frame p r s) : Frame p r (rebuiltIndices a0 a1 a2 s).2 := by
  unfold rebuiltIndices
  repeat' with_reducible first | assumption | refine rebuildAll_frame ?_ ?_ ?_ ?_

theorem rebuildTile_frame {p : Part → Prop} {r a0 a1 a2 a3 s} (h_regs : p .regs) (h_hlt : p .hlt) (h_host : p .host)
    (h_str : p .str) (h_all : ∀ k, p (.chan k)) (h : Frame p r s) : Frame p r (rebuildTile a0 a1 a2 a3 s) := by
  unfold rebuildTile
  repeat' with_reducible
    first
    | assumption | refine rebuiltIndices_frame ?_ ?_ ?_ ?_ | refine handRebuilt_frame ?_ ?_ ?_ ?_ ?_ ?_

theorem rebuiltBlocks_frame {p : Part → Prop} {r a0 a1 a2 s} (h_regs : p .regs) (h_hlt : p .hlt) (h_str : p .str) (h :
    Frame p r s) : Frame p r (rebuiltBlocks a0 a1 a2 s).2 := by
  unfold rebuiltBlocks
  repeat' with_reducible first | assumption | refine rebuiltIndices_frame ?_ ?_ ?_ ?_ | split

theorem rebuildVerdict_frame {p : Part → Prop} {r a0 a1 a2 a3 s} (h_regs : p .regs) (h_hlt : p .hlt) (h_str : p .str)
    (h_c2 : p (.chan a2)) (h : Frame p r s) : Frame p r (rebuildVerdict a0 a1 a2 a3 s) := by
  unfold rebuildVerdict
  repeat' with_reducible
    first
    | assumption | refine State.onWrc_frame ?_ ?_ | refine advance_frame ?_ ?_ ?_
    | refine rebuiltBlocks_frame ?_ ?_ ?_ ?_ | refine replMissing_frame ?_ ?_ ?_ | split

theorem rebuildHome_frame {p : Part → Prop} {r a0 a1 s} (h_regs : p .regs) (h_map : p .map) (h_c1 : p (.chan a1))
    (h : Frame p r s) : Frame p r (rebuildHome a0 a1 s) := by
  unfold rebuildHome
  repeat' with_reducible
    first
    | assumption | refine moveHome_frame ?_ ?_ | refine State.raise_frame ?_ ?_
    | refine State.bump_frame ?_ ?_ | refine writeMeta_frame ?_ ?_ | refine State.onWrc_frame ?_ ?_
    | refine State.onDcm_frame ?_ ?_ | refine Frame.ite ?_ ?_

theorem rebuildEnd_frame {p : Part → Prop} {r a0 a1 a2 s} (h_regs : p .regs) (h_host : p .host) (h_map : p .map) (h_str
    : p .str) (h_all : ∀ k, p (.chan k)) (h : Frame p r s) : Frame p r (rebuildEnd a0 a1 a2 s) := by
  unfold rebuildEnd
  repeat' with_reducible
    first
    | assumption | lift_lets -underBinder | (intro x; subst x) | refine onRebuild_frame ?_ ?_ ?_
    | refine State.onMap_frame ?_ ?_ | refine endRebuild_frame ?_ ?_ ?_ ?_ | refine rebuildClose_frame ?_ ?_ ?_ ?_
    | refine rebuildHome_frame ?_ ?_ ?_ ?_ | exact h_all _ | split

theorem execRebuildPosition_frame {p : Part → Prop} {r a0 a1 s} (h_regs : p .regs) (h_hlt : p .hlt) (h_host : p .host)
    (h_map : p .map) (h_str : p .str) (h_all : ∀ k, p (.chan k)) (h : Frame p r s) : Frame p r (stateOf s
    (execRebuildPosition a0 a1 s)) := by
  unfold execRebuildPosition
  repeat' with_reducible
    first
    | assumption | exact h_all _ | lift_lets -underBinder | (intro x; subst x) | refine Frame.gate ?_ ?_
    | refine Frame.next ?_ | refine State.putb_frame ?_ ?_ | refine weltFull_frame ?_ ?_
    | refine rebuildVerdict_frame ?_ ?_ ?_ ?_ ?_ | refine rebuildEnd_frame ?_ ?_ ?_ ?_ ?_ ?_
    | refine advance_frame ?_ ?_ ?_ | refine rebuiltBlocks_frame ?_ ?_ ?_ ?_ | refine replMissing_frame ?_ ?_ ?_
    | refine rebuildTile_frame ?_ ?_ ?_ ?_ ?_ ?_ | split

end Sys2Proof.Machine
end

