-- ==== Sys2Proof/Laws/FrameAdmin.lean ====
section
/-! SUPPORT. What each operation of CalStore, Mount, Calib, Admin, Health, Record may change (`Frame`). -/

namespace Sys2Proof.Machine

/-! ### CalStore -/

theorem underDivert_frame {p : Part → Prop} {r f s}  (h_regs : p .regs) (h_fls : p .fls) (hf : ∀ s, Frame p r s → Frame
    p r (f s)) (h : Frame p r s) :
    Frame p r (underDivert f s) := by
  unfold underDivert
  repeat' with_reducible
    first
    | assumption | refine hf _ ?_ | refine divertEffect_frame ?_ ?_ ?_ | refine State.putb_frame ?_ ?_
    | refine Frame.ite ?_ ?_

theorem bothCopies_frame {p : Part → Prop} {r f s}  (h_regs : p .regs) (h_fls : p .fls) (hf : ∀ b s, Frame p r s → Frame
    p r (f b s)) (h : Frame p r s) :
    Frame p r (bothCopies f s) := by
  unfold bothCopies
  repeat' with_reducible first | assumption | refine hf _ _ ?_ | refine underDivert_frame ?_ ?_ (fun _ _ => ?_) ?_

theorem programWords_frame {p : Part → Prop} {r a0 a1 s} (h_regs : p .regs) (h_fls : p .fls) (h : Frame p r s) : Frame p
    r (programWords a0 a1 s) := by
  unfold programWords
  repeat' with_reducible
    first
    | assumption | refine State.bump_frame ?_ ?_ | refine flashPut_frame ?_ ?_ | refine Frame.foldl (fun _ _ _ => ?_) ?_

theorem calPut_frame {p : Part → Prop} {r a0 a1 a2 s} (h_regs : p .regs) (h_fls : p .fls) (h : Frame p r s) : Frame p r
    (calPut a0 a1 a2 s) := by
  unfold calPut
  repeat' with_reducible
    first
    | assumption | refine bothCopies_frame ?_ ?_ (fun _ _ _ => ?_) ?_ | refine programWords_frame ?_ ?_ ?_
    | refine Frame.ite ?_ ?_

theorem calErase_frame {p : Part → Prop} {r a0 s} (h_regs : p .regs) (h_map : p .map) (h_str : p .str) (h_fls : p .fls)
    (h : Frame p r s) : Frame p r (calErase a0 s) := by
  unfold calErase
  repeat' with_reducible
    first
    | assumption | refine bothCopies_frame ?_ ?_ (fun _ _ _ => ?_) ?_ | refine State.bump_frame ?_ ?_
    | refine eraseSector_frame ?_ ?_ ?_ ?_ | refine Frame.ite ?_ ?_

theorem calEnter_frame {p : Part → Prop} {r a0 s} (h_regs : p .regs) (h_map : p .map) (h_str : p .str) (h_fls : p .fls)
    (h : Frame p r s) : Frame p r (calEnter a0 s) := by
  unfold calEnter
  repeat' with_reducible
    first
    | assumption | refine calErase_frame ?_ ?_ ?_ ?_ ?_ | refine calPut_frame ?_ ?_ ?_
    | refine Frame.foldl (fun _ _ _ => ?_) ?_ | refine Frame.ite ?_ ?_

theorem calPlace_frame {p : Part → Prop} {r banks len mk k n s}  (h_regs : p .regs) (h_map : p .map) (h_str : p .str)
    (h_fls : p .fls) (h : Frame p r s) :
    Frame p r (calPlace banks len mk k n s) := by
  induction k generalizing n s with
  | zero => exact h
  | succ k ih =>
    unfold calPlace
    repeat' with_reducible
      first
      | assumption | refine ih ?_ | refine calPut_frame ?_ ?_ ?_ | refine calEnter_frame ?_ ?_ ?_ ?_ ?_
      | refine Frame.ite ?_ ?_

theorem calStore_frame {p : Part → Prop} {r a0 a1 s} (h_regs : p .regs) (h_map : p .map) (h_str : p .str) (h_fls : p
    .fls) (h : Frame p r s) : Frame p r (calStore a0 a1 s) := by
  unfold calStore
  repeat' with_reducible first | assumption | refine calPlace_frame ?_ ?_ ?_ ?_ ?_

theorem calRepair_frame {p : Part → Prop} {r s} (h_regs : p .regs) (h_map : p .map) (h_str : p .str) (h_fls : p .fls) (h
    : Frame p r s) : Frame p r (calRepair s) := by
  unfold calRepair
  repeat' with_reducible
    first
    | assumption | lift_lets -underBinder | (intro x; subst x) | refine calPlace_frame ?_ ?_ ?_ ?_ ?_
    | refine Frame.foldlSnd (fun _ _ _ => ?_) ?_ | split

theorem storeMain_frame {p : Part → Prop} {r a0 a1 s} (h_regs : p .regs) (h_map : p .map) (h_str : p .str) (h_fls : p
    .fls) (h : Frame p r s) : Frame p r (storeMain a0 a1 s) := by
  unfold storeMain
  repeat' with_reducible first | assumption | refine calStore_frame ?_ ?_ ?_ ?_ ?_

theorem storeTable_frame {p : Part → Prop} {r a0 s} (h_regs : p .regs) (h_map : p .map) (h_str : p .str) (h_fls : p
    .fls) (h : Frame p r s) : Frame p r (storeTable a0 s) := by
  unfold storeTable
  repeat' with_reducible first | assumption | refine calStore_frame ?_ ?_ ?_ ?_ ?_

/-! ### Mount -/

theorem dropDisc_frame {p : Part → Prop} {r a0 s} (h_regs : p .regs) (h_locks : p .locks) (h_hlt : p .hlt) (h_c0 : p
    (.chan a0)) (h : Frame p r s) : Frame p r (dropDisc a0 s) := by
  unfold dropDisc
  repeat' with_reducible
    first
    | assumption | refine setDisc_frame ?_ ?_ | refine setLoaded_frame ?_ ?_ ?_ ?_ | refine State.onDcm_frame ?_ ?_
    | refine State.onWrc_frame ?_ ?_ | refine State.onRdc_frame ?_ ?_

theorem ensureDiscs_frame {p : Part → Prop} {r t} {l : List (Nat × Patch × Nat)} {o : Option State} (h_map : p .map)
    (ho : ∀ s, o = some s → Frame p r s)
    (e : l.foldl (fun (o : Option State) (q : Nat × Patch × Nat) =>
      o.bind (fun s => (ensureDisc q.2.1.idx q.2.2 s).map (·.2))) o = some t) : Frame p r t := by
  induction l generalizing o with
  | nil => exact ho t e
  | cons q l ih =>
    refine ih ?_ e
    intro s hs
    obtain ⟨s', h1, h2⟩ := Option.bind_eq_some_iff.mp hs
    obtain ⟨x, hx, e⟩ := Option.map_eq_some_iff.mp h2
    cases e
    exact ensureDisc_frame h_map hx (ho _ h1)

theorem loadItem_frame {p : Part → Prop} {r a disc i s t}  (h_hlt : p .hlt) (h_map : p .map) (e : loadItem a disc i s =
    some t)
    (h : Frame p r s) : Frame p r t := by
  unfold loadItem at e
  split at e
  · cases e
    repeat' with_reducible first | assumption | refine storeExt_frame ?_ ?_ ?_
  · obtain ⟨s', h1, h2⟩ := Option.bind_eq_some_iff.mp e
    obtain ⟨x, hx, e⟩ := Option.map_eq_some_iff.mp h2
    cases e
    refine takePage_frame h_map hx (ensureDiscs_frame h_map ?_ h1)
    intro u hu
    cases hu
    exact dropPage_frame h_map h

theorem applyPending_frame {p : Part → Prop} {r a c s t}  (h_regs : p .regs) (h_hlt : p .hlt) (h_map : p .map) (e :
    applyPending a c s = some t)
    (h : Frame p r s) : Frame p r t := by
  unfold applyPending at e
  split at e
  · cases e
    repeat' with_reducible first | assumption | refine storeExt_frame ?_ ?_ ?_
  · exact storePatch_frame h_regs h_map e h
  · cases e; exact h

theorem applyPendings_frame {p : Part → Prop} {r a t} {l : List (Nat × Change)} {o : Option State} (h_regs : p .regs)
    (h_hlt : p .hlt) (h_map : p .map) (ho : ∀ s, o = some s → Frame p r s)
    (e : l.foldl (fun (o : Option State) q => o.bind (applyPending a q.2)) o = some t) : Frame p r t := by
  induction l generalizing o with
  | nil => exact ho t e
  | cons q l ih =>
    refine ih ?_ e
    intro s hs
    obtain ⟨s', h1, h2⟩ := Option.bind_eq_some_iff.mp hs
    exact applyPending_frame h_regs h_hlt h_map h2 (ho _ h1)

theorem applyHeld_frame {p : Part → Prop} {r a s t}  (h_regs : p .regs) (h_hlt : p .hlt) (h_map : p .map) (e : applyHeld
    a s = some t)
    (h : Frame p r s) : Frame p r t := by
  unfold applyHeld at e
  refine applyPendings_frame h_regs h_hlt h_map ?_ e
  intro u hu
  cases hu
  exact State.onMap_frame h_map h

theorem loadExtent_frame {p : Part → Prop} {r a0 a1 a2 s} (h_regs : p .regs) (h_hlt : p .hlt) (h_map : p .map) (h :
    Frame p r s) : Frame p r (loadExtent a0 a1 a2 s) := by
  unfold loadExtent
  repeat' with_reducible
    first
    | assumption | lift_lets -underBinder | (intro x; subst x) | refine State.raise_frame ?_ ?_
    | refine State.bump_frame ?_ ?_ | refine setExt_frame ?_ ?_ | split | refine loadItem_frame ?_ ?_ (by assumption) ?_
    | refine applyHeld_frame ?_ ?_ ?_ (by assumption) ?_
    | refine Frame.bind (fun _ _ _ _ => ?_) (fun _ _ => ?_) (by assumption) | refine Frame.ofSome (by assumption) ?_
    | refine Frame.getD (fun _ _ => ?_) ?_

theorem loadImport_frame {p : Part → Prop} {r a0 a1 a2 s} (h_regs : p .regs) (h_hlt : p .hlt) (h_map : p .map) (h :
    Frame p r s) : Frame p r (loadImport a0 a1 a2 s) := by
  unfold loadImport
  repeat' with_reducible
    first
    | assumption | lift_lets -underBinder | (intro x; subst x) | refine State.raise_frame ?_ ?_
    | refine onNs_frame ?_ ?_ | refine Frame.each (fun _ _ _ => ?_) ?_ | split
    | refine loadItem_frame ?_ ?_ (by assumption) ?_

theorem loadCheckpoint_frame {p : Part → Prop} {r a0 a1 s} (h_regs : p .regs) (h_hlt : p .hlt) (h_map : p .map) (h :
    Frame p r s) : Frame p r (loadCheckpoint a0 a1 s) := by
  unfold loadCheckpoint
  repeat' with_reducible
    first
    | assumption | refine markItems_frame ?_ ?_ | refine loadExtent_frame ?_ ?_ ?_ ?_ | refine showMap_frame ?_ ?_
    | refine loadImport_frame ?_ ?_ ?_ ?_ | refine Frame.each (fun _ _ _ => ?_) ?_

theorem takeSet_frame {p : Part → Prop} {r a0 s} (h_str : p .str) (h : Frame p r s) : Frame p r (takeSet a0 s) := by
  unfold takeSet
  repeat' with_reducible
    first
    | assumption | lift_lets -underBinder | (intro x; subst x) | refine State.onStr_frame ?_ ?_
    | refine onSet_frame ?_ ?_ | split

theorem judgeSet_frame {p : Part → Prop} {r a0 s} (h_str : p .str) (h_all : ∀ k, p (.chan k)) (h : Frame p r s) : Frame
    p r (judgeSet a0 s) := by
  unfold judgeSet
  repeat' with_reducible first | assumption | refine fillSet_frame ?_ ?_ ?_ | refine onSet_frame ?_ ?_ | split

theorem refreshSet_frame {p : Part → Prop} {r a0 a1 s} (h_str : p .str) (h_c0 : p (.chan a0)) (h : Frame p r s) : Frame
    p r (refreshSet a0 a1 s) := by
  unfold refreshSet
  repeat' with_reducible
    first
    | assumption | lift_lets -underBinder | (intro x; subst x) | refine onSet_frame ?_ ?_ | refine writeMeta_frame ?_ ?_
    | split

theorem weltVote_frame {p : Part → Prop} {r a0 a1 s} (h_regs : p .regs) (h_str : p .str) (h : Frame p r s) : Frame p r
    (weltVote a0 a1 s) := by
  unfold weltVote
  repeat' with_reducible
    first
    | assumption | refine State.onStr_frame ?_ ?_ | refine State.bump_frame ?_ ?_ | refine State.put_frame ?_ ?_
    | refine Frame.each (fun _ _ _ => ?_) ?_ | split

theorem loadExceptions_frame {p : Part → Prop} {r a0 a1 s} (h_regs : p .regs) (h_str : p .str) (h : Frame p r s) : Frame
    p r (loadExceptions a0 a1 s) := by
  unfold loadExceptions
  repeat' with_reducible
    first
    | assumption | refine excAdd_frame ?_ ?_ ?_ | refine Frame.each (fun _ _ _ => ?_) ?_ | split

theorem recoverFlight_frame {p : Part → Prop} {r a0 s} (h_regs : p .regs) (h_str : p .str) (h : Frame p r s) : Frame p r
    (recoverFlight a0 s) := by
  unfold recoverFlight
  repeat' with_reducible
    first
    | assumption | lift_lets -underBinder | (intro x; subst x) | refine weltFull_frame ?_ ?_
    | refine State.bump_frame ?_ ?_ | refine Frame.each (fun _ _ _ => ?_) ?_ | split
    | refine weltProgram_frame ?_ ?_ (by assumption) ?_

theorem resumeRebuild_frame {p : Part → Prop} {r s} (h_regs : p .regs) (h_str : p .str) (h : Frame p r s) : Frame p r
    (resumeRebuild s) := by
  unfold resumeRebuild
  repeat' with_reducible
    first
    | assumption | lift_lets -underBinder | (intro x; subst x) | refine showRebuild_frame ?_ ?_
    | refine State.onStr_frame ?_ ?_ | split

theorem mountBegin_frame {p : Part → Prop} {r a0 s} (h_regs : p .regs) (h_locks : p .locks) (h_hlt : p .hlt) (h_host : p
    .host) (h_all : ∀ k, p (.chan k)) (h : Frame p r s) : Frame p r (mountBegin a0 s) := by
  unfold mountBegin
  repeat' with_reducible
    first
    | assumption | exact h_all _ | refine onCtx_frame ?_ ?_ ?_ | refine setDisc_frame ?_ ?_
    | refine setLoaded_frame ?_ ?_ ?_ ?_ | refine State.onDcm_frame ?_ ?_ | refine State.seqPut_frame ?_ ?_ ?_ ?_
    | refine headTo_frame ?_ ?_ ?_ ?_

theorem initDisc_frame {p : Part → Prop} {r a0 s} (h_regs : p .regs) (h_str : p .str) (h_c0 : p (.chan a0)) (h : Frame p
    r s) : Frame p r (initDisc a0 s) := by
  unfold initDisc
  repeat' with_reducible
    first
    | assumption | refine setDisc_frame ?_ ?_ | refine State.onStr_frame ?_ ?_ | refine State.onDcm_frame ?_ ?_

theorem readDisc_frame {p : Part → Prop} {r a0 a1 a2 s} (h_regs : p .regs) (h_hlt : p .hlt) (h_map : p .map) (h_str : p
    .str) (h_c0 : p (.chan a0)) (h : Frame p r s) : Frame p r (readDisc a0 a1 a2 s) := by
  unfold readDisc
  repeat' with_reducible
    first
    | assumption | refine State.onDcm_frame ?_ ?_ | refine State.onWrc_frame ?_ ?_ | refine State.bump_frame ?_ ?_
    | refine takeSet_frame ?_ ?_ | refine loadCheckpoint_frame ?_ ?_ ?_ ?_ | refine loadExceptions_frame ?_ ?_ ?_
    | refine weltVote_frame ?_ ?_ ?_

theorem mountEnd_frame {p : Part → Prop} {r a0 a1 a2 s} (h_regs : p .regs) (h_locks : p .locks) (h_hlt : p .hlt) (h_host
    : p .host) (h_map : p .map) (h_str : p .str) (h_all : ∀ k, p (.chan k)) (h : Frame p r s) : Frame p r (mountEnd a0
    a1 a2 s) := by
  unfold mountEnd
  repeat' with_reducible
    first
    | assumption | exact h_all _ | refine State.seqPut_frame ?_ ?_ ?_ ?_ | refine State.onDcm_frame ?_ ?_
    | refine refreshSet_frame ?_ ?_ ?_ | refine judgeSet_frame ?_ ?_ ?_ | refine resumeRebuild_frame ?_ ?_ ?_
    | refine recoverFlight_frame ?_ ?_ ?_ | refine sidingRelease_frame ?_ ?_ ?_ | refine finish_frame ?_ ?_ ?_ ?_ ?_
    | refine serveChannels_frame ?_ ?_ ?_ ?_ | split

theorem mountRead_frame {p : Part → Prop} {r a0 a1 a2 s} (h_regs : p .regs) (h_locks : p .locks) (h_hlt : p .hlt)
    (h_host : p .host) (h_map : p .map) (h_str : p .str) (h_all : ∀ k, p (.chan k)) (h : Frame p r s) : Frame p r
    (mountRead a0 a1 a2 s) := by
  unfold mountRead
  repeat' with_reducible
    first
    | assumption | exact h_all _ | lift_lets -underBinder | (intro x; subst x) | refine fallback_frame ?_ ?_ ?_ ?_ ?_
    | refine finish_frame ?_ ?_ ?_ ?_ ?_ | refine dropDisc_frame ?_ ?_ ?_ ?_ ?_
    | refine mountEnd_frame ?_ ?_ ?_ ?_ ?_ ?_ ?_ ?_ | refine readDisc_frame ?_ ?_ ?_ ?_ ?_ ?_
    | refine initDisc_frame ?_ ?_ ?_ ?_ | split

theorem execMountNotify_frame {p : Part → Prop} {r a0 a1 s} (h_regs : p .regs) (h_locks : p .locks) (h_hlt : p .hlt)
    (h_host : p .host) (h_map : p .map) (h_str : p .str) (h_all : ∀ k, p (.chan k)) (h : Frame p r s) : Frame p r
    (stateOf s (execMountNotify a0 a1 s)) := by
  unfold execMountNotify
  repeat' with_reducible
    first
    | assumption | exact h_all _ | lift_lets -underBinder | (intro x; subst x) | refine Frame.gate ?_ ?_
    | refine Frame.next ?_ | refine withOp_frame (fun _ => ?_) ?_ | refine finish_frame ?_ ?_ ?_ ?_ ?_
    | refine mountBegin_frame ?_ ?_ ?_ ?_ ?_ ?_ | refine dropDisc_frame ?_ ?_ ?_ ?_ ?_
    | refine mountRead_frame ?_ ?_ ?_ ?_ ?_ ?_ ?_ ?_ | split

theorem relocsDark_frame {p : Part → Prop} {r a0 s} (h_regs : p .regs) (h_c0 : p (.chan a0)) (h : Frame p r s) : Frame p
    r (relocsDark a0 s) := by
  unfold relocsDark
  repeat' with_reducible
    first
    | assumption | refine State.bump_frame ?_ ?_ | refine showReloc_frame ?_ ?_ | refine State.onWrc_frame ?_ ?_

theorem unmountBrake_frame {p : Part → Prop} {r a0 a1 s} (h_regs : p .regs) (h_locks : p .locks) (h_hlt : p .hlt) (h_c0
    : p (.chan a0)) (h : Frame p r s) : Frame p r (unmountBrake a0 a1 s) := by
  unfold unmountBrake
  repeat' with_reducible first | assumption | refine headTo_frame ?_ ?_ ?_ ?_ | refine State.onDcm_frame ?_ ?_

theorem storeTaps_frame {p : Part → Prop} {r a0 s} (h_regs : p .regs) (h_map : p .map) (h_str : p .str) (h_fls : p .fls)
    (h_cal : p .cal) (h_c0 : p (.chan a0)) (h : Frame p r s) : Frame p r (storeTaps a0 s) := by
  unfold storeTaps
  repeat' with_reducible
    first
    | assumption | refine State.onDcm_frame ?_ ?_ | refine storeTable_frame ?_ ?_ ?_ ?_ ?_ | refine Frame.ite ?_ ?_
    | refine Frame.upd rfl rfl rfl ?_ ?_ ?_ ?_ ?_ ?_ ?_ ?_ ?_ ?_ ?_ ?_ ?_ ?_ ?_ ?_ ?_ ?_ | exact Or.inl rfl
    | exact Or.inr (by assumption)

theorem unmountEnd_frame {p : Part → Prop} {r a0 a1 s} (h_regs : p .regs) (h_locks : p .locks) (h_hlt : p .hlt) (h_host
    : p .host) (h_map : p .map) (h_str : p .str) (h_fls : p .fls) (h_cal : p .cal) (h_c1 : p (.chan a1)) (h : Frame p r
    s) : Frame p r (unmountEnd a0 a1 s) := by
  unfold unmountEnd
  repeat' with_reducible
    first
    | assumption | refine storeTaps_frame ?_ ?_ ?_ ?_ ?_ ?_ ?_ | refine dropDisc_frame ?_ ?_ ?_ ?_ ?_
    | refine State.seqPut_frame ?_ ?_ ?_ ?_ | refine finish_frame ?_ ?_ ?_ ?_ ?_ | refine Frame.ite ?_ ?_

theorem unmountOn_frame {p : Part → Prop} {r a0 a1 s} (h_regs : p .regs) (h_locks : p .locks) (h_hlt : p .hlt) (h_host :
    p .host) (h_map : p .map) (h_str : p .str) (h_fls : p .fls) (h_cal : p .cal) (h_c1 : p (.chan a1)) (h : Frame p r s)
    : Frame p r (unmountOn a0 a1 s) := by
  unfold unmountOn
  repeat' with_reducible
    first
    | assumption | refine State.onDcm_frame ?_ ?_ | refine unmountBrake_frame ?_ ?_ ?_ ?_ ?_
    | refine relocsDark_frame ?_ ?_ ?_ | refine State.onWrc_frame ?_ ?_ | refine serveMeta_frame ?_ ?_ ?_
    | refine writeCheckpoint_frame ?_ ?_ ?_ ?_ | refine unmountEnd_frame ?_ ?_ ?_ ?_ ?_ ?_ ?_ ?_ ?_ ?_
    | refine Frame.ite ?_ ?_

theorem execUnmount_frame {p : Part → Prop} {r a0 s} (h_regs : p .regs) (h_locks : p .locks) (h_hlt : p .hlt) (h_host :
    p .host) (h_map : p .map) (h_str : p .str) (h_fls : p .fls) (h_cal : p .cal) (h_all : ∀ k, p (.chan k)) (h : Frame p
    r s) : Frame p r (stateOf s (execUnmount a0 s)) := by
  unfold execUnmount
  repeat' with_reducible
    first
    | assumption | exact h_all _ | refine Frame.gate ?_ ?_ | refine Frame.next ?_ | refine withOp_frame (fun _ => ?_) ?_
    | refine onCtx_frame ?_ ?_ ?_ | refine finish_frame ?_ ?_ ?_ ?_ ?_ | refine dropDisc_frame ?_ ?_ ?_ ?_ ?_
    | refine State.seqPut_frame ?_ ?_ ?_ ?_ | refine headTo_frame ?_ ?_ ?_ ?_
    | refine unmountOn_frame ?_ ?_ ?_ ?_ ?_ ?_ ?_ ?_ ?_ ?_ | refine Frame.ite ?_ ?_

/-! ### Calib -/

theorem State.onCal_frame {p : Part → Prop} {r s a1} (h_cal : p .cal) (h : Frame p r s) : Frame p r (State.onCal s a1)
    := by
  unfold State.onCal
  repeat' with_reducible
    first
    | assumption | refine Frame.upd rfl rfl rfl ?_ ?_ ?_ ?_ ?_ ?_ ?_ ?_ ?_ ?_ ?_ ?_ ?_ ?_ ?_ ?_ ?_ ?_ | exact Or.inl rfl
    | exact Or.inr (by assumption)

theorem State.onCalCh_frame {p : Part → Prop} {r s a1 a2} (h_cal : p .cal) (h : Frame p r s) : Frame p r (State.onCalCh
    s a1 a2) := by
  unfold State.onCalCh
  repeat' with_reducible first | assumption | refine State.onCal_frame ?_ ?_

theorem onRun_frame {p : Part → Prop} {r a0 a1 s} (h_cal : p .cal) (h : Frame p r s) : Frame p r (onRun a0 a1 s) := by
  unfold onRun
  repeat' with_reducible first | assumption | refine State.onCal_frame ?_ ?_

theorem showRun_frame {p : Part → Prop} {r a0 a1 s} (h_regs : p .regs) (h : Frame p r s) : Frame p r (showRun a0 a1 s)
    := by
  unfold showRun
  repeat' with_reducible first | assumption | refine State.putb_frame ?_ ?_ | refine State.put_frame ?_ ?_ | split

theorem giveBack_frame {p : Part → Prop} {r a0 s} (h_regs : p .regs) (h_locks : p .locks) (h_hlt : p .hlt) (h : Frame p
    r s) : Frame p r (giveBack a0 s) := by
  unfold giveBack
  repeat' with_reducible
    first
    | assumption | refine State.put_frame ?_ ?_ | refine State.seqPut_frame ?_ ?_ ?_ ?_ | split

theorem endRun_frame {p : Part → Prop} {r a0 a1 a2 s} (h_regs : p .regs) (h_locks : p .locks) (h_hlt : p .hlt) (h_host :
    p .host) (h_map : p .map) (h_str : p .str) (h_cal : p .cal) (h : Frame p r s) : Frame p r (endRun a0 a1 a2 s) := by
  unfold endRun
  repeat' with_reducible
    first
    | assumption | refine State.onCal_frame ?_ ?_ | refine giveBack_frame ?_ ?_ ?_ ?_ | refine showRun_frame ?_ ?_
    | refine State.raise_frame ?_ ?_ | refine State.bump_frame ?_ ?_ | refine finishId_frame ?_ ?_ ?_ ?_ ?_ | split

theorem endByOutcome_frame {p : Part → Prop} {r a0 s} (h_regs : p .regs) (h_locks : p .locks) (h_hlt : p .hlt) (h_host :
    p .host) (h_map : p .map) (h_str : p .str) (h_cal : p .cal) (h : Frame p r s) : Frame p r (endByOutcome a0 s) := by
  unfold endByOutcome
  repeat' with_reducible first | assumption | refine endRun_frame ?_ ?_ ?_ ?_ ?_ ?_ ?_ ?_ | split

theorem calReject_frame {p : Part → Prop} {r a0 a1 a2 s} (h_regs : p .regs) (h_hlt : p .hlt) (h : Frame p r s) : Frame p
    r (calReject a0 a1 a2 s) := by
  unfold calReject
  repeat' with_reducible
    first
    | assumption | refine State.put_frame ?_ ?_ | refine State.raise_frame ?_ ?_ | refine State.bump_frame ?_ ?_
    | refine State.fault_frame ?_ ?_

theorem loseRun_frame {p : Part → Prop} {r a0 s} (h_regs : p .regs) (h_locks : p .locks) (h_hlt : p .hlt) (h_host : p
    .host) (h_map : p .map) (h_str : p .str) (h_cal : p .cal) (h : Frame p r s) : Frame p r (loseRun a0 s) := by
  unfold loseRun
  repeat' with_reducible first | assumption | refine endRun_frame ?_ ?_ ?_ ?_ ?_ ?_ ?_ ?_ | split

theorem refuseRun_frame {p : Part → Prop} {r a0 a1 a2 s} (h_regs : p .regs) (h_host : p .host) (h_map : p .map) (h_str :
    p .str) (h_cal : p .cal) (h : Frame p r s) : Frame p r (refuseRun a0 a1 a2 s) := by
  unfold refuseRun
  repeat' with_reducible
    first
    | assumption | refine State.onCal_frame ?_ ?_ | refine finishId_frame ?_ ?_ ?_ ?_ ?_ | split

theorem askCalibrate_frame {p : Part → Prop} {r a0 s} (h_regs : p .regs) (h_locks : p .locks) (h_hlt : p .hlt) (h_cal :
    p .cal) (h : Frame p r s) : Frame p r (askCalibrate a0 s) := by
  unfold askCalibrate
  repeat' with_reducible
    first
    | assumption | refine State.onCalCh_frame ?_ ?_ | refine State.seqPut_frame ?_ ?_ ?_ ?_
    | refine State.put_frame ?_ ?_

theorem beginRun_frame {p : Part → Prop} {r a0 s} (h_regs : p .regs) (h_locks : p .locks) (h_hlt : p .hlt) (h_host : p
    .host) (h_map : p .map) (h_str : p .str) (h_cal : p .cal) (h_all : ∀ k, p (.chan k)) (h : Frame p r s) : Frame p r
    (beginRun a0 s) := by
  unfold beginRun
  repeat' with_reducible
    first
    | assumption | exact h_all _ | refine State.onCal_frame ?_ ?_ | refine onCtx_frame ?_ ?_ ?_
    | refine showRun_frame ?_ ?_ | refine refuseRun_frame ?_ ?_ ?_ ?_ ?_ ?_ | refine State.onDcm_frame ?_ ?_
    | refine askCalibrate_frame ?_ ?_ ?_ ?_ ?_ | split

theorem pruneRuns_frame {p : Part → Prop} {r s} (h_cal : p .cal) (h : Frame p r s) : Frame p r (pruneRuns s) := by
  unfold pruneRuns
  repeat' with_reducible first | assumption | refine State.onCal_frame ?_ ?_

theorem tryBegin_frame {p : Part → Prop} {r a0 s} (h_regs : p .regs) (h_locks : p .locks) (h_hlt : p .hlt) (h_host : p
    .host) (h_map : p .map) (h_str : p .str) (h_cal : p .cal) (h_all : ∀ k, p (.chan k)) (h : Frame p r s) : Frame p r
    (tryBegin a0 s) := by
  unfold tryBegin
  repeat' with_reducible first | assumption | refine beginRun_frame ?_ ?_ ?_ ?_ ?_ ?_ ?_ ?_ ?_ | refine Frame.ite ?_ ?_

theorem execCalibrate_frame {p : Part → Prop} {r a0 s} (h_regs : p .regs) (h_locks : p .locks) (h_hlt : p .hlt) (h_host
    : p .host) (h_map : p .map) (h_str : p .str) (h_cal : p .cal) (h_all : ∀ k, p (.chan k)) (h : Frame p r s) : Frame p
    r (stateOf s (execCalibrate a0 s)) := by
  unfold execCalibrate
  repeat' with_reducible
    first
    | assumption | lift_lets -underBinder | (intro x; subst x) | refine Frame.gate ?_ ?_ | refine Frame.next ?_
    | refine withOp_frame (fun _ => ?_) ?_ | refine pruneRuns_frame ?_ ?_ | refine loseRun_frame ?_ ?_ ?_ ?_ ?_ ?_ ?_ ?_
    | refine tryBegin_frame ?_ ?_ ?_ ?_ ?_ ?_ ?_ ?_ ?_ | refine finish_frame ?_ ?_ ?_ ?_ ?_
    | refine State.onCal_frame ?_ ?_ | split

theorem abortRuns_frame {p : Part → Prop} {r s} (h_regs : p .regs) (h_locks : p .locks) (h_hlt : p .hlt) (h_host : p
    .host) (h_map : p .map) (h_str : p .str) (h_cal : p .cal) (h : Frame p r s) : Frame p r (abortRuns s) := by
  unfold abortRuns
  repeat' with_reducible
    first
    | assumption | refine endRun_frame ?_ ?_ ?_ ?_ ?_ ?_ ?_ ?_ | refine Frame.each (fun _ _ _ => ?_) ?_

theorem showResults_frame {p : Part → Prop} {r a0 s} (h_regs : p .regs) (h : Frame p r s) : Frame p r (showResults a0 s)
    := by
  unfold showResults
  repeat' with_reducible
    first
    | assumption | refine State.put_frame ?_ ?_ | refine State.putb_frame ?_ ?_ | refine Frame.each (fun _ _ _ => ?_) ?_
    | refine Frame.ite ?_ ?_

theorem takeResults_frame {p : Part → Prop} {r a0 a1 s} (h_regs : p .regs) (h_cal : p .cal) (h : Frame p r s) : Frame p
    r (takeResults a0 a1 s) := by
  unfold takeResults
  repeat' with_reducible first | assumption | refine showResults_frame ?_ ?_ | refine State.onCalCh_frame ?_ ?_

theorem storeResults_frame {p : Part → Prop} {r a0 s} (h_regs : p .regs) (h_map : p .map) (h_str : p .str) (h_fls : p
    .fls) (h_cal : p .cal) (h : Frame p r s) : Frame p r (storeResults a0 s) := by
  unfold storeResults
  repeat' with_reducible
    first
    | assumption | refine storeMain_frame ?_ ?_ ?_ ?_ ?_ | refine takeResults_frame ?_ ?_ ?_ | split

theorem refCheck_frame {p : Part → Prop} {r a0 s} (h_regs : p .regs) (h_hlt : p .hlt) (h_cal : p .cal) (h : Frame p r s)
    : Frame p r (refCheck a0 s).2 := by
  unfold refCheck
  repeat' with_reducible
    first
    | assumption | lift_lets -underBinder | (intro x; subst x) | refine State.put_frame ?_ ?_
    | refine State.putb_frame ?_ ?_ | refine State.onCal_frame ?_ ?_ | refine State.fault_frame ?_ ?_ | split

theorem measureEnd_frame {p : Part → Prop} {r a0 a1 a2 s} (h_regs : p .regs) (h_locks : p .locks) (h_hlt : p .hlt)
    (h_host : p .host) (h_map : p .map) (h_str : p .str) (h_fls : p .fls) (h_cal : p .cal) (h : Frame p r s) : Frame p r
    (measureEnd a0 a1 a2 s) := by
  unfold measureEnd
  repeat' with_reducible
    first
    | assumption | lift_lets -underBinder | (intro x; subst x) | refine onRun_frame ?_ ?_
    | refine calReject_frame ?_ ?_ ?_ | refine endByOutcome_frame ?_ ?_ ?_ ?_ ?_ ?_ ?_ ?_
    | refine storeResults_frame ?_ ?_ ?_ ?_ ?_ ?_ | split

theorem measure_frame {p : Part → Prop} {r chan m ref f s}  (h_regs : p .regs) (h_locks : p .locks) (h_hlt : p .hlt)
    (h_host : p .host) (h_map : p .map) (h_str : p .str) (h_fls : p .fls) (h_cal : p .cal) (h_all : ∀ k, p (.chan k))
    (hf : ∀ s, Frame p r s → Frame p r (f s).2)
    (h : Frame p r s) : Frame p r (measure chan m ref f s) := by
  unfold measure
  repeat' with_reducible
    first
    | assumption | exact h_all _ | refine hf _ ?_ | refine loseRun_frame ?_ ?_ ?_ ?_ ?_ ?_ ?_ ?_
    | refine refCheck_frame ?_ ?_ ?_ ?_ | refine onRun_frame ?_ ?_ | refine calReject_frame ?_ ?_ ?_
    | refine endByOutcome_frame ?_ ?_ ?_ ?_ ?_ ?_ ?_ ?_ | refine State.onDcm_frame ?_ ?_
    | refine measureEnd_frame ?_ ?_ ?_ ?_ ?_ ?_ ?_ ?_ ?_ | refine Frame.ite ?_ ?_ | split

theorem execCalRef_frame {p : Part → Prop} {r a0 s} (h_regs : p .regs) (h_locks : p .locks) (h_hlt : p .hlt) (h_host : p
    .host) (h_map : p .map) (h_str : p .str) (h_fls : p .fls) (h_cal : p .cal) (h_all : ∀ k, p (.chan k)) (h : Frame p r
    s) : Frame p r (stateOf s (execCalRef a0 s)) := by
  unfold execCalRef
  repeat' with_reducible
    first
    | assumption | refine Frame.gate ?_ ?_ | refine Frame.next ?_
    | refine measure_frame ?_ ?_ ?_ ?_ ?_ ?_ ?_ ?_ ?_ (fun _ _ => ?_) ?_

theorem applyTrims_frame {p : Part → Prop} {r a0 a1 s} (h_regs : p .regs) (h_locks : p .locks) (h_hlt : p .hlt) (h :
    Frame p r s) : Frame p r (applyTrims a0 a1 s).2 := by
  unfold applyTrims
  repeat' with_reducible
    first
    | assumption | refine State.seqPut_frame ?_ ?_ ?_ ?_ | refine Frame.each (fun _ _ _ => ?_) ?_ | split

theorem execCalAfe_frame {p : Part → Prop} {r a0 a1 a2 s} (h_regs : p .regs) (h_locks : p .locks) (h_hlt : p .hlt)
    (h_host : p .host) (h_map : p .map) (h_str : p .str) (h_fls : p .fls) (h_cal : p .cal) (h_all : ∀ k, p (.chan k)) (h
    : Frame p r s) : Frame p r (stateOf s (execCalAfe a0 a1 a2 s)) := by
  unfold execCalAfe
  repeat' with_reducible
    first
    | assumption | refine Frame.gate ?_ ?_ | refine Frame.next ?_
    | refine measure_frame ?_ ?_ ?_ ?_ ?_ ?_ ?_ ?_ ?_ (fun _ _ => ?_) ?_ | refine applyTrims_frame ?_ ?_ ?_ ?_

theorem execCalServoOfs_frame {p : Part → Prop} {r a0 a1 a2 s} (h_regs : p .regs) (h_locks : p .locks) (h_hlt : p .hlt)
    (h_host : p .host) (h_map : p .map) (h_str : p .str) (h_fls : p .fls) (h_cal : p .cal) (h_all : ∀ k, p (.chan k)) (h
    : Frame p r s) : Frame p r (stateOf s (execCalServoOfs a0 a1 a2 s)) := by
  unfold execCalServoOfs
  repeat' with_reducible
    first
    | assumption | refine Frame.gate ?_ ?_ | refine Frame.next ?_
    | refine measure_frame ?_ ?_ ?_ ?_ ?_ ?_ ?_ ?_ ?_ (fun _ _ => ?_) ?_ | refine applyTrims_frame ?_ ?_ ?_ ?_

theorem execCalMonitor_frame {p : Part → Prop} {r a0 a1 a2 a3 s} (h_regs : p .regs) (h_locks : p .locks) (h_hlt : p
    .hlt) (h_host : p .host) (h_map : p .map) (h_str : p .str) (h_fls : p .fls) (h_cal : p .cal) (h_all : ∀ k, p (.chan
    k)) (h : Frame p r s) : Frame p r (stateOf s (execCalMonitor a0 a1 a2 a3 s)) := by
  unfold execCalMonitor
  repeat' with_reducible
    first
    | assumption | refine Frame.gate ?_ ?_ | refine Frame.next ?_
    | refine measure_frame ?_ ?_ ?_ ?_ ?_ ?_ ?_ ?_ ?_ (fun _ _ => ?_) ?_ | refine applyTrims_frame ?_ ?_ ?_ ?_

theorem execCalShunt_frame {p : Part → Prop} {r a0 a1 a2 a3 s} (h_regs : p .regs) (h_locks : p .locks) (h_hlt : p .hlt)
    (h_host : p .host) (h_map : p .map) (h_str : p .str) (h_fls : p .fls) (h_cal : p .cal) (h_all : ∀ k, p (.chan k)) (h
    : Frame p r s) : Frame p r (stateOf s (execCalShunt a0 a1 a2 a3 s)) := by
  unfold execCalShunt
  repeat' with_reducible
    first
    | assumption | refine Frame.gate ?_ ?_ | refine Frame.next ?_
    | refine measure_frame ?_ ?_ ?_ ?_ ?_ ?_ ?_ ?_ ?_ (fun _ _ => ?_) ?_ | refine applyTrims_frame ?_ ?_ ?_ ?_

theorem execCalTrims_frame {p : Part → Prop} {r a0 s} (h_regs : p .regs) (h_locks : p .locks) (h_hlt : p .hlt) (h_host :
    p .host) (h_map : p .map) (h_str : p .str) (h_cal : p .cal) (h : Frame p r s) : Frame p r (stateOf s (execCalTrims
    a0 s)) := by
  unfold execCalTrims
  repeat' with_reducible
    first
    | assumption | refine Frame.gate ?_ ?_ | refine Frame.next ?_ | refine loseRun_frame ?_ ?_ ?_ ?_ ?_ ?_ ?_ ?_
    | refine endByOutcome_frame ?_ ?_ ?_ ?_ ?_ ?_ ?_ ?_ | split

theorem gather_frame {p : Part → Prop} {r a0 a1 a2 s} (h_cal : p .cal) (h : Frame p r s) : Frame p r (gather a0 a1 a2 s)
    := by
  unfold gather
  repeat' with_reducible first | assumption | refine onRun_frame ?_ ?_

theorem execCalLaser_frame {p : Part → Prop} {r a0 a1 a2 s} (h_regs : p .regs) (h_locks : p .locks) (h_hlt : p .hlt)
    (h_host : p .host) (h_map : p .map) (h_str : p .str) (h_fls : p .fls) (h_cal : p .cal) (h_all : ∀ k, p (.chan k)) (h
    : Frame p r s) : Frame p r (stateOf s (execCalLaser a0 a1 a2 s)) := by
  unfold execCalLaser
  repeat' with_reducible
    first
    | assumption | lift_lets -underBinder | (intro x; subst x) | refine Frame.gate ?_ ?_ | refine Frame.next ?_
    | refine measure_frame ?_ ?_ ?_ ?_ ?_ ?_ ?_ ?_ ?_ (fun _ _ => ?_) ?_ | refine gather_frame ?_ ?_ | split

theorem execCalResponse_frame {p : Part → Prop} {r a0 a1 a2 a3 s} (h_regs : p .regs) (h_locks : p .locks) (h_hlt : p
    .hlt) (h_host : p .host) (h_map : p .map) (h_str : p .str) (h_fls : p .fls) (h_cal : p .cal) (h_all : ∀ k, p (.chan
    k)) (h : Frame p r s) : Frame p r (stateOf s (execCalResponse a0 a1 a2 a3 s)) := by
  unfold execCalResponse
  repeat' with_reducible
    first
    | assumption | refine Frame.gate ?_ ?_ | refine Frame.next ?_
    | refine measure_frame ?_ ?_ ?_ ?_ ?_ ?_ ?_ ?_ ?_ (fun _ _ => ?_) ?_ | refine gather_frame ?_ ?_

theorem execCalActuator_frame {p : Part → Prop} {r a0 a1 a2 s} (h_regs : p .regs) (h_locks : p .locks) (h_hlt : p .hlt)
    (h_host : p .host) (h_map : p .map) (h_str : p .str) (h_fls : p .fls) (h_cal : p .cal) (h_all : ∀ k, p (.chan k)) (h
    : Frame p r s) : Frame p r (stateOf s (execCalActuator a0 a1 a2 s)) := by
  unfold execCalActuator
  repeat' with_reducible
    first
    | assumption | refine Frame.gate ?_ ?_ | refine Frame.next ?_
    | refine measure_frame ?_ ?_ ?_ ?_ ?_ ?_ ?_ ?_ ?_ (fun _ _ => ?_) ?_ | refine gather_frame ?_ ?_

theorem frictionSeek_frame {p : Part → Prop} {r a0 s} (h_regs : p .regs) (h_locks : p .locks) (h_hlt : p .hlt) (h_c0 : p
    (.chan a0)) (h : Frame p r s) : Frame p r (frictionSeek a0 s) := by
  unfold frictionSeek
  repeat' with_reducible
    first
    | assumption | refine State.put_frame ?_ ?_ | refine State.seqPut_frame ?_ ?_ ?_ ?_ | refine State.onSrv_frame ?_ ?_
    | refine State.onDcm_frame ?_ ?_

theorem execCalFriction_frame {p : Part → Prop} {r a0 a1 a2 a3 a4 s} (h_regs : p .regs) (h_locks : p .locks) (h_hlt : p
    .hlt) (h_host : p .host) (h_map : p .map) (h_str : p .str) (h_fls : p .fls) (h_cal : p .cal) (h_all : ∀ k, p (.chan
    k)) (h : Frame p r s) : Frame p r (stateOf s (execCalFriction a0 a1 a2 a3 a4 s)) := by
  unfold execCalFriction
  repeat' with_reducible
    first
    | assumption | exact h_all _ | refine Frame.gate ?_ ?_ | refine Frame.next ?_
    | refine measure_frame ?_ ?_ ?_ ?_ ?_ ?_ ?_ ?_ ?_ (fun _ _ => ?_) ?_ | refine gather_frame ?_ ?_
    | refine frictionSeek_frame ?_ ?_ ?_ ?_ ?_

theorem execCalMargin_frame {p : Part → Prop} {r a0 a1 a2 s} (h_regs : p .regs) (h_locks : p .locks) (h_hlt : p .hlt)
    (h_host : p .host) (h_map : p .map) (h_str : p .str) (h_fls : p .fls) (h_cal : p .cal) (h_all : ∀ k, p (.chan k)) (h
    : Frame p r s) : Frame p r (stateOf s (execCalMargin a0 a1 a2 s)) := by
  unfold execCalMargin
  repeat' with_reducible
    first
    | assumption | refine Frame.gate ?_ ?_ | refine Frame.next ?_
    | refine measure_frame ?_ ?_ ?_ ?_ ?_ ?_ ?_ ?_ ?_ (fun _ _ => ?_) ?_ | refine gather_frame ?_ ?_ | split

theorem calWrites_frame {p : Part → Prop} {r a0 a1 s} (h_regs : p .regs) (h_locks : p .locks) (h_hlt : p .hlt) (h_c0 : p
    (.chan a0)) (h : Frame p r s) : Frame p r (calWrites a0 a1 s) := by
  unfold calWrites
  repeat' with_reducible
    first
    | assumption | refine State.expert_frame ?_ ?_ (fun _ _ => ?_) ?_ | refine State.seqWrite_frame ?_ ?_ ?_ ?_
    | refine State.stageReg_frame ?_ ?_ ?_ ?_ | refine Frame.each (fun _ _ _ => ?_) ?_ | split

theorem replan_frame {p : Part → Prop} {r a0 a1 s} (h_regs : p .regs) (h_locks : p .locks) (h_hlt : p .hlt) (h_map : p
    .map) (h_str : p .str) (h_fls : p .fls) (h_c0 : p (.chan a0)) (h : Frame p r s) : Frame p r (replan a0 a1 s) := by
  unfold replan
  repeat' with_reducible
    first
    | assumption | refine storeMain_frame ?_ ?_ ?_ ?_ ?_ | refine State.raise_frame ?_ ?_
    | refine State.fault_frame ?_ ?_ | refine calWrites_frame ?_ ?_ ?_ ?_ ?_ | refine State.bump_frame ?_ ?_
    | refine Frame.each (fun _ _ _ => ?_) ?_

theorem execCalAgeing_frame {p : Part → Prop} {r a0 s} (h_regs : p .regs) (h_locks : p .locks) (h_hlt : p .hlt) (h_host
    : p .host) (h_map : p .map) (h_str : p .str) (h_fls : p .fls) (h_cal : p .cal) (h_c0 : p (.chan a0)) (h : Frame p r
    s) : Frame p r (stateOf s (execCalAgeing a0 s)) := by
  unfold execCalAgeing
  repeat' with_reducible
    first
    | assumption | refine Frame.gate ?_ ?_ | refine Frame.next ?_ | refine loseRun_frame ?_ ?_ ?_ ?_ ?_ ?_ ?_ ?_
    | refine takeResults_frame ?_ ?_ ?_ | refine replan_frame ?_ ?_ ?_ ?_ ?_ ?_ ?_ ?_
    | refine storeMain_frame ?_ ?_ ?_ ?_ ?_ | refine endByOutcome_frame ?_ ?_ ?_ ?_ ?_ ?_ ?_ ?_ | split

theorem captureLast_frame {p : Part → Prop} {r a0 a1 s} (h_regs : p .regs) (h_locks : p .locks) (h_hlt : p .hlt) (h_map
    : p .map) (h_str : p .str) (h_fls : p .fls) (h_cal : p .cal) (h_c0 : p (.chan a0)) (h : Frame p r s) : Frame p r
    (captureLast a0 a1 s) := by
  unfold captureLast
  repeat' with_reducible
    first
    | assumption | refine State.onCalCh_frame ?_ ?_ | refine State.seqPut_frame ?_ ?_ ?_ ?_
    | refine showResults_frame ?_ ?_ | refine storeMain_frame ?_ ?_ ?_ ?_ ?_ | refine calWrites_frame ?_ ?_ ?_ ?_ ?_
    | refine Frame.each (fun _ _ _ => ?_) ?_

theorem execCalLastCapture_frame {p : Part → Prop} {r a0 s} (h_regs : p .regs) (h_locks : p .locks) (h_hlt : p .hlt)
    (h_host : p .host) (h_map : p .map) (h_str : p .str) (h_fls : p .fls) (h_cal : p .cal) (h_c0 : p (.chan a0)) (h :
    Frame p r s) : Frame p r (stateOf s (execCalLastCapture a0 s)) := by
  unfold execCalLastCapture
  repeat' with_reducible
    first
    | assumption | refine Frame.gate ?_ ?_ | refine Frame.next ?_ | refine loseRun_frame ?_ ?_ ?_ ?_ ?_ ?_ ?_ ?_
    | refine endByOutcome_frame ?_ ?_ ?_ ?_ ?_ ?_ ?_ ?_ | refine captureLast_frame ?_ ?_ ?_ ?_ ?_ ?_ ?_ ?_ ?_ | split

theorem execCalStoreTables_frame {p : Part → Prop} {r a0 a1 s} (h_regs : p .regs) (h_locks : p .locks) (h_hlt : p .hlt)
    (h_host : p .host) (h_map : p .map) (h_str : p .str) (h_fls : p .fls) (h_cal : p .cal) (h_all : ∀ k, p (.chan k)) (h
    : Frame p r s) : Frame p r (stateOf s (execCalStoreTables a0 a1 s)) := by
  unfold execCalStoreTables
  repeat' with_reducible
    first
    | assumption | refine Frame.gate ?_ ?_ | refine Frame.next ?_
    | refine measure_frame ?_ ?_ ?_ ?_ ?_ ?_ ?_ ?_ ?_ (fun _ _ => ?_) ?_ | refine State.onCalCh_frame ?_ ?_
    | refine storeTable_frame ?_ ?_ ?_ ?_ ?_

theorem execAgeingDue_frame {p : Part → Prop} {r a0 s} (h_cal : p .cal) (h : Frame p r s) : Frame p r (stateOf s
    (execAgeingDue a0 s)) := by
  unfold execAgeingDue
  repeat' with_reducible
    first
    | assumption | refine Frame.gate ?_ ?_ | refine Frame.next ?_ | refine State.onCalCh_frame ?_ ?_
    | refine Frame.ite ?_ ?_

theorem execAgeingStart_frame {p : Part → Prop} {r a0 s} (h_regs : p .regs) (h_locks : p .locks) (h_hlt : p .hlt)
    (h_host : p .host) (h_map : p .map) (h_str : p .str) (h_cal : p .cal) (h_all : ∀ k, p (.chan k)) (h : Frame p r s) :
    Frame p r (stateOf s (execAgeingStart a0 s)) := by
  unfold execAgeingStart
  repeat' with_reducible
    first
    | assumption | lift_lets -underBinder | (intro x; subst x) | refine Frame.gate ?_ ?_ | refine Frame.next ?_
    | refine tryBegin_frame ?_ ?_ ?_ ?_ ?_ ?_ ?_ ?_ ?_ | refine loseRun_frame ?_ ?_ ?_ ?_ ?_ ?_ ?_ ?_
    | refine State.onCalCh_frame ?_ ?_ | refine State.onCal_frame ?_ ?_ | split

theorem calClear_frame {p : Part → Prop} {r s} (h_regs : p .regs) (h : Frame p r s) : Frame p r (calClear s) := by
  unfold calClear
  repeat' with_reducible first | assumption | refine State.clearAll_frame ?_ ?_

/-! ### Admin -/

theorem markBegun_frame {p : Part → Prop} {r a0 s} (h_regs : p .regs) (h_host : p .host) (h : Frame p r s) : Frame p r
    (markBegun a0 s) := by
  unfold markBegun
  repeat' with_reducible first | assumption | refine onCtx_frame ?_ ?_ ?_

theorem addGroup_frame {p : Part → Prop} {r a0 s} (h_map : p .map) (h : Frame p r s) : Frame p r (addGroup a0 s) := by
  unfold addGroup
  repeat' with_reducible first | assumption | refine State.onMap_frame ?_ ?_

theorem execNsCreate_frame {p : Part → Prop} {r a0 s} (h_regs : p .regs) (h_host : p .host) (h_map : p .map) (h_str : p
    .str) (h : Frame p r s) : Frame p r (stateOf s (execNsCreate a0 s)) := by
  unfold execNsCreate
  repeat' with_reducible
    first
    | assumption | refine Frame.gate ?_ ?_ | refine Frame.next ?_ | refine withOp_frame (fun _ => ?_) ?_
    | refine finish_frame ?_ ?_ ?_ ?_ ?_ | refine addGroup_frame ?_ ?_ | split

theorem execNsDelete_frame {p : Part → Prop} {r a0 s} (h_map : p .map) (h : Frame p r s) : Frame p r (stateOf s
    (execNsDelete a0 s)) := by
  unfold execNsDelete
  repeat' with_reducible
    first
    | assumption | refine Frame.gate ?_ ?_ | refine Frame.next ?_ | refine withOp_frame (fun _ => ?_) ?_
    | refine addGroup_frame ?_ ?_ | refine Frame.ite ?_ ?_

theorem endList_frame {p : Part → Prop} {r a0 a1 s} (h_regs : p .regs) (h_host : p .host) (h_map : p .map) (h_str : p
    .str) (h : Frame p r s) : Frame p r (endList a0 a1 s) := by
  unfold endList
  repeat' with_reducible first | assumption | refine finish_frame ?_ ?_ ?_ ?_ ?_ | refine writeBuf_frame ?_ ?_

theorem execNsList_frame {p : Part → Prop} {r a0 s} (h_regs : p .regs) (h_host : p .host) (h_map : p .map) (h_str : p
    .str) (h : Frame p r s) : Frame p r (stateOf s (execNsList a0 s)) := by
  unfold execNsList
  repeat' with_reducible
    first
    | assumption | refine Frame.gate ?_ ?_ | refine Frame.next ?_ | refine withOp_frame (fun _ => ?_) ?_
    | refine endList_frame ?_ ?_ ?_ ?_ ?_

theorem execGetLog_frame {p : Part → Prop} {r a0 s} (h_regs : p .regs) (h_host : p .host) (h_map : p .map) (h_str : p
    .str) (h : Frame p r s) : Frame p r (stateOf s (execGetLog a0 s)) := by
  unfold execGetLog
  repeat' with_reducible
    first
    | assumption | refine Frame.gate ?_ ?_ | refine Frame.next ?_ | refine withOp_frame (fun _ => ?_) ?_
    | refine endList_frame ?_ ?_ ?_ ?_ ?_

theorem execSetTime_frame {p : Part → Prop} {r a0 s} (h_regs : p .regs) (h_tb : p .tb) (h_host : p .host) (h_map : p
    .map) (h_str : p .str) (h : Frame p r s) : Frame p r (stateOf s (execSetTime a0 s)) := by
  unfold execSetTime
  repeat' with_reducible
    first
    | assumption | refine Frame.gate ?_ ?_ | refine Frame.next ?_ | refine withOp_frame (fun _ => ?_) ?_
    | refine markBegun_frame ?_ ?_ ?_ | refine finishId_frame ?_ ?_ ?_ ?_ ?_
    | refine Frame.upd rfl rfl rfl ?_ ?_ ?_ ?_ ?_ ?_ ?_ ?_ ?_ ?_ ?_ ?_ ?_ ?_ ?_ ?_ ?_ ?_ | exact Or.inl rfl
    | exact Or.inr (by assumption)

theorem execSetFeature_frame {p : Part → Prop} {r a0 s} (h_regs : p .regs) (h_host : p .host) (h_map : p .map) (h_str :
    p .str) (h_memberTmo : p .memberTmo) (h : Frame p r s) : Frame p r (stateOf s (execSetFeature a0 s)) := by
  unfold execSetFeature
  repeat' with_reducible
    first
    | assumption | refine Frame.gate ?_ ?_ | refine Frame.next ?_ | refine withOp_frame (fun _ => ?_) ?_
    | refine finishId_frame ?_ ?_ ?_ ?_ ?_ | refine markBegun_frame ?_ ?_ ?_ | refine addGroup_frame ?_ ?_
    | refine Frame.ite ?_ ?_ | refine Frame.upd rfl rfl rfl ?_ ?_ ?_ ?_ ?_ ?_ ?_ ?_ ?_ ?_ ?_ ?_ ?_ ?_ ?_ ?_ ?_ ?_
    | exact Or.inl rfl | exact Or.inr (by assumption)

theorem execSetWriterId_frame {p : Part → Prop} {r a0 s} (h_regs : p .regs) (h_writer : p .writer) (h_host : p .host)
    (h_map : p .map) (h_str : p .str) (h_fls : p .fls) (h : Frame p r s) : Frame p r (stateOf s (execSetWriterId a0 s))
    := by
  unfold execSetWriterId
  repeat' with_reducible
    first
    | assumption | refine Frame.gate ?_ ?_ | refine Frame.next ?_ | refine withOp_frame (fun _ => ?_) ?_
    | refine finish_frame ?_ ?_ ?_ ?_ ?_ | refine State.onFls_frame ?_ ?_ | refine markBegun_frame ?_ ?_ ?_
    | refine finishId_frame ?_ ?_ ?_ ?_ ?_ | refine Frame.ite ?_ ?_
    | refine Frame.upd rfl rfl rfl ?_ ?_ ?_ ?_ ?_ ?_ ?_ ?_ ?_ ?_ ?_ ?_ ?_ ?_ ?_ ?_ ?_ ?_ | exact Or.inl rfl
    | exact Or.inr (by assumption)

theorem execImportClose_frame {p : Part → Prop} {r a0 s} (h_regs : p .regs) (h_host : p .host) (h_map : p .map) (h_str :
    p .str) (h : Frame p r s) : Frame p r (stateOf s (execImportClose a0 s)) := by
  unfold execImportClose
  repeat' with_reducible
    first
    | assumption | refine Frame.gate ?_ ?_ | refine Frame.next ?_ | refine withOp_frame (fun _ => ?_) ?_
    | refine finishId_frame ?_ ?_ ?_ ?_ ?_ | refine markBegun_frame ?_ ?_ ?_ | refine setExt_frame ?_ ?_
    | refine addGroup_frame ?_ ?_ | refine Frame.each (fun _ _ _ => ?_) ?_ | split

theorem execGetFeature_frame {p : Part → Prop} {r a0 s} (h_regs : p .regs) (h_host : p .host) (h_map : p .map) (h_str :
    p .str) (h : Frame p r s) : Frame p r (stateOf s (execGetFeature a0 s)) := by
  unfold execGetFeature
  repeat' with_reducible
    first
    | assumption | refine Frame.gate ?_ ?_ | refine Frame.next ?_ | refine withOp_frame (fun _ => ?_) ?_
    | refine finish_frame ?_ ?_ ?_ ?_ ?_ | refine writeBuf_frame ?_ ?_

theorem eraseSlot_frame {p : Part → Prop} {r a0 s} (h_regs : p .regs) (h_map : p .map) (h_str : p .str) (h_fls : p .fls)
    (h : Frame p r s) : Frame p r (eraseSlot a0 s) := by
  unfold eraseSlot
  repeat' with_reducible
    first
    | assumption | refine State.bump_frame ?_ ?_ | refine eraseSector_frame ?_ ?_ ?_ ?_
    | refine Frame.each (fun _ _ _ => ?_) ?_

theorem programPiece_frame {p : Part → Prop} {r a0 a1 a2 a3 s} (h_regs : p .regs) (h_fls : p .fls) (h : Frame p r s) :
    Frame p r (programPiece a0 a1 a2 a3 s) := by
  unfold programPiece
  repeat' with_reducible
    first
    | assumption | refine State.bump_frame ?_ ?_ | refine flashPut_frame ?_ ?_ | refine Frame.each (fun _ _ _ => ?_) ?_

theorem writePiece_frame {p : Part → Prop} {r a0 a1 a2 a3 s} (h_regs : p .regs) (h_hlt : p .hlt) (h_host : p .host)
    (h_map : p .map) (h_str : p .str) (h_fls : p .fls) (h : Frame p r s) : Frame p r (writePiece a0 a1 a2 a3 s) := by
  unfold writePiece
  repeat' with_reducible
    first
    | assumption | refine markBegun_frame ?_ ?_ ?_ | refine State.onFls_frame ?_ ?_
    | refine eraseSlot_frame ?_ ?_ ?_ ?_ ?_ | refine programPiece_frame ?_ ?_ ?_ | refine finishId_frame ?_ ?_ ?_ ?_ ?_
    | refine State.fault_frame ?_ ?_ | refine State.bump_frame ?_ ?_ | refine Frame.ite ?_ ?_

theorem execFwDownload_frame {p : Part → Prop} {r a0 a1 a2 s} (h_regs : p .regs) (h_hlt : p .hlt) (h_host : p .host)
    (h_map : p .map) (h_str : p .str) (h_fls : p .fls) (h : Frame p r s) : Frame p r (stateOf s (execFwDownload a0 a1 a2
    s)) := by
  unfold execFwDownload
  repeat' with_reducible
    first
    | assumption | refine Frame.gate ?_ ?_ | refine Frame.next ?_ | refine withOp_frame (fun _ => ?_) ?_
    | refine finish_frame ?_ ?_ ?_ ?_ ?_ | refine readBuf_frame ?_ ?_ | refine onCtx_frame ?_ ?_ ?_
    | refine writePiece_frame ?_ ?_ ?_ ?_ ?_ ?_ ?_ | refine Frame.ite ?_ ?_

theorem showCheck_frame {p : Part → Prop} {r a0 a1 s} (h_regs : p .regs) (h : Frame p r s) : Frame p r (showCheck a0 a1
    s) := by
  unfold showCheck
  repeat' with_reducible first | assumption | refine State.put_frame ?_ ?_ | refine Frame.ite ?_ ?_

theorem execFwActivate_frame {p : Part → Prop} {r a0 s} (h_regs : p .regs) (h_host : p .host) (h_map : p .map) (h_str :
    p .str) (h_fls : p .fls) (h : Frame p r s) : Frame p r (stateOf s (execFwActivate a0 s)) := by
  unfold execFwActivate
  repeat' with_reducible
    first
    | assumption | refine Frame.gate ?_ ?_ | refine Frame.next ?_ | refine withOp_frame (fun _ => ?_) ?_
    | refine finish_frame ?_ ?_ ?_ ?_ ?_ | refine showCheck_frame ?_ ?_ | refine State.onHost_frame ?_ ?_
    | refine selectImage_frame ?_ ?_ ?_ ?_ ?_ | refine markBegun_frame ?_ ?_ ?_ | refine Frame.ite ?_ ?_

theorem endActivation_frame {p : Part → Prop} {r a0 s} (h_regs : p .regs) (h_host : p .host) (h_map : p .map) (h_str : p
    .str) (h : Frame p r s) : Frame p r (endActivation a0 s) := by
  unfold endActivation
  repeat' with_reducible
    first
    | assumption | refine finish_frame ?_ ?_ ?_ ?_ ?_ | refine putCtxs_frame ?_ ?_ ?_ | refine Frame.ite ?_ ?_

theorem fetchSlot_frame {p : Part → Prop} {r a0 s} (h_regs : p .regs) (h : Frame p r s) : Frame p r (fetchSlot a0 s) :=
    by
  unfold fetchSlot
  repeat' with_reducible first | assumption | refine State.put_frame ?_ ?_

theorem settleActivation_frame {p : Part → Prop} {r a0 s} (h_regs : p .regs) (h_locks : p .locks) (h_hlt : p .hlt)
    (h_host : p .host) (h_map : p .map) (h_str : p .str) (h_fls : p .fls) (h_cal : p .cal) (h : Frame p r s) : Frame p r
    (settleActivation a0 s) := by
  unfold settleActivation
  repeat' with_reducible
    first
    | assumption | refine abortRuns_frame ?_ ?_ ?_ ?_ ?_ ?_ ?_ ?_ | refine onCtx_frame ?_ ?_ ?_
    | refine endActivation_frame ?_ ?_ ?_ ?_ ?_ | refine State.onHost_frame ?_ ?_ | refine State.onFls_frame ?_ ?_
    | refine fetchSlot_frame ?_ ?_ | refine Frame.each (fun _ _ _ => ?_) ?_ | refine Frame.ite ?_ ?_

theorem execActivationDrainTimeout_frame {p : Part → Prop} {r s} (h_regs : p .regs) (h_locks : p .locks) (h_hlt : p
    .hlt) (h_host : p .host) (h_map : p .map) (h_str : p .str) (h_fls : p .fls) (h_cal : p .cal) (h : Frame p r s) :
    Frame p r (stateOf s (execActivationDrainTimeout s)) := by
  unfold execActivationDrainTimeout
  repeat' with_reducible
    first
    | assumption | refine Frame.gate ?_ ?_ | refine Frame.next ?_
    | refine settleActivation_frame ?_ ?_ ?_ ?_ ?_ ?_ ?_ ?_ ?_ | split

theorem resumeFetch_frame {p : Part → Prop} {r s} (h_regs : p .regs) (h_hlt : p .hlt) (h_host : p .host) (h_map : p
    .map) (h_str : p .str) (h : Frame p r s) : Frame p r (resumeFetch s) := by
  unfold resumeFetch
  repeat' with_reducible
    first
    | assumption | refine State.onHost_frame ?_ ?_ | refine stagedDoorbell_frame ?_ ?_ ?_ ?_ ?_ ?_
    | refine Frame.each (fun _ _ _ => ?_) ?_ | split

theorem execActivationImageStart_frame {p : Part → Prop} {r a0 s} (h_regs : p .regs) (h_hlt : p .hlt) (h_host : p .host)
    (h_map : p .map) (h_str : p .str) (h_fls : p .fls) (h : Frame p r s) : Frame p r (stateOf s
    (execActivationImageStart a0 s)) := by
  unfold execActivationImageStart
  repeat' with_reducible
    first
    | assumption | refine Frame.gate ?_ ?_ | refine Frame.next ?_ | refine State.onFls_frame ?_ ?_
    | refine finishId_frame ?_ ?_ ?_ ?_ ?_ | refine resumeFetch_frame ?_ ?_ ?_ ?_ ?_ ?_
    | refine selectImage_frame ?_ ?_ ?_ ?_ ?_ | refine fetchSlot_frame ?_ ?_ | split

/-! ### Health -/

theorem setInst_frame {p : Part → Prop} {r a0 s} (h_hlt : p .hlt) (h : Frame p r s) : Frame p r (setInst a0 s) := by
  unfold setInst
  repeat' with_reducible first | assumption | refine State.onHlt_frame ?_ ?_

theorem withdrawProfile_frame {p : Part → Prop} {r a0 s} (h_locks : p .locks) (h_hlt : p .hlt) (h_c0 : p (.chan a0)) (h
    : Frame p r s) : Frame p r (withdrawProfile a0 s) := by
  unfold withdrawProfile
  repeat' with_reducible first | assumption | refine State.stageSeq_frame ?_ ?_ ?_ ?_ | refine Frame.ite ?_ ?_

theorem failMember_frame {p : Part → Prop} {r a0 s} (h_regs : p .regs) (h_locks : p .locks) (h_hlt : p .hlt) (h_host : p
    .host) (h_c0 : p (.chan a0)) (h : Frame p r s) : Frame p r (failMember a0 s) := by
  unfold failMember
  repeat' with_reducible
    first
    | assumption | refine stopChan_frame ?_ ?_ ?_ ?_ ?_ | refine State.logEvent_frame ?_ ?_
    | refine postEvent_frame ?_ ?_ ?_

theorem chanAction_frame {p : Part → Prop} {r a0 a1 a2 a3 s} (h_regs : p .regs) (h_locks : p .locks) (h_hlt : p .hlt)
    (h_host : p .host) (h_c3 : p (.chan a3)) (h : Frame p r s) : Frame p r (chanAction a0 a1 a2 a3 s) := by
  unfold chanAction
  repeat' with_reducible
    first
    | assumption | refine stopChan_frame ?_ ?_ ?_ ?_ ?_ | refine withdrawProfile_frame ?_ ?_ ?_ ?_
    | refine State.onSpn_frame ?_ ?_ | refine blockWrite_frame ?_ ?_ ?_ ?_ | refine setBlank_frame ?_ ?_
    | refine failMember_frame ?_ ?_ ?_ ?_ ?_ ?_ | split

theorem classAction_frame {p : Part → Prop} {r a0 a1 a2 s} (h_regs : p .regs) (h_locks : p .locks) (h_hlt : p .hlt)
    (h_host : p .host) (h_all : ∀ k, p (.chan k)) (h : Frame p r s) : Frame p r (classAction a0 a1 a2 s) := by
  unfold classAction
  repeat' with_reducible
    first
    | assumption | exact h_all _ | refine chanAction_frame ?_ ?_ ?_ ?_ ?_ ?_ | refine Frame.each (fun _ _ _ => ?_) ?_

theorem countFault_frame {p : Part → Prop} {r a0 s} (h_regs : p .regs) (h_locks : p .locks) (h_hlt : p .hlt) (h_host : p
    .host) (h_all : ∀ k, p (.chan k)) (h : Frame p r s) : Frame p r (countFault a0 s).2 := by
  unfold countFault
  repeat' with_reducible
    first
    | assumption | lift_lets -underBinder | (intro x; subst x) | refine setInst_frame ?_ ?_
    | refine classAction_frame ?_ ?_ ?_ ?_ ?_ ?_ | refine State.raise_frame ?_ ?_ | split

theorem execFaultReport_frame {p : Part → Prop} {r s} (h_regs : p .regs) (h_locks : p .locks) (h_hlt : p .hlt) (h_host :
    p .host) (h_all : ∀ k, p (.chan k)) (h : Frame p r s) : Frame p r (stateOf s (execFaultReport s)) := by
  unfold execFaultReport
  repeat' with_reducible
    first
    | assumption | lift_lets -underBinder | (intro x; subst x) | refine Frame.gate ?_ ?_ | refine Frame.next ?_
    | refine State.onHlt_frame ?_ ?_ | refine countFault_frame ?_ ?_ ?_ ?_ ?_ ?_ | refine State.raise_frame ?_ ?_
    | refine State.bump_frame ?_ ?_ | refine State.putb_frame ?_ ?_ | refine Frame.ite ?_ ?_ | split

theorem showFault_frame {p : Part → Prop} {r a0 a1 s} (h_regs : p .regs) (h : Frame p r s) : Frame p r (showFault a0 a1
    s) := by
  unfold showFault
  repeat' with_reducible first | assumption | refine State.raise_frame ?_ ?_ | refine State.wr_frame ?_ ?_

theorem logFault_frame {p : Part → Prop} {r a0 a1 s} (h_hlt : p .hlt) (h : Frame p r s) : Frame p r (logFault a0 a1 s)
    := by
  unfold logFault
  repeat' with_reducible
    first
    | assumption | refine State.logEvent_frame ?_ ?_ | refine State.persist_frame ?_ ?_ | refine Frame.ite ?_ ?_

theorem nextRecord_frame {p : Part → Prop} {r s} (h_hlt : p .hlt) (h : Frame p r s) : Frame p r (nextRecord s) := by
  unfold nextRecord
  repeat' with_reducible
    first
    | assumption | lift_lets -underBinder | (intro x; subst x) | refine State.onHlt_frame ?_ ?_
    | refine State.logEvent_frame ?_ ?_ | split

theorem execFaultRecordHandle_frame {p : Part → Prop} {r s} (h_regs : p .regs) (h_locks : p .locks) (h_hlt : p .hlt)
    (h_host : p .host) (h_all : ∀ k, p (.chan k)) (h : Frame p r s) : Frame p r (stateOf s (execFaultRecordHandle s)) :=
    by
  unfold execFaultRecordHandle
  repeat' with_reducible
    first
    | assumption | refine Frame.gate ?_ ?_ | refine Frame.next ?_ | refine countFault_frame ?_ ?_ ?_ ?_ ?_ ?_
    | refine nextRecord_frame ?_ ?_ | refine showFault_frame ?_ ?_ | refine logFault_frame ?_ ?_ | split

theorem clearMeets_frame {p : Part → Prop} {r a0 a1 s} (h_regs : p .regs) (h_c1 : p (.chan a1)) (h : Frame p r s) :
    Frame p r (clearMeets a0 a1 s) := by
  unfold clearMeets
  repeat' with_reducible
    first
    | assumption | refine State.onWrc_frame ?_ ?_ | refine State.putb_frame ?_ ?_ | refine State.onSpn_frame ?_ ?_
    | refine Frame.ite ?_ ?_

theorem hltClrEffect_frame {p : Part → Prop} {r a0 a1 s} (h_regs : p .regs) (h_hlt : p .hlt) (h_all : ∀ k, p (.chan k))
    (h : Frame p r s) : Frame p r (hltClrEffect a0 a1 s) := by
  unfold hltClrEffect
  repeat' with_reducible
    first
    | assumption | exact h_all _ | refine State.onHlt_frame ?_ ?_ | refine clearMeets_frame ?_ ?_ ?_
    | refine State.logEvent_frame ?_ ?_ | refine Frame.each (fun _ _ _ => ?_) ?_ | refine Frame.ite ?_ ?_

theorem hltClear_frame {p : Part → Prop} {r s} (h_regs : p .regs) (h_hlt : p .hlt) (h : Frame p r s) : Frame p r
    (hltClear s) := by
  unfold hltClear
  repeat' with_reducible first | assumption | refine State.onHlt_frame ?_ ?_ | refine State.clearAll_frame ?_ ?_

theorem tempCheck_frame {p : Part → Prop} {r s} (h_regs : p .regs) (h_hlt : p .hlt) (h : Frame p r s) : Frame p r
    (tempCheck s) := by
  unfold tempCheck
  repeat' with_reducible
    first
    | assumption | refine State.onHlt_frame ?_ ?_ | refine State.fault_frame ?_ ?_ | refine State.raise_frame ?_ ?_
    | refine Frame.ite ?_ ?_

theorem execJunctionHot_frame {p : Part → Prop} {r a0 s} (h_regs : p .regs) (h_hlt : p .hlt) (h : Frame p r s) : Frame p
    r (stateOf s (execJunctionHot a0 s)) := by
  unfold execJunctionHot
  repeat' with_reducible
    first
    | assumption | refine Frame.gate ?_ ?_ | refine Frame.next ?_ | refine tempCheck_frame ?_ ?_ ?_
    | refine State.puti_frame ?_ ?_

theorem joinLogs_frame {p : Part → Prop} {r a0 s} (h_hlt : p .hlt) (h : Frame p r s) : Frame p r (joinLogs a0 s) := by
  unfold joinLogs
  repeat' with_reducible first | assumption | refine State.onHlt_frame ?_ ?_ | refine Frame.ite ?_ ?_

theorem hltCtlEffect_frame {p : Part → Prop} {r a0 a1 s} (h_regs : p .regs) (h_hlt : p .hlt) (h : Frame p r s) : Frame p
    r (hltCtlEffect a0 a1 s) := by
  unfold hltCtlEffect
  repeat' with_reducible
    first
    | assumption | refine hltClear_frame ?_ ?_ ?_ | refine State.put_frame ?_ ?_ | refine joinLogs_frame ?_ ?_
    | refine Frame.ite ?_ ?_

theorem persistEvent_frame {p : Part → Prop} {r a0 s} (h_regs : p .regs) (h_hlt : p .hlt) (h : Frame p r s) : Frame p r
    (persistEvent a0 s) := by
  unfold persistEvent
  repeat' with_reducible
    first
    | assumption | refine State.onHlt_frame ?_ ?_ | refine State.persist_frame ?_ ?_ | refine State.raise_frame ?_ ?_
    | refine State.bump_frame ?_ ?_ | refine Frame.ite ?_ ?_

theorem execEventLogPersist_frame {p : Part → Prop} {r s} (h_regs : p .regs) (h_hlt : p .hlt) (h : Frame p r s) : Frame
    p r (stateOf s (execEventLogPersist s)) := by
  unfold execEventLogPersist
  repeat' with_reducible
    first
    | assumption | refine Frame.gate ?_ ?_ | refine Frame.next ?_ | refine persistEvent_frame ?_ ?_ ?_
    | refine Frame.each (fun _ _ _ => ?_) ?_

theorem execViolationLogPersist_frame {p : Part → Prop} {r s} (h_hlt : p .hlt) (h : Frame p r s) : Frame p r (stateOf s
    (execViolationLogPersist s)) := by
  unfold execViolationLogPersist
  repeat' with_reducible
    first
    | assumption | refine Frame.gate ?_ ?_ | refine Frame.next ?_ | refine State.persist_frame ?_ ?_
    | refine State.onHlt_frame ?_ ?_ | refine Frame.each (fun _ _ _ => ?_) ?_

/-! ### Record -/

theorem execRecordStart_frame {p : Part → Prop} {r a0 s} (h_regs : p .regs) (h_host : p .host) (h_map : p .map) (h_str :
    p .str) (h_rcd : p .rcd) (h : Frame p r s) : Frame p r (stateOf s (execRecordStart a0 s)) := by
  unfold execRecordStart
  repeat' with_reducible
    first
    | assumption | refine Frame.gate ?_ ?_ | refine Frame.next ?_ | refine withOp_frame (fun _ => ?_) ?_
    | refine finish_frame ?_ ?_ ?_ ?_ ?_ | refine areaWritten_frame ?_ ?_ | refine State.put_frame ?_ ?_
    | refine markBegun_frame ?_ ?_ ?_ | refine State.onRcd_frame ?_ ?_ | split

theorem execRecordLoad_frame {p : Part → Prop} {r a0 a1 s} (h_regs : p .regs) (h_host : p .host) (h_map : p .map) (h_str
    : p .str) (h_rcd : p .rcd) (h : Frame p r s) : Frame p r (stateOf s (execRecordLoad a0 a1 s)) := by
  unfold execRecordLoad
  repeat' with_reducible
    first
    | assumption | refine Frame.gate ?_ ?_ | refine Frame.next ?_ | refine withOp_frame (fun _ => ?_) ?_
    | refine finish_frame ?_ ?_ ?_ ?_ ?_ | refine readBuf_frame ?_ ?_ | refine onCtx_frame ?_ ?_ ?_
    | refine areaWritten_frame ?_ ?_ | refine State.onRcd_frame ?_ ?_ | refine markBegun_frame ?_ ?_ ?_
    | refine finishId_frame ?_ ?_ ?_ ?_ ?_ | refine Frame.ite ?_ ?_

theorem execRecordStop_frame {p : Part → Prop} {r a0 s} (h_regs : p .regs) (h_hlt : p .hlt) (h_host : p .host) (h_map :
    p .map) (h_str : p .str) (h_rcd : p .rcd) (h : Frame p r s) : Frame p r (stateOf s (execRecordStop a0 s)) := by
  unfold execRecordStop
  repeat' with_reducible
    first
    | assumption | refine Frame.gate ?_ ?_ | refine Frame.next ?_ | refine withOp_frame (fun _ => ?_) ?_
    | refine markBegun_frame ?_ ?_ ?_ | refine finishId_frame ?_ ?_ ?_ ?_ ?_ | refine recFinish_frame ?_ ?_ ?_ ?_
    | refine Frame.ite ?_ ?_

theorem execRecordRead_frame {p : Part → Prop} {r a0 s} (h_regs : p .regs) (h_host : p .host) (h_map : p .map) (h_str :
    p .str) (h : Frame p r s) : Frame p r (stateOf s (execRecordRead a0 s)) := by
  unfold execRecordRead
  repeat' with_reducible
    first
    | assumption | refine Frame.gate ?_ ?_ | refine Frame.next ?_ | refine withOp_frame (fun _ => ?_) ?_
    | refine finish_frame ?_ ?_ ?_ ?_ ?_ | refine writeBuf_frame ?_ ?_ | refine Frame.ite ?_ ?_

theorem execRecordingBegin_frame {p : Part → Prop} {r s} (h_regs : p .regs) (h_rcd : p .rcd) (h : Frame p r s) : Frame p
    r (stateOf s (execRecordingBegin s)) := by
  unfold execRecordingBegin
  repeat' with_reducible
    first
    | assumption | refine Frame.gate ?_ ?_ | refine Frame.next ?_ | refine State.putb_frame ?_ ?_
    | refine areaWritten_frame ?_ ?_ | refine State.put_frame ?_ ?_ | refine State.onRcd_frame ?_ ?_ | split

theorem recStarted_frame {p : Part → Prop} {r s} (h_regs : p .regs) (h_host : p .host) (h_map : p .map) (h_str : p .str)
    (h_rcd : p .rcd) (h : Frame p r s) : Frame p r (recStarted s) := by
  unfold recStarted
  repeat' with_reducible
    first
    | assumption | refine finishId_frame ?_ ?_ ?_ ?_ ?_ | refine State.onRcd_frame ?_ ?_ | split

theorem trigEffect_frame {p : Part → Prop} {r a0 a1 s} (h_regs : p .regs) (h_rcd : p .rcd) (h : Frame p r s) : Frame p r
    (trigEffect a0 a1 s) := by
  unfold trigEffect
  repeat' with_reducible
    first
    | assumption | refine State.put_frame ?_ ?_ | refine recTrigger_frame ?_ ?_ ?_ | refine Frame.ite ?_ ?_

theorem execRecordingEnd_frame {p : Part → Prop} {r s} (h_regs : p .regs) (h_hlt : p .hlt) (h_rcd : p .rcd) (h : Frame p
    r s) : Frame p r (stateOf s (execRecordingEnd s)) := by
  unfold execRecordingEnd
  repeat' with_reducible
    first
    | assumption | refine Frame.gate ?_ ?_ | refine Frame.next ?_ | refine recFinish_frame ?_ ?_ ?_ ?_
    | refine Frame.ite ?_ ?_

theorem prepEffect_frame {p : Part → Prop} {r a0 s} (h_regs : p .regs) (h : Frame p r s) : Frame p r (prepEffect a0 s)
    := by
  unfold prepEffect
  repeat' with_reducible
    first
    | assumption | refine State.putb_frame ?_ ?_ | refine State.put_frame ?_ ?_ | refine Frame.ite ?_ ?_

theorem execReplayEnd_frame {p : Part → Prop} {r a0 s} (h_regs : p .regs) (h_locks : p .locks) (h_hlt : p .hlt) (h_c0 :
    p (.chan a0)) (h : Frame p r s) : Frame p r (stateOf s (execReplayEnd a0 s)) := by
  unfold execReplayEnd
  repeat' with_reducible
    first
    | assumption | refine Frame.gate ?_ ?_ | refine Frame.next ?_ | refine setMode_frame ?_ ?_ ?_
    | refine headTo_frame ?_ ?_ ?_ ?_ | refine replayLeave_frame ?_ ?_ | refine Frame.ite ?_ ?_

end Sys2Proof.Machine
end

