-- ==== Sys2Proof/Laws/FrameMem.lean ====
section
/-! SUPPORT. What each operation of Mem, MemFault, View, Effects, Writes, Boot may change (`Frame`). -/

namespace Sys2Proof.Machine

/-! ### Mem -/

theorem State.onMem_frame {p : Part → Prop} {r s a1} (h_mem : p .mem) (h : Frame p r s) : Frame p r (State.onMem s a1)
    := by
  unfold State.onMem
  repeat' with_reducible
    first
    | assumption | refine Frame.upd rfl rfl rfl ?_ ?_ ?_ ?_ ?_ ?_ ?_ ?_ ?_ ?_ ?_ ?_ ?_ ?_ ?_ ?_ ?_ ?_ | exact Or.inl rfl
    | exact Or.inr (by assumption)

theorem dramPut_frame {p : Part → Prop} {r a0 a1 s} (h_mem : p .mem) (h : Frame p r s) : Frame p r (dramPut a0 a1 s) :=
    by
  unfold dramPut
  repeat' with_reducible first | assumption | refine State.onMem_frame ?_ ?_

theorem remapEffect_frame {p : Part → Prop} {r a0 s} (h_regs : p .regs) (h_mem : p .mem) (h_fls : p .fls) (h : Frame p r
    s) : Frame p r (remapEffect a0 s) := by
  unfold remapEffect
  repeat' with_reducible
    first
    | assumption | refine State.putb_frame ?_ ?_ | refine State.onMem_frame ?_ ?_ | refine Frame.ite ?_ ?_
    | refine Frame.upd rfl rfl rfl ?_ ?_ ?_ ?_ ?_ ?_ ?_ ?_ ?_ ?_ ?_ ?_ ?_ ?_ ?_ ?_ ?_ ?_ | exact Or.inl rfl
    | exact Or.inr (by assumption)

theorem ceTrack_frame {p : Part → Prop} {r a0 s} (h_regs : p .regs) (h_locks : p .locks) (h_hlt : p .hlt) (h_mem : p
    .mem) (h_fls : p .fls) (h : Frame p r s) : Frame p r (ceTrack a0 s) := by
  unfold ceTrack
  repeat' with_reducible
    first
    | assumption | lift_lets -underBinder | (intro x; subst x) | refine State.putb_frame ?_ ?_
    | refine State.put_frame ?_ ?_ | refine State.onMem_frame ?_ ?_ | refine State.fault_frame ?_ ?_
    | refine remapEffect_frame ?_ ?_ ?_ ?_ | refine State.seqWrite_frame ?_ ?_ ?_ ?_ | split

theorem ceDone_frame {p : Part → Prop} {r a0 a1 a2 s} (h_regs : p .regs) (h_locks : p .locks) (h_hlt : p .hlt) (h_mem :
    p .mem) (h_fls : p .fls) (h : Frame p r s) : Frame p r (ceDone a0 a1 a2 s) := by
  unfold ceDone
  repeat' with_reducible
    first
    | assumption | refine State.fault_frame ?_ ?_ | refine State.bump_frame ?_ ?_ | refine dramPut_frame ?_ ?_
    | refine ceTrack_frame ?_ ?_ ?_ ?_ ?_ ?_ | refine Frame.ite ?_ ?_

theorem ueDone_frame {p : Part → Prop} {r a0 a1 s} (h_regs : p .regs) (h_hlt : p .hlt) (h : Frame p r s) : Frame p r
    (ueDone a0 a1 s) := by
  unfold ueDone
  repeat' with_reducible
    first
    | assumption | refine State.bump_frame ?_ ?_ | refine State.fault_frame ?_ ?_ | refine State.raise_frame ?_ ?_
    | refine State.put_frame ?_ ?_

theorem dramRead_frame {p : Part → Prop} {r a0 a1 s} (h_regs : p .regs) (h_locks : p .locks) (h_hlt : p .hlt) (h_mem : p
    .mem) (h_fls : p .fls) (h : Frame p r s) : Frame p r (dramRead a0 a1 s).2.2 := by
  unfold dramRead
  repeat' with_reducible
    first
    | assumption | lift_lets -underBinder | (intro x; subst x) | refine ceDone_frame ?_ ?_ ?_ ?_ ?_ ?_
    | refine ueDone_frame ?_ ?_ ?_ | split

theorem remapRestore_frame {p : Part → Prop} {r s} (h_regs : p .regs) (h_locks : p .locks) (h_hlt : p .hlt) (h_mem : p
    .mem) (h_fls : p .fls) (h : Frame p r s) : Frame p r (remapRestore s) := by
  unfold remapRestore
  repeat' with_reducible
    first
    | assumption | lift_lets -underBinder | (intro x; subst x) | refine remapEffect_frame ?_ ?_ ?_ ?_
    | refine State.seqWrite_frame ?_ ?_ ?_ ?_ | split

theorem execDramTrainingDone_frame {p : Part → Prop} {r a0 s} (h_regs : p .regs) (h_hlt : p .hlt) (h : Frame p r s) :
    Frame p r (stateOf s (execDramTrainingDone a0 s)) := by
  unfold execDramTrainingDone
  repeat' with_reducible
    first
    | assumption | refine Frame.gate ?_ ?_ | refine Frame.next ?_ | refine State.put_frame ?_ ?_
    | refine State.logEvent_frame ?_ ?_ | split

theorem execDramFillDone_frame {p : Part → Prop} {r s} (h_regs : p .regs) (h_mem : p .mem) (h : Frame p r s) : Frame p r
    (stateOf s (execDramFillDone s)) := by
  unfold execDramFillDone
  repeat' with_reducible
    first
    | assumption | refine Frame.gate ?_ ?_ | refine Frame.next ?_ | refine State.onMem_frame ?_ ?_
    | refine State.putb_frame ?_ ?_ | refine Frame.ite ?_ ?_

theorem scrubJudge_frame {p : Part → Prop} {r s} (h_regs : p .regs) (h_mem : p .mem) (h : Frame p r s) : Frame p r
    (scrubJudge s) := by
  unfold scrubJudge
  repeat' with_reducible
    first
    | assumption | refine State.onMem_frame ?_ ?_ | refine State.putb_frame ?_ ?_ | refine Frame.ite ?_ ?_

theorem scrubServe_frame {p : Part → Prop} {r a0 a1 s} (h_regs : p .regs) (h_locks : p .locks) (h_hlt : p .hlt) (h_mem :
    p .mem) (h_fls : p .fls) (h : Frame p r s) : Frame p r (scrubServe a0 a1 s) := by
  unfold scrubServe
  repeat' with_reducible
    first
    | assumption | refine dramRead_frame ?_ ?_ ?_ ?_ ?_ ?_ | refine State.logEvent_frame ?_ ?_
    | refine scrubJudge_frame ?_ ?_ ?_ | refine State.put_frame ?_ ?_ | refine State.onMem_frame ?_ ?_
    | refine State.raise_frame ?_ ?_ | refine State.bump_frame ?_ ?_ | refine Frame.each (fun _ _ _ => ?_) ?_
    | refine Frame.ite ?_ ?_

theorem testLoad_frame {p : Part → Prop} {r a0 s} (h_regs : p .regs) (h : Frame p r s) : Frame p r (testLoad a0 s) := by
  unfold testLoad
  repeat' with_reducible first | assumption | refine State.put_frame ?_ ?_ | refine Frame.each (fun _ _ _ => ?_) ?_

theorem testServe_frame {p : Part → Prop} {r a0 a1 s} (h_regs : p .regs) (h_mem : p .mem) (h : Frame p r s) : Frame p r
    (testServe a0 a1 s) := by
  unfold testServe
  repeat' with_reducible
    first
    | assumption | refine State.put_frame ?_ ?_ | refine testLoad_frame ?_ ?_ | refine dramPut_frame ?_ ?_
    | refine State.putb_frame ?_ ?_ | refine Frame.each (fun _ _ _ => ?_) ?_ | split

theorem tcmdEffect_frame {p : Part → Prop} {r a0 s} (h_regs : p .regs) (h_mem : p .mem) (h : Frame p r s) : Frame p r
    (tcmdEffect a0 s) := by
  unfold tcmdEffect
  repeat' with_reducible
    first
    | assumption | refine State.onMem_frame ?_ ?_ | refine State.putb_frame ?_ ?_ | refine testServe_frame ?_ ?_ ?_
    | refine Frame.ite ?_ ?_

theorem sramRepair_frame {p : Part → Prop} {r a0 s} (h_regs : p .regs) (h_hlt : p .hlt) (h_mem : p .mem) (h : Frame p r
    s) : Frame p r (sramRepair a0 s) := by
  unfold sramRepair
  repeat' with_reducible
    first
    | assumption | refine State.raise_frame ?_ ?_ | refine State.bump_frame ?_ ?_ | refine State.onMem_frame ?_ ?_
    | refine State.fault_frame ?_ ?_ | refine Frame.ite ?_ ?_

theorem disarm_frame {p : Part → Prop} {r a0 s} (h_regs : p .regs) (h : Frame p r s) : Frame p r (disarm a0 s) := by
  unfold disarm
  repeat' with_reducible first | assumption | refine State.putb_frame ?_ ?_ | refine Frame.ite ?_ ?_

theorem sramCorrected_frame {p : Part → Prop} {r a0 a1 s} (h_regs : p .regs) (h_hlt : p .hlt) (h_mem : p .mem) (h :
    Frame p r s) : Frame p r (sramCorrected a0 a1 s) := by
  unfold sramCorrected
  repeat' with_reducible
    first
    | assumption | refine disarm_frame ?_ ?_ | refine State.bump_frame ?_ ?_ | refine State.onMem_frame ?_ ?_
    | refine sramRepair_frame ?_ ?_ ?_ ?_ | refine Frame.ite ?_ ?_

theorem memClear_frame {p : Part → Prop} {r s} (h_regs : p .regs) (h_mem : p .mem) (h : Frame p r s) : Frame p r
    (memClear s) := by
  unfold memClear
  repeat' with_reducible first | assumption | refine State.clearAll_frame ?_ ?_ | refine State.onMem_frame ?_ ?_

/-! ### MemFault -/

theorem reloadExtent_frame {p : Part → Prop} {r a0 s} (h_map : p .map) (h : Frame p r s) : Frame p r (reloadExtent a0 s)
    := by
  unfold reloadExtent
  repeat' with_reducible
    first
    | assumption | lift_lets -underBinder | (intro x; subst x) | refine setExt_frame ?_ ?_ | refine dropPage_frame ?_ ?_
    | refine State.onMap_frame ?_ ?_ | split

theorem loseLine_frame {p : Part → Prop} {r a0 s} (h_regs : p .regs) (h_map : p .map) (h : Frame p r s) : Frame p r
    (loseLine a0 s) := by
  unfold loseLine
  repeat' with_reducible
    first
    | assumption | refine showMap_frame ?_ ?_ | refine reloadExtent_frame ?_ ?_ | refine Frame.each (fun _ _ _ => ?_) ?_

theorem poisonRead_frame {p : Part → Prop} {r a0 a1 s} (h_regs : p .regs) (h_hlt : p .hlt) (h_host : p .host) (h : Frame
    p r s) : Frame p r (poisonRead a0 a1 s) := by
  unfold poisonRead
  repeat' with_reducible first | assumption | refine guardCheck_frame ?_ ?_ ?_ | refine onCtx_frame ?_ ?_ ?_ | split

theorem poisonTile_frame {p : Part → Prop} {r a0 a1 a2 s} (h_regs : p .regs) (h_host : p .host) (h_map : p .map) (h_str
    : p .str) (h_all : ∀ k, p (.chan k)) (h : Frame p r s) : Frame p r (poisonTile a0 a1 a2 s) := by
  unfold poisonTile
  repeat' with_reducible
    first
    | assumption | exact h_all _ | lift_lets -underBinder | (intro x; subst x) | refine State.onWrc_frame ?_ ?_
    | refine onStripe_frame ?_ ?_ | refine failPiece_frame ?_ ?_ ?_ ?_ ?_ | split

theorem replayLost_frame {p : Part → Prop} {r s} (h_regs : p .regs) (h_locks : p .locks) (h_hlt : p .hlt) (h_rcd : p
    .rcd) (h_all : ∀ k, p (.chan k)) (h : Frame p r s) : Frame p r (replayLost s) := by
  unfold replayLost
  repeat' with_reducible
    first
    | assumption | exact h_all _ | refine setMode_frame ?_ ?_ ?_ | refine headTo_frame ?_ ?_ ?_ ?_
    | refine State.onRcd_frame ?_ ?_ | split

theorem poisoned_frame {p : Part → Prop} {r a0 a1 s} (h_regs : p .regs) (h_locks : p .locks) (h_hlt : p .hlt) (h_host :
    p .host) (h_map : p .map) (h_str : p .str) (h_rcd : p .rcd) (h_all : ∀ k, p (.chan k)) (h : Frame p r s) : Frame p r
    (poisoned a0 a1 s) := by
  unfold poisoned
  repeat' with_reducible
    first
    | assumption | refine poisonRead_frame ?_ ?_ ?_ ?_ | refine poisonTile_frame ?_ ?_ ?_ ?_ ?_ ?_
    | refine loseLine_frame ?_ ?_ ?_ | refine finishId_frame ?_ ?_ ?_ ?_ ?_ | refine recFinish_frame ?_ ?_ ?_ ?_
    | refine replayLost_frame ?_ ?_ ?_ ?_ ?_ ?_ | split

theorem dramServe_frame {p : Part → Prop} {r a0 s} (h_regs : p .regs) (h_locks : p .locks) (h_hlt : p .hlt) (h_host : p
    .host) (h_map : p .map) (h_str : p .str) (h_mem : p .mem) (h_fls : p .fls) (h_rcd : p .rcd) (h_all : ∀ k, p (.chan
    k)) (h : Frame p r s) : Frame p r (dramServe a0 s) := by
  unfold dramServe
  repeat' with_reducible
    first
    | assumption | refine poisoned_frame ?_ ?_ ?_ ?_ ?_ ?_ ?_ ?_ ?_ | refine ueDone_frame ?_ ?_ ?_
    | refine dramRead_frame ?_ ?_ ?_ ?_ ?_ ?_ | refine State.bump_frame ?_ ?_ | refine dramPut_frame ?_ ?_
    | refine scrubServe_frame ?_ ?_ ?_ ?_ ?_ ?_ | refine testServe_frame ?_ ?_ ?_ | refine Frame.ite ?_ ?_ | split

theorem dramRun_frame {p : Part → Prop} {r a0 s} (h_regs : p .regs) (h_locks : p .locks) (h_hlt : p .hlt) (h_host : p
    .host) (h_map : p .map) (h_str : p .str) (h_mem : p .mem) (h_fls : p .fls) (h_rcd : p .rcd) (h_all : ∀ k, p (.chan
    k)) (h : Frame p r s) : Frame p r (dramRun a0 s) := by
  unfold dramRun
  repeat' with_reducible
    first
    | assumption | refine dramServe_frame ?_ ?_ ?_ ?_ ?_ ?_ ?_ ?_ ?_ ?_ ?_ | refine State.onMem_frame ?_ ?_

theorem dramDrain_frame {p : Part → Prop} {r f s}  (h_regs : p .regs) (h_locks : p .locks) (h_hlt : p .hlt) (h_host : p
    .host) (h_map : p .map) (h_str : p .str) (h_mem : p .mem) (h_fls : p .fls) (h_rcd : p .rcd) (h_all : ∀ k, p (.chan
    k)) (h : Frame p r s) : Frame p r (dramDrain f s) := by
  induction f generalizing s with
  | zero => exact h
  | succ f ih =>
    unfold dramDrain
    repeat' with_reducible
      first
      | assumption | refine ih ?_ | refine dramRun_frame ?_ ?_ ?_ ?_ ?_ ?_ ?_ ?_ ?_ ?_ ?_
      | refine State.onMem_frame ?_ ?_ | split

theorem dramRequest_frame {p : Part → Prop} {r a0 s} (h_regs : p .regs) (h_locks : p .locks) (h_hlt : p .hlt) (h_host :
    p .host) (h_map : p .map) (h_str : p .str) (h_mem : p .mem) (h_fls : p .fls) (h_rcd : p .rcd) (h_all : ∀ k, p (.chan
    k)) (h : Frame p r s) : Frame p r (dramRequest a0 s) := by
  unfold dramRequest
  repeat' with_reducible
    first
    | assumption | refine State.onMem_frame ?_ ?_ | refine dramRun_frame ?_ ?_ ?_ ?_ ?_ ?_ ?_ ?_ ?_ ?_ ?_
    | refine Frame.ite ?_ ?_

theorem dramWrite_frame {p : Part → Prop} {r c f a b s}  (h_regs : p .regs) (h_locks : p .locks) (h_hlt : p .hlt)
    (h_host : p .host) (h_map : p .map) (h_str : p .str) (h_mem : p .mem) (h_fls : p .fls) (h_rcd : p .rcd) (h_all : ∀
    k, p (.chan k)) (h : Frame p r s) : Frame p r (dramWrite c f a b s) := by
  induction f generalizing a b s with
  | zero => exact h
  | succ f ih =>
    unfold dramWrite
    repeat' with_reducible
      first
      | assumption | refine ih ?_ | refine dramRequest_frame ?_ ?_ ?_ ?_ ?_ ?_ ?_ ?_ ?_ ?_ ?_ | refine Frame.ite ?_ ?_

theorem vlogFlush_frame {p : Part → Prop} {r s} (h_regs : p .regs) (h_locks : p .locks) (h_hlt : p .hlt) (h_host : p
    .host) (h_map : p .map) (h_str : p .str) (h_mem : p .mem) (h_fls : p .fls) (h_rcd : p .rcd) (h_all : ∀ k, p (.chan
    k)) (h : Frame p r s) : Frame p r (vlogFlush s) := by
  unfold vlogFlush
  repeat' with_reducible
    first
    | assumption | exact h_all _ | refine State.onWrc_frame ?_ ?_
    | refine dramWrite_frame ?_ ?_ ?_ ?_ ?_ ?_ ?_ ?_ ?_ ?_ ?_ | refine Frame.each (fun _ _ _ => ?_) ?_
    | refine Frame.ite ?_ ?_

theorem execDramRead_frame {p : Part → Prop} {r a0 a1 a2 s} (h_regs : p .regs) (h_locks : p .locks) (h_hlt : p .hlt)
    (h_host : p .host) (h_map : p .map) (h_str : p .str) (h_mem : p .mem) (h_fls : p .fls) (h_rcd : p .rcd) (h_all : ∀
    k, p (.chan k)) (h : Frame p r s) : Frame p r (stateOf s (execDramRead a0 a1 a2 s)) := by
  unfold execDramRead
  repeat' with_reducible
    first
    | assumption | refine Frame.gate ?_ ?_ | refine Frame.next ?_
    | refine dramRequest_frame ?_ ?_ ?_ ?_ ?_ ?_ ?_ ?_ ?_ ?_ ?_

theorem execDramRmw_frame {p : Part → Prop} {r a0 a1 a2 a3 s} (h_regs : p .regs) (h_locks : p .locks) (h_hlt : p .hlt)
    (h_host : p .host) (h_map : p .map) (h_str : p .str) (h_mem : p .mem) (h_fls : p .fls) (h_rcd : p .rcd) (h_all : ∀
    k, p (.chan k)) (h : Frame p r s) : Frame p r (stateOf s (execDramRmw a0 a1 a2 a3 s)) := by
  unfold execDramRmw
  repeat' with_reducible
    first
    | assumption | refine Frame.gate ?_ ?_ | refine Frame.next ?_
    | refine dramRequest_frame ?_ ?_ ?_ ?_ ?_ ?_ ?_ ?_ ?_ ?_ ?_

theorem execScrubRead_frame {p : Part → Prop} {r a0 s} (h_regs : p .regs) (h_locks : p .locks) (h_hlt : p .hlt) (h_host
    : p .host) (h_map : p .map) (h_str : p .str) (h_mem : p .mem) (h_fls : p .fls) (h_rcd : p .rcd) (h_all : ∀ k, p
    (.chan k)) (h : Frame p r s) : Frame p r (stateOf s (execScrubRead a0 s)) := by
  unfold execScrubRead
  repeat' with_reducible
    first
    | assumption | refine Frame.gate ?_ ?_ | refine Frame.next ?_
    | refine dramRequest_frame ?_ ?_ ?_ ?_ ?_ ?_ ?_ ?_ ?_ ?_ ?_ | refine Frame.ite ?_ ?_

theorem copyDone_frame {p : Part → Prop} {r a0 s} (h_regs : p .regs) (h_locks : p .locks) (h_hlt : p .hlt) (h_mem : p
    .mem) (h_fls : p .fls) (h : Frame p r s) : Frame p r (copyDone a0 s) := by
  unfold copyDone
  repeat' with_reducible
    first
    | assumption | refine State.onMem_frame ?_ ?_ | refine remapRestore_frame ?_ ?_ ?_ ?_ ?_ ?_
    | refine State.raise_frame ?_ ?_ | refine State.putb_frame ?_ ?_

theorem execRemapCopyDone_frame {p : Part → Prop} {r s} (h_regs : p .regs) (h_locks : p .locks) (h_hlt : p .hlt) (h_host
    : p .host) (h_map : p .map) (h_str : p .str) (h_mem : p .mem) (h_fls : p .fls) (h_rcd : p .rcd) (h_all : ∀ k, p
    (.chan k)) (h : Frame p r s) : Frame p r (stateOf s (execRemapCopyDone s)) := by
  unfold execRemapCopyDone
  repeat' with_reducible
    first
    | assumption | refine Frame.gate ?_ ?_ | refine Frame.next ?_ | refine copyDone_frame ?_ ?_ ?_ ?_ ?_ ?_
    | refine dramDrain_frame ?_ ?_ ?_ ?_ ?_ ?_ ?_ ?_ ?_ ?_ ?_ | split

theorem execSramCorrected_frame {p : Part → Prop} {r a0 a1 s} (h_regs : p .regs) (h_hlt : p .hlt) (h_mca : p .mca)
    (h_mem : p .mem) (h : Frame p r s) : Frame p r (stateOf s (execSramCorrected a0 a1 s)) := by
  unfold execSramCorrected
  repeat' with_reducible
    first
    | assumption | refine Frame.gate ?_ ?_ | refine Frame.next ?_ | refine sramCorrected_frame ?_ ?_ ?_ ?_
    | refine wayCorrected_frame ?_ ?_ ?_ ?_ | refine Frame.ite ?_ ?_

theorem recordingLost_frame {p : Part → Prop} {r a0 s} (h_regs : p .regs) (h_hlt : p .hlt) (h_rcd : p .rcd) (h : Frame p
    r s) : Frame p r (recordingLost a0 s) := by
  unfold recordingLost
  repeat' with_reducible
    first
    | assumption | refine State.put_frame ?_ ?_ | refine recFinish_frame ?_ ?_ ?_ ?_ | refine Frame.ite ?_ ?_

theorem ringLost_frame {p : Part → Prop} {r a0 s} (h_regs : p .regs) (h_host : p .host) (h : Frame p r s) : Frame p r
    (ringLost a0 s) := by
  unfold ringLost
  repeat' with_reducible
    first
    | assumption | refine writeRecord_frame ?_ ?_ | refine interrupt_frame ?_ ?_ | refine dropGrants_frame ?_ ?_
    | refine State.raise_frame ?_ ?_ | refine headNext_frame ?_ ?_ | refine State.put_frame ?_ ?_ | split

theorem arrayLost_frame {p : Part → Prop} {r a0 a1 a2 s} (h_regs : p .regs) (h_locks : p .locks) (h_hlt : p .hlt)
    (h_host : p .host) (h_map : p .map) (h_mca : p .mca) (h_str : p .str) (h_fls : p .fls) (h_rcd : p .rcd) (h_all : ∀
    k, p (.chan k)) (h : Frame p r s) : Frame p r (arrayLost a0 a1 a2 s) := by
  unfold arrayLost
  repeat' with_reducible
    first
    | assumption | exact h_all _ | lift_lets -underBinder | (intro x; subst x) | refine State.bump_frame ?_ ?_
    | refine loseLine_frame ?_ ?_ ?_ | refine disableWay_frame ?_ ?_ ?_ ?_ | refine finish_frame ?_ ?_ ?_ ?_ ?_
    | refine ringLost_frame ?_ ?_ ?_ | refine State.onTile_frame ?_ ?_ | refine State.onWrc_frame ?_ ?_
    | refine coreRestart_frame ?_ ?_ ?_ | refine stopChan_frame ?_ ?_ ?_ ?_ ?_ | refine recordingLost_frame ?_ ?_ ?_ ?_
    | split

theorem execSramUncorrectable_frame {p : Part → Prop} {r a0 a1 a2 s} (h_regs : p .regs) (h_locks : p .locks) (h_hlt : p
    .hlt) (h_host : p .host) (h_map : p .map) (h_mca : p .mca) (h_str : p .str) (h_fls : p .fls) (h_rcd : p .rcd) (h_all
    : ∀ k, p (.chan k)) (h : Frame p r s) : Frame p r (stateOf s (execSramUncorrectable a0 a1 a2 s)) := by
  unfold execSramUncorrectable
  repeat' with_reducible
    first
    | assumption | refine Frame.gate ?_ ?_ | refine Frame.next ?_ | refine State.fault_frame ?_ ?_
    | refine State.raise_frame ?_ ?_ | refine State.bump_frame ?_ ?_
    | refine arrayLost_frame ?_ ?_ ?_ ?_ ?_ ?_ ?_ ?_ ?_ ?_ ?_ | refine disarm_frame ?_ ?_

/-! ### View -/

theorem readCapture_frame {p : Part → Prop} {r a0 a1 s} (h_tb : p .tb) (h : Frame p r s) : Frame p r (readCapture a0 a1
    s) := by
  unfold readCapture
  repeat' with_reducible
    first
    | assumption | refine Frame.ite ?_ ?_
    | refine Frame.upd rfl rfl rfl ?_ ?_ ?_ ?_ ?_ ?_ ?_ ?_ ?_ ?_ ?_ ?_ ?_ ?_ ?_ ?_ ?_ ?_ | exact Or.inl rfl
    | exact Or.inr (by assumption)

theorem busRead_frame {p : Part → Prop} {r a0 a1 s} (h_tb : p .tb) (h : Frame p r s) : Frame p r (busRead a0 a1 s).2 :=
    by
  unfold busRead
  repeat' with_reducible first | assumption | refine readCapture_frame ?_ ?_ | split

theorem busReadBytes_frame {p : Part → Prop} {r a0 a1 a2 a3 s} (h_tb : p .tb) (h : Frame p r s) : Frame p r
    (busReadBytes a0 a1 a2 a3 s).2 := by
  unfold busReadBytes
  repeat' with_reducible first | assumption | refine busRead_frame ?_ ?_ | split | refine Frame.snd (by assumption) ?_

/-! ### Effects -/

theorem refusedEffect_frame {p : Part → Prop} {r a0 a1 s} (h_regs : p .regs) (h_all : ∀ k, p (.chan k)) (h : Frame p r
    s) : Frame p r (refusedEffect a0 a1 s) := by
  unfold refusedEffect
  repeat' with_reducible
    first
    | assumption | exact h_all _ | lift_lets -underBinder | (intro x; subst x) | refine axQcmdEffect_frame ?_ ?_ ?_
    | refine modeFail_frame ?_ ?_ | refine State.raise_frame ?_ ?_ | split

theorem freezeEffect_frame {p : Part → Prop} {r a0 a1 a2 s} (h_frozen : p .frozen) (h : Frame p r s) : Frame p r
    (freezeEffect a0 a1 a2 s) := by
  unfold freezeEffect
  repeat' with_reducible
    first
    | assumption | split | refine Frame.upd rfl rfl rfl ?_ ?_ ?_ ?_ ?_ ?_ ?_ ?_ ?_ ?_ ?_ ?_ ?_ ?_ ?_ ?_ ?_ ?_
    | exact Or.inl rfl | exact Or.inr (by assumption)

theorem todApplyEffect_frame {p : Part → Prop} {r a0 s} (h_tb : p .tb) (h : Frame p r s) : Frame p r (todApplyEffect a0
    s) := by
  unfold todApplyEffect
  repeat' with_reducible
    first
    | assumption | refine Frame.ite ?_ ?_
    | refine Frame.upd rfl rfl rfl ?_ ?_ ?_ ?_ ?_ ?_ ?_ ?_ ?_ ?_ ?_ ?_ ?_ ?_ ?_ ?_ ?_ ?_ | exact Or.inl rfl
    | exact Or.inr (by assumption)

theorem readyEffect_frame {p : Part → Prop} {r a0 a1 a2 a3 s} (h_host : p .host) (h : Frame p r s) : Frame p r
    (readyEffect a0 a1 a2 a3 s) := by
  unfold readyEffect
  repeat' with_reducible first | assumption | refine takeSubsys_frame ?_ ?_ | refine Frame.ite ?_ ?_

theorem hlkClear_frame {p : Part → Prop} {r s} (h_regs : p .regs) (h : Frame p r s) : Frame p r (hlkClear s) := by
  unfold hlkClear
  repeat' with_reducible first | assumption | refine State.clearAll_frame ?_ ?_ | refine Frame.each (fun _ _ _ => ?_) ?_

theorem subsysEffect_frame {p : Part → Prop} {r s} (h_fls : p .fls) (h : Frame p r s) : Frame p r (subsysEffect s) := by
  unfold subsysEffect
  repeat' with_reducible first | assumption | refine State.onFls_frame ?_ ?_ | refine Frame.ite ?_ ?_

theorem chipEffect_frame {p : Part → Prop} {r a0 a1 a2 a3 a4 a5 s} (h_regs : p .regs) (h_tb : p .tb) (h_hlt : p .hlt)
    (h_host : p .host) (h_mca : p .mca) (h_mem : p .mem) (h_fls : p .fls) (h_rcd : p .rcd) (h_all : ∀ k, p (.chan k)) (h
    : Frame p r s) : Frame p r (chipEffect a0 a1 a2 a3 a4 a5 s) := by
  unfold chipEffect
  repeat' with_reducible
    first
    | assumption | refine todApplyEffect_frame ?_ ?_ | refine trigEffect_frame ?_ ?_ ?_ | refine prepEffect_frame ?_ ?_
    | refine hltCtlEffect_frame ?_ ?_ ?_ | refine hltClrEffect_frame ?_ ?_ ?_ ?_ | refine tempCheck_frame ?_ ?_ ?_
    | refine hlkClear_frame ?_ ?_ | refine readyEffect_frame ?_ ?_ | refine subsysEffect_frame ?_ ?_
    | refine hqeClear_frame ?_ ?_ | refine mapClear_frame ?_ ?_ | refine mcaClear_frame ?_ ?_
    | refine mcaLockEffect_frame ?_ ?_ ?_ | refine mcaOpEffect_frame ?_ ?_ ?_ | refine strClear_frame ?_ ?_
    | refine seaClear_frame ?_ ?_ | refine memClear_frame ?_ ?_ ?_ | refine remapEffect_frame ?_ ?_ ?_ ?_
    | refine tcmdEffect_frame ?_ ?_ ?_ | refine flsClear_frame ?_ ?_ | refine flashCmd_frame ?_ ?_ ?_ ?_
    | refine divertEffect_frame ?_ ?_ ?_ | refine calClear_frame ?_ ?_ | refine vmbCtlEffect_frame ?_ ?_ | split

theorem rdcEffect_frame {p : Part → Prop} {r a0 a1 a2 s} (h_regs : p .regs) (h_c0 : p (.chan a0)) (h : Frame p r s) :
    Frame p r (rdcEffect a0 a1 a2 s) := by
  unfold rdcEffect
  repeat' with_reducible
    first
    | assumption | refine State.clearAll_frame ?_ ?_ | refine State.put_frame ?_ ?_ | refine State.onRdc_frame ?_ ?_
    | split

theorem chanEffect_frame {p : Part → Prop} {r a0 a1 a2 a3 a4 a5 s} (h_regs : p .regs) (h_c1 : p (.chan a1)) (h : Frame p
    r s) : Frame p r (chanEffect a0 a1 a2 a3 a4 a5 s) := by
  unfold chanEffect
  repeat' with_reducible
    first
    | assumption | refine rdcEffect_frame ?_ ?_ ?_ | refine wrcCtlEffect_frame ?_ ?_ | refine State.clearAll_frame ?_ ?_
    | refine ttSwapEffect_frame ?_ ?_ | refine loopCtlEffect_frame ?_ ?_ ?_ | refine motSeekEffect_frame ?_ ?_ ?_
    | refine axCtlEffect_frame ?_ ?_ ?_ | refine axQcmdEffect_frame ?_ ?_ ?_ | refine spnCommand_frame ?_ ?_ ?_
    | refine dcmCtlEffect_frame ?_ ?_ ?_ | refine allowEffect_frame ?_ ?_ ?_ | refine profileValueEffect_frame ?_ ?_
    | split

theorem writeEffect_frame {p : Part → Prop} {r a0 a1 a2 a3 a4 a5 s} (h_regs : p .regs) (h_tb : p .tb) (h_frozen : p
    .frozen) (h_hlt : p .hlt) (h_host : p .host) (h_map : p .map) (h_mca : p .mca) (h_str : p .str) (h_mem : p .mem)
    (h_fls : p .fls) (h_rcd : p .rcd) (h_all : ∀ k, p (.chan k)) (h : Frame p r s) : Frame p r (writeEffect a0 a1 a2 a3
    a4 a5 s) := by
  unfold writeEffect
  repeat' with_reducible
    first
    | assumption | exact h_all _ | lift_lets -underBinder | (intro x; subst x) | refine rcCtlEffect_frame ?_ ?_ ?_ ?_ ?_
    | refine evqEffect_frame ?_ ?_ ?_ | refine freezeEffect_frame ?_ ?_ | refine chanEffect_frame ?_ ?_ ?_
    | refine chipEffect_frame ?_ ?_ ?_ ?_ ?_ ?_ ?_ ?_ ?_ ?_ | split

theorem noteChange_frame {p : Part → Prop} {r a0 a1 a2 s} (h_rcd : p .rcd) (h : Frame p r s) : Frame p r (noteChange a0
    a1 a2 s) := by
  unfold noteChange
  repeat' with_reducible first | assumption | refine recChange_frame ?_ ?_ | split

theorem applyWrite_frame {p : Part → Prop} {r a0 a1 a2 a3 s} (h_regs : p .regs) (h_tb : p .tb) (h_frozen : p .frozen)
    (h_hlt : p .hlt) (h_host : p .host) (h_map : p .map) (h_mca : p .mca) (h_str : p .str) (h_mem : p .mem) (h_fls : p
    .fls) (h_rcd : p .rcd) (h_all : ∀ k, p (.chan k)) (h : Frame p r s) : Frame p r (applyWrite a0 a1 a2 a3 s) := by
  unfold applyWrite
  repeat' with_reducible
    first
    | assumption | refine State.logChange_frame ?_ ?_ | refine refusedEffect_frame ?_ ?_ ?_
    | refine writeEffect_frame ?_ ?_ ?_ ?_ ?_ ?_ ?_ ?_ ?_ ?_ ?_ ?_ ?_ | refine noteChange_frame ?_ ?_
    | refine State.wr_frame ?_ ?_ | split

theorem logReplaced_frame {p : Part → Prop} {r a0 s} (h_hlt : p .hlt) (h : Frame p r s) : Frame p r (logReplaced a0 s)
    := by
  unfold logReplaced
  repeat' with_reducible first | assumption | refine State.logChange_frame ?_ ?_ | split

theorem applyStaged_frame {p : Part → Prop} {r l s}  (h_regs : p .regs) (h_tb : p .tb) (h_frozen : p .frozen) (h_hlt : p
    .hlt) (h_host : p .host) (h_map : p .map) (h_mca : p .mca) (h_str : p .str) (h_mem : p .mem) (h_fls : p .fls) (h_rcd
    : p .rcd) (h_all : ∀ k, p (.chan k)) (h : Frame p r s) : Frame p r (applyStaged l s) := by
  induction l generalizing s with
  | nil => exact h
  | cons w l ih =>
    unfold applyStaged
    repeat' with_reducible
      first
      | assumption | refine ih ?_ | refine logReplaced_frame ?_ ?_
      | refine applyWrite_frame ?_ ?_ ?_ ?_ ?_ ?_ ?_ ?_ ?_ ?_ ?_ ?_ ?_ | refine Frame.ite ?_ ?_

theorem showTrim_frame {p : Part → Prop} {r a0 s} (h_regs : p .regs) (h : Frame p r s) : Frame p r (showTrim a0 s) := by
  unfold showTrim
  repeat' with_reducible first | assumption | refine State.putb_frame ?_ ?_

theorem bumpRefused_frame {p : Part → Prop} {r a0 s} (h_regs : p .regs) (h : Frame p r s) : Frame p r (bumpRefused a0 s)
    := by
  unfold bumpRefused
  repeat' with_reducible first | assumption | refine State.bump_frame ?_ ?_ | split

theorem refuseWrite_frame {p : Part → Prop} {r a0 a1 a2 a3 s} (h_regs : p .regs) (h_hlt : p .hlt) (h : Frame p r s) :
    Frame p r (refuseWrite a0 a1 a2 a3 s) := by
  unfold refuseWrite
  repeat' with_reducible first | assumption | refine State.logChange_frame ?_ ?_ | refine bumpRefused_frame ?_ ?_

theorem stageTrim_frame {p : Part → Prop} {r a0 a1 a2 s} (h_regs : p .regs) (h_c0 : p (.chan a0)) (h : Frame p r s) :
    Frame p r (stageTrim a0 a1 a2 s) := by
  unfold stageTrim
  repeat' with_reducible
    first
    | assumption | refine showTrim_frame ?_ ?_ | refine stageWrite_frame ?_ ?_ | refine State.onDcm_frame ?_ ?_ | split

theorem acceptWrite_frame {p : Part → Prop} {r a0 a1 a2 a3 s} (h_regs : p .regs) (h_tb : p .tb) (h_locks : p .locks)
    (h_frozen : p .frozen) (h_hlt : p .hlt) (h_host : p .host) (h_map : p .map) (h_mca : p .mca) (h_str : p .str) (h_mem
    : p .mem) (h_fls : p .fls) (h_rcd : p .rcd) (h_all : ∀ k, p (.chan k)) (h : Frame p r s) : Frame p r (acceptWrite a0
    a1 a2 a3 s) := by
  unfold acceptWrite
  repeat' with_reducible
    first
    | assumption | exact h_all _ | lift_lets -underBinder | (intro x; subst x)
    | refine applyWrite_frame ?_ ?_ ?_ ?_ ?_ ?_ ?_ ?_ ?_ ?_ ?_ ?_ ?_ | refine lockWrite_frame ?_ ?_ ?_
    | refine refuseWrite_frame ?_ ?_ ?_ | refine touchLock_frame ?_ ?_ | refine stageWrite_frame ?_ ?_
    | refine stageTrim_frame ?_ ?_ ?_ | split

theorem countUnmapped_frame {p : Part → Prop} {r s} (h_regs : p .regs) (h : Frame p r s) : Frame p r (countUnmapped s)
    := by
  unfold countUnmapped
  repeat' with_reducible first | assumption | refine State.bump_frame ?_ ?_

theorem regAccess_frame {p : Part → Prop} {r a0 a1 a2 a3 a4 s} (h_regs : p .regs) (h_tb : p .tb) (h_locks : p .locks)
    (h_frozen : p .frozen) (h_hlt : p .hlt) (h_host : p .host) (h_map : p .map) (h_mca : p .mca) (h_str : p .str) (h_mem
    : p .mem) (h_fls : p .fls) (h_rcd : p .rcd) (h_all : ∀ k, p (.chan k)) (h : Frame p r s) : Frame p r (regAccess a0
    a1 a2 a3 a4 s) := by
  unfold regAccess
  repeat' with_reducible
    first
    | assumption | refine countUnmapped_frame ?_ ?_ | refine refuseWrite_frame ?_ ?_ ?_
    | refine violation_frame ?_ ?_ ?_ ?_ | refine stagingWrite_frame ?_ ?_ ?_ ?_ ?_ ?_
    | refine bellWrite_frame ?_ ?_ ?_ ?_ | refine acceptWrite_frame ?_ ?_ ?_ ?_ ?_ ?_ ?_ ?_ ?_ ?_ ?_ ?_ ?_ ?_ | split

/-! ### Writes -/

theorem busWrite_frame {p : Part → Prop} {r a0 a1 a2 a3 s} (h_regs : p .regs) (h_tb : p .tb) (h_locks : p .locks)
    (h_frozen : p .frozen) (h_hlt : p .hlt) (h_host : p .host) (h_map : p .map) (h_mca : p .mca) (h_str : p .str) (h_mem
    : p .mem) (h_fls : p .fls) (h_rcd : p .rcd) (h_all : ∀ k, p (.chan k)) (h : Frame p r s) : Frame p r (stateOf s
    (busWrite a0 a1 a2 a3 s)) := by
  unfold busWrite
  repeat' with_reducible
    first
    | assumption | refine Frame.next ?_ | refine regAccess_frame ?_ ?_ ?_ ?_ ?_ ?_ ?_ ?_ ?_ ?_ ?_ ?_ ?_ ?_

theorem execRegisterWrite_frame {p : Part → Prop} {r a0 a1 a2 a3 a4 a5 s} (h_regs : p .regs) (h_tb : p .tb) (h_locks : p
    .locks) (h_frozen : p .frozen) (h_hlt : p .hlt) (h_host : p .host) (h_map : p .map) (h_mca : p .mca) (h_str : p
    .str) (h_mem : p .mem) (h_fls : p .fls) (h_rcd : p .rcd) (h_all : ∀ k, p (.chan k)) (h : Frame p r s) : Frame p r
    (stateOf s (execRegisterWrite a0 a1 a2 a3 a4 a5 s)) := by
  unfold execRegisterWrite
  repeat' with_reducible
    first
    | assumption | refine Frame.gate ?_ ?_ | refine Frame.next ?_
    | refine regAccess_frame ?_ ?_ ?_ ?_ ?_ ?_ ?_ ?_ ?_ ?_ ?_ ?_ ?_ ?_ | split

theorem execExpertUnlock_frame {p : Part → Prop} {r a0 a1 a2 s} (h_regs : p .regs) (h_tb : p .tb) (h_locks : p .locks)
    (h_frozen : p .frozen) (h_hlt : p .hlt) (h_host : p .host) (h_map : p .map) (h_mca : p .mca) (h_str : p .str) (h_mem
    : p .mem) (h_fls : p .fls) (h_rcd : p .rcd) (h_all : ∀ k, p (.chan k)) (h : Frame p r s) : Frame p r (stateOf s
    (execExpertUnlock a0 a1 a2 s)) := by
  unfold execExpertUnlock
  repeat' with_reducible
    first
    | assumption | refine Frame.gate ?_ ?_ | refine busWrite_frame ?_ ?_ ?_ ?_ ?_ ?_ ?_ ?_ ?_ ?_ ?_ ?_ ?_ ?_

theorem execExpertLockTimeout_frame {p : Part → Prop} {r a0 s} (h_locks : p .locks) (h : Frame p r s) : Frame p r
    (stateOf s (execExpertLockTimeout a0 s)) := by
  unfold execExpertLockTimeout
  repeat' with_reducible
    first
    | assumption | refine Frame.gate ?_ ?_ | refine Frame.next ?_
    | refine Frame.upd rfl rfl rfl ?_ ?_ ?_ ?_ ?_ ?_ ?_ ?_ ?_ ?_ ?_ ?_ ?_ ?_ ?_ ?_ ?_ ?_ | exact Or.inl rfl
    | exact Or.inr (by assumption)

theorem execFreezeWrite_frame {p : Part → Prop} {r a0 a1 a2 s} (h_regs : p .regs) (h_tb : p .tb) (h_locks : p .locks)
    (h_frozen : p .frozen) (h_hlt : p .hlt) (h_host : p .host) (h_map : p .map) (h_mca : p .mca) (h_str : p .str) (h_mem
    : p .mem) (h_fls : p .fls) (h_rcd : p .rcd) (h_all : ∀ k, p (.chan k)) (h : Frame p r s) : Frame p r (stateOf s
    (execFreezeWrite a0 a1 a2 s)) := by
  unfold execFreezeWrite
  repeat' with_reducible
    first
    | assumption | refine Frame.gate ?_ ?_ | refine busWrite_frame ?_ ?_ ?_ ?_ ?_ ?_ ?_ ?_ ?_ ?_ ?_ ?_ ?_ ?_

theorem execCounterClear_frame {p : Part → Prop} {r a0 a1 a2 s} (h_regs : p .regs) (h_tb : p .tb) (h_locks : p .locks)
    (h_frozen : p .frozen) (h_hlt : p .hlt) (h_host : p .host) (h_map : p .map) (h_mca : p .mca) (h_str : p .str) (h_mem
    : p .mem) (h_fls : p .fls) (h_rcd : p .rcd) (h_all : ∀ k, p (.chan k)) (h : Frame p r s) : Frame p r (stateOf s
    (execCounterClear a0 a1 a2 s)) := by
  unfold execCounterClear
  repeat' with_reducible
    first
    | assumption | refine Frame.gate ?_ ?_ | refine Frame.next ?_
    | refine busWrite_frame ?_ ?_ ?_ ?_ ?_ ?_ ?_ ?_ ?_ ?_ ?_ ?_ ?_ ?_ | split

theorem answerRead_frame {p : Part → Prop} {r a0 a1 s} (h_host : p .host) (h : Frame p r s) : Frame p r (answerRead a0
    a1 s) := by
  unfold answerRead
  repeat' with_reducible first | assumption | refine State.send_frame ?_ ?_ | split

theorem originRead_frame {p : Part → Prop} {r a0 a1 a2 a3 s} (h_regs : p .regs) (h_tb : p .tb) (h_host : p .host) (h :
    Frame p r s) : Frame p r (originRead a0 a1 a2 a3 s) := by
  unfold originRead
  repeat' with_reducible
    first
    | assumption | refine answerRead_frame ?_ ?_ | refine State.bump_frame ?_ ?_ | refine busReadBytes_frame ?_ ?_
    | split

theorem execTickCaptureRead_frame {p : Part → Prop} {r a0 a1 a2 s} (h_regs : p .regs) (h_tb : p .tb) (h_host : p .host)
    (h : Frame p r s) : Frame p r (stateOf s (execTickCaptureRead a0 a1 a2 s)) := by
  unfold execTickCaptureRead
  repeat' with_reducible
    first
    | assumption | refine Frame.gate ?_ ?_ | refine Frame.next ?_ | refine originRead_frame ?_ ?_ ?_ ?_

theorem execTodCaptureRead_frame {p : Part → Prop} {r a0 a1 a2 s} (h_regs : p .regs) (h_tb : p .tb) (h_host : p .host)
    (h : Frame p r s) : Frame p r (stateOf s (execTodCaptureRead a0 a1 a2 s)) := by
  unfold execTodCaptureRead
  repeat' with_reducible
    first
    | assumption | refine Frame.gate ?_ ?_ | refine Frame.next ?_ | refine originRead_frame ?_ ?_ ?_ ?_

theorem execTodApplyWrite_frame {p : Part → Prop} {r a0 a1 s} (h_regs : p .regs) (h_tb : p .tb) (h_locks : p .locks)
    (h_frozen : p .frozen) (h_hlt : p .hlt) (h_host : p .host) (h_map : p .map) (h_mca : p .mca) (h_str : p .str) (h_mem
    : p .mem) (h_fls : p .fls) (h_rcd : p .rcd) (h_all : ∀ k, p (.chan k)) (h : Frame p r s) : Frame p r (stateOf s
    (execTodApplyWrite a0 a1 s)) := by
  unfold execTodApplyWrite
  repeat' with_reducible
    first
    | assumption | refine Frame.gate ?_ ?_ | refine busWrite_frame ?_ ?_ ?_ ?_ ?_ ?_ ?_ ?_ ?_ ?_ ?_ ?_ ?_ ?_

theorem execEqRestart_frame {p : Part → Prop} {r a0 a1 a2 a3 s} (h_regs : p .regs) (h_tb : p .tb) (h_locks : p .locks)
    (h_frozen : p .frozen) (h_hlt : p .hlt) (h_host : p .host) (h_map : p .map) (h_mca : p .mca) (h_str : p .str) (h_mem
    : p .mem) (h_fls : p .fls) (h_rcd : p .rcd) (h_all : ∀ k, p (.chan k)) (h : Frame p r s) : Frame p r (stateOf s
    (execEqRestart a0 a1 a2 a3 s)) := by
  unfold execEqRestart
  repeat' with_reducible
    first
    | assumption | refine Frame.gate ?_ ?_ | refine busWrite_frame ?_ ?_ ?_ ?_ ?_ ?_ ?_ ?_ ?_ ?_ ?_ ?_ ?_ ?_

theorem execSafeClr_frame {p : Part → Prop} {r a0 a1 a2 s} (h_regs : p .regs) (h_tb : p .tb) (h_locks : p .locks)
    (h_frozen : p .frozen) (h_hlt : p .hlt) (h_host : p .host) (h_map : p .map) (h_mca : p .mca) (h_str : p .str) (h_mem
    : p .mem) (h_fls : p .fls) (h_rcd : p .rcd) (h_all : ∀ k, p (.chan k)) (h : Frame p r s) : Frame p r (stateOf s
    (execSafeClr a0 a1 a2 s)) := by
  unfold execSafeClr
  repeat' with_reducible
    first
    | assumption | refine Frame.gate ?_ ?_ | refine busWrite_frame ?_ ?_ ?_ ?_ ?_ ?_ ?_ ?_ ?_ ?_ ?_ ?_ ?_ ?_

theorem execTtSwap_frame {p : Part → Prop} {r a0 a1 a2 s} (h_regs : p .regs) (h_tb : p .tb) (h_locks : p .locks)
    (h_frozen : p .frozen) (h_hlt : p .hlt) (h_host : p .host) (h_map : p .map) (h_mca : p .mca) (h_str : p .str) (h_mem
    : p .mem) (h_fls : p .fls) (h_rcd : p .rcd) (h_all : ∀ k, p (.chan k)) (h : Frame p r s) : Frame p r (stateOf s
    (execTtSwap a0 a1 a2 s)) := by
  unfold execTtSwap
  repeat' with_reducible
    first
    | assumption | refine Frame.gate ?_ ?_ | refine busWrite_frame ?_ ?_ ?_ ?_ ?_ ?_ ?_ ?_ ?_ ?_ ?_ ?_ ?_ ?_

theorem execLoopSwap_frame {p : Part → Prop} {r a0 a1 a2 a3 s} (h_regs : p .regs) (h_tb : p .tb) (h_locks : p .locks)
    (h_frozen : p .frozen) (h_hlt : p .hlt) (h_host : p .host) (h_map : p .map) (h_mca : p .mca) (h_str : p .str) (h_mem
    : p .mem) (h_fls : p .fls) (h_rcd : p .rcd) (h_all : ∀ k, p (.chan k)) (h : Frame p r s) : Frame p r (stateOf s
    (execLoopSwap a0 a1 a2 a3 s)) := by
  unfold execLoopSwap
  repeat' with_reducible
    first
    | assumption | refine Frame.gate ?_ ?_ | refine busWrite_frame ?_ ?_ ?_ ?_ ?_ ?_ ?_ ?_ ?_ ?_ ?_ ?_ ?_ ?_

theorem execLoopClose_frame {p : Part → Prop} {r a0 a1 a2 a3 s} (h_regs : p .regs) (h_tb : p .tb) (h_locks : p .locks)
    (h_frozen : p .frozen) (h_hlt : p .hlt) (h_host : p .host) (h_map : p .map) (h_mca : p .mca) (h_str : p .str) (h_mem
    : p .mem) (h_fls : p .fls) (h_rcd : p .rcd) (h_all : ∀ k, p (.chan k)) (h : Frame p r s) : Frame p r (stateOf s
    (execLoopClose a0 a1 a2 a3 s)) := by
  unfold execLoopClose
  repeat' with_reducible
    first
    | assumption | refine Frame.gate ?_ ?_ | refine busWrite_frame ?_ ?_ ?_ ?_ ?_ ?_ ?_ ?_ ?_ ?_ ?_ ?_ ?_ ?_

theorem execLoopOpen_frame {p : Part → Prop} {r a0 a1 a2 a3 s} (h_regs : p .regs) (h_tb : p .tb) (h_locks : p .locks)
    (h_frozen : p .frozen) (h_hlt : p .hlt) (h_host : p .host) (h_map : p .map) (h_mca : p .mca) (h_str : p .str) (h_mem
    : p .mem) (h_fls : p .fls) (h_rcd : p .rcd) (h_all : ∀ k, p (.chan k)) (h : Frame p r s) : Frame p r (stateOf s
    (execLoopOpen a0 a1 a2 a3 s)) := by
  unfold execLoopOpen
  repeat' with_reducible
    first
    | assumption | refine Frame.gate ?_ ?_ | refine busWrite_frame ?_ ?_ ?_ ?_ ?_ ?_ ?_ ?_ ?_ ?_ ?_ ?_ ?_ ?_

theorem execLoopHold_frame {p : Part → Prop} {r a0 a1 a2 a3 s} (h_regs : p .regs) (h_tb : p .tb) (h_locks : p .locks)
    (h_frozen : p .frozen) (h_hlt : p .hlt) (h_host : p .host) (h_map : p .map) (h_mca : p .mca) (h_str : p .str) (h_mem
    : p .mem) (h_fls : p .fls) (h_rcd : p .rcd) (h_all : ∀ k, p (.chan k)) (h : Frame p r s) : Frame p r (stateOf s
    (execLoopHold a0 a1 a2 a3 s)) := by
  unfold execLoopHold
  repeat' with_reducible
    first
    | assumption | refine Frame.gate ?_ ?_ | refine busWrite_frame ?_ ?_ ?_ ?_ ?_ ?_ ?_ ?_ ?_ ?_ ?_ ?_ ?_ ?_

theorem execLoopRelease_frame {p : Part → Prop} {r a0 a1 a2 a3 s} (h_regs : p .regs) (h_tb : p .tb) (h_locks : p .locks)
    (h_frozen : p .frozen) (h_hlt : p .hlt) (h_host : p .host) (h_map : p .map) (h_mca : p .mca) (h_str : p .str) (h_mem
    : p .mem) (h_fls : p .fls) (h_rcd : p .rcd) (h_all : ∀ k, p (.chan k)) (h : Frame p r s) : Frame p r (stateOf s
    (execLoopRelease a0 a1 a2 a3 s)) := by
  unfold execLoopRelease
  repeat' with_reducible
    first
    | assumption | refine Frame.gate ?_ ?_ | refine busWrite_frame ?_ ?_ ?_ ?_ ?_ ?_ ?_ ?_ ?_ ?_ ?_ ?_ ?_ ?_

theorem execAxisModeWrite_frame {p : Part → Prop} {r a0 a1 a2 a3 s} (h_regs : p .regs) (h_tb : p .tb) (h_locks : p
    .locks) (h_frozen : p .frozen) (h_hlt : p .hlt) (h_host : p .host) (h_map : p .map) (h_mca : p .mca) (h_str : p
    .str) (h_mem : p .mem) (h_fls : p .fls) (h_rcd : p .rcd) (h_all : ∀ k, p (.chan k)) (h : Frame p r s) : Frame p r
    (stateOf s (execAxisModeWrite a0 a1 a2 a3 s)) := by
  unfold execAxisModeWrite
  repeat' with_reducible
    first
    | assumption | refine Frame.gate ?_ ?_ | refine busWrite_frame ?_ ?_ ?_ ?_ ?_ ?_ ?_ ?_ ?_ ?_ ?_ ?_ ?_ ?_

theorem execDirInvWrite_frame {p : Part → Prop} {r a0 a1 a2 a3 s} (h_regs : p .regs) (h_tb : p .tb) (h_locks : p .locks)
    (h_frozen : p .frozen) (h_hlt : p .hlt) (h_host : p .host) (h_map : p .map) (h_mca : p .mca) (h_str : p .str) (h_mem
    : p .mem) (h_fls : p .fls) (h_rcd : p .rcd) (h_all : ∀ k, p (.chan k)) (h : Frame p r s) : Frame p r (stateOf s
    (execDirInvWrite a0 a1 a2 a3 s)) := by
  unfold execDirInvWrite
  repeat' with_reducible
    first
    | assumption | refine Frame.gate ?_ ?_ | refine busWrite_frame ?_ ?_ ?_ ?_ ?_ ?_ ?_ ?_ ?_ ?_ ?_ ?_ ?_ ?_

theorem execAxisPush_frame {p : Part → Prop} {r a0 a1 a2 a3 s} (h_regs : p .regs) (h_tb : p .tb) (h_locks : p .locks)
    (h_frozen : p .frozen) (h_hlt : p .hlt) (h_host : p .host) (h_map : p .map) (h_mca : p .mca) (h_str : p .str) (h_mem
    : p .mem) (h_fls : p .fls) (h_rcd : p .rcd) (h_all : ∀ k, p (.chan k)) (h : Frame p r s) : Frame p r (stateOf s
    (execAxisPush a0 a1 a2 a3 s)) := by
  unfold execAxisPush
  repeat' with_reducible
    first
    | assumption | refine Frame.gate ?_ ?_ | refine busWrite_frame ?_ ?_ ?_ ?_ ?_ ?_ ?_ ?_ ?_ ?_ ?_ ?_ ?_ ?_

theorem execAxisAbort_frame {p : Part → Prop} {r a0 a1 a2 a3 s} (h_regs : p .regs) (h_tb : p .tb) (h_locks : p .locks)
    (h_frozen : p .frozen) (h_hlt : p .hlt) (h_host : p .host) (h_map : p .map) (h_mca : p .mca) (h_str : p .str) (h_mem
    : p .mem) (h_fls : p .fls) (h_rcd : p .rcd) (h_all : ∀ k, p (.chan k)) (h : Frame p r s) : Frame p r (stateOf s
    (execAxisAbort a0 a1 a2 a3 s)) := by
  unfold execAxisAbort
  repeat' with_reducible
    first
    | assumption | refine Frame.gate ?_ ?_ | refine busWrite_frame ?_ ?_ ?_ ?_ ?_ ?_ ?_ ?_ ?_ ?_ ?_ ?_ ?_ ?_

theorem execHomingStart_frame {p : Part → Prop} {r a0 a1 a2 a3 s} (h_regs : p .regs) (h_tb : p .tb) (h_locks : p .locks)
    (h_frozen : p .frozen) (h_hlt : p .hlt) (h_host : p .host) (h_map : p .map) (h_mca : p .mca) (h_str : p .str) (h_mem
    : p .mem) (h_fls : p .fls) (h_rcd : p .rcd) (h_all : ∀ k, p (.chan k)) (h : Frame p r s) : Frame p r (stateOf s
    (execHomingStart a0 a1 a2 a3 s)) := by
  unfold execHomingStart
  repeat' with_reducible
    first
    | assumption | refine Frame.gate ?_ ?_ | refine busWrite_frame ?_ ?_ ?_ ?_ ?_ ?_ ?_ ?_ ?_ ?_ ?_ ?_ ?_ ?_

theorem execSeekGo_frame {p : Part → Prop} {r a0 a1 a2 s} (h_regs : p .regs) (h_tb : p .tb) (h_locks : p .locks)
    (h_frozen : p .frozen) (h_hlt : p .hlt) (h_host : p .host) (h_map : p .map) (h_mca : p .mca) (h_str : p .str) (h_mem
    : p .mem) (h_fls : p .fls) (h_rcd : p .rcd) (h_all : ∀ k, p (.chan k)) (h : Frame p r s) : Frame p r (stateOf s
    (execSeekGo a0 a1 a2 s)) := by
  unfold execSeekGo
  repeat' with_reducible
    first
    | assumption | refine Frame.gate ?_ ?_ | refine busWrite_frame ?_ ?_ ?_ ?_ ?_ ?_ ?_ ?_ ?_ ?_ ?_ ?_ ?_ ?_

theorem execSpindleStart_frame {p : Part → Prop} {r a0 a1 a2 s} (h_regs : p .regs) (h_tb : p .tb) (h_locks : p .locks)
    (h_frozen : p .frozen) (h_hlt : p .hlt) (h_host : p .host) (h_map : p .map) (h_mca : p .mca) (h_str : p .str) (h_mem
    : p .mem) (h_fls : p .fls) (h_rcd : p .rcd) (h_all : ∀ k, p (.chan k)) (h : Frame p r s) : Frame p r (stateOf s
    (execSpindleStart a0 a1 a2 s)) := by
  unfold execSpindleStart
  repeat' with_reducible
    first
    | assumption | refine Frame.gate ?_ ?_ | refine busWrite_frame ?_ ?_ ?_ ?_ ?_ ?_ ?_ ?_ ?_ ?_ ?_ ?_ ?_ ?_

theorem execSpindleBrake_frame {p : Part → Prop} {r a0 a1 a2 s} (h_regs : p .regs) (h_tb : p .tb) (h_locks : p .locks)
    (h_frozen : p .frozen) (h_hlt : p .hlt) (h_host : p .host) (h_map : p .map) (h_mca : p .mca) (h_str : p .str) (h_mem
    : p .mem) (h_fls : p .fls) (h_rcd : p .rcd) (h_all : ∀ k, p (.chan k)) (h : Frame p r s) : Frame p r (stateOf s
    (execSpindleBrake a0 a1 a2 s)) := by
  unfold execSpindleBrake
  repeat' with_reducible
    first
    | assumption | refine Frame.gate ?_ ?_ | refine busWrite_frame ?_ ?_ ?_ ?_ ?_ ?_ ?_ ?_ ?_ ?_ ?_ ?_ ?_ ?_

theorem execSpindleCoast_frame {p : Part → Prop} {r a0 a1 a2 s} (h_regs : p .regs) (h_tb : p .tb) (h_locks : p .locks)
    (h_frozen : p .frozen) (h_hlt : p .hlt) (h_host : p .host) (h_map : p .map) (h_mca : p .mca) (h_str : p .str) (h_mem
    : p .mem) (h_fls : p .fls) (h_rcd : p .rcd) (h_all : ∀ k, p (.chan k)) (h : Frame p r s) : Frame p r (stateOf s
    (execSpindleCoast a0 a1 a2 s)) := by
  unfold execSpindleCoast
  repeat' with_reducible
    first
    | assumption | refine Frame.gate ?_ ?_ | refine busWrite_frame ?_ ?_ ?_ ?_ ?_ ?_ ?_ ?_ ?_ ?_ ?_ ?_ ?_ ?_

theorem execModeRequest_frame {p : Part → Prop} {r a0 a1 a2 s} (h_regs : p .regs) (h_tb : p .tb) (h_locks : p .locks)
    (h_frozen : p .frozen) (h_hlt : p .hlt) (h_host : p .host) (h_map : p .map) (h_mca : p .mca) (h_str : p .str) (h_mem
    : p .mem) (h_fls : p .fls) (h_rcd : p .rcd) (h_all : ∀ k, p (.chan k)) (h : Frame p r s) : Frame p r (stateOf s
    (execModeRequest a0 a1 a2 s)) := by
  unfold execModeRequest
  repeat' with_reducible
    first
    | assumption | refine Frame.gate ?_ ?_ | refine busWrite_frame ?_ ?_ ?_ ?_ ?_ ?_ ?_ ?_ ?_ ?_ ?_ ?_ ?_ ?_

theorem execTargetWrite_frame {p : Part → Prop} {r a0 a1 a2 s} (h_regs : p .regs) (h_tb : p .tb) (h_locks : p .locks)
    (h_frozen : p .frozen) (h_hlt : p .hlt) (h_host : p .host) (h_map : p .map) (h_mca : p .mca) (h_str : p .str) (h_mem
    : p .mem) (h_fls : p .fls) (h_rcd : p .rcd) (h_all : ∀ k, p (.chan k)) (h : Frame p r s) : Frame p r (stateOf s
    (execTargetWrite a0 a1 a2 s)) := by
  unfold execTargetWrite
  repeat' with_reducible
    first
    | assumption | refine Frame.gate ?_ ?_ | refine busWrite_frame ?_ ?_ ?_ ?_ ?_ ?_ ?_ ?_ ?_ ?_ ?_ ?_ ?_ ?_

theorem execProfileRequest_frame {p : Part → Prop} {r a0 a1 a2 s} (h_regs : p .regs) (h_tb : p .tb) (h_locks : p .locks)
    (h_frozen : p .frozen) (h_hlt : p .hlt) (h_host : p .host) (h_map : p .map) (h_mca : p .mca) (h_str : p .str) (h_mem
    : p .mem) (h_fls : p .fls) (h_rcd : p .rcd) (h_all : ∀ k, p (.chan k)) (h : Frame p r s) : Frame p r (stateOf s
    (execProfileRequest a0 a1 a2 s)) := by
  unfold execProfileRequest
  repeat' with_reducible
    first
    | assumption | refine Frame.gate ?_ ?_ | refine busWrite_frame ?_ ?_ ?_ ?_ ?_ ?_ ?_ ?_ ?_ ?_ ?_ ?_ ?_ ?_

theorem execStopClr_frame {p : Part → Prop} {r a0 a1 a2 s} (h_regs : p .regs) (h_tb : p .tb) (h_locks : p .locks)
    (h_frozen : p .frozen) (h_hlt : p .hlt) (h_host : p .host) (h_map : p .map) (h_mca : p .mca) (h_str : p .str) (h_mem
    : p .mem) (h_fls : p .fls) (h_rcd : p .rcd) (h_all : ∀ k, p (.chan k)) (h : Frame p r s) : Frame p r (stateOf s
    (execStopClr a0 a1 a2 s)) := by
  unfold execStopClr
  repeat' with_reducible
    first
    | assumption | refine Frame.gate ?_ ?_ | refine busWrite_frame ?_ ?_ ?_ ?_ ?_ ?_ ?_ ?_ ?_ ?_ ?_ ?_ ?_ ?_

theorem execAllowWrite_frame {p : Part → Prop} {r a0 a1 a2 s} (h_regs : p .regs) (h_tb : p .tb) (h_locks : p .locks)
    (h_frozen : p .frozen) (h_hlt : p .hlt) (h_host : p .host) (h_map : p .map) (h_mca : p .mca) (h_str : p .str) (h_mem
    : p .mem) (h_fls : p .fls) (h_rcd : p .rcd) (h_all : ∀ k, p (.chan k)) (h : Frame p r s) : Frame p r (stateOf s
    (execAllowWrite a0 a1 a2 s)) := by
  unfold execAllowWrite
  repeat' with_reducible
    first
    | assumption | refine Frame.gate ?_ ?_ | refine busWrite_frame ?_ ?_ ?_ ?_ ?_ ?_ ?_ ?_ ?_ ?_ ?_ ?_ ?_ ?_

theorem execChopClr_frame {p : Part → Prop} {r a0 a1 a2 s} (h_regs : p .regs) (h_tb : p .tb) (h_locks : p .locks)
    (h_frozen : p .frozen) (h_hlt : p .hlt) (h_host : p .host) (h_map : p .map) (h_mca : p .mca) (h_str : p .str) (h_mem
    : p .mem) (h_fls : p .fls) (h_rcd : p .rcd) (h_all : ∀ k, p (.chan k)) (h : Frame p r s) : Frame p r (stateOf s
    (execChopClr a0 a1 a2 s)) := by
  unfold execChopClr
  repeat' with_reducible
    first
    | assumption | refine Frame.gate ?_ ?_ | refine busWrite_frame ?_ ?_ ?_ ?_ ?_ ?_ ?_ ?_ ?_ ?_ ?_ ?_ ?_ ?_

theorem execCfgReadyWrite_frame {p : Part → Prop} {r a0 a1 s} (h_regs : p .regs) (h_tb : p .tb) (h_locks : p .locks)
    (h_frozen : p .frozen) (h_hlt : p .hlt) (h_host : p .host) (h_map : p .map) (h_mca : p .mca) (h_str : p .str) (h_mem
    : p .mem) (h_fls : p .fls) (h_rcd : p .rcd) (h_all : ∀ k, p (.chan k)) (h : Frame p r s) : Frame p r (stateOf s
    (execCfgReadyWrite a0 a1 s)) := by
  unfold execCfgReadyWrite
  repeat' with_reducible
    first
    | assumption | refine Frame.gate ?_ ?_ | refine busWrite_frame ?_ ?_ ?_ ?_ ?_ ?_ ?_ ?_ ?_ ?_ ?_ ?_ ?_ ?_

theorem execRingAssignWrite_frame {p : Part → Prop} {r a0 a1 a2 s} (h_regs : p .regs) (h_tb : p .tb) (h_locks : p
    .locks) (h_frozen : p .frozen) (h_hlt : p .hlt) (h_host : p .host) (h_map : p .map) (h_mca : p .mca) (h_str : p
    .str) (h_mem : p .mem) (h_fls : p .fls) (h_rcd : p .rcd) (h_all : ∀ k, p (.chan k)) (h : Frame p r s) : Frame p r
    (stateOf s (execRingAssignWrite a0 a1 a2 s)) := by
  unfold execRingAssignWrite
  repeat' with_reducible
    first
    | assumption | refine Frame.gate ?_ ?_ | refine busWrite_frame ?_ ?_ ?_ ?_ ?_ ?_ ?_ ?_ ?_ ?_ ?_ ?_ ?_ ?_

theorem execRingEnable_frame {p : Part → Prop} {r a0 a1 a2 s} (h_regs : p .regs) (h_tb : p .tb) (h_locks : p .locks)
    (h_frozen : p .frozen) (h_hlt : p .hlt) (h_host : p .host) (h_map : p .map) (h_mca : p .mca) (h_str : p .str) (h_mem
    : p .mem) (h_fls : p .fls) (h_rcd : p .rcd) (h_all : ∀ k, p (.chan k)) (h : Frame p r s) : Frame p r (stateOf s
    (execRingEnable a0 a1 a2 s)) := by
  unfold execRingEnable
  repeat' with_reducible
    first
    | assumption | refine Frame.gate ?_ ?_ | refine busWrite_frame ?_ ?_ ?_ ?_ ?_ ?_ ?_ ?_ ?_ ?_ ?_ ?_ ?_ ?_

theorem execRingShutdown_frame {p : Part → Prop} {r a0 a1 a2 s} (h_regs : p .regs) (h_tb : p .tb) (h_locks : p .locks)
    (h_frozen : p .frozen) (h_hlt : p .hlt) (h_host : p .host) (h_map : p .map) (h_mca : p .mca) (h_str : p .str) (h_mem
    : p .mem) (h_fls : p .fls) (h_rcd : p .rcd) (h_all : ∀ k, p (.chan k)) (h : Frame p r s) : Frame p r (stateOf s
    (execRingShutdown a0 a1 a2 s)) := by
  unfold execRingShutdown
  repeat' with_reducible
    first
    | assumption | refine Frame.gate ?_ ?_ | refine busWrite_frame ?_ ?_ ?_ ?_ ?_ ?_ ?_ ?_ ?_ ?_ ?_ ?_ ?_ ?_

theorem execEvqEnable_frame {p : Part → Prop} {r a0 a1 a2 s} (h_regs : p .regs) (h_tb : p .tb) (h_locks : p .locks)
    (h_frozen : p .frozen) (h_hlt : p .hlt) (h_host : p .host) (h_map : p .map) (h_mca : p .mca) (h_str : p .str) (h_mem
    : p .mem) (h_fls : p .fls) (h_rcd : p .rcd) (h_all : ∀ k, p (.chan k)) (h : Frame p r s) : Frame p r (stateOf s
    (execEvqEnable a0 a1 a2 s)) := by
  unfold execEvqEnable
  repeat' with_reducible
    first
    | assumption | refine Frame.gate ?_ ?_ | refine busWrite_frame ?_ ?_ ?_ ?_ ?_ ?_ ?_ ?_ ?_ ?_ ?_ ?_ ?_ ?_

theorem execMcaPreload_frame {p : Part → Prop} {r a0 a1 s} (h_regs : p .regs) (h_tb : p .tb) (h_locks : p .locks)
    (h_frozen : p .frozen) (h_hlt : p .hlt) (h_host : p .host) (h_map : p .map) (h_mca : p .mca) (h_str : p .str) (h_mem
    : p .mem) (h_fls : p .fls) (h_rcd : p .rcd) (h_all : ∀ k, p (.chan k)) (h : Frame p r s) : Frame p r (stateOf s
    (execMcaPreload a0 a1 s)) := by
  unfold execMcaPreload
  repeat' with_reducible
    first
    | assumption | refine Frame.gate ?_ ?_ | refine busWrite_frame ?_ ?_ ?_ ?_ ?_ ?_ ?_ ?_ ?_ ?_ ?_ ?_ ?_ ?_

theorem execMcaInvalidate_frame {p : Part → Prop} {r a0 a1 s} (h_regs : p .regs) (h_tb : p .tb) (h_locks : p .locks)
    (h_frozen : p .frozen) (h_hlt : p .hlt) (h_host : p .host) (h_map : p .map) (h_mca : p .mca) (h_str : p .str) (h_mem
    : p .mem) (h_fls : p .fls) (h_rcd : p .rcd) (h_all : ∀ k, p (.chan k)) (h : Frame p r s) : Frame p r (stateOf s
    (execMcaInvalidate a0 a1 s)) := by
  unfold execMcaInvalidate
  repeat' with_reducible
    first
    | assumption | refine Frame.gate ?_ ?_ | refine busWrite_frame ?_ ?_ ?_ ?_ ?_ ?_ ?_ ?_ ?_ ?_ ?_ ?_ ?_ ?_

theorem execMcaWriteback_frame {p : Part → Prop} {r a0 a1 s} (h_regs : p .regs) (h_tb : p .tb) (h_locks : p .locks)
    (h_frozen : p .frozen) (h_hlt : p .hlt) (h_host : p .host) (h_map : p .map) (h_mca : p .mca) (h_str : p .str) (h_mem
    : p .mem) (h_fls : p .fls) (h_rcd : p .rcd) (h_all : ∀ k, p (.chan k)) (h : Frame p r s) : Frame p r (stateOf s
    (execMcaWriteback a0 a1 s)) := by
  unfold execMcaWriteback
  repeat' with_reducible
    first
    | assumption | refine Frame.gate ?_ ?_ | refine busWrite_frame ?_ ?_ ?_ ?_ ?_ ?_ ?_ ?_ ?_ ?_ ?_ ?_ ?_ ?_

theorem execMcaLockWrite_frame {p : Part → Prop} {r a0 a1 s} (h_regs : p .regs) (h_tb : p .tb) (h_locks : p .locks)
    (h_frozen : p .frozen) (h_hlt : p .hlt) (h_host : p .host) (h_map : p .map) (h_mca : p .mca) (h_str : p .str) (h_mem
    : p .mem) (h_fls : p .fls) (h_rcd : p .rcd) (h_all : ∀ k, p (.chan k)) (h : Frame p r s) : Frame p r (stateOf s
    (execMcaLockWrite a0 a1 s)) := by
  unfold execMcaLockWrite
  repeat' with_reducible
    first
    | assumption | refine Frame.gate ?_ ?_ | refine busWrite_frame ?_ ?_ ?_ ?_ ?_ ?_ ?_ ?_ ?_ ?_ ?_ ?_ ?_ ?_

theorem execSealInjectArm_frame {p : Part → Prop} {r a0 a1 s} (h_regs : p .regs) (h_tb : p .tb) (h_locks : p .locks)
    (h_frozen : p .frozen) (h_hlt : p .hlt) (h_host : p .host) (h_map : p .map) (h_mca : p .mca) (h_str : p .str) (h_mem
    : p .mem) (h_fls : p .fls) (h_rcd : p .rcd) (h_all : ∀ k, p (.chan k)) (h : Frame p r s) : Frame p r (stateOf s
    (execSealInjectArm a0 a1 s)) := by
  unfold execSealInjectArm
  repeat' with_reducible
    first
    | assumption | refine Frame.gate ?_ ?_ | refine busWrite_frame ?_ ?_ ?_ ?_ ?_ ?_ ?_ ?_ ?_ ?_ ?_ ?_ ?_ ?_

theorem execRemapWrite_frame {p : Part → Prop} {r a0 a1 a2 s} (h_regs : p .regs) (h_tb : p .tb) (h_locks : p .locks)
    (h_frozen : p .frozen) (h_hlt : p .hlt) (h_host : p .host) (h_map : p .map) (h_mca : p .mca) (h_str : p .str) (h_mem
    : p .mem) (h_fls : p .fls) (h_rcd : p .rcd) (h_all : ∀ k, p (.chan k)) (h : Frame p r s) : Frame p r (stateOf s
    (execRemapWrite a0 a1 a2 s)) := by
  unfold execRemapWrite
  repeat' with_reducible
    first
    | assumption | refine Frame.gate ?_ ?_ | refine busWrite_frame ?_ ?_ ?_ ?_ ?_ ?_ ?_ ?_ ?_ ?_ ?_ ?_ ?_ ?_

theorem execSramModeWrite_frame {p : Part → Prop} {r a0 a1 a2 s} (h_regs : p .regs) (h_tb : p .tb) (h_locks : p .locks)
    (h_frozen : p .frozen) (h_hlt : p .hlt) (h_host : p .host) (h_map : p .map) (h_mca : p .mca) (h_str : p .str) (h_mem
    : p .mem) (h_fls : p .fls) (h_rcd : p .rcd) (h_all : ∀ k, p (.chan k)) (h : Frame p r s) : Frame p r (stateOf s
    (execSramModeWrite a0 a1 a2 s)) := by
  unfold execSramModeWrite
  repeat' with_reducible
    first
    | assumption | refine Frame.gate ?_ ?_ | refine busWrite_frame ?_ ?_ ?_ ?_ ?_ ?_ ?_ ?_ ?_ ?_ ?_ ?_ ?_ ?_

theorem execSramSeal_frame {p : Part → Prop} {r a0 a1 s} (h_regs : p .regs) (h_tb : p .tb) (h_locks : p .locks)
    (h_frozen : p .frozen) (h_hlt : p .hlt) (h_host : p .host) (h_map : p .map) (h_mca : p .mca) (h_str : p .str) (h_mem
    : p .mem) (h_fls : p .fls) (h_rcd : p .rcd) (h_all : ∀ k, p (.chan k)) (h : Frame p r s) : Frame p r (stateOf s
    (execSramSeal a0 a1 s)) := by
  unfold execSramSeal
  repeat' with_reducible
    first
    | assumption | refine Frame.gate ?_ ?_ | refine busWrite_frame ?_ ?_ ?_ ?_ ?_ ?_ ?_ ?_ ?_ ?_ ?_ ?_ ?_ ?_

theorem execSramInjectArm_frame {p : Part → Prop} {r a0 a1 s} (h_regs : p .regs) (h_tb : p .tb) (h_locks : p .locks)
    (h_frozen : p .frozen) (h_hlt : p .hlt) (h_host : p .host) (h_map : p .map) (h_mca : p .mca) (h_str : p .str) (h_mem
    : p .mem) (h_fls : p .fls) (h_rcd : p .rcd) (h_all : ∀ k, p (.chan k)) (h : Frame p r s) : Frame p r (stateOf s
    (execSramInjectArm a0 a1 s)) := by
  unfold execSramInjectArm
  repeat' with_reducible
    first
    | assumption | refine Frame.gate ?_ ?_ | refine busWrite_frame ?_ ?_ ?_ ?_ ?_ ?_ ?_ ?_ ?_ ?_ ?_ ?_ ?_ ?_

theorem execTestRawRead_frame {p : Part → Prop} {r a0 a1 s} (h_regs : p .regs) (h_tb : p .tb) (h_locks : p .locks)
    (h_frozen : p .frozen) (h_hlt : p .hlt) (h_host : p .host) (h_map : p .map) (h_mca : p .mca) (h_str : p .str) (h_mem
    : p .mem) (h_fls : p .fls) (h_rcd : p .rcd) (h_all : ∀ k, p (.chan k)) (h : Frame p r s) : Frame p r (stateOf s
    (execTestRawRead a0 a1 s)) := by
  unfold execTestRawRead
  repeat' with_reducible
    first
    | assumption | refine Frame.gate ?_ ?_ | refine busWrite_frame ?_ ?_ ?_ ?_ ?_ ?_ ?_ ?_ ?_ ?_ ?_ ?_ ?_ ?_

theorem execTestRawWrite_frame {p : Part → Prop} {r a0 a1 s} (h_regs : p .regs) (h_tb : p .tb) (h_locks : p .locks)
    (h_frozen : p .frozen) (h_hlt : p .hlt) (h_host : p .host) (h_map : p .map) (h_mca : p .mca) (h_str : p .str) (h_mem
    : p .mem) (h_fls : p .fls) (h_rcd : p .rcd) (h_all : ∀ k, p (.chan k)) (h : Frame p r s) : Frame p r (stateOf s
    (execTestRawWrite a0 a1 s)) := by
  unfold execTestRawWrite
  repeat' with_reducible
    first
    | assumption | refine Frame.gate ?_ ?_ | refine busWrite_frame ?_ ?_ ?_ ?_ ?_ ?_ ?_ ?_ ?_ ?_ ?_ ?_ ?_ ?_

theorem execTestEncodedWrite_frame {p : Part → Prop} {r a0 a1 s} (h_regs : p .regs) (h_tb : p .tb) (h_locks : p .locks)
    (h_frozen : p .frozen) (h_hlt : p .hlt) (h_host : p .host) (h_map : p .map) (h_mca : p .mca) (h_str : p .str) (h_mem
    : p .mem) (h_fls : p .fls) (h_rcd : p .rcd) (h_all : ∀ k, p (.chan k)) (h : Frame p r s) : Frame p r (stateOf s
    (execTestEncodedWrite a0 a1 s)) := by
  unfold execTestEncodedWrite
  repeat' with_reducible
    first
    | assumption | refine Frame.gate ?_ ?_ | refine busWrite_frame ?_ ?_ ?_ ?_ ?_ ?_ ?_ ?_ ?_ ?_ ?_ ?_ ?_ ?_

theorem execFlashRead_frame {p : Part → Prop} {r a0 a1 a2 a3 s} (h_regs : p .regs) (h_tb : p .tb) (h_locks : p .locks)
    (h_frozen : p .frozen) (h_hlt : p .hlt) (h_host : p .host) (h_map : p .map) (h_mca : p .mca) (h_str : p .str) (h_mem
    : p .mem) (h_fls : p .fls) (h_rcd : p .rcd) (h_all : ∀ k, p (.chan k)) (h : Frame p r s) : Frame p r (stateOf s
    (execFlashRead a0 a1 a2 a3 s)) := by
  unfold execFlashRead
  repeat' with_reducible
    first
    | assumption | refine Frame.gate ?_ ?_ | refine busWrite_frame ?_ ?_ ?_ ?_ ?_ ?_ ?_ ?_ ?_ ?_ ?_ ?_ ?_ ?_

theorem execFlashProgram_frame {p : Part → Prop} {r a0 a1 a2 s} (h_regs : p .regs) (h_tb : p .tb) (h_locks : p .locks)
    (h_frozen : p .frozen) (h_hlt : p .hlt) (h_host : p .host) (h_map : p .map) (h_mca : p .mca) (h_str : p .str) (h_mem
    : p .mem) (h_fls : p .fls) (h_rcd : p .rcd) (h_all : ∀ k, p (.chan k)) (h : Frame p r s) : Frame p r (stateOf s
    (execFlashProgram a0 a1 a2 s)) := by
  unfold execFlashProgram
  repeat' with_reducible
    first
    | assumption | refine Frame.gate ?_ ?_ | refine busWrite_frame ?_ ?_ ?_ ?_ ?_ ?_ ?_ ?_ ?_ ?_ ?_ ?_ ?_ ?_

theorem execFlashErase_frame {p : Part → Prop} {r a0 a1 a2 s} (h_regs : p .regs) (h_tb : p .tb) (h_locks : p .locks)
    (h_frozen : p .frozen) (h_hlt : p .hlt) (h_host : p .host) (h_map : p .map) (h_mca : p .mca) (h_str : p .str) (h_mem
    : p .mem) (h_fls : p .fls) (h_rcd : p .rcd) (h_all : ∀ k, p (.chan k)) (h : Frame p r s) : Frame p r (stateOf s
    (execFlashErase a0 a1 a2 s)) := by
  unfold execFlashErase
  repeat' with_reducible
    first
    | assumption | refine Frame.gate ?_ ?_ | refine busWrite_frame ?_ ?_ ?_ ?_ ?_ ?_ ?_ ?_ ?_ ?_ ?_ ?_ ?_ ?_

theorem execFlashSuspend_frame {p : Part → Prop} {r a0 a1 a2 s} (h_regs : p .regs) (h_tb : p .tb) (h_locks : p .locks)
    (h_frozen : p .frozen) (h_hlt : p .hlt) (h_host : p .host) (h_map : p .map) (h_mca : p .mca) (h_str : p .str) (h_mem
    : p .mem) (h_fls : p .fls) (h_rcd : p .rcd) (h_all : ∀ k, p (.chan k)) (h : Frame p r s) : Frame p r (stateOf s
    (execFlashSuspend a0 a1 a2 s)) := by
  unfold execFlashSuspend
  repeat' with_reducible
    first
    | assumption | refine Frame.gate ?_ ?_ | refine busWrite_frame ?_ ?_ ?_ ?_ ?_ ?_ ?_ ?_ ?_ ?_ ?_ ?_ ?_ ?_

theorem execFlashResume_frame {p : Part → Prop} {r a0 a1 a2 s} (h_regs : p .regs) (h_tb : p .tb) (h_locks : p .locks)
    (h_frozen : p .frozen) (h_hlt : p .hlt) (h_host : p .host) (h_map : p .map) (h_mca : p .mca) (h_str : p .str) (h_mem
    : p .mem) (h_fls : p .fls) (h_rcd : p .rcd) (h_all : ∀ k, p (.chan k)) (h : Frame p r s) : Frame p r (stateOf s
    (execFlashResume a0 a1 a2 s)) := by
  unfold execFlashResume
  repeat' with_reducible
    first
    | assumption | refine Frame.gate ?_ ?_ | refine busWrite_frame ?_ ?_ ?_ ?_ ?_ ?_ ?_ ?_ ?_ ?_ ?_ ?_ ?_ ?_

theorem execFetchDivertWrite_frame {p : Part → Prop} {r a0 a1 s} (h_regs : p .regs) (h_tb : p .tb) (h_locks : p .locks)
    (h_frozen : p .frozen) (h_hlt : p .hlt) (h_host : p .host) (h_map : p .map) (h_mca : p .mca) (h_str : p .str) (h_mem
    : p .mem) (h_fls : p .fls) (h_rcd : p .rcd) (h_all : ∀ k, p (.chan k)) (h : Frame p r s) : Frame p r (stateOf s
    (execFetchDivertWrite a0 a1 s)) := by
  unfold execFetchDivertWrite
  repeat' with_reducible
    first
    | assumption | refine Frame.gate ?_ ?_ | refine busWrite_frame ?_ ?_ ?_ ?_ ?_ ?_ ?_ ?_ ?_ ?_ ?_ ?_ ?_ ?_

theorem execHltClr_frame {p : Part → Prop} {r a0 a1 s} (h_regs : p .regs) (h_tb : p .tb) (h_locks : p .locks) (h_frozen
    : p .frozen) (h_hlt : p .hlt) (h_host : p .host) (h_map : p .map) (h_mca : p .mca) (h_str : p .str) (h_mem : p .mem)
    (h_fls : p .fls) (h_rcd : p .rcd) (h_all : ∀ k, p (.chan k)) (h : Frame p r s) : Frame p r (stateOf s (execHltClr a0
    a1 s)) := by
  unfold execHltClr
  repeat' with_reducible
    first
    | assumption | refine Frame.gate ?_ ?_ | refine busWrite_frame ?_ ?_ ?_ ?_ ?_ ?_ ?_ ?_ ?_ ?_ ?_ ?_ ?_ ?_

theorem execLogEnable_frame {p : Part → Prop} {r a0 a1 a2 s} (h_regs : p .regs) (h_tb : p .tb) (h_locks : p .locks)
    (h_frozen : p .frozen) (h_hlt : p .hlt) (h_host : p .host) (h_map : p .map) (h_mca : p .mca) (h_str : p .str) (h_mem
    : p .mem) (h_fls : p .fls) (h_rcd : p .rcd) (h_all : ∀ k, p (.chan k)) (h : Frame p r s) : Frame p r (stateOf s
    (execLogEnable a0 a1 a2 s)) := by
  unfold execLogEnable
  repeat' with_reducible
    first
    | assumption | refine Frame.gate ?_ ?_ | refine busWrite_frame ?_ ?_ ?_ ?_ ?_ ?_ ?_ ?_ ?_ ?_ ?_ ?_ ?_ ?_

theorem execTrigWrite_frame {p : Part → Prop} {r a0 a1 a2 s} (h_regs : p .regs) (h_tb : p .tb) (h_locks : p .locks)
    (h_frozen : p .frozen) (h_hlt : p .hlt) (h_host : p .host) (h_map : p .map) (h_mca : p .mca) (h_str : p .str) (h_mem
    : p .mem) (h_fls : p .fls) (h_rcd : p .rcd) (h_all : ∀ k, p (.chan k)) (h : Frame p r s) : Frame p r (stateOf s
    (execTrigWrite a0 a1 a2 s)) := by
  unfold execTrigWrite
  repeat' with_reducible
    first
    | assumption | refine Frame.gate ?_ ?_ | refine busWrite_frame ?_ ?_ ?_ ?_ ?_ ?_ ?_ ?_ ?_ ?_ ?_ ?_ ?_ ?_

theorem execReplayPrep_frame {p : Part → Prop} {r a0 a1 s} (h_regs : p .regs) (h_tb : p .tb) (h_locks : p .locks)
    (h_frozen : p .frozen) (h_hlt : p .hlt) (h_host : p .host) (h_map : p .map) (h_mca : p .mca) (h_str : p .str) (h_mem
    : p .mem) (h_fls : p .fls) (h_rcd : p .rcd) (h_all : ∀ k, p (.chan k)) (h : Frame p r s) : Frame p r (stateOf s
    (execReplayPrep a0 a1 s)) := by
  unfold execReplayPrep
  repeat' with_reducible
    first
    | assumption | refine Frame.gate ?_ ?_ | refine busWrite_frame ?_ ?_ ?_ ?_ ?_ ?_ ?_ ?_ ?_ ?_ ?_ ?_ ?_ ?_

/-! ### Boot -/

theorem State.onPins_frame {p : Part → Prop} {r s} {f : Pins → Pins} (h_pins : p .pins)
    (hf : (f s.pins).inReset = s.pins.inReset) (h : Frame p r s) : Frame p r (State.onPins s f) := by
  refine h.trans ⟨?_, rfl, hf, rfl, rfl, id, id⟩
  intro q hq
  cases q <;> first | rfl | exact absurd h_pins hq

theorem fwWrite_frame {p : Part → Prop} {r a0 a1 s} (h_regs : p .regs) (h_locks : p .locks) (h_hlt : p .hlt) (h_all : ∀
    k, p (.chan k)) (h : Frame p r s) : Frame p r (fwWrite a0 a1 s) := by
  unfold fwWrite
  repeat' with_reducible
    first
    | assumption | exact h_all _ | refine State.expertAt_frame ?_ ?_ (fun _ _ => ?_) ?_
    | refine stageTrim_frame ?_ ?_ ?_ | refine State.stageReg_frame ?_ ?_ ?_ ?_
    | refine State.seqWrite_frame ?_ ?_ ?_ ?_ | split

theorem mainRestore_frame {p : Part → Prop} {r a0 a1 s} (h_regs : p .regs) (h_locks : p .locks) (h_hlt : p .hlt) (h_cal
    : p .cal) (h_all : ∀ k, p (.chan k)) (h : Frame p r s) : Frame p r (mainRestore a0 a1 s) := by
  unfold mainRestore
  repeat' with_reducible
    first
    | assumption | refine fwWrite_frame ?_ ?_ ?_ ?_ ?_ | refine showResults_frame ?_ ?_
    | refine State.onCalCh_frame ?_ ?_ | refine Frame.foldl (fun _ _ _ => ?_) ?_

theorem tableRestore_frame {p : Part → Prop} {r a0 a1 s} (h_regs : p .regs) (h_locks : p .locks) (h_hlt : p .hlt) (h_cal
    : p .cal) (h_all : ∀ k, p (.chan k)) (h : Frame p r s) : Frame p r (tableRestore a0 a1 s) := by
  unfold tableRestore
  repeat' with_reducible
    first
    | assumption | refine State.onCalCh_frame ?_ ?_ | refine fwWrite_frame ?_ ?_ ?_ ?_ ?_
    | refine Frame.foldl (fun _ _ _ => ?_) ?_

theorem calRestore_frame {p : Part → Prop} {r s} (h_regs : p .regs) (h_locks : p .locks) (h_hlt : p .hlt) (h_map : p
    .map) (h_str : p .str) (h_fls : p .fls) (h_cal : p .cal) (h_all : ∀ k, p (.chan k)) (h : Frame p r s) : Frame p r
    (calRestore s) := by
  unfold calRestore
  repeat' with_reducible
    first
    | assumption | refine calRepair_frame ?_ ?_ ?_ ?_ ?_ | refine State.fault_frame ?_ ?_
    | refine State.raise_frame ?_ ?_ | refine State.putb_frame ?_ ?_ | refine State.onCal_frame ?_ ?_
    | refine mainRestore_frame ?_ ?_ ?_ ?_ ?_ ?_ | refine tableRestore_frame ?_ ?_ ?_ ?_ ?_ ?_
    | refine Frame.each (fun _ _ _ => ?_) ?_ | split

theorem loadTimetable_frame {p : Part → Prop} {r a0 s} (h_locks : p .locks) (h_hlt : p .hlt) (h_c0 : p (.chan a0)) (h :
    Frame p r s) : Frame p r (loadTimetable a0 s) := by
  unfold loadTimetable
  repeat' with_reducible
    first
    | assumption | refine State.expert_frame ?_ ?_ (fun _ _ => ?_) ?_ | refine State.stageReg_frame ?_ ?_ ?_ ?_
    | refine Frame.each (fun _ _ _ => ?_) ?_

theorem startEvents_frame {p : Part → Prop} {r a0 s} (h_hlt : p .hlt) (h : Frame p r s) : Frame p r (startEvents a0 s)
    := by
  unfold startEvents
  repeat' with_reducible
    first
    | assumption | refine State.logEvent_frame ?_ ?_ | refine Frame.each (fun _ _ _ => ?_) ?_ | refine Frame.ite ?_ ?_

theorem logsRestore_frame {p : Part → Prop} {r s} (h_regs : p .regs) (h_locks : p .locks) (h_hlt : p .hlt) (h : Frame p
    r s) : Frame p r (logsRestore s) := by
  unfold logsRestore
  repeat' with_reducible
    first
    | assumption | refine State.seqWrite_frame ?_ ?_ ?_ ?_ | refine joinLogs_frame ?_ ?_
    | refine State.seqPut_frame ?_ ?_ ?_ ?_ | refine Frame.foldl (fun _ _ _ => ?_) ?_ | refine Frame.ite ?_ ?_

theorem portsReady_frame {p : Part → Prop} {r s} (h_regs : p .regs) (h_locks : p .locks) (h_hlt : p .hlt) (h_host : p
    .host) (h : Frame p r s) : Frame p r (portsReady s) := by
  unfold portsReady
  repeat' with_reducible
    first
    | assumption | refine State.seqWrite_frame ?_ ?_ ?_ ?_ | refine takeSubsys_frame ?_ ?_ | refine Frame.ite ?_ ?_

theorem execCoreRelease_frame {p : Part → Prop} {r s} (h_regs : p .regs) (h_locks : p .locks) (h_hlt : p .hlt) (h_host :
    p .host) (h_map : p .map) (h_str : p .str) (h_mem : p .mem) (h_fls : p .fls) (h_cal : p .cal) (h_all : ∀ k, p (.chan
    k)) (h : Frame p r s) : Frame p r (stateOf s (execCoreRelease s)) := by
  unfold execCoreRelease
  repeat' with_reducible
    first
    | assumption | exact h_all _ | refine Frame.gate ?_ ?_ | refine Frame.next ?_ | refine State.onFls_frame ?_ ?_
    | refine State.put_frame ?_ ?_ | refine startEvents_frame ?_ ?_ | refine State.putb_frame ?_ ?_
    | refine State.seqWrite_frame ?_ ?_ ?_ ?_ | refine portsReady_frame ?_ ?_ ?_ ?_ ?_
    | refine remapRestore_frame ?_ ?_ ?_ ?_ ?_ ?_ | refine logsRestore_frame ?_ ?_ ?_ ?_
    | refine calRestore_frame ?_ ?_ ?_ ?_ ?_ ?_ ?_ ?_ ?_ | refine loadTimetable_frame ?_ ?_ ?_ ?_
    | refine Frame.each (fun _ _ _ => ?_) ?_ | split

theorem execSidebandReady_frame {p : Part → Prop} {r s} (h_pins : p .pins) (h : Frame p r s) : Frame p r (stateOf s
    (execSidebandReady s)) := by
  unfold execSidebandReady
  repeat' with_reducible
    first
    | assumption | refine Frame.gate ?_ ?_ | refine Frame.next ?_ | refine State.onPins_frame ?_ rfl ?_
    | refine Frame.ite ?_ ?_

theorem sbPoint_frame {p : Part → Prop} {r a0 s} (h_tb : p .tb) (h_pins : p .pins) (h : Frame p r s) : Frame p r
    (sbPoint a0 s) := by
  unfold sbPoint
  repeat' with_reducible first | assumption | refine busRead_frame ?_ ?_ | refine State.onPins_frame ?_ rfl ?_

theorem execI2cPointerWrite_frame {p : Part → Prop} {r a0 s} (h_tb : p .tb) (h_pins : p .pins) (h : Frame p r s) : Frame
    p r (stateOf s (execI2cPointerWrite a0 s)) := by
  unfold execI2cPointerWrite
  repeat' with_reducible
    first
    | assumption | refine Frame.gate ?_ ?_ | refine Frame.next ?_ | refine sbPoint_frame ?_ ?_ ?_
    | refine Frame.ite ?_ ?_

theorem execI2cRegisterWrite_frame {p : Part → Prop} {r a0 a1 a2 s} (h_regs : p .regs) (h_tb : p .tb) (h_locks : p .locks)
    (h_frozen : p .frozen) (h_hlt : p .hlt) (h_host : p .host) (h_map : p .map) (h_mca : p .mca) (h_str : p .str) (h_mem
    : p .mem) (h_fls : p .fls) (h_pins : p .pins) (h_rcd : p .rcd) (h_all : ∀ k, p (.chan k)) (h : Frame p r s) : Frame
    p r (stateOf s (execI2cRegisterWrite a0 a1 a2 s)) := by
  unfold execI2cRegisterWrite
  repeat' with_reducible
    first
    | assumption | refine Frame.gate ?_ ?_ | refine Frame.next ?_ | refine sbPoint_frame ?_ ?_ ?_
    | refine regAccess_frame ?_ ?_ ?_ ?_ ?_ ?_ ?_ ?_ ?_ ?_ ?_ ?_ ?_ ?_ | refine Frame.ite ?_ ?_

theorem sbReads_frame {p : Part → Prop} {r n s}  (h_tb : p .tb) (h_pins : p .pins) (h : Frame p r s) : Frame p r
    (sbReads n s).2 := by
  induction n generalizing s with
  | zero => exact h
  | succ n ih =>
    unfold sbReads
    repeat' with_reducible first | assumption | refine ih ?_ | refine sbPoint_frame ?_ ?_ ?_

theorem execI2cRead_frame {p : Part → Prop} {r a0 s} (h_tb : p .tb) (h_host : p .host) (h_pins : p .pins) (h : Frame p r
    s) : Frame p r (stateOf s (execI2cRead a0 s)) := by
  unfold execI2cRead
  repeat' with_reducible
    first
    | assumption | refine Frame.gate ?_ ?_ | refine Frame.next ?_ | refine sbReads_frame ?_ ?_ ?_
    | refine State.send_frame ?_ ?_ | refine Frame.ite ?_ ?_

theorem execI2cBusReset_frame {p : Part → Prop} {r s} (h_pins : p .pins) (h : Frame p r s) : Frame p r (stateOf s
    (execI2cBusReset s)) := by
  unfold execI2cBusReset
  repeat' with_reducible
    first
    | assumption | refine Frame.gate ?_ ?_ | refine Frame.next ?_ | refine State.onPins_frame ?_ rfl ?_

theorem execJtagRegacc_frame {p : Part → Prop} {r a0 a1 a2 a3 s} (h_regs : p .regs) (h_tb : p .tb) (h_locks : p .locks)
    (h_frozen : p .frozen) (h_hlt : p .hlt) (h_host : p .host) (h_map : p .map) (h_mca : p .mca) (h_str : p .str) (h_mem
    : p .mem) (h_fls : p .fls) (h_pins : p .pins) (h_rcd : p .rcd) (h_all : ∀ k, p (.chan k)) (h : Frame p r s) : Frame
    p r (stateOf s (execJtagRegacc a0 a1 a2 a3 s)) := by
  unfold execJtagRegacc
  repeat' with_reducible
    first
    | assumption | refine Frame.gate ?_ ?_ | refine Frame.next ?_ | refine State.send_frame ?_ ?_
    | refine State.onPins_frame ?_ rfl ?_ | refine regAccess_frame ?_ ?_ ?_ ?_ ?_ ?_ ?_ ?_ ?_ ?_ ?_ ?_ ?_ ?_
    | refine busRead_frame ?_ ?_ | refine Frame.ite ?_ ?_

theorem execJtagExtest_frame {p : Part → Prop} {r a0 s} (h_regs : p .regs) (h_locks : p .locks) (h_hlt : p .hlt) (h_pins
    : p .pins) (h_all : ∀ k, p (.chan k)) (h : Frame p r s) : Frame p r (stateOf s (execJtagExtest a0 s)) := by
  unfold execJtagExtest
  repeat' with_reducible
    first
    | assumption | exact h_all _ | refine Frame.next ?_ | refine State.onPins_frame ?_ rfl ?_
    | refine timebaseChan_frame ?_ ?_ ?_ ?_ ?_ | refine Frame.each (fun _ _ _ => ?_) ?_ | refine Frame.ite ?_ ?_

theorem execJtagSamplePreload_frame {p : Part → Prop} {r a0 a1 s} (h_host : p .host) (h_pins : p .pins) (h : Frame p r
    s) : Frame p r (stateOf s (execJtagSamplePreload a0 a1 s)) := by
  unfold execJtagSamplePreload
  repeat' with_reducible
    first
    | assumption | refine Frame.next ?_ | refine State.onPins_frame ?_ rfl ?_ | refine State.send_frame ?_ ?_

theorem execJtagIdcode_frame {p : Part → Prop} {r s} (h_host : p .host) (h : Frame p r s) : Frame p r (stateOf s
    (execJtagIdcode s)) := by
  unfold execJtagIdcode
  repeat' with_reducible first | assumption | refine Frame.next ?_ | refine State.send_frame ?_ ?_

theorem execJtagBypass_frame {p : Part → Prop} {r s} (h_host : p .host) (h : Frame p r s) : Frame p r (stateOf s
    (execJtagBypass s)) := by
  unfold execJtagBypass
  repeat' with_reducible first | assumption | refine Frame.next ?_ | refine State.send_frame ?_ ?_

end Sys2Proof.Machine
end

