-- ==== Sys2Proof/Laws/FrameTick.lean ====
section
/-! SUPPORT. What each operation of Tick may change (`Frame`). -/

namespace Sys2Proof.Machine

/-! ### Tick -/

theorem stageBoundary_frame {p : Part → Prop} {r a0 s} (h_regs : p .regs) (h_tb : p .tb) (h_frozen : p .frozen) (h_hlt :
    p .hlt) (h_host : p .host) (h_map : p .map) (h_mca : p .mca) (h_str : p .str) (h_mem : p .mem) (h_fls : p .fls)
    (h_rcd : p .rcd) (h_all : ∀ k, p (.chan k)) (h : Frame p r s) : Frame p r (stageBoundary a0 s) := by
  unfold stageBoundary
  repeat' with_reducible
    first
    | assumption | exact h_all _ | refine applyStaged_frame ?_ ?_ ?_ ?_ ?_ ?_ ?_ ?_ ?_ ?_ ?_ ?_ ?_
    | refine State.onChan_frame ?_ ?_

theorem idleTrims_frame {p : Part → Prop} {r a0 s} (h_regs : p .regs) (h_tb : p .tb) (h_frozen : p .frozen) (h_hlt : p
    .hlt) (h_host : p .host) (h_map : p .map) (h_mca : p .mca) (h_str : p .str) (h_mem : p .mem) (h_fls : p .fls) (h_rcd
    : p .rcd) (h_all : ∀ k, p (.chan k)) (h : Frame p r s) : Frame p r (idleTrims a0 s) := by
  unfold idleTrims
  repeat' with_reducible
    first
    | assumption | exact h_all _ | refine applyStaged_frame ?_ ?_ ?_ ?_ ?_ ?_ ?_ ?_ ?_ ?_ ?_ ?_ ?_
    | refine State.onDcm_frame ?_ ?_ | refine Frame.ite ?_ ?_

theorem dacBoundary_frame {p : Part → Prop} {r a0 s} (h_c0 : p (.chan a0)) (h : Frame p r s) : Frame p r (dacBoundary a0
    s) := by
  unfold dacBoundary
  repeat' with_reducible first | assumption | refine State.onSrv_frame ?_ ?_ | refine Frame.ite ?_ ?_

theorem latchTick_frame {p : Part → Prop} {r a0 a1 a2 s} (h_regs : p .regs) (h_rcd : p .rcd) (h : Frame p r s) : Frame p
    r (latchTick a0 a1 a2 s) := by
  unfold latchTick
  repeat' with_reducible first | assumption | refine latchInputs_frame ?_ ?_ | refine State.onAcc_frame ?_ ?_

theorem engineTick_frame {p : Part → Prop} {r a0 a1 a2 a3 s} (h_regs : p .regs) (h_hlt : p .hlt) (h_rcd : p .rcd) (h_c0
    : p (.chan a0)) (h : Frame p r s) : Frame p r (engineTick a0 a1 a2 a3 s) := by
  unfold engineTick
  repeat' with_reducible
    first
    | assumption | refine spindleTick_frame ?_ ?_ ?_ ?_ ?_ | refine motionTick_frame ?_ ?_ ?_
    | refine seqTick_frame ?_ ?_ ?_ | refine servoTick_frame ?_ ?_ ?_

theorem speedLeft_frame {p : Part → Prop} {r a0 a1 s} (h_regs : p .regs) (h_c1 : p (.chan a1)) (h : Frame p r s) : Frame
    p r (speedLeft a0 a1 s) := by
  unfold speedLeft
  repeat' with_reducible first | assumption | refine abortWrite_frame ?_ ?_ ?_ | refine Frame.ite ?_ ?_

theorem runStart_frame {p : Part → Prop} {r a0 s} (h_c0 : p (.chan a0)) (h : Frame p r s) : Frame p r (runStart a0 s) :=
    by
  unfold runStart
  repeat' with_reducible first | assumption | refine State.onDcm_frame ?_ ?_ | refine Frame.ite ?_ ?_

theorem replayChange_frame {p : Part → Prop} {r a0 a1 a2 s} (h_regs : p .regs) (h_tb : p .tb) (h_frozen : p .frozen)
    (h_hlt : p .hlt) (h_host : p .host) (h_map : p .map) (h_mca : p .mca) (h_str : p .str) (h_mem : p .mem) (h_fls : p
    .fls) (h_rcd : p .rcd) (h_all : ∀ k, p (.chan k)) (h : Frame p r s) : Frame p r (replayChange a0 a1 a2 s) := by
  unfold replayChange
  repeat' with_reducible
    first
    | assumption | lift_lets -underBinder | (intro x; subst x)
    | refine writeEffect_frame ?_ ?_ ?_ ?_ ?_ ?_ ?_ ?_ ?_ ?_ ?_ ?_ ?_ | refine State.wr_frame ?_ ?_ | split

theorem replayBus_frame {p : Part → Prop} {r a0 a1 s} (h_regs : p .regs) (h_c0 : p (.chan a0)) (h : Frame p r s) : Frame
    p r (replayBus a0 a1 s) := by
  unfold replayBus
  repeat' with_reducible
    first
    | assumption | refine busStopSpindle_frame ?_ ?_ ?_ | refine busFreeSpindle_frame ?_ ?_ ?_ | refine Frame.ite ?_ ?_

theorem replayLimit_frame {p : Part → Prop} {r a0 a1 a2 s} (h_c0 : p (.chan a0)) (h : Frame p r s) : Frame p r
    (replayLimit a0 a1 a2 s) := by
  unfold replayLimit
  repeat' with_reducible first | assumption | refine State.onSpn_frame ?_ ?_ | refine Frame.ite ?_ ?_

theorem replayNotes_frame {p : Part → Prop} {r a0 a1 a2 s} (h_regs : p .regs) (h_hlt : p .hlt) (h_rcd : p .rcd) (h_c0 :
    p (.chan a0)) (h : Frame p r s) : Frame p r (replayNotes a0 a1 a2 s) := by
  unfold replayNotes
  repeat' with_reducible
    first
    | assumption | refine execBemfEdge_frame ?_ ?_ ?_ ?_ ?_ | refine replayBus_frame ?_ ?_ ?_
    | refine replayLimit_frame ?_ ?_ | refine chopperClamp_frame ?_ ?_ ?_ | refine State.putb_frame ?_ ?_
    | refine State.onSrv_frame ?_ ?_ | refine detectBeam_frame ?_ ?_ ?_ ?_ ?_ | refine Frame.each (fun _ _ _ => ?_) ?_
    | split

theorem engineEvents_frame {p : Part → Prop} {r c s}  (h_regs : p .regs) (h_locks : p .locks) (h_hlt : p .hlt) (h_rcd :
    p .rcd) (h_c0 : p (.chan c)) (h : Frame p r s) : Frame p r (engineEvents c s) := by
  unfold engineEvents
  refine Frame.foldl (fun _ _ h => ?_) (Frame.run ?_ h)
  · exact execRoutineOverrun_frame h_regs h_hlt h_rcd h_c0 h
  · intro f hf s h
    simp only [List.mem_cons, List.not_mem_nil, or_false] at hf
    repeat' (rcases hf with rfl | hf)
    repeat' with_reducible
      first
      | assumption | refine execHoldResume_frame ?_ ?_ ?_ | refine execFocusCapture_frame ?_ ?_
      | refine execFocusSweepEnd_frame ?_ ?_ | refine execTrackCapture_frame ?_ ?_ ?_
      | refine execAcquireAddressTimeout_frame ?_ ?_ ?_ ?_ ?_ | refine execLayerJumpCorrectorDone_frame ?_ ?_ ?_
      | refine execLayerJumpProfileEnd_frame ?_ ?_ | refine execLayerJumpCaptureTimeout_frame ?_ ?_ ?_
      | refine execFocusDrop_frame ?_ ?_ ?_ ?_ ?_ | refine execServoBeamLoss_frame ?_ ?_ ?_ ?_ ?_
      | refine execTrackSlip_frame ?_ ?_ ?_ ?_ ?_ | refine execOneBeamEnd_frame ?_ ?_ ?_
      | refine execRecoveryAttemptTimeout_frame ?_ ?_ ?_ ?_ ?_ ?_ | refine execRecoveryDone_frame ?_ ?_ ?_
      | refine execSeekCountTimeout_frame ?_ ?_ ?_ | refine execStartWatchTimeout_frame ?_ ?_ ?_
      | refine execProbeEnd_frame ?_ ?_ ?_ ?_ ?_ | refine execStartTimeout_frame ?_ ?_ ?_ ?_ ?_
      | refine execStartPauseEnd_frame ?_ ?_ ?_ | refine execSixStepCommutation_frame ?_ ?_ ?_
      | refine execCommutationLost_frame ?_ ?_ ?_ ?_ ?_ | refine execCatchCoastEnd_frame ?_ ?_ ?_
      | refine execCatchTimeout_frame ?_ ?_ ?_ | refine execShortV0Start_frame ?_ ?_ ?_
      | refine execSpindleStopped_frame ?_ ?_ ?_

theorem replayClock_frame {p : Part → Prop} {r s t : State} {n : Nat} (h_tb : p .tb) (h_rcd : p .rcd) (h : Frame p r s)
    (k : Frame p { s with tb := { s.tb with tick := n }, rcd := { s.rcd with live := true } } t) :
    Frame p r { t with tb := { t.tb with tick := s.tb.tick }, rcd := { t.rcd with live := false } } := by
  refine h.trans ⟨?_, k.pending, k.inReset, k.straps, rfl, k.lost, k.regs⟩
  intro q hq
  have e := k.same q hq
  cases q <;> first | exact absurd h_tb hq | exact absurd h_rcd hq | exact e

theorem replayFrame_frame {p : Part → Prop} {r c f next s}  (h_regs : p .regs) (h_tb : p .tb) (h_locks : p .locks)
    (h_frozen : p .frozen) (h_hlt : p .hlt) (h_host : p .host) (h_map : p .map) (h_mca : p .mca) (h_str : p .str) (h_mem
    : p .mem) (h_fls : p .fls) (h_rcd : p .rcd) (h_all : ∀ k, p (.chan k)) (h : Frame p r s) :
    Frame p r (replayFrame c f next s) := by
  refine replayClock_frame (n := f.tick) h_tb h_rcd h ?_
  generalize ({ s with tb := { s.tb with tick := f.tick }, rcd := { s.rcd with live := true } } : State) = s0
  have h0 : Frame p s0 s0 := Frame.refl s0
  repeat' with_reducible
    first
    | assumption | exact h_all _ | refine ttSwapNow_frame ?_ ?_
    | refine replayChange_frame ?_ ?_ ?_ ?_ ?_ ?_ ?_ ?_ ?_ ?_ ?_ ?_ ?_ | refine State.onSrv_frame ?_ ?_
    | refine engineTick_frame ?_ ?_ ?_ ?_ ?_ | refine latchTick_frame ?_ ?_ ?_
    | refine engineEvents_frame ?_ ?_ ?_ ?_ ?_ ?_ | refine replayNotes_frame ?_ ?_ ?_ ?_ ?_
    | refine replayMiss_frame ?_ ?_ | refine State.bump_frame ?_ ?_ | refine Frame.foldl (fun _ _ _ => ?_) ?_
    | refine Frame.ite ?_ ?_

theorem replayTick_frame {p : Part → Prop} {r a0 a1 s} (h_regs : p .regs) (h_tb : p .tb) (h_locks : p .locks) (h_frozen
    : p .frozen) (h_hlt : p .hlt) (h_host : p .host) (h_map : p .map) (h_mca : p .mca) (h_str : p .str) (h_mem : p .mem)
    (h_fls : p .fls) (h_rcd : p .rcd) (h_all : ∀ k, p (.chan k)) (h : Frame p r s) : Frame p r (replayTick a0 a1 s) :=
    by
  unfold replayTick
  repeat' with_reducible
    first
    | assumption | refine State.bump_frame ?_ ?_ | refine replayFrame_frame ?_ ?_ ?_ ?_ ?_ ?_ ?_ ?_ ?_ ?_ ?_ ?_ ?_ ?_
    | refine State.onRcd_frame ?_ ?_ | split

theorem chanBoundary_frame {p : Part → Prop} {r s a1} (h_regs : p .regs) (h_tb : p .tb) (h_frozen : p .frozen) (h_hlt :
    p .hlt) (h_host : p .host) (h_map : p .map) (h_mca : p .mca) (h_str : p .str) (h_mem : p .mem) (h_fls : p .fls)
    (h_rcd : p .rcd) (h_all : ∀ k, p (.chan k)) (h : Frame p r s) : Frame p r (chanBoundary s a1) := by
  unfold chanBoundary
  repeat' with_reducible
    first
    | assumption | exact h_all _ | refine dacBoundary_frame ?_ ?_ | refine abortBoundary_frame ?_ ?_ ?_
    | refine showTrim_frame ?_ ?_ | refine idleTrims_frame ?_ ?_ ?_ ?_ ?_ ?_ ?_ ?_ ?_ ?_ ?_ ?_ ?_
    | refine stageBoundary_frame ?_ ?_ ?_ ?_ ?_ ?_ ?_ ?_ ?_ ?_ ?_ ?_ ?_

theorem chanWork_frame {p : Part → Prop} {r a0 s a2} (h_regs : p .regs) (h_tb : p .tb) (h_locks : p .locks) (h_frozen :
    p .frozen) (h_hlt : p .hlt) (h_host : p .host) (h_map : p .map) (h_mca : p .mca) (h_str : p .str) (h_mem : p .mem)
    (h_fls : p .fls) (h_rcd : p .rcd) (h_all : ∀ k, p (.chan k)) (h : Frame p r s) : Frame p r (chanWork a0 s a2) := by
  unfold chanWork
  repeat' with_reducible
    first
    | assumption | exact h_all _ | refine bufferTick_frame ?_ ?_ | refine axisBoundary_frame ?_ ?_
    | refine replayTick_frame ?_ ?_ ?_ ?_ ?_ ?_ ?_ ?_ ?_ ?_ ?_ ?_ ?_ ?_ | refine seekResume_frame ?_ ?_ ?_
    | refine ladderTick_frame ?_ ?_ | refine runStart_frame ?_ ?_ | refine speedLeft_frame ?_ ?_ ?_
    | refine engineTick_frame ?_ ?_ ?_ ?_ ?_ | refine latchTick_frame ?_ ?_ ?_ | refine Frame.ite ?_ ?_

theorem chanAfter_frame {p : Part → Prop} {r s a1} (h_c1 : p (.chan a1)) (h : Frame p r s) : Frame p r (chanAfter s a1)
    := by
  unfold chanAfter
  repeat' with_reducible
    first
    | assumption | refine pruneReads_frame ?_ ?_ | refine State.onDcm_frame ?_ ?_ | refine Frame.ite ?_ ?_

theorem tickBefore_frame {p : Part → Prop} {r a0 s} (h_regs : p .regs) (h_hlt : p .hlt) (h_buses : p .buses) (h_host : p
    .host) (h_map : p .map) (h_str : p .str) (h_rcd : p .rcd) (h : Frame p r s) : Frame p r (tickBefore a0 s) := by
  unfold tickBefore
  repeat' with_reducible
    first
    | assumption | lift_lets -underBinder | (intro x; refine Frame.step (x := x) ?_ ?_; unfold x) | (intro x; subst x)
    | intro x | refine recStarted_frame ?_ ?_ ?_ ?_ ?_ ?_ | refine recTick_frame ?_ ?_ ?_ ?_
    | refine busTick_frame ?_ ?_ ?_ | refine Frame.ite ?_ ?_ | split | dsimp -zeta -proj only

theorem logsCounted_frame {p : Part → Prop} {r s} (h_regs : p .regs) (h_hlt : p .hlt) (h : Frame p r s) : Frame p r
    (logsCounted s) := by
  unfold logsCounted
  repeat' with_reducible
    first
    | assumption | refine State.onHlt_frame ?_ ?_ | refine State.bump_frame ?_ ?_ | refine Frame.ite ?_ ?_

theorem tickAfter_frame {p : Part → Prop} {r a0 s} (h_regs : p .regs) (h_tb : p .tb) (h_locks : p .locks) (h_frozen : p
    .frozen) (h_hlt : p .hlt) (h_pwr : p .pwr) (h_host : p .host) (h_map : p .map) (h_mca : p .mca) (h_str : p .str)
    (h_mem : p .mem) (h_fls : p .fls) (h_rcd : p .rcd) (h_all : ∀ k, p (.chan k)) (h : Frame p r s) : Frame p r
    (tickAfter a0 s) := by
  unfold tickAfter
  repeat' with_reducible
    first
    | assumption | exact h_all _ | lift_lets -underBinder | (intro x; refine Frame.step (x := x) ?_ ?_; unfold x)
    | (intro x; subst x) | intro x | refine powerBoundary_frame ?_ ?_ ?_ ?_
    | refine chanBoundary_frame ?_ ?_ ?_ ?_ ?_ ?_ ?_ ?_ ?_ ?_ ?_ ?_ ?_ | refine logsCounted_frame ?_ ?_ ?_
    | refine scrubJudge_frame ?_ ?_ ?_ | refine vlogFlush_frame ?_ ?_ ?_ ?_ ?_ ?_ ?_ ?_ ?_ ?_ ?_
    | refine serveChannels_frame ?_ ?_ ?_ ?_ | refine chanWork_frame ?_ ?_ ?_ ?_ ?_ ?_ ?_ ?_ ?_ ?_ ?_ ?_ ?_ ?_
    | refine chanAfter_frame ?_ ?_ | refine Frame.each (fun _ _ _ => ?_) ?_ | refine Frame.ite ?_ ?_ | split
    | dsimp -zeta -proj only

theorem execWedgeBoundary_frame {p : Part → Prop} {r a0 a1 s} (h_regs : p .regs) (h_tb : p .tb) (h_frozen : p .frozen)
    (h_hlt : p .hlt) (h_host : p .host) (h_map : p .map) (h_mca : p .mca) (h_str : p .str) (h_mem : p .mem) (h_fls : p
    .fls) (h_rcd : p .rcd) (h_all : ∀ k, p (.chan k)) (h : Frame p r s) : Frame p r (stateOf s (execWedgeBoundary a0 a1
    s)) := by
  unfold execWedgeBoundary
  repeat' with_reducible
    first
    | assumption | exact h_all _ | refine Frame.gate ?_ ?_ | refine Frame.next ?_ | refine wedgeWrites_frame ?_ ?_
    | refine showTrim_frame ?_ ?_ | refine wedgeBoundaryRest_frame ?_ ?_ ?_ ?_ ?_
    | refine applyStaged_frame ?_ ?_ ?_ ?_ ?_ ?_ ?_ ?_ ?_ ?_ ?_ ?_ ?_ | refine Frame.ite ?_ ?_

end Sys2Proof.Machine
end

