-- ==== Sys2Proof/Laws/Regs.lean ====
section
/-! SUPPORT. Reading and writing registers and fields: a read after a write to the same place gives what was written, and
every other place keeps its value. -/

namespace Sys2Proof.Machine

/-! ### The list of registers -/

theorem regFind_above {a : Nat} {l : List (Nat × W32)} (h : regsAbove a l) : regFind a l = none := by
  induction l with
  | nil => rfl
  | cons p r ih =>
    obtain ⟨k, v⟩ := p
    have hk : a < k := h (k, v) (List.mem_cons_self ..)
    unfold regFind
    rw [if_neg (by omega)]
    exact ih (fun q hq => h q (List.mem_cons_of_mem _ hq))

theorem regFind_erase_self {a : Nat} {l : List (Nat × W32)} (h : regsWf l = true) : regFind a (regErase a l) = none := by
  induction l with
  | nil => rfl
  | cons p r ih =>
    obtain ⟨k, v⟩ := p
    obtain ⟨_, h2, h3⟩ := regsWf_cons.mp h
    unfold regErase
    split
    · next e => subst e; exact regFind_above h2
    · next e => unfold regFind; rw [if_neg e]; exact ih h3

theorem regFind_erase_other {a b : Nat} {l : List (Nat × W32)} (h : b ≠ a) :
    regFind b (regErase a l) = regFind b l := by
  induction l with
  | nil => rfl
  | cons p r ih =>
    obtain ⟨k, v⟩ := p
    unfold regErase
    split
    · next e => subst e; conv => rhs; unfold regFind
                rw [if_neg (fun e => h e.symm)]
    · simp only [regFind, ih]

theorem regFind_insert_self {a : Nat} {w : W32} {l : List (Nat × W32)} : regFind a (regInsert a w l) = some w := by
  induction l with
  | nil => simp [regInsert, regFind]
  | cons p r ih =>
    obtain ⟨k, v⟩ := p
    unfold regInsert
    split
    · simp [regFind]
    · split
      · simp [regFind]
      · next h => simp only [regFind]; rw [if_neg (fun e => h e.symm)]; exact ih

theorem regFind_insert_other {a b : Nat} {w : W32} {l : List (Nat × W32)} (h : b ≠ a) :
    regFind b (regInsert a w l) = regFind b l := by
  induction l with
  | nil => simp only [regInsert, regFind]; rw [if_neg (fun e => h e.symm)]
  | cons p r ih =>
    obtain ⟨k, v⟩ := p
    unfold regInsert
    split
    · conv => lhs; unfold regFind
      rw [if_neg (fun e => h e.symm)]
    · split
      · next e => subst e; simp only [regFind]
                  rw [if_neg (fun e => h e.symm), if_neg (fun e => h e.symm)]
      · simp only [regFind, ih]

/-! ### Registers -/

/-- A register reads what was stored in it. -/
theorem rd_wr_same {s : State} {a : Nat} {w : W32} (h : RegsCanonical s) : (s.wr a w).rd a = w := by
  unfold State.wr State.rd regWrite
  split
  · next e => simp only [regFind_erase_self h]; exact e.symm
  · simp only [regFind_insert_self]; rfl

/-- A store leaves every other register as it was. -/
theorem rd_wr_other {s : State} {a b : Nat} {w : W32} (h : b ≠ a) : (s.wr a w).rd b = s.rd b := by
  unfold State.wr State.rd regWrite
  split
  · simp only [regFind_erase_other h]
  · simp only [regFind_insert_other h]

/-- A store leaves every field of another register as it was. -/
theorem get_wr_other {s : State} {a : Nat} {w : W32} {f : Fld} (h : f.base ≠ a) : (s.wr a w).get f = s.get f := by
  unfold State.get; rw [rd_wr_other h]

theorem rd_put_other {s : State} {f : Fld} {v a : Nat} (h : a ≠ f.base) : (s.put f v).rd a = s.rd a := rd_wr_other h

theorem get_put_otherReg {s : State} {f g : Fld} {v : Nat} (h : g.base ≠ f.base) : (s.put f v).get g = s.get g :=
  get_wr_other h

/-! ### Bit fields -/

/-- A number splits into the bits below a field, the field, and the bits above it. -/
theorem bits_split {hi lo : Nat} (n : Nat) (h : lo ≤ hi) :
    n = n % 2 ^ lo + bitsOf hi lo n * 2 ^ lo + n / 2 ^ (hi + 1) * 2 ^ (hi + 1) := by
  unfold bitsOf
  have e : 2 ^ (hi + 1) = 2 ^ lo * 2 ^ (hi + 1 - lo) := by rw [← Nat.pow_add]; congr 1; omega
  rw [e, ← Nat.div_div_eq_div_mul]
  have a1 := Nat.div_add_mod n (2 ^ lo)
  have a2 := Nat.div_add_mod (n / 2 ^ lo) (2 ^ (hi + 1 - lo))
  generalize n / 2 ^ lo / 2 ^ (hi + 1 - lo) = q at *
  generalize n / 2 ^ lo % 2 ^ (hi + 1 - lo) = r at *
  rw [← a2] at a1
  generalize n % 2 ^ lo = m at *
  rw [← a1]
  rw [Nat.mul_add]
  have c1 : 2 ^ lo * (2 ^ (hi + 1 - lo) * q) = q * (2 ^ lo * 2 ^ (hi + 1 - lo)) := by
    rw [← Nat.mul_assoc, Nat.mul_comm]
  have c2 : 2 ^ lo * r = r * 2 ^ lo := Nat.mul_comm _ _
  omega

theorem setBits_eq {hi lo n v : Nat} (h : lo ≤ hi) :
    setBits hi lo n v = n % 2 ^ lo + v % 2 ^ (hi + 1 - lo) * 2 ^ lo + n / 2 ^ (hi + 1) * 2 ^ (hi + 1) := by
  unfold setBits
  have e := bits_split n h
  generalize bitsOf hi lo n * 2 ^ lo = b at *
  omega

/-- A field reads what was set in it, reduced to its width. -/
theorem bitsOf_setBits {hi lo n v : Nat} (h : lo ≤ hi) : bitsOf hi lo (setBits hi lo n v) = v % 2 ^ (hi + 1 - lo) := by
  rw [setBits_eq h]
  unfold bitsOf
  have e : 2 ^ (hi + 1) = 2 ^ lo * 2 ^ (hi + 1 - lo) := by rw [← Nat.pow_add]; congr 1; omega
  have hp : 0 < 2 ^ lo := Nat.two_pow_pos _
  have e2 : n % 2 ^ lo + v % 2 ^ (hi + 1 - lo) * 2 ^ lo + n / 2 ^ (hi + 1) * 2 ^ (hi + 1)
      = n % 2 ^ lo + 2 ^ lo * (v % 2 ^ (hi + 1 - lo) + 2 ^ (hi + 1 - lo) * (n / 2 ^ (hi + 1))) := by
    rw [e, Nat.mul_add, Nat.mul_comm (2 ^ lo) (v % _), Nat.add_assoc]
    congr 2
    rw [Nat.mul_comm, Nat.mul_assoc]
  rw [e2, Nat.add_mul_div_left _ _ hp, Nat.div_eq_of_lt (Nat.mod_lt _ hp), Nat.zero_add, Nat.add_mul_mod_self_left,
    Nat.mod_mod]

theorem setBits_lt {hi lo n v w : Nat} (h : lo ≤ hi) (hw : hi < w) (hn : n < 2 ^ w) : setBits hi lo n v < 2 ^ w := by
  rw [setBits_eq h]
  have e : 2 ^ (hi + 1) = 2 ^ lo * 2 ^ (hi + 1 - lo) := by rw [← Nat.pow_add]; congr 1; omega
  have hp : 0 < 2 ^ lo := Nat.two_pow_pos _
  have h1 : n % 2 ^ lo < 2 ^ lo := Nat.mod_lt _ hp
  have h2 : v % 2 ^ (hi + 1 - lo) < 2 ^ (hi + 1 - lo) := Nat.mod_lt _ (Nat.two_pow_pos _)
  have h3 : n % 2 ^ lo + v % 2 ^ (hi + 1 - lo) * 2 ^ lo < 2 ^ (hi + 1) := by
    calc n % 2 ^ lo + v % 2 ^ (hi + 1 - lo) * 2 ^ lo < 2 ^ lo + v % 2 ^ (hi + 1 - lo) * 2 ^ lo := by omega
      _ = (v % 2 ^ (hi + 1 - lo) + 1) * 2 ^ lo := by rw [Nat.add_mul, Nat.one_mul, Nat.add_comm]
      _ ≤ 2 ^ (hi + 1 - lo) * 2 ^ lo := Nat.mul_le_mul_right _ h2
      _ = 2 ^ (hi + 1) := by rw [e, Nat.mul_comm]
  have e2 : 2 ^ w = 2 ^ (hi + 1) * 2 ^ (w - (hi + 1)) := by rw [← Nat.pow_add]; congr 1; omega
  have h4 : n / 2 ^ (hi + 1) < 2 ^ (w - (hi + 1)) := by
    rw [Nat.div_lt_iff_lt_mul (Nat.two_pow_pos _), Nat.mul_comm, ← e2]; exact hn
  calc n % 2 ^ lo + v % 2 ^ (hi + 1 - lo) * 2 ^ lo + n / 2 ^ (hi + 1) * 2 ^ (hi + 1)
      < 2 ^ (hi + 1) + n / 2 ^ (hi + 1) * 2 ^ (hi + 1) := by omega
    _ = (n / 2 ^ (hi + 1) + 1) * 2 ^ (hi + 1) := by rw [Nat.add_mul, Nat.one_mul, Nat.add_comm]
    _ ≤ 2 ^ (w - (hi + 1)) * 2 ^ (hi + 1) := Nat.mul_le_mul_right _ h4
    _ = 2 ^ w := by rw [e2, Nat.mul_comm]

/-- A field below another keeps its value when that one is set. -/
theorem bitsOf_setBits_below {hi lo hi' lo' n v : Nat} (h : lo ≤ hi) (h' : lo' ≤ hi') (hb : hi' < lo) :
    bitsOf hi' lo' (setBits hi lo n v) = bitsOf hi' lo' n := by
  have key : setBits hi lo n v % 2 ^ (hi' + 1) = n % 2 ^ (hi' + 1) := by
    rw [setBits_eq h]
    have e1 : 2 ^ lo = 2 ^ (hi' + 1) * 2 ^ (lo - (hi' + 1)) := by rw [← Nat.pow_add]; congr 1; omega
    have e2 : 2 ^ (hi + 1) = 2 ^ (hi' + 1) * 2 ^ (hi + 1 - (hi' + 1)) := by rw [← Nat.pow_add]; congr 1; omega
    have f1 : v % 2 ^ (hi + 1 - lo) * 2 ^ lo = 2 ^ (hi' + 1) * (2 ^ (lo - (hi' + 1)) * (v % 2 ^ (hi + 1 - lo))) := by
      rw [Nat.mul_comm, e1, Nat.mul_assoc]
    have f2 : n / 2 ^ (hi + 1) * 2 ^ (hi + 1)
        = 2 ^ (hi' + 1) * (2 ^ (hi + 1 - (hi' + 1)) * (n / 2 ^ (hi + 1))) := by
      rw [Nat.mul_comm, ← Nat.mul_assoc, ← e2]
    rw [f1, f2, Nat.add_mul_mod_self_left, Nat.add_mul_mod_self_left]
    exact Nat.mod_mod_of_dvd n (e1 ▸ Nat.dvd_mul_right _ _)
  have cut : ∀ m : Nat, bitsOf hi' lo' m = m % 2 ^ (hi' + 1) / 2 ^ lo' := by
    intro m
    unfold bitsOf
    have e : 2 ^ (hi' + 1) = 2 ^ lo' * 2 ^ (hi' + 1 - lo') := by rw [← Nat.pow_add]; congr 1; omega
    rw [e, Nat.mod_mul_right_div_self]
  rw [cut, cut, key]

/-- A field above another keeps its value when that one is set. -/
theorem bitsOf_setBits_above {hi lo hi' lo' n v : Nat} (h : lo ≤ hi) (hb : hi < lo') :
    bitsOf hi' lo' (setBits hi lo n v) = bitsOf hi' lo' n := by
  have hp : 0 < 2 ^ (hi + 1) := Nat.two_pow_pos _
  have key : setBits hi lo n v / 2 ^ (hi + 1) = n / 2 ^ (hi + 1) := by
    have h3 := setBits_lt (v := v) (n := n % 2 ^ (hi + 1)) h (Nat.lt_succ_self hi) (Nat.mod_lt _ hp)
    rw [setBits_eq h] at h3 ⊢
    have e : n % 2 ^ (hi + 1) % 2 ^ lo = n % 2 ^ lo := Nat.mod_mod_of_dvd n (Nat.pow_dvd_pow 2 (by omega))
    have z : n % 2 ^ (hi + 1) / 2 ^ (hi + 1) = 0 := Nat.div_eq_of_lt (Nat.mod_lt _ hp)
    rw [e, z, Nat.zero_mul, Nat.add_zero] at h3
    rw [Nat.add_mul_div_right _ _ hp, Nat.div_eq_of_lt h3, Nat.zero_add]
  have cut : ∀ m : Nat, m / 2 ^ lo' = m / 2 ^ (hi + 1) / 2 ^ (lo' - (hi + 1)) := by
    intro m
    rw [Nat.div_div_eq_div_mul, ← Nat.pow_add]
    congr 2; omega
  unfold bitsOf
  rw [cut, cut n, key]

/-! ### Fields -/

/-- A field reads what was stored in it, reduced to its width. -/
theorem get_put_same {s : State} {f : Fld} {v : Nat} (hs : RegsCanonical s) (h : f.lo ≤ f.hi) (hw : f.hi < 32) :
    (s.put f v).get f = v % 2 ^ f.width := by
  unfold State.put State.get
  rw [rd_wr_same hs, BitVec.toNat_ofNat, Nat.mod_eq_of_lt (setBits_lt h hw (s.rd f.base).isLt), bitsOf_setBits h]
  rfl

/-- A store in a field leaves a field of the same register that shares no bit with it. -/
theorem get_put_apart {s : State} {f g : Fld} {v : Nat} (hs : RegsCanonical s) (h : f.lo ≤ f.hi) (hw : f.hi < 32)
    (hg : g.lo ≤ g.hi) (hb : g.base = f.base) (ha : g.hi < f.lo ∨ f.hi < g.lo) : (s.put f v).get g = s.get g := by
  unfold State.put State.get
  rw [hb, rd_wr_same hs, BitVec.toNat_ofNat, Nat.mod_eq_of_lt (setBits_lt h hw (s.rd f.base).isLt)]
  rcases ha with ha | ha
  · exact bitsOf_setBits_below h hg ha
  · exact bitsOf_setBits_above h ha

/-- A one-bit field reads the truth value stored in it. -/
theorem getb_putb_same {s : State} {f : Fld} {b : Bool} (hs : RegsCanonical s) (h : f.lo = f.hi) (hw : f.hi < 32) :
    (s.putb f b).getb f = b := by
  unfold State.putb State.getb
  rw [get_put_same hs (Nat.le_of_eq h) hw]
  have e : f.width = 1 := by unfold Fld.width; omega
  rw [e]
  cases b <;> rfl

/-- Writing a register keeps the list canonical. -/
theorem wr_canonical {s : State} {a : Nat} {w : W32} (h : RegsCanonical s) : RegsCanonical (s.wr a w) := regsWf_write h

theorem put_canonical {s : State} {f : Fld} {v : Nat} (h : RegsCanonical s) : RegsCanonical (s.put f v) := regsWf_write h

/-- A counter counts, and stays at its largest value (R190, R226, R282, R320). -/
theorem get_bump_same {s : State} {f : Fld} {n : Nat} (hs : RegsCanonical s) (h : f.lo ≤ f.hi) (hw : f.hi < 32) :
    (s.bump f n).get f = min (s.get f + n) (2 ^ f.width - 1) := by
  unfold State.bump
  rw [get_put_same hs h hw]
  have : 0 < 2 ^ f.width := Nat.two_pow_pos _
  exact Nat.mod_eq_of_lt (by omega)

end Sys2Proof.Machine
end

