-- ==== Sys2Proof/Laws/State.lean ====
section
/-! SUPPORT. What each update of the state leaves: one lemma per update, with one equation per field it does not touch, and
what its own field becomes; for the channels, what the channel itself and the other channels become. -/

namespace Sys2Proof.Machine

@[simp] theorem State.wr_fields (s : State) (a : Nat) (w : W32) :
    (s.wr a w).tb = s.tb ∧ (s.wr a w).locks = s.locks ∧ (s.wr a w).frozen = s.frozen ∧ (s.wr a w).hlt = s.hlt ∧
    (s.wr a w).straps = s.straps ∧ (s.wr a w).writer = s.writer ∧ (s.wr a w).chans = s.chans ∧
    (s.wr a w).buses = s.buses ∧ (s.wr a w).pwr = s.pwr ∧ (s.wr a w).host = s.host ∧ (s.wr a w).map = s.map ∧
    (s.wr a w).mca = s.mca ∧ (s.wr a w).str = s.str ∧ (s.wr a w).mem = s.mem ∧ (s.wr a w).fls = s.fls ∧
    (s.wr a w).cal = s.cal ∧ (s.wr a w).pins = s.pins ∧ (s.wr a w).memberTmo = s.memberTmo ∧ (s.wr a w).rcd = s.rcd ∧
    (s.wr a w).pending = s.pending :=
  ⟨rfl, rfl, rfl, rfl, rfl, rfl, rfl, rfl, rfl, rfl, rfl, rfl, rfl, rfl, rfl, rfl, rfl, rfl, rfl, rfl⟩

@[simp] theorem State.put_fields (s : State) (f : Fld) (v : Nat) :
    (s.put f v).tb = s.tb ∧ (s.put f v).locks = s.locks ∧ (s.put f v).frozen = s.frozen ∧ (s.put f v).hlt = s.hlt ∧
    (s.put f v).straps = s.straps ∧ (s.put f v).writer = s.writer ∧ (s.put f v).chans = s.chans ∧
    (s.put f v).buses = s.buses ∧ (s.put f v).pwr = s.pwr ∧ (s.put f v).host = s.host ∧ (s.put f v).map = s.map ∧
    (s.put f v).mca = s.mca ∧ (s.put f v).str = s.str ∧ (s.put f v).mem = s.mem ∧ (s.put f v).fls = s.fls ∧
    (s.put f v).cal = s.cal ∧ (s.put f v).pins = s.pins ∧ (s.put f v).memberTmo = s.memberTmo ∧
    (s.put f v).rcd = s.rcd ∧ (s.put f v).pending = s.pending :=
  ⟨rfl, rfl, rfl, rfl, rfl, rfl, rfl, rfl, rfl, rfl, rfl, rfl, rfl, rfl, rfl, rfl, rfl, rfl, rfl, rfl⟩

@[simp] theorem State.puti_fields (s : State) (f : Fld) (z : Int) :
    (s.puti f z).tb = s.tb ∧ (s.puti f z).locks = s.locks ∧ (s.puti f z).frozen = s.frozen ∧
    (s.puti f z).hlt = s.hlt ∧ (s.puti f z).straps = s.straps ∧ (s.puti f z).writer = s.writer ∧
    (s.puti f z).chans = s.chans ∧ (s.puti f z).buses = s.buses ∧ (s.puti f z).pwr = s.pwr ∧
    (s.puti f z).host = s.host ∧ (s.puti f z).map = s.map ∧ (s.puti f z).mca = s.mca ∧ (s.puti f z).str = s.str ∧
    (s.puti f z).mem = s.mem ∧ (s.puti f z).fls = s.fls ∧ (s.puti f z).cal = s.cal ∧ (s.puti f z).pins = s.pins ∧
    (s.puti f z).memberTmo = s.memberTmo ∧ (s.puti f z).rcd = s.rcd ∧ (s.puti f z).pending = s.pending :=
  ⟨rfl, rfl, rfl, rfl, rfl, rfl, rfl, rfl, rfl, rfl, rfl, rfl, rfl, rfl, rfl, rfl, rfl, rfl, rfl, rfl⟩

@[simp] theorem State.putb_fields (s : State) (f : Fld) (b : Bool) :
    (s.putb f b).tb = s.tb ∧ (s.putb f b).locks = s.locks ∧ (s.putb f b).frozen = s.frozen ∧
    (s.putb f b).hlt = s.hlt ∧ (s.putb f b).straps = s.straps ∧ (s.putb f b).writer = s.writer ∧
    (s.putb f b).chans = s.chans ∧ (s.putb f b).buses = s.buses ∧ (s.putb f b).pwr = s.pwr ∧
    (s.putb f b).host = s.host ∧ (s.putb f b).map = s.map ∧ (s.putb f b).mca = s.mca ∧ (s.putb f b).str = s.str ∧
    (s.putb f b).mem = s.mem ∧ (s.putb f b).fls = s.fls ∧ (s.putb f b).cal = s.cal ∧ (s.putb f b).pins = s.pins ∧
    (s.putb f b).memberTmo = s.memberTmo ∧ (s.putb f b).rcd = s.rcd ∧ (s.putb f b).pending = s.pending :=
  ⟨rfl, rfl, rfl, rfl, rfl, rfl, rfl, rfl, rfl, rfl, rfl, rfl, rfl, rfl, rfl, rfl, rfl, rfl, rfl, rfl⟩

@[simp] theorem State.bump_fields (s : State) (f : Fld) (n : Nat) :
    (s.bump f n).tb = s.tb ∧ (s.bump f n).locks = s.locks ∧ (s.bump f n).frozen = s.frozen ∧
    (s.bump f n).hlt = s.hlt ∧ (s.bump f n).straps = s.straps ∧ (s.bump f n).writer = s.writer ∧
    (s.bump f n).chans = s.chans ∧ (s.bump f n).buses = s.buses ∧ (s.bump f n).pwr = s.pwr ∧
    (s.bump f n).host = s.host ∧ (s.bump f n).map = s.map ∧ (s.bump f n).mca = s.mca ∧ (s.bump f n).str = s.str ∧
    (s.bump f n).mem = s.mem ∧ (s.bump f n).fls = s.fls ∧ (s.bump f n).cal = s.cal ∧ (s.bump f n).pins = s.pins ∧
    (s.bump f n).memberTmo = s.memberTmo ∧ (s.bump f n).rcd = s.rcd ∧ (s.bump f n).pending = s.pending :=
  ⟨rfl, rfl, rfl, rfl, rfl, rfl, rfl, rfl, rfl, rfl, rfl, rfl, rfl, rfl, rfl, rfl, rfl, rfl, rfl, rfl⟩

@[simp] theorem State.raise_fields (s : State) (b : Blk) (k : Nat) :
    (s.raise b k).tb = s.tb ∧ (s.raise b k).locks = s.locks ∧ (s.raise b k).frozen = s.frozen ∧
    (s.raise b k).hlt = s.hlt ∧ (s.raise b k).straps = s.straps ∧ (s.raise b k).writer = s.writer ∧
    (s.raise b k).chans = s.chans ∧ (s.raise b k).buses = s.buses ∧ (s.raise b k).pwr = s.pwr ∧
    (s.raise b k).host = s.host ∧ (s.raise b k).map = s.map ∧ (s.raise b k).mca = s.mca ∧ (s.raise b k).str = s.str ∧
    (s.raise b k).mem = s.mem ∧ (s.raise b k).fls = s.fls ∧ (s.raise b k).cal = s.cal ∧ (s.raise b k).pins = s.pins ∧
    (s.raise b k).memberTmo = s.memberTmo ∧ (s.raise b k).rcd = s.rcd ∧ (s.raise b k).pending = s.pending :=
  ⟨rfl, rfl, rfl, rfl, rfl, rfl, rfl, rfl, rfl, rfl, rfl, rfl, rfl, rfl, rfl, rfl, rfl, rfl, rfl, rfl⟩

@[simp] theorem State.onChan_fields (s : State) (c : Ch) (f : Chan → Chan) :
    (s.onChan c f).regs = s.regs ∧ (s.onChan c f).tb = s.tb ∧ (s.onChan c f).locks = s.locks ∧
    (s.onChan c f).frozen = s.frozen ∧ (s.onChan c f).hlt = s.hlt ∧ (s.onChan c f).straps = s.straps ∧
    (s.onChan c f).writer = s.writer ∧ (s.onChan c f).buses = s.buses ∧ (s.onChan c f).pwr = s.pwr ∧
    (s.onChan c f).host = s.host ∧ (s.onChan c f).map = s.map ∧ (s.onChan c f).mca = s.mca ∧
    (s.onChan c f).str = s.str ∧ (s.onChan c f).mem = s.mem ∧ (s.onChan c f).fls = s.fls ∧
    (s.onChan c f).cal = s.cal ∧ (s.onChan c f).pins = s.pins ∧ (s.onChan c f).memberTmo = s.memberTmo ∧
    (s.onChan c f).rcd = s.rcd ∧ (s.onChan c f).pending = s.pending :=
  ⟨rfl, rfl, rfl, rfl, rfl, rfl, rfl, rfl, rfl, rfl, rfl, rfl, rfl, rfl, rfl, rfl, rfl, rfl, rfl, rfl⟩

@[simp] theorem State.onSrv_fields (s : State) (c : Ch) (f : Srv → Srv) :
    (s.onSrv c f).regs = s.regs ∧ (s.onSrv c f).tb = s.tb ∧ (s.onSrv c f).locks = s.locks ∧
    (s.onSrv c f).frozen = s.frozen ∧ (s.onSrv c f).hlt = s.hlt ∧ (s.onSrv c f).straps = s.straps ∧
    (s.onSrv c f).writer = s.writer ∧ (s.onSrv c f).buses = s.buses ∧ (s.onSrv c f).pwr = s.pwr ∧
    (s.onSrv c f).host = s.host ∧ (s.onSrv c f).map = s.map ∧ (s.onSrv c f).mca = s.mca ∧ (s.onSrv c f).str = s.str ∧
    (s.onSrv c f).mem = s.mem ∧ (s.onSrv c f).fls = s.fls ∧ (s.onSrv c f).cal = s.cal ∧ (s.onSrv c f).pins = s.pins ∧
    (s.onSrv c f).memberTmo = s.memberTmo ∧ (s.onSrv c f).rcd = s.rcd ∧ (s.onSrv c f).pending = s.pending :=
  ⟨rfl, rfl, rfl, rfl, rfl, rfl, rfl, rfl, rfl, rfl, rfl, rfl, rfl, rfl, rfl, rfl, rfl, rfl, rfl, rfl⟩

@[simp] theorem State.onRdc_fields (s : State) (c : Ch) (f : Rdc → Rdc) :
    (s.onRdc c f).regs = s.regs ∧ (s.onRdc c f).tb = s.tb ∧ (s.onRdc c f).locks = s.locks ∧
    (s.onRdc c f).frozen = s.frozen ∧ (s.onRdc c f).hlt = s.hlt ∧ (s.onRdc c f).straps = s.straps ∧
    (s.onRdc c f).writer = s.writer ∧ (s.onRdc c f).buses = s.buses ∧ (s.onRdc c f).pwr = s.pwr ∧
    (s.onRdc c f).host = s.host ∧ (s.onRdc c f).map = s.map ∧ (s.onRdc c f).mca = s.mca ∧ (s.onRdc c f).str = s.str ∧
    (s.onRdc c f).mem = s.mem ∧ (s.onRdc c f).fls = s.fls ∧ (s.onRdc c f).cal = s.cal ∧ (s.onRdc c f).pins = s.pins ∧
    (s.onRdc c f).memberTmo = s.memberTmo ∧ (s.onRdc c f).rcd = s.rcd ∧ (s.onRdc c f).pending = s.pending :=
  ⟨rfl, rfl, rfl, rfl, rfl, rfl, rfl, rfl, rfl, rfl, rfl, rfl, rfl, rfl, rfl, rfl, rfl, rfl, rfl, rfl⟩

@[simp] theorem State.onWrc_fields (s : State) (c : Ch) (f : Wrc → Wrc) :
    (s.onWrc c f).regs = s.regs ∧ (s.onWrc c f).tb = s.tb ∧ (s.onWrc c f).locks = s.locks ∧
    (s.onWrc c f).frozen = s.frozen ∧ (s.onWrc c f).hlt = s.hlt ∧ (s.onWrc c f).straps = s.straps ∧
    (s.onWrc c f).writer = s.writer ∧ (s.onWrc c f).buses = s.buses ∧ (s.onWrc c f).pwr = s.pwr ∧
    (s.onWrc c f).host = s.host ∧ (s.onWrc c f).map = s.map ∧ (s.onWrc c f).mca = s.mca ∧ (s.onWrc c f).str = s.str ∧
    (s.onWrc c f).mem = s.mem ∧ (s.onWrc c f).fls = s.fls ∧ (s.onWrc c f).cal = s.cal ∧ (s.onWrc c f).pins = s.pins ∧
    (s.onWrc c f).memberTmo = s.memberTmo ∧ (s.onWrc c f).rcd = s.rcd ∧ (s.onWrc c f).pending = s.pending :=
  ⟨rfl, rfl, rfl, rfl, rfl, rfl, rfl, rfl, rfl, rfl, rfl, rfl, rfl, rfl, rfl, rfl, rfl, rfl, rfl, rfl⟩

@[simp] theorem State.onMot_fields (s : State) (c : Ch) (f : Mot → Mot) :
    (s.onMot c f).regs = s.regs ∧ (s.onMot c f).tb = s.tb ∧ (s.onMot c f).locks = s.locks ∧
    (s.onMot c f).frozen = s.frozen ∧ (s.onMot c f).hlt = s.hlt ∧ (s.onMot c f).straps = s.straps ∧
    (s.onMot c f).writer = s.writer ∧ (s.onMot c f).buses = s.buses ∧ (s.onMot c f).pwr = s.pwr ∧
    (s.onMot c f).host = s.host ∧ (s.onMot c f).map = s.map ∧ (s.onMot c f).mca = s.mca ∧ (s.onMot c f).str = s.str ∧
    (s.onMot c f).mem = s.mem ∧ (s.onMot c f).fls = s.fls ∧ (s.onMot c f).cal = s.cal ∧ (s.onMot c f).pins = s.pins ∧
    (s.onMot c f).memberTmo = s.memberTmo ∧ (s.onMot c f).rcd = s.rcd ∧ (s.onMot c f).pending = s.pending :=
  ⟨rfl, rfl, rfl, rfl, rfl, rfl, rfl, rfl, rfl, rfl, rfl, rfl, rfl, rfl, rfl, rfl, rfl, rfl, rfl, rfl⟩

@[simp] theorem State.onSpn_fields (s : State) (c : Ch) (f : Spn → Spn) :
    (s.onSpn c f).regs = s.regs ∧ (s.onSpn c f).tb = s.tb ∧ (s.onSpn c f).locks = s.locks ∧
    (s.onSpn c f).frozen = s.frozen ∧ (s.onSpn c f).hlt = s.hlt ∧ (s.onSpn c f).straps = s.straps ∧
    (s.onSpn c f).writer = s.writer ∧ (s.onSpn c f).buses = s.buses ∧ (s.onSpn c f).pwr = s.pwr ∧
    (s.onSpn c f).host = s.host ∧ (s.onSpn c f).map = s.map ∧ (s.onSpn c f).mca = s.mca ∧ (s.onSpn c f).str = s.str ∧
    (s.onSpn c f).mem = s.mem ∧ (s.onSpn c f).fls = s.fls ∧ (s.onSpn c f).cal = s.cal ∧ (s.onSpn c f).pins = s.pins ∧
    (s.onSpn c f).memberTmo = s.memberTmo ∧ (s.onSpn c f).rcd = s.rcd ∧ (s.onSpn c f).pending = s.pending :=
  ⟨rfl, rfl, rfl, rfl, rfl, rfl, rfl, rfl, rfl, rfl, rfl, rfl, rfl, rfl, rfl, rfl, rfl, rfl, rfl, rfl⟩

@[simp] theorem State.onDcm_fields (s : State) (c : Ch) (f : Dcm → Dcm) :
    (s.onDcm c f).regs = s.regs ∧ (s.onDcm c f).tb = s.tb ∧ (s.onDcm c f).locks = s.locks ∧
    (s.onDcm c f).frozen = s.frozen ∧ (s.onDcm c f).hlt = s.hlt ∧ (s.onDcm c f).straps = s.straps ∧
    (s.onDcm c f).writer = s.writer ∧ (s.onDcm c f).buses = s.buses ∧ (s.onDcm c f).pwr = s.pwr ∧
    (s.onDcm c f).host = s.host ∧ (s.onDcm c f).map = s.map ∧ (s.onDcm c f).mca = s.mca ∧ (s.onDcm c f).str = s.str ∧
    (s.onDcm c f).mem = s.mem ∧ (s.onDcm c f).fls = s.fls ∧ (s.onDcm c f).cal = s.cal ∧ (s.onDcm c f).pins = s.pins ∧
    (s.onDcm c f).memberTmo = s.memberTmo ∧ (s.onDcm c f).rcd = s.rcd ∧ (s.onDcm c f).pending = s.pending :=
  ⟨rfl, rfl, rfl, rfl, rfl, rfl, rfl, rfl, rfl, rfl, rfl, rfl, rfl, rfl, rfl, rfl, rfl, rfl, rfl, rfl⟩

@[simp] theorem State.onBus_fields (s : State) (b : Two) (f : Bus → Bus) :
    (s.onBus b f).regs = s.regs ∧ (s.onBus b f).tb = s.tb ∧ (s.onBus b f).locks = s.locks ∧
    (s.onBus b f).frozen = s.frozen ∧ (s.onBus b f).hlt = s.hlt ∧ (s.onBus b f).straps = s.straps ∧
    (s.onBus b f).writer = s.writer ∧ (s.onBus b f).chans = s.chans ∧ (s.onBus b f).pwr = s.pwr ∧
    (s.onBus b f).host = s.host ∧ (s.onBus b f).map = s.map ∧ (s.onBus b f).mca = s.mca ∧ (s.onBus b f).str = s.str ∧
    (s.onBus b f).mem = s.mem ∧ (s.onBus b f).fls = s.fls ∧ (s.onBus b f).cal = s.cal ∧ (s.onBus b f).pins = s.pins ∧
    (s.onBus b f).memberTmo = s.memberTmo ∧ (s.onBus b f).rcd = s.rcd ∧ (s.onBus b f).pending = s.pending :=
  ⟨rfl, rfl, rfl, rfl, rfl, rfl, rfl, rfl, rfl, rfl, rfl, rfl, rfl, rfl, rfl, rfl, rfl, rfl, rfl, rfl⟩

@[simp] theorem State.onHlt_fields (s : State) (f : Health → Health) :
    (s.onHlt f).regs = s.regs ∧ (s.onHlt f).tb = s.tb ∧ (s.onHlt f).locks = s.locks ∧ (s.onHlt f).frozen = s.frozen ∧
    (s.onHlt f).straps = s.straps ∧ (s.onHlt f).writer = s.writer ∧ (s.onHlt f).chans = s.chans ∧
    (s.onHlt f).buses = s.buses ∧ (s.onHlt f).pwr = s.pwr ∧ (s.onHlt f).host = s.host ∧ (s.onHlt f).map = s.map ∧
    (s.onHlt f).mca = s.mca ∧ (s.onHlt f).str = s.str ∧ (s.onHlt f).mem = s.mem ∧ (s.onHlt f).fls = s.fls ∧
    (s.onHlt f).cal = s.cal ∧ (s.onHlt f).pins = s.pins ∧ (s.onHlt f).memberTmo = s.memberTmo ∧
    (s.onHlt f).rcd = s.rcd ∧ (s.onHlt f).pending = s.pending :=
  ⟨rfl, rfl, rfl, rfl, rfl, rfl, rfl, rfl, rfl, rfl, rfl, rfl, rfl, rfl, rfl, rfl, rfl, rfl, rfl, rfl⟩

@[simp] theorem State.onRcd_fields (s : State) (f : Recorder → Recorder) :
    (s.onRcd f).regs = s.regs ∧ (s.onRcd f).tb = s.tb ∧ (s.onRcd f).locks = s.locks ∧ (s.onRcd f).frozen = s.frozen ∧
    (s.onRcd f).hlt = s.hlt ∧ (s.onRcd f).straps = s.straps ∧ (s.onRcd f).writer = s.writer ∧
    (s.onRcd f).chans = s.chans ∧ (s.onRcd f).buses = s.buses ∧ (s.onRcd f).pwr = s.pwr ∧ (s.onRcd f).host = s.host ∧
    (s.onRcd f).map = s.map ∧ (s.onRcd f).mca = s.mca ∧ (s.onRcd f).str = s.str ∧ (s.onRcd f).mem = s.mem ∧
    (s.onRcd f).fls = s.fls ∧ (s.onRcd f).cal = s.cal ∧ (s.onRcd f).pins = s.pins ∧
    (s.onRcd f).memberTmo = s.memberTmo ∧ (s.onRcd f).pending = s.pending :=
  ⟨rfl, rfl, rfl, rfl, rfl, rfl, rfl, rfl, rfl, rfl, rfl, rfl, rfl, rfl, rfl, rfl, rfl, rfl, rfl, rfl⟩

@[simp] theorem State.onHost_fields (s : State) (f : Hqe → Hqe) :
    (s.onHost f).regs = s.regs ∧ (s.onHost f).tb = s.tb ∧ (s.onHost f).locks = s.locks ∧
    (s.onHost f).frozen = s.frozen ∧ (s.onHost f).hlt = s.hlt ∧ (s.onHost f).straps = s.straps ∧
    (s.onHost f).writer = s.writer ∧ (s.onHost f).chans = s.chans ∧ (s.onHost f).buses = s.buses ∧
    (s.onHost f).pwr = s.pwr ∧ (s.onHost f).map = s.map ∧ (s.onHost f).mca = s.mca ∧ (s.onHost f).str = s.str ∧
    (s.onHost f).mem = s.mem ∧ (s.onHost f).fls = s.fls ∧ (s.onHost f).cal = s.cal ∧ (s.onHost f).pins = s.pins ∧
    (s.onHost f).memberTmo = s.memberTmo ∧ (s.onHost f).rcd = s.rcd ∧ (s.onHost f).pending = s.pending :=
  ⟨rfl, rfl, rfl, rfl, rfl, rfl, rfl, rfl, rfl, rfl, rfl, rfl, rfl, rfl, rfl, rfl, rfl, rfl, rfl, rfl⟩

@[simp] theorem State.send_fields (s : State) (m : Msg) :
    (s.send m).regs = s.regs ∧ (s.send m).tb = s.tb ∧ (s.send m).locks = s.locks ∧ (s.send m).frozen = s.frozen ∧
    (s.send m).hlt = s.hlt ∧ (s.send m).straps = s.straps ∧ (s.send m).writer = s.writer ∧
    (s.send m).chans = s.chans ∧ (s.send m).buses = s.buses ∧ (s.send m).pwr = s.pwr ∧ (s.send m).map = s.map ∧
    (s.send m).mca = s.mca ∧ (s.send m).str = s.str ∧ (s.send m).mem = s.mem ∧ (s.send m).fls = s.fls ∧
    (s.send m).cal = s.cal ∧ (s.send m).pins = s.pins ∧ (s.send m).memberTmo = s.memberTmo ∧ (s.send m).rcd = s.rcd ∧
    (s.send m).pending = s.pending :=
  ⟨rfl, rfl, rfl, rfl, rfl, rfl, rfl, rfl, rfl, rfl, rfl, rfl, rfl, rfl, rfl, rfl, rfl, rfl, rfl, rfl⟩

@[simp] theorem State.onMap_fields (s : State) (f : MapM → MapM) :
    (s.onMap f).regs = s.regs ∧ (s.onMap f).tb = s.tb ∧ (s.onMap f).locks = s.locks ∧ (s.onMap f).frozen = s.frozen ∧
    (s.onMap f).hlt = s.hlt ∧ (s.onMap f).straps = s.straps ∧ (s.onMap f).writer = s.writer ∧
    (s.onMap f).chans = s.chans ∧ (s.onMap f).buses = s.buses ∧ (s.onMap f).pwr = s.pwr ∧ (s.onMap f).host = s.host ∧
    (s.onMap f).mca = s.mca ∧ (s.onMap f).str = s.str ∧ (s.onMap f).mem = s.mem ∧ (s.onMap f).fls = s.fls ∧
    (s.onMap f).cal = s.cal ∧ (s.onMap f).pins = s.pins ∧ (s.onMap f).memberTmo = s.memberTmo ∧
    (s.onMap f).rcd = s.rcd ∧ (s.onMap f).pending = s.pending :=
  ⟨rfl, rfl, rfl, rfl, rfl, rfl, rfl, rfl, rfl, rfl, rfl, rfl, rfl, rfl, rfl, rfl, rfl, rfl, rfl, rfl⟩

@[simp] theorem State.onMca_fields (s : State) (f : Mca → Mca) :
    (s.onMca f).regs = s.regs ∧ (s.onMca f).tb = s.tb ∧ (s.onMca f).locks = s.locks ∧ (s.onMca f).frozen = s.frozen ∧
    (s.onMca f).hlt = s.hlt ∧ (s.onMca f).straps = s.straps ∧ (s.onMca f).writer = s.writer ∧
    (s.onMca f).chans = s.chans ∧ (s.onMca f).buses = s.buses ∧ (s.onMca f).pwr = s.pwr ∧ (s.onMca f).host = s.host ∧
    (s.onMca f).map = s.map ∧ (s.onMca f).str = s.str ∧ (s.onMca f).mem = s.mem ∧ (s.onMca f).fls = s.fls ∧
    (s.onMca f).cal = s.cal ∧ (s.onMca f).pins = s.pins ∧ (s.onMca f).memberTmo = s.memberTmo ∧
    (s.onMca f).rcd = s.rcd ∧ (s.onMca f).pending = s.pending :=
  ⟨rfl, rfl, rfl, rfl, rfl, rfl, rfl, rfl, rfl, rfl, rfl, rfl, rfl, rfl, rfl, rfl, rfl, rfl, rfl, rfl⟩

@[simp] theorem State.onStr_fields (s : State) (f : Str → Str) :
    (s.onStr f).regs = s.regs ∧ (s.onStr f).tb = s.tb ∧ (s.onStr f).locks = s.locks ∧ (s.onStr f).frozen = s.frozen ∧
    (s.onStr f).hlt = s.hlt ∧ (s.onStr f).straps = s.straps ∧ (s.onStr f).writer = s.writer ∧
    (s.onStr f).chans = s.chans ∧ (s.onStr f).buses = s.buses ∧ (s.onStr f).pwr = s.pwr ∧ (s.onStr f).host = s.host ∧
    (s.onStr f).map = s.map ∧ (s.onStr f).mca = s.mca ∧ (s.onStr f).mem = s.mem ∧ (s.onStr f).fls = s.fls ∧
    (s.onStr f).cal = s.cal ∧ (s.onStr f).pins = s.pins ∧ (s.onStr f).memberTmo = s.memberTmo ∧
    (s.onStr f).rcd = s.rcd ∧ (s.onStr f).pending = s.pending :=
  ⟨rfl, rfl, rfl, rfl, rfl, rfl, rfl, rfl, rfl, rfl, rfl, rfl, rfl, rfl, rfl, rfl, rfl, rfl, rfl, rfl⟩

@[simp] theorem State.onMem_fields (s : State) (f : Mem → Mem) :
    (s.onMem f).regs = s.regs ∧ (s.onMem f).tb = s.tb ∧ (s.onMem f).locks = s.locks ∧ (s.onMem f).frozen = s.frozen ∧
    (s.onMem f).hlt = s.hlt ∧ (s.onMem f).straps = s.straps ∧ (s.onMem f).writer = s.writer ∧
    (s.onMem f).chans = s.chans ∧ (s.onMem f).buses = s.buses ∧ (s.onMem f).pwr = s.pwr ∧ (s.onMem f).host = s.host ∧
    (s.onMem f).map = s.map ∧ (s.onMem f).mca = s.mca ∧ (s.onMem f).str = s.str ∧ (s.onMem f).fls = s.fls ∧
    (s.onMem f).cal = s.cal ∧ (s.onMem f).pins = s.pins ∧ (s.onMem f).memberTmo = s.memberTmo ∧
    (s.onMem f).rcd = s.rcd ∧ (s.onMem f).pending = s.pending :=
  ⟨rfl, rfl, rfl, rfl, rfl, rfl, rfl, rfl, rfl, rfl, rfl, rfl, rfl, rfl, rfl, rfl, rfl, rfl, rfl, rfl⟩

@[simp] theorem State.onFls_fields (s : State) (f : Fls → Fls) :
    (s.onFls f).regs = s.regs ∧ (s.onFls f).tb = s.tb ∧ (s.onFls f).locks = s.locks ∧ (s.onFls f).frozen = s.frozen ∧
    (s.onFls f).hlt = s.hlt ∧ (s.onFls f).straps = s.straps ∧ (s.onFls f).writer = s.writer ∧
    (s.onFls f).chans = s.chans ∧ (s.onFls f).buses = s.buses ∧ (s.onFls f).pwr = s.pwr ∧ (s.onFls f).host = s.host ∧
    (s.onFls f).map = s.map ∧ (s.onFls f).mca = s.mca ∧ (s.onFls f).str = s.str ∧ (s.onFls f).mem = s.mem ∧
    (s.onFls f).cal = s.cal ∧ (s.onFls f).pins = s.pins ∧ (s.onFls f).memberTmo = s.memberTmo ∧
    (s.onFls f).rcd = s.rcd ∧ (s.onFls f).pending = s.pending :=
  ⟨rfl, rfl, rfl, rfl, rfl, rfl, rfl, rfl, rfl, rfl, rfl, rfl, rfl, rfl, rfl, rfl, rfl, rfl, rfl, rfl⟩

@[simp] theorem State.onCal_fields (s : State) (f : Cal → Cal) :
    (s.onCal f).regs = s.regs ∧ (s.onCal f).tb = s.tb ∧ (s.onCal f).locks = s.locks ∧ (s.onCal f).frozen = s.frozen ∧
    (s.onCal f).hlt = s.hlt ∧ (s.onCal f).straps = s.straps ∧ (s.onCal f).writer = s.writer ∧
    (s.onCal f).chans = s.chans ∧ (s.onCal f).buses = s.buses ∧ (s.onCal f).pwr = s.pwr ∧ (s.onCal f).host = s.host ∧
    (s.onCal f).map = s.map ∧ (s.onCal f).mca = s.mca ∧ (s.onCal f).str = s.str ∧ (s.onCal f).mem = s.mem ∧
    (s.onCal f).fls = s.fls ∧ (s.onCal f).pins = s.pins ∧ (s.onCal f).memberTmo = s.memberTmo ∧
    (s.onCal f).rcd = s.rcd ∧ (s.onCal f).pending = s.pending :=
  ⟨rfl, rfl, rfl, rfl, rfl, rfl, rfl, rfl, rfl, rfl, rfl, rfl, rfl, rfl, rfl, rfl, rfl, rfl, rfl, rfl⟩

@[simp] theorem State.onPins_fields (s : State) (f : Pins → Pins) :
    (s.onPins f).regs = s.regs ∧ (s.onPins f).tb = s.tb ∧ (s.onPins f).locks = s.locks ∧
    (s.onPins f).frozen = s.frozen ∧ (s.onPins f).hlt = s.hlt ∧ (s.onPins f).straps = s.straps ∧
    (s.onPins f).writer = s.writer ∧ (s.onPins f).chans = s.chans ∧ (s.onPins f).buses = s.buses ∧
    (s.onPins f).pwr = s.pwr ∧ (s.onPins f).host = s.host ∧ (s.onPins f).map = s.map ∧ (s.onPins f).mca = s.mca ∧
    (s.onPins f).str = s.str ∧ (s.onPins f).mem = s.mem ∧ (s.onPins f).fls = s.fls ∧ (s.onPins f).cal = s.cal ∧
    (s.onPins f).memberTmo = s.memberTmo ∧ (s.onPins f).rcd = s.rcd ∧ (s.onPins f).pending = s.pending :=
  ⟨rfl, rfl, rfl, rfl, rfl, rfl, rfl, rfl, rfl, rfl, rfl, rfl, rfl, rfl, rfl, rfl, rfl, rfl, rfl, rfl⟩

@[simp] theorem State.onBus_own (s : State) (b : Two) (f : Bus → Bus) : (s.onBus b f).buses = s.buses.set b (f s.buses[b]) := rfl

@[simp] theorem State.onHlt_own (s : State) (f : Health → Health) : (s.onHlt f).hlt = f s.hlt := rfl

@[simp] theorem State.onRcd_own (s : State) (f : Recorder → Recorder) : (s.onRcd f).rcd = f s.rcd := rfl

@[simp] theorem State.onHost_own (s : State) (f : Hqe → Hqe) : (s.onHost f).host = f s.host := rfl

@[simp] theorem State.onMap_own (s : State) (f : MapM → MapM) : (s.onMap f).map = f s.map := rfl

@[simp] theorem State.onMca_own (s : State) (f : Mca → Mca) : (s.onMca f).mca = f s.mca := rfl

@[simp] theorem State.onStr_own (s : State) (f : Str → Str) : (s.onStr f).str = f s.str := rfl

@[simp] theorem State.onMem_own (s : State) (f : Mem → Mem) : (s.onMem f).mem = f s.mem := rfl

@[simp] theorem State.onFls_own (s : State) (f : Fls → Fls) : (s.onFls f).fls = f s.fls := rfl

@[simp] theorem State.onCal_own (s : State) (f : Cal → Cal) : (s.onCal f).cal = f s.cal := rfl

@[simp] theorem State.onPins_own (s : State) (f : Pins → Pins) : (s.onPins f).pins = f s.pins := rfl

@[simp] theorem State.send_own (s : State) (m : Msg) : (s.send m).host = { s.host with sent := s.host.sent ++ [m] } := rfl

/-! ### Registers through other updates -/

@[simp] theorem State.onChan_reads (s : State) (c : Ch) (f : Chan → Chan) :
    (∀ a, (s.onChan c f).rd a = s.rd a) ∧ (∀ g, (s.onChan c f).get g = s.get g) ∧ (∀ g, (s.onChan c f).geti g = s.geti g) ∧
      (∀ g, (s.onChan c f).getb g = s.getb g) :=
  ⟨fun _ => rfl, fun _ => rfl, fun _ => rfl, fun _ => rfl⟩

@[simp] theorem State.onSrv_reads (s : State) (c : Ch) (f : Srv → Srv) :
    (∀ a, (s.onSrv c f).rd a = s.rd a) ∧ (∀ g, (s.onSrv c f).get g = s.get g) ∧ (∀ g, (s.onSrv c f).geti g = s.geti g) ∧
      (∀ g, (s.onSrv c f).getb g = s.getb g) :=
  ⟨fun _ => rfl, fun _ => rfl, fun _ => rfl, fun _ => rfl⟩

@[simp] theorem State.onRdc_reads (s : State) (c : Ch) (f : Rdc → Rdc) :
    (∀ a, (s.onRdc c f).rd a = s.rd a) ∧ (∀ g, (s.onRdc c f).get g = s.get g) ∧ (∀ g, (s.onRdc c f).geti g = s.geti g) ∧
      (∀ g, (s.onRdc c f).getb g = s.getb g) :=
  ⟨fun _ => rfl, fun _ => rfl, fun _ => rfl, fun _ => rfl⟩

@[simp] theorem State.onWrc_reads (s : State) (c : Ch) (f : Wrc → Wrc) :
    (∀ a, (s.onWrc c f).rd a = s.rd a) ∧ (∀ g, (s.onWrc c f).get g = s.get g) ∧ (∀ g, (s.onWrc c f).geti g = s.geti g) ∧
      (∀ g, (s.onWrc c f).getb g = s.getb g) :=
  ⟨fun _ => rfl, fun _ => rfl, fun _ => rfl, fun _ => rfl⟩

@[simp] theorem State.onMot_reads (s : State) (c : Ch) (f : Mot → Mot) :
    (∀ a, (s.onMot c f).rd a = s.rd a) ∧ (∀ g, (s.onMot c f).get g = s.get g) ∧ (∀ g, (s.onMot c f).geti g = s.geti g) ∧
      (∀ g, (s.onMot c f).getb g = s.getb g) :=
  ⟨fun _ => rfl, fun _ => rfl, fun _ => rfl, fun _ => rfl⟩

@[simp] theorem State.onSpn_reads (s : State) (c : Ch) (f : Spn → Spn) :
    (∀ a, (s.onSpn c f).rd a = s.rd a) ∧ (∀ g, (s.onSpn c f).get g = s.get g) ∧ (∀ g, (s.onSpn c f).geti g = s.geti g) ∧
      (∀ g, (s.onSpn c f).getb g = s.getb g) :=
  ⟨fun _ => rfl, fun _ => rfl, fun _ => rfl, fun _ => rfl⟩

@[simp] theorem State.onDcm_reads (s : State) (c : Ch) (f : Dcm → Dcm) :
    (∀ a, (s.onDcm c f).rd a = s.rd a) ∧ (∀ g, (s.onDcm c f).get g = s.get g) ∧ (∀ g, (s.onDcm c f).geti g = s.geti g) ∧
      (∀ g, (s.onDcm c f).getb g = s.getb g) :=
  ⟨fun _ => rfl, fun _ => rfl, fun _ => rfl, fun _ => rfl⟩

@[simp] theorem State.onBus_reads (s : State) (b : Two) (f : Bus → Bus) :
    (∀ a, (s.onBus b f).rd a = s.rd a) ∧ (∀ g, (s.onBus b f).get g = s.get g) ∧ (∀ g, (s.onBus b f).geti g = s.geti g) ∧
      (∀ g, (s.onBus b f).getb g = s.getb g) :=
  ⟨fun _ => rfl, fun _ => rfl, fun _ => rfl, fun _ => rfl⟩

@[simp] theorem State.onHlt_reads (s : State) (f : Health → Health) :
    (∀ a, (s.onHlt f).rd a = s.rd a) ∧ (∀ g, (s.onHlt f).get g = s.get g) ∧ (∀ g, (s.onHlt f).geti g = s.geti g) ∧
      (∀ g, (s.onHlt f).getb g = s.getb g) :=
  ⟨fun _ => rfl, fun _ => rfl, fun _ => rfl, fun _ => rfl⟩

@[simp] theorem State.onRcd_reads (s : State) (f : Recorder → Recorder) :
    (∀ a, (s.onRcd f).rd a = s.rd a) ∧ (∀ g, (s.onRcd f).get g = s.get g) ∧ (∀ g, (s.onRcd f).geti g = s.geti g) ∧
      (∀ g, (s.onRcd f).getb g = s.getb g) :=
  ⟨fun _ => rfl, fun _ => rfl, fun _ => rfl, fun _ => rfl⟩

@[simp] theorem State.onHost_reads (s : State) (f : Hqe → Hqe) :
    (∀ a, (s.onHost f).rd a = s.rd a) ∧ (∀ g, (s.onHost f).get g = s.get g) ∧ (∀ g, (s.onHost f).geti g = s.geti g) ∧
      (∀ g, (s.onHost f).getb g = s.getb g) :=
  ⟨fun _ => rfl, fun _ => rfl, fun _ => rfl, fun _ => rfl⟩

@[simp] theorem State.send_reads (s : State) (m : Msg) :
    (∀ a, (s.send m).rd a = s.rd a) ∧ (∀ g, (s.send m).get g = s.get g) ∧ (∀ g, (s.send m).geti g = s.geti g) ∧
      (∀ g, (s.send m).getb g = s.getb g) :=
  ⟨fun _ => rfl, fun _ => rfl, fun _ => rfl, fun _ => rfl⟩

@[simp] theorem State.onMap_reads (s : State) (f : MapM → MapM) :
    (∀ a, (s.onMap f).rd a = s.rd a) ∧ (∀ g, (s.onMap f).get g = s.get g) ∧ (∀ g, (s.onMap f).geti g = s.geti g) ∧
      (∀ g, (s.onMap f).getb g = s.getb g) :=
  ⟨fun _ => rfl, fun _ => rfl, fun _ => rfl, fun _ => rfl⟩

@[simp] theorem State.onMca_reads (s : State) (f : Mca → Mca) :
    (∀ a, (s.onMca f).rd a = s.rd a) ∧ (∀ g, (s.onMca f).get g = s.get g) ∧ (∀ g, (s.onMca f).geti g = s.geti g) ∧
      (∀ g, (s.onMca f).getb g = s.getb g) :=
  ⟨fun _ => rfl, fun _ => rfl, fun _ => rfl, fun _ => rfl⟩

@[simp] theorem State.onStr_reads (s : State) (f : Str → Str) :
    (∀ a, (s.onStr f).rd a = s.rd a) ∧ (∀ g, (s.onStr f).get g = s.get g) ∧ (∀ g, (s.onStr f).geti g = s.geti g) ∧
      (∀ g, (s.onStr f).getb g = s.getb g) :=
  ⟨fun _ => rfl, fun _ => rfl, fun _ => rfl, fun _ => rfl⟩

@[simp] theorem State.onMem_reads (s : State) (f : Mem → Mem) :
    (∀ a, (s.onMem f).rd a = s.rd a) ∧ (∀ g, (s.onMem f).get g = s.get g) ∧ (∀ g, (s.onMem f).geti g = s.geti g) ∧
      (∀ g, (s.onMem f).getb g = s.getb g) :=
  ⟨fun _ => rfl, fun _ => rfl, fun _ => rfl, fun _ => rfl⟩

@[simp] theorem State.onFls_reads (s : State) (f : Fls → Fls) :
    (∀ a, (s.onFls f).rd a = s.rd a) ∧ (∀ g, (s.onFls f).get g = s.get g) ∧ (∀ g, (s.onFls f).geti g = s.geti g) ∧
      (∀ g, (s.onFls f).getb g = s.getb g) :=
  ⟨fun _ => rfl, fun _ => rfl, fun _ => rfl, fun _ => rfl⟩

@[simp] theorem State.onCal_reads (s : State) (f : Cal → Cal) :
    (∀ a, (s.onCal f).rd a = s.rd a) ∧ (∀ g, (s.onCal f).get g = s.get g) ∧ (∀ g, (s.onCal f).geti g = s.geti g) ∧
      (∀ g, (s.onCal f).getb g = s.getb g) :=
  ⟨fun _ => rfl, fun _ => rfl, fun _ => rfl, fun _ => rfl⟩

@[simp] theorem State.onPins_reads (s : State) (f : Pins → Pins) :
    (∀ a, (s.onPins f).rd a = s.rd a) ∧ (∀ g, (s.onPins f).get g = s.get g) ∧ (∀ g, (s.onPins f).geti g = s.geti g) ∧
      (∀ g, (s.onPins f).getb g = s.getb g) :=
  ⟨fun _ => rfl, fun _ => rfl, fun _ => rfl, fun _ => rfl⟩

/-! ### Channels -/

@[simp] theorem State.onChan_same (s : State) (c : Ch) (f : Chan → Chan) : (s.onChan c f).chan c = f (s.chan c) :=
  Vector.getElem_set_self ..

theorem State.onChan_other {s : State} {c k : Ch} {f : Chan → Chan} (h : k ≠ c) : (s.onChan c f).chan k = s.chan k :=
  Vector.getElem_set_ne c.isLt k.isLt (fun e => h (Fin.ext e.symm))

@[simp] theorem State.onSrv_same (s : State) (c : Ch) (f : Srv → Srv) :
    (s.onSrv c f).chan c = { s.chan c with srv := f (s.chan c).srv } := State.onChan_same ..

theorem State.onSrv_other {s : State} {c k : Ch} {f : Srv → Srv} (h : k ≠ c) :
    (s.onSrv c f).chan k = s.chan k := State.onChan_other h

@[simp] theorem State.onRdc_same (s : State) (c : Ch) (f : Rdc → Rdc) :
    (s.onRdc c f).chan c = { s.chan c with rdc := f (s.chan c).rdc } := State.onChan_same ..

theorem State.onRdc_other {s : State} {c k : Ch} {f : Rdc → Rdc} (h : k ≠ c) :
    (s.onRdc c f).chan k = s.chan k := State.onChan_other h

@[simp] theorem State.onWrc_same (s : State) (c : Ch) (f : Wrc → Wrc) :
    (s.onWrc c f).chan c = { s.chan c with wrc := f (s.chan c).wrc } := State.onChan_same ..

theorem State.onWrc_other {s : State} {c k : Ch} {f : Wrc → Wrc} (h : k ≠ c) :
    (s.onWrc c f).chan k = s.chan k := State.onChan_other h

@[simp] theorem State.onMot_same (s : State) (c : Ch) (f : Mot → Mot) :
    (s.onMot c f).chan c = { s.chan c with mot := f (s.chan c).mot } := State.onChan_same ..

theorem State.onMot_other {s : State} {c k : Ch} {f : Mot → Mot} (h : k ≠ c) :
    (s.onMot c f).chan k = s.chan k := State.onChan_other h

@[simp] theorem State.onSpn_same (s : State) (c : Ch) (f : Spn → Spn) :
    (s.onSpn c f).chan c = { s.chan c with spn := f (s.chan c).spn } := State.onChan_same ..

theorem State.onSpn_other {s : State} {c k : Ch} {f : Spn → Spn} (h : k ≠ c) :
    (s.onSpn c f).chan k = s.chan k := State.onChan_other h

@[simp] theorem State.onDcm_same (s : State) (c : Ch) (f : Dcm → Dcm) :
    (s.onDcm c f).chan c = { s.chan c with dcm := f (s.chan c).dcm } := State.onChan_same ..

theorem State.onDcm_other {s : State} {c k : Ch} {f : Dcm → Dcm} (h : k ≠ c) :
    (s.onDcm c f).chan k = s.chan k := State.onChan_other h

@[simp] theorem State.wr_chan (s : State) (a : Nat) (w : W32) (c : Ch) : (s.wr a w).chan c = s.chan c := rfl

@[simp] theorem State.put_chan (s : State) (f : Fld) (v : Nat) (c : Ch) : (s.put f v).chan c = s.chan c := rfl

@[simp] theorem State.puti_chan (s : State) (f : Fld) (z : Int) (c : Ch) : (s.puti f z).chan c = s.chan c := rfl

@[simp] theorem State.putb_chan (s : State) (f : Fld) (b : Bool) (c : Ch) : (s.putb f b).chan c = s.chan c := rfl

@[simp] theorem State.bump_chan (s : State) (f : Fld) (n : Nat) (c : Ch) : (s.bump f n).chan c = s.chan c := rfl

@[simp] theorem State.raise_chan (s : State) (b : Blk) (k : Nat) (c : Ch) : (s.raise b k).chan c = s.chan c := rfl

@[simp] theorem State.onBus_chan (s : State) (b : Two) (f : Bus → Bus) (c : Ch) : (s.onBus b f).chan c = s.chan c := rfl

@[simp] theorem State.onHlt_chan (s : State) (f : Health → Health) (c : Ch) : (s.onHlt f).chan c = s.chan c := rfl

@[simp] theorem State.onRcd_chan (s : State) (f : Recorder → Recorder) (c : Ch) : (s.onRcd f).chan c = s.chan c := rfl

@[simp] theorem State.onHost_chan (s : State) (f : Hqe → Hqe) (c : Ch) : (s.onHost f).chan c = s.chan c := rfl

@[simp] theorem State.send_chan (s : State) (m : Msg) (c : Ch) : (s.send m).chan c = s.chan c := rfl

@[simp] theorem State.onMap_chan (s : State) (f : MapM → MapM) (c : Ch) : (s.onMap f).chan c = s.chan c := rfl

@[simp] theorem State.onMca_chan (s : State) (f : Mca → Mca) (c : Ch) : (s.onMca f).chan c = s.chan c := rfl

@[simp] theorem State.onStr_chan (s : State) (f : Str → Str) (c : Ch) : (s.onStr f).chan c = s.chan c := rfl

@[simp] theorem State.onMem_chan (s : State) (f : Mem → Mem) (c : Ch) : (s.onMem f).chan c = s.chan c := rfl

@[simp] theorem State.onFls_chan (s : State) (f : Fls → Fls) (c : Ch) : (s.onFls f).chan c = s.chan c := rfl

@[simp] theorem State.onCal_chan (s : State) (f : Cal → Cal) (c : Ch) : (s.onCal f).chan c = s.chan c := rfl

@[simp] theorem State.onPins_chan (s : State) (f : Pins → Pins) (c : Ch) : (s.onPins f).chan c = s.chan c := rfl

end Sys2Proof.Machine
end

