-- ==== Sys2Proof/Laws/FrameStep.lean ====
section
/-! SUPPORT. What the count of a tick and chip reset do, which move what every other command keeps. -/

namespace Sys2Proof.Machine

/-- What the count of a tick does: the counter goes up by one; registers and logs change only when a staged time is applied. -/
theorem clockTick_spec (s : State) : (clockTick s).tb.tick = s.tb.tick + 1 ∧
    (clockTick s).tb.lost = s.tb.lost ∧ (clockTick s).pending = s.pending ∧ (clockTick s).pins = s.pins ∧
    (clockTick s).straps = s.straps ∧ (regsWf s.regs = true → regsWf (clockTick s).regs = true) ∧
    (∀ q : Part, q ≠ .tb → q ≠ .regs → q ≠ .hlt → samePart q s (clockTick s)) := by
  unfold clockTick
  dsimp only
  split
  · refine ⟨rfl, rfl, rfl, rfl, rfl, id, fun q h1 h2 h3 => ?_⟩
    cases q <;> first | rfl | contradiction
  · refine ⟨rfl, rfl, rfl, rfl, rfl, fun h => regsWf_write h, fun q h1 h2 h3 => ?_⟩
    cases q <;> first | rfl | contradiction

/-- Chip reset keeps the register list canonical, the queue, the straps and the writer ID. -/
theorem chipReset_spec (s : State) : regsWf (chipReset s).regs = true ∧ (chipReset s).pending = s.pending ∧
    (chipReset s).straps = s.straps ∧ (chipReset s).writer = s.writer ∧ (chipReset s).pins.inReset = true := by
  unfold chipReset resetCore
  refine ⟨put_canonical (put_canonical (wr_canonical (by rfl))), ?_, ?_, ?_, ?_⟩ <;>
    simp only [State.put_fields, State.wr_fields] <;> rfl

end Sys2Proof.Machine
end

