-- ==== Sys2Proof/Laws/Store.lean ====
section
/-! SUPPORT. The addressed memories of the part, DRAM lines (R587, R592) and flash words (R614), as lists of addresses and
contents: the addresses rise strictly, every operation that stores keeps that, and a store changes one address only. -/

namespace Sys2Proof.Machine

/-! ### Lists of keys and values -/

/-- Every key of the list is above `k`. -/
def keysAbove {α : Type} (k : Nat) (l : List (Nat × α)) : Prop := ∀ p ∈ l, k < p.1

/-- The keys of a list rise strictly. -/
def keysRise {α : Type} : List (Nat × α) → Bool
  | [] => true
  | (k, _) :: r => r.all (fun p => decide (k < p.1)) && keysRise r

theorem keysRise_cons {α : Type} {k : Nat} {v : α} {l : List (Nat × α)} :
    keysRise ((k, v) :: l) = true ↔ keysAbove k l ∧ keysRise l = true := by
  simp [keysRise, keysAbove]

theorem keysRise_filter {α : Type} {q : Nat × α → Bool} {l : List (Nat × α)} (h : keysRise l = true) :
    keysRise (l.filter q) = true := by
  induction l with
  | nil => rfl
  | cons p r ih =>
    obtain ⟨ha, hr⟩ := keysRise_cons.mp h
    rw [List.filter_cons]
    split
    · exact keysRise_cons.mpr ⟨fun x hx => ha x (List.mem_filter.mp hx).1, ih hr⟩
    · exact ih hr

theorem keysRise_erase {α : Type} {k : Nat} {l : List (Nat × α)} (h : keysRise l = true) : keysRise (keyErase k l) = true :=
  keysRise_filter h

theorem keysAbove_set {α : Type} {j k : Nat} {v : α} {l : List (Nat × α)} (hj : j < k) (h : keysAbove j l) :
    keysAbove j (keySet k v l) := by
  induction l with
  | nil => intro p hp; obtain rfl := List.mem_singleton.mp hp; exact hj
  | cons q r ih =>
    obtain ⟨hq, hr⟩ := List.forall_mem_cons.mp h
    unfold keySet
    split
    · exact List.forall_mem_cons.mpr ⟨hj, h⟩
    · split
      · exact List.forall_mem_cons.mpr ⟨hj, hr⟩
      · exact List.forall_mem_cons.mpr ⟨hq, ih hr⟩

theorem keysRise_set {α : Type} {k : Nat} {v : α} {l : List (Nat × α)} (h : keysRise l = true) :
    keysRise (keySet k v l) = true := by
  induction l with
  | nil => rfl
  | cons q r ih =>
    obtain ⟨a, w⟩ := q
    obtain ⟨ha, hr⟩ := keysRise_cons.mp h
    unfold keySet
    split
    · next hk => exact keysRise_cons.mpr ⟨List.forall_mem_cons.mpr ⟨hk, fun p hp => Nat.lt_trans hk (ha p hp)⟩, h⟩
    · split
      · next e => subst e; exact keysRise_cons.mpr ⟨ha, hr⟩
      · exact keysRise_cons.mpr ⟨keysAbove_set (by omega) ha, ih hr⟩

/-- Reading a key after it was stored gives what was stored. -/
theorem keyFind_set_same {α : Type} {k : Nat} {v : α} {l : List (Nat × α)} : keyFind k (keySet k v l) = some v := by
  induction l with
  | nil => simp [keySet, keyFind]
  | cons q r ih =>
    unfold keySet
    split
    · simp [keyFind]
    · split
      · simp [keyFind]
      · next e => simpa [keyFind, Ne.symm e] using ih

/-- Storing a key leaves what every other key holds. -/
theorem keyFind_set_other {α : Type} {j k : Nat} {v : α} {l : List (Nat × α)} (h : j ≠ k) :
    keyFind j (keySet k v l) = keyFind j l := by
  induction l with
  | nil => simp [keySet, keyFind, Ne.symm h]
  | cons q r ih =>
    obtain ⟨a, w⟩ := q
    unfold keySet
    split
    · simp [keyFind, Ne.symm h]
    · split
      · next e => subst e; simp [keyFind, Ne.symm h]
      · by_cases e : a = j
        · simp [keyFind, e]
        · simpa [keyFind, e] using ih

/-- A key that was erased holds nothing. -/
theorem keyFind_erase_same {α : Type} {k : Nat} {l : List (Nat × α)} : keyFind k (keyErase k l) = none := by
  simp [keyFind, keyErase]

/-- Erasing a key leaves what every other key holds. -/
theorem keyFind_erase_other {α : Type} {j k : Nat} {l : List (Nat × α)} (h : j ≠ k) :
    keyFind j (keyErase k l) = keyFind j l := by
  induction l with
  | nil => rfl
  | cons q r ih =>
    by_cases e : q.1 = k
    · have hk : keyErase k (q :: r) = keyErase k r := by simp [keyErase, e]
      have hj : keyFind j (q :: r) = keyFind j r := by simp [keyFind, e, Ne.symm h]
      rw [hk, hj, ih]
    · have hk : keyErase k (q :: r) = q :: keyErase k r := by simp [keyErase, e]
      rw [hk]
      by_cases f : q.1 = j
      · simp [keyFind, f]
      · simpa [keyFind, f] using ih

/-! ### DRAM and flash -/

/-- The addressed memories hold each address once, rising: the DRAM lines and the flash words. -/
def Memory.wf (s : State) : Bool := keysRise s.mem.lines && keysRise s.fls.words

theorem Memory.wf_iff {s : State} : Memory.wf s = true ↔ keysRise s.mem.lines = true ∧ keysRise s.fls.words = true := by
  simp [Memory.wf]

/-- At power-on the memories list nothing. -/
theorem Memory.wf_reset : Memory.wf State.reset = true := rfl

/-- Storing a DRAM line keeps the form. -/
theorem dramPut_wf {line : Nat} {w : List Byte} {s : State} (h : Memory.wf s = true) : Memory.wf (dramPut line w s) = true := by
  obtain ⟨hm, hf⟩ := Memory.wf_iff.mp h
  refine Memory.wf_iff.mpr ⟨?_, hf⟩
  show keysRise (if _ then keyErase _ s.mem.lines else keySet _ _ s.mem.lines) = true
  split
  · exact keysRise_erase hm
  · exact keysRise_set hm

/-- Storing a flash word keeps the form. -/
theorem flashPut_wf {w d : Nat} {s : State} (h : Memory.wf s = true) : Memory.wf (flashPut w d s) = true := by
  obtain ⟨hm, hf⟩ := Memory.wf_iff.mp h
  refine Memory.wf_iff.mpr ⟨hm, ?_⟩
  show keysRise (if _ then keyErase _ s.fls.words else keySet _ _ s.fls.words) = true
  split
  · exact keysRise_erase hf
  · exact keysRise_set hf

/-- Chip reset, which may cut a program short (R622), keeps the form of the flash words. -/
theorem flsReset_rise {now : Nat} {f : Fls} (h : keysRise f.words = true) : keysRise (flsReset now f).words = true := by
  show keysRise (List.foldl _ f.words _) = true
  generalize f.banks.toList.filterMap (·.prog) = cut
  generalize f.words = ws at h
  induction cut generalizing ws with
  | nil => exact h
  | cons p r ih => exact ih _ (keysRise_set h)

end Sys2Proof.Machine
end

