-- ==== Sys2Proof/WellFormed.lean ====
section
/-! DEFINITION. Well-formed commands: the ranges and lengths that the data of the world outside have. The meanings take
every term; a statement that needs one of these bounds names it. -/

namespace Sys2Proof

/-- The inputs of a channel in a tick: ten 14-bit codes and a 12-bit shunt code (R230, R326). -/
def wfCh (i : ChIn) : Bool :=
  i.servo.length == 10 && i.servo.all (fun z => decide (-8192 ≤ z ∧ z < 8192)) &&
    i.shunt.all (fun z => decide (-2048 ≤ z ∧ z < 2048))

/-- A tile slot: layer, zone and region exist (R71, R78, R81). -/
def wfPos (p : TilePos) : Bool := decide (p.layer < 16 ∧ p.zone < 8 ∧ p.region < 3)

/-- Codes of the 8-bit ADC of a read signal (R125, R126). -/
def wfCodes (l : List Int) : Bool := l.all (fun z => decide (-128 ≤ z ∧ z < 128))

/-- Equaliser outputs that an envelope or a level is judged over: 32, or 64 windows of 32 (R128, R164, R165). -/
def wfEqualised (n : Nat) (l : List Int) : Bool := l.length == n && l.all (fun z => decide (-512 ≤ z ∧ z < 512))

/-- A row: ten signals, eight data beams, expected values within ±1 (R152, R160). -/
def wfRow (i : RowIn) : Bool :=
  i.adc.length == 10 && i.adc.all (fun a => wfCodes a.xs) && i.dec.length == 8 && i.soft.length == 8 &&
    i.soft.all (fun l => l.all (fun z => decide (-256 ≤ z ∧ z ≤ 256))) && i.phaseErr.length == 8

/-- A ring entry has 64 bytes (R446). -/
def wfFetch (e : FetchEnd) : Bool :=
  match e with
  | .entry bytes _ => bytes.length == 64
  | .failed code => decide (code < 256)

/-- A read covers bytes of one register, or two registers whole (R44). -/
def wfRead (first len : Nat) : Bool := decide (0 < len ∧ first + len ≤ 4) || (first == 0 && len == 8)

/-- A command whose data have the ranges and lengths of the hardware. -/
def Instr.wellFormed (i : Instr) : Bool :=
  match i with
  | .tick i => i.chans.length == 6 && i.chans.all wfCh && decide (i.vmA < 4096 ∧ i.vmB < 4096)
  | .registerWrite _ addr _ _ h e => decide (addr < 0x04000000 ∧ addr % 4 = 0) && (h.isNone || decide (addr % 8 = 0)) && wfFetch e
  | .tickCaptureRead _ first len | .todCaptureRead _ first len => wfRead first len
  | .wedgeBoundary _ sigs => sigs.length == 10 && sigs.all (fun k => wfCodes k.adc)
  | .tileReadStart _ p => wfPos p
  | .tileWriteStart _ p => wfPos p
  | .wedgeSync _ _ i => wfCodes i.adc.xs
  | .sectorSync _ _ _ adc => wfCodes adc.xs
  | .defectSpanStart _ _ _ y | .dropoutStart _ _ _ y | .dropoutEnd _ _ _ y => wfEqualised 32 y
  | .defectSpanEnd _ _ _ y => wfEqualised 95 y
  | .sectorRowComplete _ _ i => wfRow i
  | .apcUpdate _ l sent n => l.length == 16 && l.all (fun v => decide (v < 4096)) && sent.length == 8 && decide (0 < n) &&
    sent.all (fun p => decide (p.1 + p.2 ≤ n))
  | .rapcUpdate _ l => l.length == 16 && l.all (fun v => decide (v < 4096))
  | .bemfEdge _ _ _ cycle => decide (-4096 ≤ cycle ∧ cycle < 4096)
  | .linkUp _ speed width => decide (1 ≤ speed ∧ speed ≤ 5) && (width == 1 || width == 2 || width == 4)
  | .numvfsWrite _ n => decide (n < 65536)
  | .msixUnmask _ v => v.all (fun k => decide (k < 64))
  | .ringEnable _ g _ => decide (g < 16384)
  | .ringShutdown _ g _ => decide (g < 16384)
  | .evqEnable _ g _ => decide (g < 16384)
  | .drainComplete g _ => decide (g < 16384)
  | .doorbell _ r _ _ => decide (r < 1024)
  | .stagingDoorbell _ r _ _ e => decide (r < 1024) && wfFetch e
  | .entryFetched e => wfFetch e
  | .dramTrainingDone trains => trains.length == 3
  | .dramRead _ _ err => err.all (fun p => decide (p.1 < 80))
  | .dramRmw _ _ new err => new.all (fun p => decide (p.1 < 64)) && err.all (fun p => decide (p.1 < 80))
  | .scrubRead err => err.all (fun p => decide (p.1 < 80))
  | .flashRead _ _ _ err => err.all (fun k => decide (k < 137))
  | .flashCoreRead _ addr _ err => decide (addr < 2 ^ 24) && err.all (fun k => decide (k < 137))
  | .weltSectorErase k => decide (k < 32)
  | .calAfe _ _ l => l.length == 10
  | .calServoOfs _ _ l => l.length == 9
  | .calLaser _ _ l => l.length == 8
  | .calResponse _ _ amp _ => amp.length == 8
  | .calActuator _ _ l => l.length == 3
  | .calMargin _ _ l => l.length == 18
  | .trigWrite _ _ snip => snip.length == 40960
  | .jtagRegacc _ addr _ e => decide (addr < 2 ^ 24) && wfFetch e
  | .i2cRegisterWrite _ _ e => wfFetch e
  | .routineOverrun _ | .holdDelayExpiry _ _ | .timebaseLost
  | .todApplyWrite _ _ | .expertUnlock _ _ _ | .expertLockTimeout _ | .freezeWrite _ _ _ | .counterClear _ _ _
  | .eqRestart _ _ _ _ | .saAddress _ _ _ | .wobbleReadStop _
  | .ldpcDecodeDone _ _ _ | .outerDecodeDone _ | .ladderReread _ | .driverFrame _ _ | .driverStatusPoll _
  | .bankSwap _ | .tileVerifyJudge _ | .spareTileWrite _ | .pwrfailAssert | .pwrfailConfirmed | .pwrfailDeassert
  | .pwrfailRestart | .safeClr _ _ _ | .ttSwap _ _ _ | .ttSwapApply _ | .loopSwap _ _ _ _ | .loopClose _ _ _ _
  | .loopOpen _ _ _ _ | .loopHold _ _ _ _ | .loopRelease _ _ _ _ | .holdResume _ | .focusCapture _
  | .focusSweepEnd _ | .trackCapture _ | .acquireAddressTimeout _ | .layerJumpCorrectorDone _
  | .layerJumpProfileEnd _ | .layerJumpCaptureTimeout _ | .focusDrop _ | .servoBeamLoss _ | .trackSlip _
  | .oneBeamEnd _ | .recoveryAttemptTimeout _ | .recoveryDone _ | .axisModeWrite _ _ _ _ | .dirInvWrite _ _ _ _
  | .axisPush _ _ _ _ | .axisAbort _ _ _ _ | .homingStart _ _ _ _ | .homeInputChange _ _ | .homingPhaseFail _ _
  | .seekGo _ _ _ | .seekCountTimeout _ | .currentLimit _ _ | .spindleStart _ _ _ | .spindleBrake _ _ _
  | .spindleCoast _ _ _ | .startWatchTimeout _ | .probeEnd _ | .startTimeout _ | .startPauseEnd _
  | .sixStepCommutation _ | .commutationLost _ | .catchCoastEnd _ | .catchTimeout _ | .shortV0Start _
  | .spindleStopped _ | .chopperOn _ _ | .chopperOff _ _ | .chopperFault _ _ | .chopClr _ _ _ | .bufferStop _ _
  | .bufferStopRelease _ | .undervoltStop _ | .undervoltRelease _ | .modeRequest _ _ _ | .targetWrite _ _ _
  | .profileRequest _ _ _ | .modeTransition _ | .spinupTimeout _ | .seekTimeout _ | .brakeTimeout _
  | .busWaitTimeout _ | .transferResume _ | .stopClr _ _ _ | .profileApply _ | .allowWrite _ _ _
  | .configRequest _ _ | .cfgReadyWrite _ _ | .linkTrainingStart _ | .linkDown _ _ | .flrVf _ | .flrPf _
  | .vfEnableClear _ | .d3hotToD0 _ | .functionResetEnd _ | .bar2Access _ _ _ | .unsupportedRequest _ _
  | .tenantReadDenied _ _ | .dmaCompletion _ _ _ | .completionTimeout _ _ | .ringAssignWrite _ _ _ | .arbiterGrant
  | .bufferReservation | .dataReceived _ _ | .grantExpiry _ | .read _ | .write _ | .verify _ | .flush _
  | .queryLocation _ | .nsCreate _ | .nsDelete _ | .nsList _ | .mountNotify _ _ | .unmount _ | .getLog _
  | .setTime _ | .fwDownload _ _ _ | .fwActivate _ | .activationDrainTimeout | .activationImageStart _
  | .rebuildStart _ | .calibrate _ | .recordStart _ | .recordLoad _ _ | .recordStop _ | .recordRead _
  | .setFeature _ | .setWriterId _ | .importClose _ | .getFeature _ | .sidingTimeout _ | .mapCommit
  | .journalRecordProgrammed | .mapRecovery _ _ | .mapBaseRewrite | .mapCheckpointWrite _ | .mapCacheAccess _ _ _
  | .cacheFillDone | .cacheEvictDone | .mcaPreload _ _ | .mcaInvalidate _ _ | .mcaWriteback _ _
  | .mcaLockWrite _ _ | .stripeClose _ _ | .coalesceTimeout _ | .stripeComplete _ | .weltCopyWrite _
  | .stripeReconstruct _ _ _ _ | .memberTimeout _ | .rebuildPosition _ _ | .sealInjectArm _ _ | .dramFillDone
  | .remapWrite _ _ _ | .remapCopyDone | .sramCorrected _ _ | .sramUncorrectable _ _ _ | .sramModeWrite _ _ _
  | .sramSeal _ _ | .sramInjectArm _ _ | .testRawRead _ _ | .testRawWrite _ _ | .testEncodedWrite _ _
  | .flashProgram _ _ _ | .flashProgramDone _ _ | .flashErase _ _ _ | .flashEraseDone _ _ | .flashSuspend _ _ _
  | .flashSuspendAccept _ | .flashResume _ _ _ | .flashFlagScan | .imageCheck | .coreRelease
  | .fetchDivertWrite _ _ | .fetchDivertEnd | .fetchStall _ | .calRef _ | .calMonitor _ _ _ _ | .calShunt _ _ _ _
  | .calTrims _ | .calFriction _ _ _ _ _ | .calAgeing _ | .calLastCapture _ | .calStoreTables _ _ | .ageingDue _
  | .ageingStart _ | .faultReport | .faultRecordHandle | .hltClr _ _ | .junctionHot _ | .logEnable _ _ _
  | .eventLogPersist | .violationLogPersist | .recordingBegin | .recordingEnd | .replayPrep _ _ | .replayEnd _
  | .i2cPointerWrite _ | .i2cRead _ | .i2cBusReset | .sidebandReady | .porstAssert
  | .chipResetRelease _ | .supplyLow | .supplyRestored _ | .jtagExtest _ | .jtagSamplePreload _ _ | .jtagIdcode
  | .jtagBypass | .wobblePllLock _ _ | .wobblePllLockLoss _ | .flashSuspended _ | .aerError _ _ _ => true

/-- Well-formedness as a proposition. -/
abbrev Instr.WellFormed (i : Instr) : Prop := i.wellFormed = true

end Sys2Proof
end

