-- ==== Sys2Proof/Tests/Slice0.lean ====
section
/-! SUPPORT. Tests. Each list `w…` holds one witness for each clause of a statement: a state and operands that meet the
hypotheses of the clause together, and what the rules of the specification give there; `wit` says that the hypotheses hold
out of chip reset and that the command answers a next state with the property. Expected values are those of the rules that
the statement cites. The smoke test of well-formedness has an ill-formed command for each check. -/

open Sys2Proof Sys2Proof.Machine Sys2Proof.Machine.Reg

namespace Sys2Proof.Tests

-- One theorem after the other: each evaluation in the kernel would hold a thread of its own.
set_option Elab.async false

/-- Is an outcome a next state with a property? -/
def nexts (o : Out) (p : State → Bool) : Bool :=
  match o with
  | .next t => p t
  | _ => false

/-- Does a command answer a next state with a property, from a state with a canonical register list? -/
def ok (i : Instr) (s : State) (p : State → Bool) : Bool := regsWf s.regs && nexts (exec i s) p

/-- A witness: the hypotheses hold out of chip reset, and the command answers a next state with the property. -/
def wit (hyps : Bool) (i : Instr) (s : State) (p : State → Bool) : Bool := hyps && !s.pins.inReset && ok i s p

/-- The state a command leaves. -/
def nextOf (i : Instr) (s : State) : State := stateOf s (exec i s)

/-- A state with fields of registers set. -/
def st (l : List (Fld × Nat)) (s : State := State.reset) : State := l.foldl (fun s (f, v) => s.put f v) s

/-- Reset at a later tick. -/
def at' (n : Nat) (s : State := State.reset) : State := { s with tb := { s.tb with tick := n } }

/-- A state with a block open. -/
def opened (b : Blk) (s : State := State.reset) : State := { s with locks := [⟨b, .jtag, s.tb.tick⟩] }

/-- Does a register write of an origin reach the registers (`Reaches`)? -/
def reaches (o : Origin) (a : Nat) (s : State) : Bool := !s.pins.inReset && !accessDead o s && mayWrite o a s

/-- Is an event bit of a block pending (`eventSet`)? -/
def evt (b : Blk) (k : Nat) (s : State) : Bool := bitOf k (s.rd (irqStat b)).toNat

/-- Is the one fault detected since `s` of a class and an instance (`faulted`)? -/
def flt (cls inst : Nat) (s t : State) : Bool :=
  t.hlt.incoming.length == s.hlt.incoming.length + 1 &&
    (t.hlt.incoming.getLast?.map (fun r => (r.cls, r.inst)) == some (cls, inst))

/-- A loop in a state. -/
def loopIn (c : Ch) (l : Fin 7) (n : Nat) (s : State := State.reset) : State := setLoopSt c l n s

/-- A tick with nothing on any input. -/
def quietTick : TickIn := ⟨List.replicate 6 ⟨List.replicate 10 0, false, false, none, 0, false, false, false⟩, 0, 0⟩


/-- A register write of one word. -/
def regWrite (o : Origin) (a : Nat) (be : BitVec 4) (v : W32) : Instr := .registerWrite o a be v none (.failed 8)

/-! ### The machine as a whole -/

/-- Reset with chip reset asserted. -/
def inReset (porst low : Bool) : State := { State.reset with pins := { inReset := true, porst, low } }

/-- Two commands wait. -/
def waiting : State := { State.reset with pending := [.jtagBypass, .mapCommit] }

/-- Witnesses of clauses of the machine as a whole (StepRunsFrontCommand, QueueIsServedInOrder, StepKeepsRegistersCanonical, TickCounterCountsTicks, the chip resets). -/
def wMachine : List Bool :=
  [nexts (step waiting) (fun t =>
     t.pending == [.mapCommit] && t.host.sent == [.jtag 1 0]),
   nexts (step State.reset) (fun t => decide (t = State.reset)),
   regsWf State.reset.regs && State.reset.locks.isEmpty && State.reset.pending.isEmpty,
   State.reset.rd (blkBase memBlk) == resetValue (blkBase memBlk),
   wit true (.tick quietTick) (at' 7) (fun _ => true),
   ok (.chipResetRelease { dramR := true }) (inReset true false) (fun t =>
     t.tb.tick == 0 && t.straps.dramR && !t.pins.inReset && !t.pins.porst),
   ok (.chipResetRelease {}) (inReset true true) (fun t => t.pins.inReset && !t.pins.porst && t.pins.low),
   ok (.supplyRestored { afSel := true }) (inReset false true) (fun t => t.tb.tick == 0 && t.straps.afSel && !t.pins.inReset),
   ok (.supplyRestored {}) (inReset true true) (fun t => t.pins.inReset && t.pins.porst && !t.pins.low),
   ok .mapCommit (at' 7) (fun t => t.tb.tick == 7),
   ok .timebaseLost { State.reset with tb := { lost := true } } (fun t => t.tb.lost),
   ok .fetchDivertEnd (inReset true false) (fun t => decide (t = inReset true false)),
   ok .porstAssert (opened memBlk (st [(CAL_CTL_SCHED_EN, 1)])) (fun t => t.pins.inReset && t.pins.porst && !t.pins.low &&
     t.locks.isEmpty && t.frozen.isEmpty && t.chans.toList.length == 6),
   ok .supplyLow { State.reset with fls := { words := [(5, 1)], flags := [7] } } (fun t =>
     t.pins.low && t.fls.words == [(5, 1)] && t.fls.flags == [7])]

theorem witness_machine : wMachine.all id = true := by decide +kernel

/-! ### Register accesses -/

/-- Witnesses of clauses of IgnoredWritesAreCounted, ClosedBlocksRefuse, ClassesBoundWrites, ExpertLock, CommonPageActsAtOnce, CountersClear, CountersAreCaptured. -/
def wAccess : List Bool :=
  [wit (!accessDead .jtag State.reset) (regWrite .jtag 0x1000 0x7 1) State.reset (fun t =>
     t.get SYS_UNMAPPED_CNT_COUNT == 1),
   wit true (.registerWrite .jtag (irqStat memBlk) 0xF 2 (some (0x7, 1)) (.failed 8)) (State.reset.wr (irqStat memBlk) 6) (fun t =>
     t.rd (irqStat memBlk) == 4 && t.get SYS_UNMAPPED_CNT_COUNT == 1),
   wit (targetOf 0x00FFFFFC State.reset == .none && mayWrite .jtag 0x00FFFFFC State.reset)
     (regWrite .jtag 0x00FFFFFC 0xF 1) State.reset (fun t => t.get SYS_UNMAPPED_CNT_COUNT == 1),
   wit (reaches .jtag FLS_DIVERT.base State.reset && targetOf FLS_DIVERT.base State.reset == .reg FLS_DIVERT.base &&
     !blkOpen flsBlk State.reset) (regWrite .jtag FLS_DIVERT.base 0xF 1) State.reset (fun t =>
     t.rd FLS_DIVERT.base == State.reset.rd FLS_DIVERT.base && bitsOf 15 8 (t.rd (pageReg flsBlk 0x1C)).toNat == 1),
   wit (!accessDead (.fn 32) State.reset && !mayWrite (.fn 32) FLS_DIVERT.base State.reset)
     (regWrite (.fn 32) FLS_DIVERT.base 0xF 1) State.reset (fun t => t.rd FLS_DIVERT.base == State.reset.rd FLS_DIVERT.base),
   wit (reaches .jtag (pageReg memBlk 0x1C) State.reset) (.expertUnlock .jtag memBlk (BitVec.ofNat 32 (blkId memBlk)))
     State.reset (fun t => blkOpen memBlk t && !blkOpen flsBlk t),
   wit true (.expertUnlock .jtag memBlk 0) (opened memBlk) (fun t => !blkOpen memBlk t),
   wit true (.expertLockTimeout memBlk) { at' 400000 with locks := [⟨memBlk, .jtag, 0⟩, ⟨flsBlk, .jtag, 1⟩] } (fun t =>
     t.locks == [⟨flsBlk, .jtag, 1⟩]),
   wit true (.freezeWrite .jtag memBlk 2) State.reset (fun t => blkFrozen memBlk t && !blkFrozen flsBlk t),
   wit true (.freezeWrite .jtag memBlk 0) (nextOf (.freezeWrite .jtag memBlk 2) State.reset) (fun t => !blkFrozen memBlk t),
   wit true (regWrite .jtag (irqStat memBlk) 0xF 2) (State.reset.wr (irqStat memBlk) 6) (fun t =>
     t.rd (irqStat memBlk) == 4),
   wit true (regWrite .jtag (pageReg memBlk 0x14) 0xF 0xFFFFFFFF) State.reset (fun t =>
     t.rd (pageReg memBlk 0x14) &&& BitVec.ofNat 32 (2 ^ (blkEvents .mem + 1) - 1) == BitVec.ofNat 32 (2 ^ (blkEvents .mem + 1) - 1)),
   wit (reaches .jtag ((cntClear memBlk 0).getD (0, 0)).1 State.reset) (.counterClear .jtag memBlk 0)
     (st [(MEM_CNT_CE_CE, 5), (MEM_CNT_MISC_RMW, 3)]) (fun t => t.get MEM_CNT_CE_CE == 0 && t.get MEM_CNT_MISC_RMW == 0),
   wit true (.counterClear .jtag ⟨.wrc, 2⟩ 0) State.reset (fun t => (t.chan 2).stage.length == 1),
   wit (!accessDead .jtag State.reset) (.tickCaptureRead .jtag 0 4) (at' (2 ^ 32 + 5)) (fun t =>
     captureOf .jtag t.tb.tickCap == 2 ^ 32 + 5 && t.view .jtag TMB_TICK_HI.base == 1 && captureOf .i2c t.tb.tickCap == 0),
   wit true (.todCaptureRead .i2c 0 4) { State.reset with tb := { tod := 2 ^ 33 } } (fun t =>
     captureOf .i2c t.tb.todCap == 2 ^ 33 && t.view .i2c TMB_TOD_HI.base == 2),
   wit (reaches .jtag TMB_TOD_CTL.base State.reset) (.todApplyWrite .jtag 2) (st [(TMB_TOD_SET_HI, 1), (TMB_TOD_SET_LO, 9)])
     (fun t => t.tb.todStaged == some (2 ^ 32 + 9) && t.tb.tod == 0),
   wit true (.todApplyWrite .jtag 0) (st [(TMB_TOD_SET_LO, 9)]) (fun t => t.tb.todStaged == none)]

theorem witness_access : wAccess.all id = true := by decide +kernel

/-- One latched write of each row, with the address it waits at. -/
def latched : List (Instr × Nat) :=
  [(.eqRestart .jtag 0 9 0x80, (sigF RDC_EQ_CTL 0 9).base), (.safeClr .jtag 0 0x40, (WRC_CTL.at 0).base),
   (.ttSwap .jtag 0 1, (SRV_CTL.at 0).base), (.loopSwap .jtag 0 6 0x100, ((LOOP_CTL.at 0).i 6).base),
   (.loopClose .jtag 0 0 1, ((LOOP_CTL.at 0).i 0).base), (.loopOpen .jtag 0 0 2, ((LOOP_CTL.at 0).i 0).base),
   (.loopHold .jtag 0 0 3, ((LOOP_CTL.at 0).i 0).base), (.loopRelease .jtag 0 0 4, ((LOOP_CTL.at 0).i 0).base),
   (.axisModeWrite .jtag 0 1 1, (axF AX_CTL 0 1).base), (.dirInvWrite .jtag 0 0 0x10000, (axF AX_CTL 0 0).base),
   (.axisAbort .jtag 0 0 0x100, (axF AX_CTL 0 0).base), (.homingStart .jtag 0 1 3, (axF AX_CTL 0 1).base),
   (.axisPush .jtag 0 1 1, (axF AX_QCMD 0 1).base), (.seekGo .jtag 0 0x80000000, (MOT_SEEK.at 0).base),
   (.spindleStart .jtag 0 1, (SPN_CTL.at 0).base), (.spindleBrake .jtag 0 2, (SPN_CTL.at 0).base),
   (.spindleCoast .jtag 0 3, (SPN_CTL.at 0).base), (.modeRequest .jtag 0 1, (DCM_CTL.at 0).base),
   (.profileRequest .jtag 0 0x100, (DCM_CTL.at 0).base), (.stopClr .jtag 0 0x80000000, (DCM_CTL.at 0).base),
   (.targetWrite .jtag 0 0, (DCM_TGT.at 0).base)]

/-- Witnesses of clauses of LatchedWritesWait, LastStagedWriteActs. -/
def wLatched : List Bool :=
  latched.map (fun (i, a) => wit (reaches .jtag a State.reset) i State.reset (fun t =>
    (t.chan 0).stage.map (·.addr) == [a] && t.regs == [] && (t.chan 1).stage == [])) ++
  [wit (reaches .jtag (DCM_ALLOW.at 0).base State.reset) (.allowWrite .jtag 0 3) (opened ⟨.dcm, 0⟩) (fun t =>
     (t.chan 0).stage.length == 1),
   wit true (.allowWrite .jtag 0 3) State.reset (fun t => (t.chan 0).stage.length == 0),
   let w : Staged := ⟨(DCM_TGT.at 0).base, 0x10, .jtag⟩; let v : Staged := ⟨(DCM_TGT.at 0).base, 0x20, .jtag⟩
   (regRow w.addr).isSome && (applyStaged [w, v] State.reset).get (DCM_TGT_BAND.at 0) == 2,
   (applyStaged [⟨(DCM_TGT.at 0).base, 0x10, .jtag⟩] State.reset).get (DCM_TGT_BAND.at 0) == 1]

theorem witness_latched : wLatched.all id = true := by decide +kernel

/-- Witnesses of clauses of LoopCommandsAct. -/
def wLoops : List Bool :=
  let a := ((LOOP_CTL.at 0).i 2).base
  let s := st [((BK_GAIN.at 0).i 2, 7)]
  let on := loopIn 0 2 1 s
  [(applyWrite .jtag a 0x100 {} s).getb ((LOOP_STAT_BANK.at 0).i 2) &&
     (applyWrite .jtag a 0x100 {} s).get ((BA_GAIN.at 0).i 2) == 7 && !(applyWrite .jtag a 0x100 {} s).getb ((LOOP_STAT_SWAP_RUN.at 0).i 2),
   (applyWrite .jtag a 0x100 {} on).getb ((LOOP_STAT_SWAP_RUN.at 0).i 2),
   ((applyWrite .jtag a 1 {} s).loop 0 2).closing && loopSt 0 2 (applyWrite .jtag a 1 {} s) == 0,
   loopSt 0 2 (applyWrite .jtag a 2 {} on) == 0 && loopSt 0 2 (applyWrite .jtag a 3 {} on) == 3 &&
     loopSt 0 2 (applyWrite .jtag a 4 {} (applyWrite .jtag a 3 {} on)) == 1]

theorem witness_loops : wLoops.all id = true := by decide +kernel


/-! ### The servo engine -/

/-- The shadow Timetable with the four routines every Timetable has (R247). -/
def timetable (s : State) : State :=
  [(1, 0, 100), (4, 100, 200), (3, 200, 300), (6, 300, 400)].zipIdx.foldl (fun s ((r, a, b), k) =>
    (s.wr ((TT_S0.at 0).i k).base (BitVec.ofNat 32 (a + b * 65536))).wr ((TT_S1.at 0).i k).base (BitVec.ofNat 32 (2 ^ 31 + r))) s

/-- Witnesses of clauses of TimetableSwaps. -/
def wTimetable : List Bool :=
  let a := (SRV_CTL.at 0).base
  let s := timetable (at' 65)
  let pend := fun s => st [(SRV_STAT_TT_PEND.at 0, 1)] s
  [(applyWrite .jtag a 1 {} (pend (at' 63))).getb (SRV_STAT_TT_PEND.at 0),
   let t := applyWrite .jtag a 1 {} State.reset
   !ttValid (readTt false 0 State.reset) && evt ⟨.srv, 0⟩ 6 t && !t.getb (SRV_STAT_TT_PEND.at 0),
   ttValid (readTt false 0 s) && (applyWrite .jtag a 1 {} s).getb (SRV_STAT_TT_PEND.at 0) &&
     !(applyWrite .jtag a 1 {} s).getb (SRV_STAT_TT_BANK.at 0),
   (applyWrite .jtag a 1 {} (at' 64 s)).getb (SRV_STAT_TT_BANK.at 0),
   wit (ttValid (readTt false 0 s)) (.ttSwapApply 0) (pend (at' 63 s)) (fun _ => true),
   wit true (.ttSwapApply 0) (pend (at' 63)) (fun _ => true)]

theorem witness_timetable : wTimetable.all id = true := by decide +kernel

/-- Changes of the servo engine of channel 0. -/
def srv (f : Srv → Srv) (s : State := State.reset) : State := s.onSrv 0 f

/-- The address unit of servo track 9, wedge 3, layer 2, with its parities (R134). -/
def addrBits : BitVec 28 := BitVec.ofNat 28 (9 * 8192 + 3 * 64 + 2 * 4 + 1)

/-- Its wobbles, wobble 0 the lowest bit: eight inverted, then 28 pairs, the last bit highest (R84). -/
def addrWord : BitVec 64 := 0x69a5aa9a6aaaaaff

/-- That address. -/
def addr9 : SaAddr := ⟨9, 3, 2⟩

/-- Witnesses of clauses of WobbleAndAddresses. -/
def wAddresses : List Bool :=
  let lock := fun (v : Srv) => { v with pllLocked := true }
  [unitBits addrWord == some addrBits && addrFields addrBits == some addr9 && addrUnit addrBits == addrWord,
   wit (lock {}).pllLocked (.wedgeBoundary 0 []) (srv lock) (fun t => (t.chan 0).rdc.restart.isEmpty &&
     (t.chan 0).dcm == nextWedge (srv lock |>.chan 0).dcm),
   wit (wedgeFollows {} 3) (.saAddress 0 addrWord none) (srv lock) (fun t => (t.chan 0).srv.addr == some addr9 &&
     (t.chan 0).srv.addrValid && t.get (SRV_STAT_LAYER.at 0) == 2 && (t.chan 0).dcm.wedge == 3 &&
     t.getb ((RDC_STAT_LOCK.at 0).i 8)),
   wit true (.saAddress 0 addrWord none) (srv (fun v => { lock v with step := .addrWait, expLayer := 2 })) (fun t =>
     (t.chan 0).srv.step == .settled && (t.chan 0).srv.jumpTo == none),
   wit true (.saAddress 0 addrWord none) (srv (fun v => { lock v with step := .slipWait })) (fun t => (t.chan 0).srv.step == .settled),
   wit true (.saAddress 0 addrWord none) (srv (fun v => { v with addrValid := true, invalidRun := 2 })) (fun t =>
     (t.chan 0).srv.holdover == some 5 && (t.chan 0).srv.invalidRun == 3 && !(t.chan 0).srv.addrValid),
   wit (unitBits 0xFF == none) (.saAddress 0 0xFF none) (srv (fun v => { lock v with holdover := some 2 })) (fun t =>
     (t.chan 0).srv.holdover == some 2),
   wit true (.wedgeBoundary 0 []) (srv (fun v => { v with holdover := some 2 })) (fun t => (t.chan 0).srv.holdover == some 1 &&
     (t.chan 0).dcm == nextWedge (State.reset.chan 0).dcm),
   wit (!wedgeFollows { wedgeKnown := true, wedgeNext := 4 } 3) (.saAddress 0 addrWord none)
     (srv (fun v => { lock v with wedgeKnown := true, wedgeNext := 4 })) (fun t =>
     (t.chan 0).srv.invalidRun == 1 && (t.chan 0).srv.holdover == none),
   wit true (.wobbleReadStop 0) (srv (fun v => { v with holdover := some 0, wedgeKnown := true })) (fun t =>
     (t.chan 0).srv.holdover == none && !(t.chan 0).srv.wedgeKnown && t.get (SRV_CNT_REC_BEAM_LOSSES.at 0) == 1),
   wit true (.wobblePllLock 0 77) State.reset (fun t => (t.chan 0).srv.pllLocked && (t.chan 0).srv.pllFreq == 77),
   wit true (.wobblePllLockLoss 0) (srv lock) (fun t => !(t.chan 0).srv.pllLocked && (t.chan 0).srv.holdover == some 5)]

theorem witness_addresses : wAddresses.all id = true := by decide +kernel

/-- Witnesses of clauses of AcquireAdvances. -/
def wAcquire : List Bool :=
  let cross := fun (v : Srv) => { v with feCross := true, teCross := true, s := 8192 }
  [wit true (.routineOverrun 0) (srv (fun v => { v with cuts := [33, 2] })) (fun t => (t.chan 0).srv.cuts == [2] &&
     t.get (SRV_STAT_OVR_SLOT.at 0) == 1 && evt ⟨.srv, 0⟩ 1 t && flt 1 0 State.reset t),
   wit true (.holdResume 0) (srv (fun v => { v with holding := true, goodTicks := 2 })
     ((loopIn 0 1 3).onLoop 0 1 (fun h => { h with heldFrom := 1 }))) (fun t => !(t.chan 0).srv.holding && loopSt 0 1 t == 1),
   wit true (.focusCapture 0) (srv (fun v => { cross v with step := .sweep true }) (at' 9)) (fun t =>
     (t.chan 0).srv.step == .focusClose && (t.chan 0).srv.stepTick == 9 && (t.loop 0 0).closing),
   wit true (.focusCapture 0) (srv (fun v => { cross v with step := .jumpCapture, stepTick := 5 }) (at' 405)) (fun t =>
     (t.chan 0).srv.step == .trackWait),
   wit true (.focusSweepEnd 0) (srv (fun v => { v with step := .sweep false, sweepPos := 24576, sweeps := 2 })) (fun t =>
     (t.chan 0).srv.step == .sweep false && (t.chan 0).srv.sweeps == 3),
   wit true (.focusSweepEnd 0) (srv (fun v => { v with step := .sweep false, sweepPos := 24576, sweeps := 3 })) (fun t =>
     (t.chan 0).srv.step == .idle && (t.chan 0).srv.acqFailed),
   wit true (.trackCapture 0) (srv (fun v => { cross v with step := .trackWait, teGap := 65535 })) (fun t =>
     (t.chan 0).srv.step == .trackClose && (t.loop 0 1).closing && (t.loop 0 3).closing),
   wit true (.trackCapture 0) (srv (fun v => { cross v with step := .focusClose, teGap := 65535 })
     (st [(SRV_STAT_FOCUS_LOCK.at 0, 1)])) (fun t => (t.chan 0).srv.step == .trackClose),
   wit true (.acquireAddressTimeout 0) (srv (fun v => { v with step := .addrWait, wedges := 8 })
     (st [(SRV_REC_REC_TRIES.at 0, 3), (SRV_STAT_ATTEMPT.at 0, 1)])) (fun t => (t.chan 0).srv.wedges == 0 &&
     t.get (SRV_STAT_ATTEMPT.at 0) == 2)]

theorem witness_acquire : wAcquire.all id = true := by decide +kernel

/-- Witnesses of clauses of JumpsAndRecoveries. -/
def wRecoveries : List Bool :=
  let drop := fun s => srv (fun v => { v with holding := true, holdTicks := 65535 }) s
  [wit true (.layerJumpCorrectorDone 0) (srv (fun v => { v with step := .jumpCorr }) (st [(axF AX_STAT_AT_TARGET 0 1, 1)]))
     (fun t => (t.chan 0).srv.step == .jumpProfile && loopSt 0 0 t == 0 && (t.loop 0 0).openRun.isSome),
   let s := srv (fun v => { v with step := .jumpProfile })
     ((at' 1000).onLoop 0 0 (fun h => { h with openRun := some (Run.mk' 0 (jumpLimits 0 State.reset) 0 0) }))
   wit (((s.loop 0 0).openRun.map (fun r => r.ended 1000)) == some true) (.layerJumpProfileEnd 0) s (fun t =>
     (t.chan 0).srv.step == .jumpCapture && (t.loop 0 0).openRun.isNone && (t.loop 0 0).openHeld == some 0),
   wit true (.layerJumpCaptureTimeout 0) (srv (fun v => { v with step := .jumpCapture }) (at' 401)) (fun t =>
     (t.chan 0).srv.step == .recOpen && t.get (SRV_STAT_RECOVERY.at 0) == 1 && t.get (SRV_STAT_ATTEMPT.at 0) == 1),
   wit (focusDropNow 0 (drop State.reset)) (.focusDrop 0) (drop State.reset) (fun t => t.get (SRV_CNT_LOCK_FOCUS_DROPS.at 0) == 1 &&
     t.get (SRV_STAT_RECOVERY.at 0) == 1 && (t.chan 0).srv.step == .recOpen && t.getb (DCM_STAT_TRANSFER_WAIT.at 0) &&
     evt ⟨.srv, 0⟩ 2 t && flt 2 0 State.reset t),
   let s := drop (st [(SRV_STAT_RECOVERY.at 0, 1)])
   wit (focusDropNow 0 s) (.focusDrop 0) s (fun t => t.get (SRV_CNT_LOCK_FOCUS_DROPS.at 0) == 1 &&
     t.get (SRV_STAT_RECOVERY.at 0) == 1 && !evt ⟨.srv, 0⟩ 2 t),
   let s := srv (fun v => { v with saLow := 65535 }) (st [(SRV_STAT_SB_OK.at 0, 1)])
   wit (beamLossNow 0 s && !focusDropNow 0 s) (.servoBeamLoss 0) s (fun t => t.get (SRV_STAT_RECOVERY.at 0) == 3 &&
     evt ⟨.srv, 0⟩ 4 t && flt 4 0 s t && t.get (SRV_CNT_REC_BEAM_LOSSES.at 0) == 1),
   let s := srv (fun v => { v with sbLow := 65535 }) (st [(SRV_STAT_SA_OK.at 0, 1), (SRV_STAT_RECOVERY.at 0, 2)])
   wit (beamLossNow 0 s && !focusDropNow 0 s) (.servoBeamLoss 0) s (fun t => t.get (SRV_STAT_RECOVERY.at 0) == 4),
   let s := srv (fun v => { v with slipSeen := true })
   wit (trackSlipNow 0 s && !beamLossNow 0 s) (.trackSlip 0) s (fun t => t.get (SRV_STAT_RECOVERY.at 0) == 2 &&
     (t.chan 0).srv.step == .slipWait && evt ⟨.srv, 0⟩ 3 t && flt 3 0 State.reset t),
   let s := srv (fun v => { v with oneBeam := some true, bothOk := 24000 })
     ((st [(SRV_STAT_RECOVERY.at 0, 3)]).onDcm 0 (fun d => { d with rpmSet := 1000 }))
   wit (decide (revTicks 0 s ≤ 24000)) (.oneBeamEnd 0) s (fun t => (t.chan 0).srv.oneBeam == none &&
     t.get (SRV_STAT_RECOVERY.at 0) == 0),
   let s := srv (fun v => { v with step := .slipWait, wedges := 255 })
     (st [(SRV_STAT_RECOVERY.at 0, 2), (SRV_STAT_ATTEMPT.at 0, 1), (SRV_REC_REC_TRIES.at 0, 3)] (at' 10000000))
   wit (attemptExpired 0 s) (.recoveryAttemptTimeout 0) s (fun t => t.get (SRV_STAT_RECOVERY.at 0) == 2 &&
     (t.chan 0).srv.step == .slipWait && (t.chan 0).srv.recTick == 10000000),
   wit true (.recoveryDone 0) (srv (fun v => { v with step := .settled, addrValid := true, addr := some addr9, expTrack := 9, expLayer := 2 })
     (st [(SRV_STAT_RECOVERY.at 0, 5), (SRV_STAT_TRACK_LOCK.at 0, 1)])) (fun t => t.get (SRV_STAT_RECOVERY.at 0) == 0 &&
     (t.chan 0).srv.step == .settled)]

theorem witness_recoveries : wRecoveries.all id = true := by decide +kernel


/-! ### Motion, spindle and mode writes -/

/-- Witnesses of clauses of AxisAndSeekWritesAct, the axes. -/
def wAxes : List Bool :=
  let q := (axF AX_QCMD 0 1).base
  let k := (axF AX_CTL 0 1).base
  let homed := st [(axF AX_STAT_HOMED 0 1, 1)]
  let move : Move := { target := 0, set := 0, noblend := false }
  let moving := (st [(axF AX_STAT_MODE_NOW 0 1, 1)] homed).onAxis 0 1 (fun a => { a with queue := [move] })
  let fast := moving.onAxis 0 1 (fun a => { a with vel := 5 })
  [let t := applyWrite .jtag q 1 {} State.reset
   pushRefused 0 1 1 State.reset && (t.axis 0 1).queue.isEmpty && evt ⟨.mot, 0⟩ 2 t && t.get (axF AX_CNT_REFUSED 0 1) == 1,
   let t := applyWrite .jtag q 0x15 {} homed
   !pushRefused 0 1 0x15 homed && (t.axis 0 1).queue == [{ target := 0, set := 1, noblend := true }] &&
     t.get (axF AX_STAT_QCOUNT 0 1) == 1 && !t.getb (axF AX_STAT_AT_TARGET 0 1),
   let t := applyWrite .jtag k 0x101 {} fast
   (t.axis 0 1).queue.isEmpty && (t.axis 0 1).aborting && (t.axis 0 1).vel == 5 && axMode 0 1 t == 1 &&
     !t.getb (axF AX_STAT_AT_TARGET 0 1),
   let t := applyWrite .jtag k 0x101 {} moving
   (t.axis 0 1).queue.isEmpty && !(t.axis 0 1).aborting && axMode 0 1 t == 1,
   !(applyWrite .jtag k 0x10000 {} homed).getb (axF AX_STAT_HOMED 0 1),
   let t := applyWrite .jtag k 3 {} homed
   axMode 0 1 t == 3 && t.get (axF AX_STAT_HOME_PHASE 0 1) == 1 && !t.getb (axF AX_STAT_HOMED 0 1),
   (applyWrite .jtag k 3 {} (st [(axF AX_STAT_HOME_IN 0 1, 1)])).get (axF AX_STAT_HOME_PHASE 0 1) == 2,
   axMode 0 1 (applyWrite .jtag k 1 {} State.reset) == axMode 0 1 State.reset,
   let t := applyWrite .jtag k 2 {} moving
   axMode 0 1 t == 1 && (t.axis 0 1).modePend == some 2,
   (let t := applyWrite .jtag k 1 {} (moving.onAxis 0 1 (fun a => { a with modePend := some 2 })); (t.axis 0 1).modePend == none),
   axMode 0 1 (applyWrite .jtag k 2 {} homed) == 2]

theorem witness_axes : wAxes.all id = true := by decide +kernel

/-- Witnesses of clauses of AxisAndSeekWritesAct, the seeks. -/
def wSeeks : List Bool :=
  let a := (MOT_SEEK.at 0).base
  let cores := st [(HLT_SB_CORES_RUN, 1)]
  let s := loopIn 0 1 1 (st [(axF AX_STAT_HOMED 0 0, 1), (axF AX_MAXPOS_MAX_POS 0 0, 2000000)] cores)
  [!coresRun State.reset && ((applyWrite .jtag a 0x80000040 {} State.reset).chan 0).mot.seekWait == some 64,
   let t := applyWrite .jtag a 0x80000001 {} cores
   coresRun cores && seekRefused 0 1 cores && evt ⟨.mot, 0⟩ 2 t && t.get (MOT_SEEK_KIND.at 0) == 0,
   let t := applyWrite .jtag a 0x80000040 {} s
   !seekRefused 0 64 s && loopSt 0 1 t == 4 && t.get (MOT_SEEK_KIND.at 0) == 1 && (t.chan 0).mot.seekDelta == 64,
   let t := applyWrite .jtag a 0x80000041 {} s
   !seekRefused 0 65 s && loopSt 0 1 t == 4 && t.get (MOT_SEEK_KIND.at 0) == 2 && t.getb (DCM_STAT_TRANSFER_WAIT.at 0) &&
     axMode 0 0 t == 1 && (t.axis 0 0).queue == [{ target := longTarget 0 65 s, set := 0, noblend := true, seek := true }]]

theorem witness_seeks : wSeeks.all id = true := by decide +kernel

/-- A spindle whose four tables are set, in a state of its controller. -/
def spinning (n : Nat) (s : State := State.reset) : State :=
  st [(SPN_STAT_STATE.at 0, n), (SPN_IND_IND.at 0, 1), (SPN_IND_PSI_M.at 0, 1), (SPN_FREF_PSI_REF.at 0, 1),
    (SPN_TORQ_TMAX.at 0, 1)] s

/-- Witnesses of clauses of SpindleCommandsAct. -/
def wSpindleWrites : List Bool :=
  let a := (SPN_CTL.at 0).base
  let low := { State.reset with pwr := { pwrfailLow := true } }
  [let t := applyWrite .jtag a 1 {} (spinning 0 low)
   spnHolds 0 low && (t.chan 0).spn.held == some 1 && spnSt 0 t == 0,
   ((applyWrite .jtag a 2 {} (spinning 4 low)).chan 0).spn.held == some 2,
   let t := applyWrite .jtag a 1 {} (spinning 0)
   spnSt 0 t == 1 && t.get (SPN_STAT_ATTEMPT.at 0) == 1,
   let t := applyWrite .jtag a 1 {} (spinning 4)
   spnSt 0 t == 4 && evt ⟨.spn, 0⟩ 3 t,
   let t := applyWrite .jtag a 2 {} (spinning 4)
   spnSt 0 t == 8 || spnSt 0 t == 9,
   spnSt 0 (applyWrite .jtag a 3 {} (spinning 4)) == 10,
   haltCleared 0 State.reset && spnSt 0 (applyWrite .jtag a 3 {} (spinning 12)) == 10]

theorem witness_spindleWrites : wSpindleWrites.all id = true := by decide +kernel

/-- Witnesses of clauses of ModeWritesAct. -/
def wModeWrites : List Bool :=
  let a := (DCM_CTL.at 0).base
  let req := fun n s => st [(DCM_CTL_MODE_REQ.at 0, n)] s
  [let t := applyWrite .jtag a 4 {} State.reset
   requestRefused 0 4 false State.reset && t.get (DCM_CTL_MODE_REQ.at 0) == 0 && t.get (DCM_ERR_CAUSE.at 0) == 1 &&
     evt ⟨.dcm, 0⟩ 2 t,
   let t := applyWrite .jtag a 0x14 {} State.reset
   !requestRefused 0 4 true State.reset && t.get (DCM_CTL_MODE_REQ.at 0) == 4 && t.get (DCM_STAT_HEADING.at 0) == 4,
   !(applyWrite .jtag a 0x80000001 {} (st [(DCM_STAT_STOPPED.at 0, 1)] (req 1 State.reset))).getb (DCM_STAT_STOPPED.at 0),
   (applyWrite .jtag a 0x80000000 {} ((st [(DCM_STAT_STOPPED.at 0, 1)]).onDcm 0 (fun d => { d with stopCause := 10 }))).getb
     (DCM_STAT_STOPPED.at 0),
   let t := applyWrite .jtag a 0x200 {} State.reset
   t.get (DCM_CTL_PROFILE_REQ.at 0) == 2 && (wantProfile 0 t == t.profile 0 || (t.chan 0).dcm.profPend),
   let t := applyWrite .jtag (DCM_TGT.at 0).base (BitVec.ofNat 32 (18880 * 16)) {} State.reset
   t.get (DCM_TGT_BAND.at 0) == 0 && t.get (DCM_ERR_CAUSE.at 0) == 1 && evt ⟨.dcm, 0⟩ 2 t,
   let t := applyWrite .jtag (DCM_TGT.at 0).base (BitVec.ofNat 32 (18879 * 16 + 15)) {} State.reset
   t.get (DCM_TGT_BAND.at 0) == 18879 && t.get (DCM_TGT_LAYER.at 0) == 15,
   let t := applyWrite .jtag (DCM_ALLOW.at 0).base 3 {} State.reset
   t.get (DCM_ALLOW_SPRINT.at 0) == 1 && (wantProfile 0 t == wantProfile 0 State.reset || evt ⟨.dcm, 0⟩ 4 t),
   let t := applyWrite .jtag (DCM_ALLOW.at 0).base 0 {} (applyWrite .jtag (DCM_ALLOW.at 0).base 3 {} State.reset)
   evt ⟨.dcm, 0⟩ 4 t,
   let t := applyWrite .jtag (sigF RDC_EQ_CTL 0 9).base 0x80 {} State.reset
   (t.chan 0).rdc.restart.contains 9 && t.getb (sigF RDC_EQ_CTL_RESTART 0 9),
   let s := at' 4000 (st [(WRC_STAT_LSAFE.at 0, 1)])
   safeClrActs 0 s != (applyWrite .jtag (WRC_CTL.at 0).base 0x40 {} s).getb (WRC_STAT_LSAFE.at 0),
   let s := st [(WRC_STAT_LSAFE.at 0, 1)]
   !safeClrActs 0 s && (applyWrite .jtag (WRC_CTL.at 0).base 0x40 {} s).getb (WRC_STAT_LSAFE.at 0)]

theorem witness_modeWrites : wModeWrites.all id = true := by decide +kernel


/-! ### Writes that act at once -/

/-- Rings 0 and 1 belong to function 0, its admin ring and an I/O ring, in a state. -/
def rings (n : Nat) (s : State := State.reset) : State :=
  st [(HQE_FRINGf_COUNT.i 0, 2), (RC_STAT_STATE.i 0, n), (RC_STAT_STATE.i 1, n)] s

/-- Witnesses of clauses of HostRegistersAct. -/
def wHostWrites : List Bool :=
  let j := Origin.jtag
  [wit (reaches j HLK_CTL.base State.reset) (.cfgReadyWrite j 2) State.reset (fun t =>
     bitOf 1 (t.rd HLK_CTL.base).toNat && !bitOf 0 (t.rd HLK_CTL.base).toNat && (t.host.ports[(1 : Two)]).subsys == t.rd HLK_SUBSYS.base),
   wit true (.cfgReadyWrite j 0) (st [({ HLK_CTL with hi := 1, lo := 0 }, 1)]) (fun t => bitOf 0 (t.rd HLK_CTL.base).toNat),
   wit (assignOk 63 0x00803F80 State.reset && reaches j (HQE_FRINGf.i 63).base State.reset) (.ringAssignWrite j 63 0x00803F80)
     State.reset (fun t => t.get (HQE_FRINGf_BASE.i 63) == 0x3F80 && t.get (HQE_FRINGf_COUNT.i 63) == 128),
   wit (!assignOk 1 0x00020001 (rings 1)) (.ringAssignWrite j 1 0x00020001) (rings 1) (fun t =>
     t.get (HQE_FRINGf_COUNT.i 1) == 256 && evt hqeBlk 3 t),
   wit (ringOwner 1 (rings 3) == some 0 && targetOf (ringAddr j 1 0x0C (rings 3)) (rings 3) == .reg (RC_CTL.i 1).base)
     (.ringEnable j 1 1) (st [(RC_PTR_HEAD.i 1, 5)] (rings 3)) (fun t => ringState 1 t == 1 && t.get (RC_PTR_HEAD.i 1) == 0 &&
     t.get (RC_PTR_PASS.i 1) == 1),
   wit true (.ringShutdown j 1 2) (rings 4) (fun t => ringState 1 t == 2),
   wit (targetOf (ringAddr (.fn 0) 1 0x0C (rings 1)) (rings 1) == .reg (RC_CTL.i 1).base) (.ringShutdown (.fn 0) 1 2) (rings 1)
     (fun t => ringState 1 t == 2),
   wit (isAdminRing 0 (rings 1)) (.evqEnable j 0 1) (rings 1) (fun t => t.get (RC_EVQ_PTR_EVQ_TAIL.i 0) == 0 &&
     (t.hfn 0).evSeq == 1 && (t.hfn 0).evPhase)]

theorem witness_hostWrites : wHostWrites.all id = true := by decide +kernel

/-- Witnesses of clauses of CacheCommandsAct. -/
def wCacheWrites : List Bool :=
  let j := Origin.jtag
  let line : CLine := { line := 1, way := 2, dirty := true }
  let s := (st [(MCA_OP_LEN_LINES, 3)]).onMca (fun m => { m with lines := [line] })
  [wit (!opRangeOk (2 ^ 26) 1 (st [(MCA_ADDR_HI_ADDR, 1)])) (.mcaPreload j 0x95000000) (st [(MCA_ADDR_HI_ADDR, 1)]) (fun t =>
     t.get MCA_OP_RESULT == 1 && evt mcaBlk 3 t && t.mca.lines.isEmpty),
   wit (opRangeOk 0 3 s) (.mcaPreload j 0x95000000) s (fun t => t.get MCA_OP_RESULT == 0 && t.mca.loaded == [5] &&
     (List.range 3).all (fun l => (lineAt l t.mca.lines).map (·.way) == some 5)),
   wit true (.mcaInvalidate j 0xA0000000) s (fun t => evt mcaBlk 3 t && (lineAt 1 t.mca.lines).isNone),
   wit true (.mcaWriteback j 0xB0000000) s (fun t => t.mca.lines.all (fun k => !k.dirty)),
   wit true (.mcaLockWrite j 2) (s.onMca (fun m => { m with loaded := [1] })) (fun t => t.get MCA_WAY_LOCK == 2),
   wit true (.mcaLockWrite j 2) State.reset (fun t => t.get MCA_WAY_LOCK == 0 && evt mcaBlk 2 t),
   wit true (.mcaLockWrite j 0) (st [(MCA_WAY_LOCK, 2)]) (fun t => t.get MCA_WAY_LOCK == 0)]

theorem witness_cacheWrites : wCacheWrites.all id = true := by decide +kernel

/-- Witnesses of clauses of MemoryCommandsAct. -/
def wMemoryWrites : List Bool :=
  let j := Origin.jtag
  let s := opened memBlk
  let full := dramEncode 7 ((zeros 64).set 3 9)
  [wit (reaches j SEA_INJ.base State.reset) (.sealInjectArm j 0x80000004) (opened ⟨.sea, 0⟩) (fun t => t.getb SEA_INJ_ARM &&
     t.get SEA_INJ_POINT == 4),
   wit (!remapRefused 15 0x80000007 s) (.remapWrite j 15 0x80000007) s (fun t => t.get (MEM_REMAPk_LINE.i 15) == 7 &&
     t.getb (MEM_REMAPk_VALID.i 15) && t.mem.copying == some 15 && t.getb MEM_STAT_COPY_BUSY && t.fls.remaps == [7]),
   wit (remapRefused 0 0x9FFFFFFF s) (.remapWrite j 0 0x9FFFFFFF) s (fun t => !t.getb (MEM_REMAPk_VALID.i 0)),
   wit true (.sramModeWrite j false 5) s (fun t => t.rd MEM_SRAM_MODE_LO.base == 5),
   wit true (.sramModeWrite j false 5) (st [(MEM_REPAIR_SRAM_SEAL, 1)] s) (fun t => t.rd MEM_SRAM_MODE_LO.base == 0),
   wit true (.sramModeWrite j true 5) (st [(MEM_REPAIR_SRAM_SEAL, 1)] s) (fun t => t.rd MEM_SRAM_MODE_HI.base == 0),
   wit true (.sramSeal j 0x103) s (fun t => t.getb MEM_REPAIR_SRAM_SEAL && t.get MEM_REPAIR_REMAP_THR == 3),
   wit true (.sramInjectArm j 0x802B0000) s (fun t => t.getb MEM_SRAM_INJ_ARM && t.get MEM_SRAM_INJ_ARRAY == 43),
   wit true (.testRawRead j 5) (st [(MEM_TADDR_LINE, 7)] (dramPut 7 full s)) (fun t => t.getb MEM_TSTAT_DONE &&
     t.get (MEM_TDATAn.i 0) == 0x09000000 && t.get (MEM_TCHKn.i 3) == field full 76 4),
   wit true (.testRawWrite j 6) (st [(MEM_TADDR_LINE, 7), (MEM_TDATAn.i 15, 3)] s) (fun t => t.getb MEM_TSTAT_DONE &&
     (dramGet 7 t).getD 60 0 == 3 && (dramGet 7 t).getD 79 0 == 0),
   wit true (.testEncodedWrite j 7) (st [(MEM_TADDR_LINE, 7), (MEM_TDATAn.i 0, 0x09000000)] s) (fun t => dramGet 7 t == full)]

theorem witness_memoryWrites : wMemoryWrites.all id = true := by decide +kernel

/-- Witnesses of clauses of FlashCommandsAct. -/
def wFlashWrites : List Bool :=
  let j := Origin.jtag
  let core := Origin.core 0
  let s := opened flsBlk (st [(FLS_STAT_SCAN_DONE, 1), (FLS_ADDRb_ADDR.i 1, 0x80005)])
  let addr := fun n s => st [(FLS_ADDRb_ADDR.i 1, n)] s
  let data := st [(FLS_DATAb_n_DATA.ij 1 0, 7), (FLS_DATAb_n_DATA.ij 1 3, 1)] s
  [wit (wordBank (cmdWord 1 s) == 1 && mayReadFlash j (cmdWord 1 s) s && !readBusy (cmdWord 1 s) s) (.flashRead j 1 1 [4])
     (flashPut 0x80005 99 s) (fun t => t.get (FLS_RESb_STATUS.i 1) == 0x0D && t.get (FLS_DATAb_n_DATA.ij 1 0) == 99 && evt flsBlk 2 t),
   wit (mayWriteFlash core (cmdWord 1 s) s && !fetchGuard 1 s && programOk (cmdWord 1 data) (cmdData 1 data) data)
     (.flashProgram core 1 2) data (fun t => bankState 1 t == 1 && (t.fbank 1).prog == some (0x80005, 7 + 2 ^ 96)),
   wit (!programOk 0x80005 (cmdData 1 s) (flashPut 0x80005 99 s)) (.flashProgram core 1 2) (flashPut 0x80005 99 s) (fun t =>
     t.get (FLS_RESb_STATUS.i 1) == 2 && bankState 1 t == 0),
   wit (fetchGuard 0 s) (.flashProgram core 0 2) s (fun t => t.get (FLS_RESb_STATUS.i 0) == 3 && bankState 0 t == 0),
   wit (mayWriteFlash j 0xFFFFF s) (.flashErase j 1 3) (addr 0xFFFFF s) (fun t => (t.fbank 1).erasing == some 511 &&
     bankState 1 t == 2 && t.fls.flags == [511]),
   wit true (.flashSuspend core 1 4) (at' 400 (st [(FLS_RESb_STATE.i 1, 2)] s)) (fun t => (t.fbank 1).accepted && bankState 1 t == 2),
   wit true (.flashSuspend core 1 4) (at' 399 (st [(FLS_RESb_STATE.i 1, 2)] s)) (fun t => !(t.fbank 1).accepted &&
     t.getb (FLS_RESb_SUSP_PEND.i 1)),
   wit true (.flashResume core 1 5) (at' 9 (st [(FLS_RESb_STATE.i 1, 3)] s)) (fun t => bankState 1 t == 2 &&
     (t.fbank 1).runSince == 9 && t.get (FLS_RESb_STATUS.i 1) == 0),
   wit (reaches j FLS_DIVERT.base s) (.fetchDivertWrite j 1) s (fun t => t.getb FLS_STAT_DIVERTED),
   wit (fetchBankIdle s) (.fetchDivertWrite j 0) (st [(FLS_STAT_DIVERTED, 1)] s) (fun t => !t.getb FLS_STAT_DIVERTED)]

theorem witness_flashWrites : wFlashWrites.all id = true := by decide +kernel

/-- Witnesses of clauses of HealthAndRecorderWritesAct. -/
def wHealthWrites : List Bool :=
  let j := Origin.jtag
  let area : LogArea := { change := [], event := [], viol0 := [], viol1 := [] }
  let s := (st [(DCM_STAT_WRITE_BLOCK.at 5, 1)]).onHlt (fun h => { h with classes := [{ cls := 15, inst := 5, count := 2, lasting := true }] })
  [wit (reaches j HLT_CLR.base s) (.hltClr j 0x50F) s (fun t => t.hlt.classes.all (fun k => !k.lasting && k.count == 0) &&
     !t.getb (DCM_STAT_WRITE_BLOCK.at 5) && t.hlt.eventLog.next == 1),
   wit true (.hltClr j 0xF0F) s (fun t => !t.getb (DCM_STAT_WRITE_BLOCK.at 5)),
   wit true (.hltClr j 0xF00) s (fun t => t.hlt.classes == s.hlt.classes),
   wit (reaches j HLT_CTL.base s) (.logEnable j 1 area) s (fun t => t.hlt.joined && t.getb HLT_CTL_LOG_EN),
   wit true (.trigWrite j 1 []) (at' 9 (st [(TMB_REC_STAT_RUN, 1)])) (fun t => t.getb TMB_REC_STAT_TRIGGERED && t.rcd.area.trigTick == 9),
   wit (!prepOk 5 State.reset && reaches j TMB_REPLAY.base State.reset) (.replayPrep j 0x80000500) State.reset (fun t =>
     t.getb TMB_REPLAY_CHECK_FAIL && !t.getb TMB_REPLAY_READY),
   wit (busBraking 0 (spinning 8)) (.chopClr j 0 2) (st [(vmF VMB_STATx_CHOPPER_FAULT 0, 1)] (spinning 8)) (fun t =>
     t.getb (vmF VMB_STATx_CHOPPER_FAULT 0)),
   wit (!busBraking 1 State.reset) (.chopClr j 1 2) (st [(vmF VMB_STATx_CHOPPER_FAULT 1, 1), (vmF VMB_STATx_FAULT_CAUSE 1, 3)])
     (fun t => !t.getb (vmF VMB_STATx_CHOPPER_FAULT 1) && t.get (vmF VMB_STATx_FAULT_CAUSE 1) == 0)]

theorem witness_healthWrites : wHealthWrites.all id = true := by decide +kernel


/-! ### The read channel and the write channel -/

/-- Changes of the read channel and of the write channel of channel 0. -/
def rdc (f : Rdc → Rdc) (s : State) : State := s.onRdc 0 f
/-- Changes of the write channel of channel 0. -/
def wrc (f : Wrc → Wrc) (s : State) : State := s.onWrc 0 f

/-- A tile slot in the data region of layer 0, zone 0. -/
def pos0 : TilePos := ⟨0, 0, 0, 5⟩
/-- That tile slot as it begins to be read. -/
def tile0 : TileRead := { pos := pos0, reading := true, wedges := 1 }
/-- It is being read. -/
def reading (s : State := State.reset) : State := rdc (fun r => { r with tile := some tile0 }) s
/-- The data signals powered, undelayed, and a target of one tap. -/
def listens (s : State := State.reset) : State :=
  (List.range 8).foldl (fun s g => (s.putb (sigF RDC_AFE_INPUT_EN 0 g) true).put (sigF RDC_ALIGN_DELAY 0 g) 0)
    (st [(DET_TARGET.at 0, 64 * 65536 + 1)] s)
/-- Samples that show a pattern of 48 channel bits whose first bit leaves the equaliser at a time, after bits unlike it. -/
def syncAt (pat : Nat) (t : Int) : Samples :=
  let x := (List.range 48).map (fun k => if bitOf (47 - k) pat then (64 : Int) else -64)
  ⟨t - 35, (x.take 28).map (- ·) ++ x⟩
/-- What a wedge-sync window delivers: a sync at a distance from its prediction, and what WN and LZ read after it. -/
def wsync (d : Int) (wn lz : Nat) : WedgeSyncIn :=
  { adc := syncAt wedgePat (64 + d), names := [(d, BitVec.ofNat 8 wn, BitVec.ofNat 8 lz)], phaseErr := [], lead := none }

/-- Witnesses of clauses of SyncsAndDefects, wedge syncs and defects. -/
def wSyncs : List Bool :=
  let narrow := fun (s : State) => s.onSig 0 3 (fun g => { g with wide := false })
  let lost := st [(sigF RDC_STAT_FLY_LOST 0 3, 1)] listens
  let open' := fun g (s : State) => s.onSig 0 g (fun k => { k with spans := [⟨4, none⟩] })
  let ref := fun g s => st [(sigF RDC_STAT_ENV_REF 0 g, 200)] s
  let flat := List.replicate 32 (0 : Int)
  let high := List.replicate 47 [(-100 : Int), 100] |>.flatten
  [wit (nearest (wedgeSyncs 0 3 (wsync (-24) (wnByte 0) (lzByte 0 (zoneOfBand 0 0))) (narrow lost)) == some (-24)) (.wedgeSync 0 3
     (wsync (-24) (wnByte 0) (lzByte 0 (zoneOfBand 0 0)))) (narrow lost) (fun t => !t.getb (sigF RDC_STAT_FLY_LOST 0 3) &&
     !(t.sig 0 3).wide && (t.sig 0 3).wref == -24),
   wit true (.wedgeSync 0 3 (wsync 64 (wnByte 0) (lzByte 0 (zoneOfBand 0 0)))) (lost.onSig 0 3 (fun g => { g with wide := true }))
     (fun t => !(t.sig 0 3).wide && (t.sig 0 3).inserted == 0 && (t.sig 0 3).wref == 64),
   wit true (.wedgeSync 0 3 (wsync 25 (wnByte 0) (lzByte 0 (zoneOfBand 0 0)))) (narrow listens) (fun t =>
     t.get (sigF RDC_CNT_WEDGE_WSYNC_MISS 0 3) == 1 && (t.sig 0 3).wref == 0),
   wit true (.wedgeSync 0 3 (wsync 0 (wnByte 1) (lzByte 0 (zoneOfBand 0 0)))) (narrow listens) (fun t =>
     t.get (sigF RDC_CNT_WEDGE_WSYNC_MISS 0 3) == 1),
   wit (!spanOpen 0 3 State.reset) (.defectSpanStart 0 3 40 flat) (ref 3 State.reset) (fun t => spanOpen 0 3 t && t.getb (sigF RDC_STAT_DEFECT 0 3) &&
     t.get (DET_CNT_MISC_DEFECT_SPANS.at 0) == 1),
   let s := open' 3 (ref 3 State.reset)
   wit (upperRun 0 3 s high.length high == 63) (.defectSpanEnd 0 3 99 high) s (fun t => spanOpen 0 3 t),
   let s := open' 3 (ref 3 State.reset)
   wit (upperRun 0 3 s 95 (100 :: high) == 64) (.defectSpanEnd 0 3 99 (100 :: high)) s (fun t => !spanOpen 0 3 t),
   wit (isDropout 0 9 (sumLevel flat) (ref 9 State.reset)) (.dropoutStart 0 true 4 flat) (ref 9 State.reset) (fun t => spanOpen 0 9 t &&
     t.getb (sigF RDC_STAT_DEFECT 0 9)),
   wit (!isDropout 0 8 255 (ref 8 State.reset)) (.dropoutEnd 0 false 9 (List.replicate 32 255)) (open' 8 (ref 8 State.reset)) (fun t => !spanOpen 0 8 t)]

theorem witness_syncs : wSyncs.all id = true := by decide +kernel

/-- Witnesses of clauses of SyncsAndDefects, sector syncs. -/
def wSectors : List Bool :=
  let slot := fun k (t : State) => ((t.chan 0).rdc.tile.map (fun r => r.slots.getD k {})).getD {}
  let lost := st [(sigF RDC_STAT_FLY_LOST 0 3, 1)] listens
  [wit true (.sectorSync 0 3 2 (syncAt sectorPat 0)) (reading lost) (fun t => (slot 19 t).st == .erased 4),
   wit ((State.reset.sig 0 7).wref == 0) (.sectorSync 0 7 7 (syncAt sectorPat 16)) (reading listens) (fun t =>
     (slot 63 t).sync == 1 && (slot 63 t).syncD == 16 && (t.sig 0 7).wref == 0),
   wit true (.sectorSync 0 0 0 (syncAt sectorPat (-1))) (reading listens) (fun t => (slot 0 t).sync == 0 && (slot 0 t).syncD == -1 &&
     (t.sig 0 0).wref == -1),
   wit true (.sectorSync 0 0 0 (syncAt sectorPat 17)) (reading listens) (fun t => (slot 0 t).sync == 2 &&
     t.get (sigF RDC_CNT_SYNC_INSERTED 0 0) == 1)]

theorem witness_sectors : wSectors.all id = true := by decide +kernel

/-- A channel that reads: in READ, with the cores running and a working mode requested. -/
def readsNow (s : State := State.reset) : State :=
  st [(DCM_STAT_MODE.at 0, mREAD), (DCM_CTL_MODE_REQ.at 0, mREAD), (HLT_SB_CORES_RUN, 1)] s
/-- The wedge before the tile slot gave its address. -/
def arms (s : State) : State := srv (fun v => { v with addrValid := true, addr := some (expectedAddr pos0) }) s

/-- A completed row of silent samples. -/
def row0 : RowIn := { adc := List.replicate 10 ⟨0, []⟩, dec := [], soft := [], phaseErr := [] }

/-- Witnesses of clauses of TileSlotsAreRead. -/
def wReads : List Bool :=
  let want := rdc (fun r => { r with wanted := [(pos0, [1])] }) readsNow
  let done : TileRead := { tile0 with slots := List.replicate 64 { st := .erased 6 }, rowsDone := 8, reading := false }
  let again : TileRead := { tile0 with rung := 4, reading := false, rowsDone := 8 }
  [wit (armed 0 pos0 (arms want) && readRoom 0 want && readMode 0 want && !leaving 0 want) (.tileReadStart 0 pos0) (arms want)
     (fun t => (t.chan 0).rdc.tile == some { freshRead pos0 [1] [] false with arm := true } && (t.chan 0).rdc.wanted.isEmpty),
   wit (!armed 0 pos0 want) (.tileReadStart 0 pos0) want (fun t => (t.chan 0).rdc.tile == none && (t.chan 0).srv.slipSeen &&
     t.get (DET_CNT_MISC_ARM_FAIL.at 0) == 1),
   wit true (.tileReadStart 0 pos0) (arms (rdc (fun r => { r with prev := some again }) readsNow)) (fun t =>
     ((t.chan 0).rdc.prev.map (fun q => (q.rereading, q.arm, q.rowsDone, q.rung))) == some (true, true, 0, 4)),
   wit (!rowOfPrev ((reading).chan 0).rdc 0) (.sectorRowComplete 0 0 row0) reading (fun t =>
     (t.chan 0).rdc.tile.map (fun r => (r.rowsDone, r.queue.contains 0, r.rows.any (fun b => b.q == 0))) == some (1, true, true)),
   wit (tileSettled done && isBlank done) (.outerDecodeDone 0) (rdc (fun r => { r with tile := some done }) State.reset)
     (fun _ => true),
   wit true (.ladderReread 0) (rdc (fun r => { r with prev := some { done with rung := 2, rereading := true } }) State.reset) (fun _ => true),
   wit true (.ladderReread 0) (rdc (fun r => { r with prev := some { done with rung := 1 } }) State.reset) (fun _ => true),
   let s := srv (fun v => { v with pllLocked := true }) (st [(SRV_LADDER_LADDER_F.at 0, 3)] (rdc (fun r => { r with
     prev := some { tile0 with rung := 3, rereading := true, wedges := tileT pos0 } }) State.reset))
   wit (!(s.chan 0).rdc.jumpDue) (.wedgeBoundary 0 []) s (fun t => t.get (SRV_LADDER_LADDER_F.at 0) == 0 &&
     (t.chan 0).rdc.prev.map (·.reading) == some false)]

theorem witness_reads : wReads.all id = true := by decide +kernel

/-- A tile slot's content in a tile buffer. -/
def wtile : WTile := { pos := pos0, slots := List.replicate 64 [], kinds := List.replicate 56 1, whole := true }
/-- A channel in WRITE with that tile at the head of its buffer. -/
def writesNow (w : WTile) (s : State := State.reset) : State :=
  wrc (fun k => { k with bufs := [w] })
    (st [(DCM_STAT_MODE.at 0, mWRITE), (DCM_CTL_MODE_REQ.at 0, mWRITE), (HLT_SB_CORES_RUN, 1)] s)

/-- Witnesses of clauses of TilesAreWritten. -/
def wWrites : List Bool :=
  let ready := wrc (fun k => { k with bankOk := true }) (st [(WRC_CTL_WR_EN.at 0, 1), (SRV_STAT_FOCUS_LOCK.at 0, 1),
    (SRV_STAT_TRACK_LOCK.at 0, 1), (SRV_STAT_SPEED_OK.at 0, 1), (WRC_STAT_LINK_OK.at 0, 1), (WRC_STAT_LSAFE.at 0, 0)] (writesNow wtile))
  let judged : TileRead := { tile0 with verify := true, rowsDone := 8, reading := false, slots := List.replicate 64 { st := .accepted, reason := some 0 } }
  [wit true (.tileWriteStart 0 pos0) (writesNow { wtile with whole := false }) (fun t => (t.chan 0).wrc.writing.isNone &&
     t.get (WRC_CNT_MISC_UNDERRUN.at 0) == 1),
   wit (!writeReady 0 (writesNow wtile)) (.tileWriteStart 0 pos0) (writesNow wtile) (fun t =>
     decide (t = writesNow wtile)),
   wit (writeReady 0 ready && armed 0 pos0 (arms ready)) (.tileWriteStart 0 pos0) (arms ready) (fun t =>
     (t.chan 0).wrc.writing == some wtile && (t.chan 0).wrc.bufs.isEmpty &&
     t.get (WRC_STAT_STATE.at 0) == 1 && (t.chan 0).rdc.tile == some { freshRead pos0 [] [] true with arm := true }),
   wit (!armed 0 pos0 ready) (.tileWriteStart 0 pos0) ready (fun t => (t.chan 0).wrc == (ready.chan 0).wrc &&
     (t.chan 0).srv.slipSeen && t.get (DET_CNT_MISC_ARM_FAIL.at 0) == 1),
   let s := srv (fun v => { v with pllLocked := true }) (nextOf (.tileWriteStart 0 pos0) (arms ready))
   wit true (.wedgeBoundary 0 []) s (fun t => !(t.chan 0).wrc.lanesRead && t.get (WRC_STAT_STATE.at 0) == 2),
   wit (tileSettled judged) (.tileVerifyJudge 0) (rdc (fun r => { r with prev := some judged }) (wrc (fun k => { k with judging := [wtile] }) State.reset))
     (fun t => (t.chan 0).wrc.judging.isEmpty && (t.chan 0).rdc.prev.isNone && (t.chan 0).wrc.reports.map (·.outcome) == [0]),
   wit true (.tileVerifyJudge 0) (rdc (fun r => { r with tile := some judged }) (wrc (fun k => { k with judging := [wtile] }) State.reset))
     (fun t => (t.chan 0).wrc.judging.isEmpty && (t.chan 0).rdc.tile.isNone && (t.chan 0).wrc.reports.map (·.outcome) == [0])]

theorem witness_writes : wWrites.all id = true := by decide +kernel

/-- Witnesses of clauses of TilesAreWritten, spare tiles. -/
def wSpares : List Bool :=
  let blk : RelocBlk := ⟨0, 0, 0, 5, 0, 1, [], 0, true, 0⟩
  let wait := wrc (fun k => { k with reloc := [blk] }) State.reset
  [wit (!dataTileDue 0 wait && spareDue true 5 false [blk] == some (0, 0)) (.spareTileWrite 0) wait (fun t =>
     (t.chan 0).wrc.bufs.map (fun b => (b.pos.region, b.blocks.length)) == [(1, 1)]),
   let full := wait.onDcm 0 (fun d => { d with alloc := [((1, 0, 0), spareSlots.getD 0 0)] })
   wit (spareFull 0 0 0 full) (.spareTileWrite 0) full (fun t => evt ⟨.wrc, 0⟩ 6 t && flt 16 0 full t),
   -- The monitor's codes are a free value: the scales' bounds are no matter of evaluation.
   wit true (.apcUpdate 0 (List.replicate 16 9) [(1, 1)] 2) (st [(WRC_CTL_APC_EN.at 0, 1), (DCM_STAT_MODE.at 0, mWRITE)]) (fun _ => true),
   let s := st [(WRC_CTL_RAPC_EN.at 0, 1), (DCM_STAT_MODE.at 0, mREAD)]
   wit (readLaser 0 s) (.rapcUpdate 0 (List.replicate 16 9)) s (fun _ => true)]

theorem witness_spares : wSpares.all id = true := by decide +kernel

/-- Witnesses of clauses of DriverPortRuns. -/
def wDriver : List Bool :=
  let f := fun n : Nat => ({ write := true, addr := 0x10, data := 7, tries := n } : DrvFrame)
  let next : DrvFrame := { write := false, addr := 0, data := 0 }
  let s := fun n => wrc (fun k => { k with prevFrame := some (f n), due := [next], checked := List.replicate 24 false }) (at' 5)
  let good : Nat := 7 * 256
  let resp := BitVec.ofNat 32 (good + crc8 [0, 0, 7])
  let bad := resp ^^^ 1
  let lanes := wrc (fun k => { k with lanesRead := true }) (st [(DCM_STAT_MODE.at 0, mWRITE)])
  let full := wrc (fun k => { k with checked := List.replicate 24 true, inactive := (List.range 24).map (fun n => levelOf 0 n lanes) }) lanes
  [wit (respOk resp) (.driverFrame 0 resp) (s 0) (fun t => (t.chan 0).wrc.prevFrame == some next && t.getb (WRC_STAT_LINK_OK.at 0) &&
     (t.chan 0).wrc.checked.getD 0 false && (t.chan 0).wrc.lastFrameTick == 5),
   wit (!respOk bad) (.driverFrame 0 bad) (s 2) (fun t => t.getb (WRC_STAT_LSAFE.at 0) && !t.getb (WRC_STAT_LINK_OK.at 0) &&
     evt ⟨.wrc, 0⟩ 5 t && flt 13 0 State.reset t),
   wit true (.driverFrame 0 bad) (s 1) (fun t => (t.chan 0).wrc.due == [f 2]),
   wit true (.driverStatusPoll 0) (at' 5) (fun t => (t.chan 0).wrc.frame == some next),
   wit (bankReady 0 full) (.bankSwap 0) full (fun t => t.getb (WRC_STAT_BANK.at 0) && (t.chan 0).wrc.swapCheck && (t.chan 0).wrc.bankOk),
   wit (!bankReady 0 lanes) (.bankSwap 0) lanes (fun t => !t.getb (WRC_STAT_BANK.at 0))]

theorem witness_driver : wDriver.all id = true := by decide +kernel


/-! ### Motion, spindles and supplies -/

/-- Changes of axis 1 of channel 0. -/
def ax1 (f : Axis → Axis) (s : State) : State := s.onAxis 0 1 f
/-- Changes of the spindle of channel 0. -/
def spn (f : Spn → Spn) (s : State := State.reset) : State := s.onSpn 0 f
/-- Changes of the mode sequencer of channel 0. -/
def dcm (f : Dcm → Dcm) (s : State := State.reset) : State := s.onDcm 0 f
/-- The command answers a next state: all that the clause's own values leave to check. -/
def anyNext (_ : State) : Bool := true

/-- Witnesses of clauses of MotionEventsAct. -/
def wMotion : List Bool :=
  let home := fun n => st [(axF AX_STAT_MODE_NOW 0 1, 3), (axF AX_STAT_HOME_PHASE 0 1, n), (axF AX_HCTL_HOME_FILT 0 1, 2),
    (axF AX_HOMEPOS_HOME_POS 0 1, 100)]
  let cand := fun b => ax1 (fun a => { a with homeCand := b, homeRun := 3, homeAt := 40, p := 45 * posUnit })
  [wit true (.holdDelayExpiry 0 1) (ax1 (fun a => { a with holdCur := false, restTick := 5 }) (at' 9 (st [(axF AX_HCTL_HOLD_DELAY 0 1, 4)])))
     (fun t => (t.axis 0 1).holdCur),
   wit true (.homeInputChange 0 1) (cand true (home 1)) (fun t => t.getb (axF AX_STAT_HOME_IN 0 1) && (t.axis 0 1).homeStop),
   wit true (.homeInputChange 0 1) (cand false (st [(axF AX_STAT_HOME_IN 0 1, 1)] (home 2))) (fun t =>
     (t.axis 0 1).releaseP == some (45 * posUnit) && !t.getb (axF AX_STAT_HOME_IN 0 1)),
   wit true (.homeInputChange 0 1) (cand true (home 3)) (fun t => (t.axis 0 1).homeStop && axMode 0 1 t == 3 &&
     (t.axis 0 1).p == 105 * posUnit && (t.axis 0 1).phi == -60),
   wit true (.homeInputChange 0 1) (cand true (st [(axF AX_STAT_MODE_NOW 0 1, 1)])) (fun t => t.getb (axF AX_STAT_HOME_IN 0 1) &&
     decide (t.axis 0 1 = (cand true State.reset).axis 0 1)),
   let far := ax1 (fun a => { a with p := 10 ^ 9 * posUnit }) (home 1)
   wit (phaseFailed 0 1 far) (.homingPhaseFail 0 1) far (fun t => axMode 0 1 t == 3 && t.get (axF AX_STAT_HOME_PHASE 0 1) == 0 && !t.getb (axF AX_STAT_HOMED 0 1) &&
     evt ⟨.mot, 0⟩ 4 t && flt 6 0 far t),
   wit true (.seekCountTimeout 0) ((at' 70 (st [(MOT_SEEK_KIND.at 0, 1)])).onMot 0 (fun m => { m with profEnd := some 6, seekDelta := 3 }))
     (fun t => (t.chan 0).mot.returned && t.get (MOT_SEEK_KIND.at 0) == 0 && (t.loop 0 1).closing && (t.chan 0).srv.step == .slipWait && t.get (MOT_CNT_SEEK_MISS.at 0) == 1 && t.get (SRV_STAT_RECOVERY.at 0) == 2 &&
       t.get (SRV_STAT_ATTEMPT.at 0) == 1),
   wit true (.currentLimit 0 1999) (spn (fun k => { k with pat := { off := false, vec := 1, ta := 2000 } })) (fun t =>
     (t.chan 0).spn.cut == some 1999)]

theorem witness_motion : wMotion.all id = true := by decide +kernel

/-- Witnesses of clauses of SpindleStartsRun. -/
def wStarts : List Bool :=
  let s := fun n => at' 10000000 (spinning n)
  let probe := fun l a => spn (fun k => { k with probe := l }) (st [(SPN_START_PROBE_MIN.at 0, 64), (SPN_STAT_ATTEMPT.at 0, a)] (s 2))
  let halts := fun u (t : State) => spnSt 0 t == 12 && evt ⟨.spn, 0⟩ 7 t && flt 7 0 u t
  [wit true (.startWatchTimeout 0) (spn (fun k => { k with lastCross := 9999200 }) (s 1)) (fun t => spnSt 0 t == 2 &&
     (t.chan 0).spn.probe.isEmpty && (t.chan 0).spn.stateTick == 10000000),
   wit (probeBest 0 [5, 9, 9, 4, 6, 5] == (1, 9, 4)) (.probeEnd 0) (probe [5, 9, 9, 4, 6, 5] 1) anyNext,
   wit (probeBest 0 [9, 9, 9, 9, 9, 8] == (0, 9, 8)) (.probeEnd 0) (probe [9, 9, 9, 9, 9, 8] 5) (fun t => spnSt 0 t == 6 && evt ⟨.spn, 0⟩ 2 t),
   (let u := probe [9, 9, 9, 9, 9, 8] 6; wit true (.probeEnd 0) u (halts u)),
   wit true (.startTimeout 0) (s 1) (fun t => spnSt 0 t == 6 && evt ⟨.spn, 0⟩ 2 t),
   (let u := st [(SPN_STAT_ATTEMPT.at 0, 6)] (s 3); wit true (.startTimeout 0) u (halts u)),
   wit true (.startPauseEnd 0) (st [(SPN_STAT_ATTEMPT.at 0, 2)] (s 6)) (fun t => spnSt 0 t == 1 && t.get (SPN_STAT_ATTEMPT.at 0) == 3 &&
     (t.chan 0).spn.lastCross == 10000000)]

theorem witness_starts : wStarts.all id = true := by decide +kernel

/-- Witnesses of clauses of SpindleStartsRun, edges. -/
def wEdges : List Bool :=
  let s := fun n => at' 100000 (spinning n)
  let x := fun (t a : Nat) => (⟨t, a⟩ : Crossing)
  let turning := (List.range 6).map (fun k => x (199990000 - 10000 * k) ((11 - k) % 6))
  let six := fun (f : Spn → Spn) d => spn (fun k => f { k with next := { off := false, six := true, vec := 0, ta := 9 }, sixP2 := 2000 })
    (st [(SPN_CTL_DRIVE.at 0, d), (SPN_SIX_SIX_MIN.at 0, 1)] (s 5))
  [wit true (.bemfEdge 0 0 false 3) (s 4) (fun t => (t.chan 0).spn.cross == [x 200000003 0] && (t.chan 0).spn.lastCross == 100000 &&
     spnSt 0 t == 4),
   wit (crossStep 4 5 == 1 && crossStep 5 0 == 1) (.bemfEdge 0 0 false 3) (spn (fun k => { k with collect := [x 199000000 5, x 198000000 4] }) (s 1)) anyNext,
   wit (crossStep 2 1 == -1 && crossStep 1 0 == -1) (.bemfEdge 0 0 false 3) (spn (fun k => { k with collect := [x 199000000 1, x 198000000 2] }) (s 1))
     (fun t => spnSt 0 t == 9 && (t.chan 0).spn.afterBrake == .restart && evt ⟨.spn, 0⟩ 5 t),
   (let u := spn (fun k => { k with cross := turning, omega := 2 ^ 31 }) (s 8)
    wit (speedLost 0 (spn (fun k => { k with cross := (x 200000003 0 :: turning).take 7 }) u)) (.bemfEdge 0 0 false 3) u (fun t =>
      spnSt 0 t == 7 && evt ⟨.spn, 0⟩ 4 t && flt 8 0 u t)),
   wit (edgeAngle 2 false == 4) (.bemfEdge 0 2 false 3) (six id 0) anyNext,
   wit true (.bemfEdge 0 2 false 3) (six (fun k => { k with brakePend := true }) 1) (fun t => spnSt 0 t == 9),
   wit true (.bemfEdge 0 2 false 3) (six (fun k => { k with cross := [x 199990000 3, x 199980000 2] }) 1) (fun t => spnSt 0 t == 5 &&
     (t.chan 0).spn.commDue.isSome)]

theorem witness_edges : wEdges.all id = true := by decide +kernel

/-- Witnesses of clauses of SpindlesRunAndStop. -/
def wSpinStops : List Bool :=
  let s := fun n f => spn f (at' 100000 (spinning n))
  [wit true (.sixStepCommutation 0) (s 5 (fun k => { k with next := { off := false, six := true, vec := 5, ta := 9 }, commDue := some 100001 })) anyNext,
   (let u := s 5 id; wit true (.commutationLost 0) u (fun t => spnSt 0 t == 7 && (t.chan 0).spn.catchTick == 100000 && flt 8 0 u t &&
     t.get (SPN_CNT_LOSS_LOSS_SIX.at 0) == 1)),
   wit true (.catchCoastEnd 0) (s 7 (fun k => { k with catchTick := 99919 })) (fun t => spnSt 0 t == 7 && (t.chan 0).spn.collecting),
   wit true (.catchCoastEnd 0) (s 7 (fun k => { k with catchTick := 99919, lasting := true })) (fun t => spnSt 0 t == 9 &&
     (t.chan 0).spn.afterBrake == .halt),
   wit true (.catchTimeout 0) (s 7 (fun k => { k with catchTick := 80000 })) (fun t => spnSt 0 t == 9 &&
     (t.chan 0).spn.afterBrake == .restart && evt ⟨.spn, 0⟩ 5 t && t.get (SPN_CNT_CATCH_CATCH_FAILS.at 0) == 1),
   wit true (.shortV0Start 0) (s 9 (fun k => { k with lastCross := 99200 })) (fun t => (t.chan 0).spn.v0 &&
     (t.chan 0).spn.next == { off := false, vec := 0, ta := 0 }),
   wit true (.spindleStopped 0) (s 9 (fun k => { k with still := 40000 })) (fun t => spnSt 0 t == 0 && evt ⟨.spn, 0⟩ 6 t),
   wit true (.spindleStopped 0) (s 9 (fun k => { k with still := 40000, afterBrake := .halt })) (fun t => spnSt 0 t == 12 && evt ⟨.spn, 0⟩ 7 t),
   wit true (.spindleStopped 0) (s 9 (fun k => { k with still := 40000, afterBrake := .restart })) (fun t => spnSt 0 t == 1 &&
     t.get (SPN_STAT_ATTEMPT.at 0) == 1)]

theorem witness_spinStops : wSpinStops.all id = true := by decide +kernel

/-- Witnesses of clauses of SupplyBusesStopSpindles. -/
def wBuses : List Bool :=
  let on := st [(vmF VMB_STATx_CHOP_ON 0, 1)]
  let stopped := fun n f => spn (fun k => { k with before := n }) (st [(SPN_STAT_STATE.at 0, 11), (f, 1)])
  let bs := vmF VMB_STATx_BUFFER_STOP 0
  let uv := vmF VMB_STATx_UNDER 0
  let low := fun (s : State) => s.onBus 0 (fun k => { k with lowRun := 40, okRun := 40, uvRun := 40 })
  [wit ((busChans 0).contains 0) (.chopperOn 0 14500) State.reset (fun t => t.getb (vmF VMB_STATx_CHOP_ON 0) && t.get (vmF VMB_CNTx_CHOP_ONS 0) == 1),
   wit true (.chopperOn 1 14499) State.reset (fun t => decide (t = State.reset)),
   wit true (.chopperOn 0 14500) (st [(vmF VMB_STATx_CHOPPER_FAULT 0, 1)]) (fun t => decide (t = st [(vmF VMB_STATx_CHOPPER_FAULT 0, 1)])),
   wit true (.chopperOff 0 13800) on (fun t => !t.getb (vmF VMB_STATx_CHOP_ON 0)),
   wit true (.chopperOff 0 13801) on (fun t => decide (t = on)),
   (let u := st [(SPN_STAT_STATE.at 0, 8)] on; wit true (.chopperFault 0 true) u (fun t => t.getb (vmF VMB_STATx_CHOPPER_FAULT 0) &&
     t.get (vmF VMB_STATx_FAULT_CAUSE 0) == 2 && evt vmbBlk 2 t && flt 10 0 u t && t.getb (SPN_STAT_NEG_CLAMP.at 0) && spnSt 0 t == 9)),
   (let u := on.onBus 0 (fun k => { k with noFall := true }); wit true (.chopperFault 0 false) u (fun t => t.get (vmF VMB_STATx_FAULT_CAUSE 0) == 1)),
   (let u := spinning 4; wit true (.bufferStop 0 16000) u (fun t => t.getb bs && evt vmbBlk 1 t && flt 9 0 u t && spnSt 0 t == 11 &&
     (t.chan 0).spn.before == 4 && t.get (vmF VMB_CNTx_STOPS 0) == 1)),
   (let u := low (spinning 4); wit true (.undervoltStop 0) u (fun t => t.getb uv && evt vmbBlk 3 t && flt 11 0 u t && spnSt 0 t == 11 &&
     (t.chan 0).spn.pat == (u.chan 0).spn.pat && (t.chan 0).spn.next == {})),
   wit true (.bufferStopRelease 0) (low (stopped 3 bs)) (fun t => spnSt 0 t == 7 && (t.chan 0).spn.contStart),
   wit true (.bufferStopRelease 0) (low (stopped 0 bs)) (fun t => !t.getb bs && spnSt 0 t == 0),
   wit true (.bufferStopRelease 0) (low (st [(uv, 1)] (stopped 0 bs))) (fun t => !t.getb bs && spnSt 0 t == 11),
   wit true (.bufferStopRelease 0) (low (stopped 4 bs)) (fun t => spnSt 0 t == 7 && (t.chan 0).spn.collecting),
   wit true (.undervoltRelease 0) (low (stopped 9 uv)) (fun t => !t.getb uv && spnSt 0 t == 9),
   wit true (.undervoltRelease 0) (low (stopped 5 uv)) (fun t => spnSt 0 t == 7),
   wit true (.undervoltRelease 0) (low (st [(bs, 1)] (stopped 0 uv))) (fun t => spnSt 0 t == 11)]

theorem witness_buses : wBuses.all id = true := by decide +kernel

/-- Witnesses of clauses of ModesChange. -/
def wModes : List Bool :=
  let m := fun n r => st [(DCM_STAT_MODE.at 0, n), (DCM_CTL_MODE_REQ.at 0, r), (HLT_SB_CORES_RUN, 1)]
  let tr := Instr.modeTransition 0
  [wit (coresRun (m mOFF mPARKED)) tr (m mOFF mPARKED) (fun t => t.mode 0 == mPARKED),
   wit (!homing 0 (m mPARKED mOFF) && !trimRun 0 (m mPARKED mOFF)) tr (m mPARKED mOFF) (fun t => t.mode 0 == mOFF),
   wit true tr (at' 7 (m mPARKED mREAD)) (fun t => t.mode 0 == mSPINUP && (t.chan 0).dcm.modeTick == 7),
   wit true tr (st [(SPN_STAT_STATE.at 0, 4), (SRV_STAT_SPEED_OK.at 0, 1)] (m mSPINUP mREAD)) (fun t => t.mode 0 == mACQUIRE),
   wit true tr (m mACQUIRE mPARKED) (fun t => t.mode 0 == mBRAKE && t.getb (DCM_STAT_TRANSFER_WAIT.at 0)),
   wit true tr (m mREAD mOFF) (fun t => t.mode 0 == mBRAKE),
   wit true tr (m mBRAKE mPARKED) (fun t => t.mode 0 == mPARKED && (t.chan 0).wrc.emittersOff),
   wit (!coresRun State.reset) tr State.reset (fun t => decide (t = State.reset))]

theorem witness_modes : wModes.all id = true := by decide +kernel

/-- Witnesses of clauses of ModesChange, its times. -/
def wModeTimes : List Bool :=
  let m := fun n r => at' 10000000 (st [(DCM_STAT_MODE.at 0, n), (DCM_CTL_MODE_REQ.at 0, r)])
  let fails := fun n (t : State) => t.get (DCM_CTL_MODE_REQ.at 0) == mPARKED && t.get (DCM_ERR_CAUSE.at 0) == n && evt ⟨.dcm, 0⟩ 2 t
  let resume := loopIn 0 1 1 (srv (fun v => { v with addrValid := true, step := .settled })
    (st [(DCM_STAT_TRANSFER_WAIT.at 0, 1), (SRV_STAT_SPEED_OK.at 0, 1), (SRV_STAT_TRACK_LOCK.at 0, 1)] (m mREAD mREAD)))
  let narrow := resume.onSig 0 7 (fun g => { g with synced := true })
  let prof := dcm (fun d => { d with profPend := true }) (st [(DCM_STAT_PROFILE.at 0, 1), (DCM_CTL_PROFILE_REQ.at 0, 2)] (m mREAD mREAD))
  [wit true (.spinupTimeout 0) (dcm (fun d => { d with runTick := some 1 }) (m mSPINUP mREAD)) (fails 3),
   wit true (.seekTimeout 0) (m mSEEK mREAD) (fun t => t.get (DCM_ERR_CAUSE.at 0) == 7 && t.mode 0 == mACQUIRE && (t.chan 0).dcm.retried),
   wit true (.seekTimeout 0) (dcm (fun d => { d with retried := true }) (m mSEEK mREAD)) (fun t => t.mode 0 == mSEEK && fails 7 t),
   wit true (.brakeTimeout 0) (m mBRAKE mPARKED) (fun t => t.mode 0 == mPARKED && t.getb (DCM_STAT_STOPPED.at 0) && fails 12 t &&
     spnSt 0 t == 10),
   wit true (.busWaitTimeout 0) (dcm (fun d => { d with busTick := some 1 }) (m mREAD mREAD)) (fails 11),
   wit (transferOk 0 narrow) (.transferResume 0) narrow (fun t => !t.getb (DCM_STAT_TRANSFER_WAIT.at 0)),
   wit (!slotUnder 0 prof) (.profileApply 0) prof (fun t => t.profile 0 == wantProfile 0 prof && !(t.chan 0).dcm.profPend &&
     (t.chan 0).dcm.seekNeeded)]

theorem witness_modeTimes : wModeTimes.all id = true := by decide +kernel

/-- Witnesses of clauses of PowerAndTimebaseFail. -/
def wPower : List Bool :=
  let low := { State.reset with pwr := { pwrfailLow := true } }
  [wit true .pwrfailAssert State.reset (fun t => t.pwr.pwrfailLow && !t.pwr.confirmed),
   wit true .pwrfailAssert low (fun t => decide (t = low)),
   wit true .pwrfailConfirmed low (fun t => t.pwr.confirmed && t.getb FLS_STAT_PWRFAIL_HOLD && t.getb (WRC_STAT_PWRFAIL_SEEN.at 5) &&
     t.getb (WRC_STAT_LSAFE.at 0)),
   wit true .pwrfailConfirmed (wrc (fun k => { k with writing := some wtile }) low) (fun t => t.get (WRC_STAT_ABORT_CAUSE.at 0) == 1 &&
     (t.chan 0).wrc.abandonPend && evt ⟨.wrc, 0⟩ 1 t),
   wit true .pwrfailConfirmed State.reset (fun t => decide (t = State.reset)),
   wit true .pwrfailDeassert (at' 9 low) (fun t => !t.pwr.pwrfailLow && t.pwr.highSince == 9),
   wit (!busStopped 0 low) .pwrfailDeassert (spn (fun k => { k with held := some 1 }) (spinning 0 low)) (fun t =>
     (t.chan 0).spn.held == none && spnSt 0 t == 1),
   wit true .pwrfailRestart { (dcm (fun d => { d with powerWait := true }) (at' 4000)) with pwr := { restartDue := true } } (fun t =>
     !t.pwr.restartDue && !(t.chan 0).dcm.powerWait && (t.chan 0).dcm.modeTick == 4000),
   wit true .timebaseLost (at' 9 (st [(DCM_STAT_MODE.at 3, mREAD), (axF AX_STAT_HOMED 3 1, 1)])) (fun t => !t.getb (axF AX_STAT_HOMED 3 1) && t.tb.lost && t.tb.tick == 9 && flt 0 0 State.reset t && t.mode 3 == mOFF &&
     t.getb (DCM_STAT_STOPPED.at 3) && t.get (DCM_ERR_CAUSE.at 3) == 10)]

theorem witness_power : wPower.all id = true := by decide +kernel


/-! ### The host ports -/

/-- Has the part sent one message more, this one (`sends`)? -/
def sent (m : Msg) (s t : State) : Bool := t.host.sent == s.host.sent ++ [m]
/-- Changes of the host side. -/
def hq (f : Hqe → Hqe) (s : State := State.reset) : State := s.onHost f
/-- Both ports answer configuration requests; port 0 has two virtual functions. -/
def vfs (s : State := State.reset) : State :=
  st [(HLK_CTL_CFG_READY0, 1), (HLK_CTL_CFG_READY1, 1), (HLK_PORTp_VF_EN.i 0, 1), (HLK_PORTp_NUM_VFS.i 0, 2)] s
/-- Changes of host function 1. -/
def fn1 (f : HFn → HFn) (s : State := State.reset) : State := s.onFn 1 f
/-- Is a violation of a function the last in its port's log (`violates`)? -/
def viol (f code : Nat) (s t : State) : Bool :=
  evt hlkBlk 3 t && t.hlt.violNext == s.hlt.violNext + 1 &&
    (((if f < 32 then t.hlt.viol0 else t.hlt.viol1).held.getLast?.map (fun e => (e.2.code, e.2.fn.val))) == some (code, f))

/-- Witnesses of clauses of PortsAnswer. -/
def wPorts : List Bool :=
  let s := vfs
  let link := hq (fun h => { h with ports := h.ports.set 1 { training := true } })
  let pend := fn1 (fun k => { k with msixEn := true, msixMask := true, pba := [5], vects := [(5, ⟨64, 9, false⟩)] }) s
  [wit (!cfgReady 0 State.reset) (.configRequest 0 .identity) State.reset (sent (.retryStatus 0) State.reset),
   wit (cfgReady 0 s && !fnExists 3 s) (.configRequest 3 .powerD3) s (sent (.unsupported 0) s),
   wit (fnExists 2 s) (.configRequest 2 .identity) s (fun t => t.host.sent.length == 1),
   wit (cfgReady 1 s && fnExists 32 s) (.configRequest 32 (.devCtl 1024 8192 true)) s (fun t => sent (.cfgDone 32 false) s t &&
     (t.hfn 32).mps == 512 && (t.hfn 32).mrrs == 4096 && (t.hfn 32).relaxed),
   wit true (.configRequest 0 (.devCtl2 5 true)) s (fun t => (t.hfn 0).ctoValue == 5 && (t.hfn 0).ctoOff),
   wit true (.configRequest 1 (.msixCtl true false)) pend (fun t => (t.hfn 1).msixEn && !(t.hfn 1).msixMask && (t.hfn 1).pba.isEmpty &&
     t.host.sent == [.msix 1 64 9, .cfgDone 1 false]),
   wit true (.configRequest 1 .powerD3) s (fun t => (t.hfn 1).d3hot && sent (.cfgDone 1 false) s t),
   wit true (.configRequest 32 .vfEnable) s (fun t => t.getb (HLK_PORTp_VF_EN.i 1) && sent (.cfgDone 32 false) s t),
   wit true (.linkTrainingStart 1) State.reset (fun t => (t.host.ports[(1 : Two)]).training),
   wit true (.linkUp 1 9 3) link (fun t => t.getb (HLK_PORTp_LINK_UP.i 1) && t.get (HLK_PORTp_SPEED.i 1) == 5 &&
     t.get (HLK_PORTp_WIDTH.i 1) == 2 && evt hlkBlk 1 t && bitOf 1 (t.get HLT_SB_LINK_UP)),
   wit true (.numvfsWrite 1 31) s (fun t => t.get (HLK_PORTp_NUM_VFS.i 1) == 31 && sent (.cfgDone 32 false) s t),
   wit true (.numvfsWrite 1 32) s (fun t => t.regs == s.regs && sent (.cfgDone 32 true) s t),
   wit true (.numvfsWrite 0 1) s (fun t => t.regs == s.regs && sent (.cfgDone 0 true) s t),
   wit true (.bar2Access 1 92 (.read 4)) pend (sent (.complete 1 [0, 0, 0, 0]) pend),
   wit true (.bar2Access 1 16380 (.read 8)) s (fun t => t.host.sent == [.error 1 1, .unsupported 0] && (t.hfn 1).aer == [.unsupported]),
   wit true (.bar2Access 1 88 (.write [7, 0, 0, 0])) s (fun t => bar2Byte 1 88 t == 7 && bar2Byte 1 91 t == 0),
   wit true (.unsupportedRequest 2 false) s (sent (.error 0 1) s),
   wit true (.unsupportedRequest 2 true) s (fun t => t.host.sent == [.error 0 1, .unsupported 0] && (t.hfn 0).aer == [.unsupported]),
   wit (!tenantMayRead 2 4096 && afFunc s == 0 && fnExists 2 s) (.tenantReadDenied 2 4096) s (fun t => sent (.complete 2 (zeros 4)) s t &&
     t.get (HLK_DCNTp_DENIED_RD.i 0) == 1),
   wit true (.msixUnmask 1 none) pend (fun t => !(t.hfn 1).msixMask && (t.hfn 1).pba.isEmpty && sent (.msix 1 64 9) pend t),
   wit true (.msixUnmask 1 (some 69)) pend (fun t => !(t.vect 1 5).masked && (t.hfn 1).pba == [5]),
   wit true (.aerError 33 .receiver [1]) s (fun t => sent (.error 32 0) s t && (t.hfn 32).aer == [.receiver]),
   wit true (.aerError 33 .poisoned [1]) s (fun t => sent (.error 33 1) s t && (t.hfn 33).aer == [.poisoned])]

theorem witness_ports : wPorts.all id = true := by decide +kernel

/-- The bytes of an entry with fields (offset, length, value). -/
def cmd (l : List (Nat × Nat × Nat)) : List Byte := l.foldl (fun e (o, n, v) => e.take o ++ leBytes n v ++ e.drop (o + n)) (zeros 64)
/-- A command of a function in a ring. -/
def ctxOf (f g op : Nat) (l : List (Nat × Nat × Nat)) : Ctx :=
  { id := 7, ring := g, fn := f, index := 3, phase := true, entry := cmd ((1, 1, op) :: (8, 8, 99) :: l) }
/-- The part runs these commands. -/
def runs (l : List Ctx) (s : State := State.reset) : State := hq (fun h => { h with ctxs := l, nextId := 8 }) s
/-- Has the record of a stage of a command been written, byte 0 last (`recorded`)? -/
def recd (x : Ctx) (stage status detail count : Nat) (s t : State) : Bool :=
  (t.host.sent.zip (t.host.sent.drop 1)).contains
    (.write x.fn (entryAddr x.ring x.index s + 1) (recordTail status detail count x.tag) false,
     .write x.fn (entryAddr x.ring x.index s) (leBytes 1 (b2n x.phase + 2 * stage)) false)
/-- Has a command ended with its final record (`ended`)? -/
def done (x : Ctx) (status detail count : Nat) (s t : State) : Bool :=
  !fnResetting x.fn s && (t.ctx x.id).isNone && recd x 3 status detail count s t

/-- Witnesses of clauses of FunctionsReset. -/
def wResets : List Bool :=
  let x := ctxOf 1 257 1 []
  let ring := st [(RC_STAT_STATE.i 257, 1), (RC_STAT_STATE.i 3, 1)] (runs [x, { x with id := 6, fn := 0, ring := 3 }] vfs)
  let s := { ring with locks := [⟨memBlk, .fn 1, 0⟩, ⟨flsBlk, .jtag, 0⟩] }
  let d3 := fn1 (fun k => { k with d3hot := true }) s
  let rst := st [(HLK_RSTp.i 0, 6)] vfs
  [wit (fnExists 1 s && cfgReady 0 s && ringFirst 1 s == 256) (.flrVf 1) s (fun t => fnResetting 1 t && !fnResetting 0 t && evt hlkBlk 2 t &&
     ringState 257 t == 0 && ringState 3 t == 1 && t.host.ctxs.map (·.id) == [6] && t.locks == [⟨flsBlk, .jtag, 0⟩]),
   wit (!fnExists 3 s) (.flrVf 3) s (fun t => decide (t = s)),
   wit (vfsOf 0 s == [1, 2]) (.flrPf 0) s (fun t => fnResetting 0 t && fnResetting 1 t && fnResetting 2 t && !t.getb (HLK_PORTp_VF_EN.i 0)),
   wit (!cfgReady 0 State.reset) (.flrPf 0) State.reset (fun t => decide (t = State.reset)),
   wit true (.vfEnableClear 0) s (fun t => !t.getb (HLK_PORTp_VF_EN.i 0) && fnResetting 2 t && !fnResetting 0 t),
   wit true (.vfEnableClear 1) s (fun t => decide (t = s)),
   wit true (.d3hotToD0 1) d3 (fun t => !(t.hfn 1).d3hot && fnResetting 1 t),
   wit true (.d3hotToD0 1) s (fun t => decide (t = s)),
   wit true (.linkDown 0 .perst) (st [(HLK_PORTp_LINK_UP.i 0, 1)] s) (fun t => !t.getb (HLK_PORTp_LINK_UP.i 0) && t.getb (HLK_PORTp_PERST.i 0) &&
     t.get (HLK_PORTp_NUM_VFS.i 0) == 0 && fnResetting 0 t && evt hlkBlk 1 t && evt hlkBlk 2 t && !(t.host.ports[(0 : Two)]).training),
   wit (fnResetting 1 rst && resetOver 1 rst) (.functionResetEnd 1) rst (fun t => !fnResetting 1 t && fnResetting 2 t),
   wit (!resetOver 1 (runs [x] rst)) (.functionResetEnd 1) (runs [x] rst) (fun t => decide (t = runs [x] rst))]

theorem witness_resets : wResets.all id = true := by decide +kernel

/-! ### Rings, commands and namespaces -/

/-- Read requests are outstanding on port 0. -/
def reading0 (l : List Req) (s : State) : State := hq (fun h => { h with ports := h.ports.set 0 { reqs := l, queue := l } }) s
/-- A namespace of function 0: 10,000 blocks from extent 0 on. -/
def ns1 : Ns := { nsid := 1, size := 10000, layout := 0x21, siding := 1, owners := 1, extBase := 0, createSeq := 1, sidingTmo := 2 }
/-- The map has these namespaces. -/
def spaces (l : List Ns) (s : State := State.reset) : State := s.onMap (fun m => { m with ns := l })
/-- An I/O command of namespace 1 over blocks. -/
def io (op slba nlb : Nat) (l : List (Nat × Nat × Nat) := []) : Ctx := ctxOf 0 2 op ([(4, 2, 1), (16, 6, slba), (24, 4, nlb)] ++ l)

/-- Witnesses of clauses of GrantsAndTransfersRun, transfers. -/
def wTransfers : List Bool :=
  let x := io 1 5 1
  let q : Req := { fn := 0, ctx := 7, addr := 64, len := 128 }
  let s := reading0 [q] (runs [x])
  let off := s.onFn 0 (fun k => { k with ctoOff := true })
  let w := io 2 5 1
  let drain := hq (fun h => { h with rings := [(2, { drops := [⟨4, true, 0, 12⟩] })] }) (st [(RC_STAT_STATE.i 2, 2), (RC_PTR_TAIL.i 2, 1)])
  [wit true (.dmaCompletion 0 0 .good) s (fun t => t.host.ctxs == [x] && (t.host.ports[(0 : Two)]).reqs.length == 1),
   wit (!pastCommit x) (.dmaCompletion 0 0 .unsupported) s (fun t => viol 0 8 s t && done x 0x14 8 0 s t),
   wit true (.dmaCompletion 0 0 .abort) s (fun t => viol 0 9 s t && done x 0x14 9 0 s t),
   wit true (.dmaCompletion 0 0 .poisoned) s (fun t => viol 0 10 s t && done x 0x14 10 0 s t),
   wit true (.completionTimeout 0 0) off (fun t => decide (t = off)),
   wit (decide (s.now < q.sent + 16000)) (.completionTimeout 0 0) s (fun t => decide (t = s)),
   wit true (.completionTimeout 0 0) (s.onFn 0 (fun k => { k with ctoValue := 5 })) (fun t => (t.host.ports[(0 : Two)]).late == [q]),
   let s := at' 16000 s
   wit true (.completionTimeout 0 0) s (fun t => (t.host.ports[(0 : Two)]).late == [q] && viol 0 11 s t && done x 0x14 11 0 s t),
   wit (ringOwner 2 drain == some 0) (.drainComplete 2 [some 5]) drain (fun t => ringState 2 t == 3 && (t.ringX 2).drops.isEmpty &&
     t.host.sent.length == 4),
   (let g := { w with granted := some 0 }; let u := at' 40000000 (st [(HQE_GRANT_GRANT_TMO, 1)] (runs [g]))
    wit (decide (ticks10ms 1 ≤ 40000000)) (.grantExpiry 7) u (fun t => done g 1 0 0 u t && evt hqeBlk 2 t && t.get HQE_CNT_GRANT_EXPIRED == 1)),
   (let u := at' 40000000 (st [(HQE_GRANT_GRANT_TMO, 0)] (runs [{ w with granted := some 0 }]))
    wit true (.grantExpiry 7) u (fun t => decide (t = u))),
   (let p := { w with parked := some 0 }; let u := at' 800000 (spaces [ns1] (runs [p]))
    wit true (.sidingTimeout 7) u (done p 0x20 0 0 u)),
   (let p := { io 3 5 1 with parked := some 0 }; let u := at' 800000 (spaces [ns1] (runs [p]))
    wit true (.sidingTimeout 7) u (done p 0x20 0 0 u)),
   (let p := { x with parked := some 0 }; let u := at' 800000 (spaces [ns1] (runs [p]))
    wit (gotPrefix p == 0) (.sidingTimeout 7) u (done p 0x20 0 0 u))]

theorem witness_transfers : wTransfers.all id = true := by decide +kernel

/-- Witnesses of clauses of GrantsAndTransfersRun, the arbiter. -/
def wArbiter : List Bool :=
  let w := io 2 5 1
  let s := fun y => runs [y]
  let tail := fun g s => st [(RC_STAT_STATE.i g, 1), (RC_PTR_TAIL.i g, 2)] s
  let small := st [(STR_BUF_USED_BLOCKS, 65280)] (s w)
  [(let y := { w with reserved := some 1, entry := cmd [(1, 1, 2), (3, 1, 2), (4, 2, 1), (16, 6, 5), (24, 4, 1)] }
    wit (startDue (at' 3 (s y)) == some y && y.deferred) .bufferReservation (at' 3 (s y)) (fun t => recd y 1 0 0 4096 (s y) t &&
      (t.ctx 7).any (fun z => z.granted == some 3 && z.stage == 1))),
   (let y := { w with reserved := some 1 }; wit (startDue (s y) == some y) .bufferReservation (s y) (fun t => (t.ctx 7).any (·.receiving))),
   wit (decide (stripeBytes small < (small.get STR_BUF_USED_BLOCKS + 1) * 4112)) .bufferReservation small (fun t => decide (t = small)),
   (let r := { io 1 5 1 with id := 6 }; let u := runs [r, w]
    wit (!yardReceive w u) .bufferReservation u (fun t => (t.ctx 7).any (fun y => y.reserved == some 1 && !y.receiving))),
   wit (adminDue (tail 0 State.reset) == some (0, 0)) .arbiterGrant (tail 0 State.reset) (fun t => t.host.admin == some 0 && t.host.lastAdmin == 0),
   (let u := hq (fun h => { h with inRound := true, walk := 3, rings := [(2, { credit := 8 }), (5, { credit := 1 })] }) (tail 2 (tail 5 State.reset))
    wit (ioBusy u == [2, 5] && adminDue u == none && walkNext u == some 5) .arbiterGrant u (fun t => t.host.walk == 6 && t.host.grant == some { ring := 5, left := 1 })),
   (let u := hq (fun h => { h with inRound := true, walk := 6, rings := [(5, { credit := 1, skip := true })] }) (tail 5 State.reset)
    wit (adminDue u == none && walkNext u == none && ioBusy u == [5] && walkNext (walkBegin u) == some 5) .arbiterGrant u (fun t =>
      t.host.grant == some { ring := 5, left := 1 })),
   (let u := hq (fun h => { h with act := some { ctx := 0, image := 0, since := 0 } }) (tail 0 State.reset)
    wit true .arbiterGrant u (fun t => decide (t = u)))]

theorem witness_arbiter : wArbiter.all id = true := by decide +kernel

/-- Witnesses of clauses of QueuesTakeEntries, doorbells. -/
def wDoorbells : List Bool :=
  let s := st [(RC_STAT_STATE.i 2, 1), (RC_PTR_HEAD.i 2, 4), (RC_PTR_TAIL.i 2, 6)]
  let g := { io 2 5 1 [(3, 1, 2)] with granted := some 0 }
  let u := runs [g] s
  let b := cmd [(32, 8, 4096), (40, 4, 4096), (63, 1, 1)]
  [wit (ringOf 0 2 s == some 2 && ringState 2 s == 1 && ringDepth 2 s == 16) (.doorbell 0 2 0xF 7) s (fun t => t.get (RC_PTR_TAIL.i 2) == 7 &&
     t.get (RC_PTR_HEAD.i 2) == 4),
   wit (reaches .jtag 0x03000010 s && targetOf 0x03000010 s == .bell 0 2 false) (regWrite .jtag 0x03000010 0xF 7) s (fun t =>
     decide (t = nextOf (.doorbell 0 2 0xF 7) s)),
   wit (reaches .jtag 0x03000014 s && targetOf 0x03000014 s == .bell 0 2 true) (regWrite .jtag 0x03000014 0xF 3) s (fun t =>
     decide (t = nextOf (.stagingDoorbell 0 2 0xF 3 (.failed 8)) s)),
   wit true (.doorbell 0 2 0xF 15) s (fun t => t.get (RC_PTR_TAIL.i 2) == 15),
   wit true (.doorbell 0 2 0xF 16) s (viol 0 1 s),
   wit true (.doorbell 0 2 0xF 5) s (viol 0 2 s),
   wit true (.doorbell 0 2 0x3 7) s (viol 0 5 s),
   wit true (.stagingDoorbell 0 2 0x3 7 (.failed 8)) s (viol 0 5 s),
   wit (ringOf 0 256 s == none) (.doorbell 0 256 0xF 7) s (viol 0 3 s),
   wit true (.stagingDoorbell 0 256 0xF 7 (.failed 8)) s (viol 0 3 s),
   wit (grantedAt 2 3 s == none) (.stagingDoorbell 0 2 0xF 3 (.entry b [])) s (viol 0 4 s),
   wit (grantedAt 2 3 u == some g) (.stagingDoorbell 0 2 0xF 3 (.failed 9)) u (fun t => viol 0 9 u t && done g 0x14 9 0 u t),
   (let e := g.entry.take 32 ++ (b.drop 32).take 32
    wit (bufferFault e [] == none && field e 40 4 == 4096) (.stagingDoorbell 0 2 0xF 3 (.entry b [])) u (fun t => (t.ctx 7).any (fun y =>
      y.receiving && y.granted == none && y.entry == e))),
   wit (!fnExists 1 s) (.doorbell 1 2 0xF 7) s (fun t => decide (t = s)),
   (let d := s.onFn 0 (fun k => { k with d3hot := true }); wit true (.stagingDoorbell 0 2 0xF 3 (.failed 8)) d (fun t => decide (t = d)))]

theorem witness_doorbells : wDoorbells.all id = true := by decide +kernel

/-- Witnesses of clauses of QueuesTakeEntries, entries. -/
def wFetches : List Bool :=
  let s := hq (fun h => { h with admin := some 0, nextId := 7 }) (st [(RC_STAT_STATE.i 0, 1), (RC_PTR_TAIL.i 0, 6)])
  let good := cmd [(1, 1, 0x82), (32, 8, 4096), (40, 4, 4096)]
  let bad := cmd [(1, 1, 1)]
  let x := { ctxOf 0 0 0x82 [] with index := 0, phase := false, entry := bad, falls := allCh.map (fun _ => 0) }
  let w := { io 2 5 0 with receiving := true }
  [wit (canFetch 0 s && ctxFree s && ringOwner 0 s == some 0) (.entryFetched (.failed 8)) s (fun t => ringState 0 t == 4 && evt hqeBlk 4 t &&
     viol 0 8 s t && t.host.admin == none),
   wit (checkEntry 0 0 good [] s == none) (.entryFetched (.entry good [])) s (fun t => t.host.nextId == 8 && t.host.admin == none &&
     (t.ctx 7).any (fun y => y.entry == good && y.fn == 0 && y.index == 0)),
   wit (checkEntry 0 0 bad [] s == some (0x10, 0, 6)) (.entryFetched (.entry bad [])) s (fun t => viol 0 6 s t && done x 0x10 0 0 s t),
   wit (!readsLeft 7 (runs [w]) && (hostBlocks w [] (List.range w.nlb) (runs [w])).2.1 == none) (.dataReceived 7 []) (runs [w]) (recd w 2 0 0 0 (runs [w]))]

theorem witness_fetches : wFetches.all id = true := by decide +kernel

/-- The blocks of a write that is not SEALED pass point 1, whatever the data. -/
theorem hostBlocks_unsealed (x : Ctx) (data : List Byte) (h : x.sealed = false) (l : List Nat) (s : State) :
    (hostBlocks x data l s).2.1 = none := by
  induction l generalizing s with
  | nil => rfl
  | cons i l ih => simp [hostBlocks, hostBlock, h, ih]

/-- The hypotheses of the clauses on received data: a block that comes unsealed, and one that comes with a seal of another
namespace. -/
theorem witness_received : let w := { io 2 5 1 with receiving := true }
    Running 7 2 w (runs [w]) ∧ readsLeft 7 (runs [w]) = false ∧ (zeros 4096).length = w.nlb * w.unit ∧
    (hostBlocks w (zeros 4096) (List.range w.nlb) (runs [w])).2.1 = none := by
  refine ⟨⟨by decide +kernel, by decide +kernel⟩, by decide +kernel, by decide +kernel, hostBlocks_unsealed _ _ (by decide +kernel) _ _⟩

/-- The disc of a number is mounted in a channel. -/
def loaded (c : Ch) (d : Nat) (s : State := State.reset) : State := st [(DCM_CTL_DISC_LOADED.at c, 1), (DCM_DISC_LO_DISC.at c, d)] s
/-- The extents of the map. -/
def mapped (l : List (Nat × Ext)) (s : State) : State := s.onMap (fun m => { m with exts := l })
/-- The only extent of the namespace lies on a disc, linear from tile slot 6 of layer 2, zone 1 on. -/
def onDisc (d : Nat) (s : State) : State := mapped [(0, .linear d 2 1 0 6 0 4096)] s
/-- A set of the layout of the namespace on discs 77 to 79, in channels 0 to 2. -/
def set5 : Sys2Proof.Machine.SSet := { id := 5, layout := 0x21, members := [77, 78, 79], current := true }
/-- The part has this set, its discs mounted. -/
def sets (s : State := State.reset) : State :=
  (loaded 2 79 (loaded 1 78 (loaded 0 77 s))).onStr (fun t => { t with sets := [set5] })

/-- Witnesses of clauses of IoCommandsEnd, reads. -/
def wIoReads : List Bool :=
  let s := fun x => spaces [ns1] (runs [x])
  let v := io 3 5 1
  let r := io 1 5 1
  let early := { io 2 5 1 with id := 6 }
  let gone := mapped [(0, .absent 77)]
  [wit true (.verify 7) (s { v with parked := some 1 }) (fun t => decide (t = s { v with parked := some 1 })),
   (let u := spaces [ns1] (runs [early, v]); wit (!yardRead v u) (.verify 7) u (fun t => decide (t = u))),
   (let u := at' 9 (gone (s v)); wit (absentRead v ns1 u == some (0, 77) && mayPark ns1 u) (.verify 7) u (fun t => (t.ctx 7).any (fun y => y.parked == some 9))),
   (let x := { v with got := [(0, [])] }; wit (yardRead x (s x)) (.verify 7) (s x) (done x 0 0 0 (s x))),
   (let x := { r with got := [(0, [])] }; wit ((deliverBlocks x (List.range 1) (s x)).2.1 == none) (.read 7) (s x) (done x 0 0 0 (s x))),
   (let x := { r with got := [(0, [1])] }
    wit ((deliverBlocks x (List.range 1) (s x)).2.1 == some 0) (.read 7) (s x) (done x 0x22 0 0 (s x))),
   wit (match blockSrc v ns1 0 (s v) with | .data _ => true | _ => false) (.verify 7) (s v) (done v 0 0 0 (s v)),
   (let k := { ns1 with siding := 0 }; let u := gone (spaces [k] (runs [r]))
    wit (blockSrc r k 0 u == .lost 0x20 77 && !mayPark k u) (.read 7) u (done r 0x20 0 0 u)),
   (let u := (gone (loaded 3 77 (s v))).onMap (fun m => { m with held := [(1, .extentSet 0 none)] })
    wit (blockSrc v ns1 0 u == .lost 0x16 3) (.verify 7) u (done v 0x16 3 0 u)),
   (let u := at' 9 (onDisc 77 (loaded 3 77 (s r)))
    wit (blockSrc r ns1 0 u == .read 3 ⟨77, 2, 1, 6, 5⟩) (.read 7) u (fun t => (t.chan 3).rdc.wanted == [(⟨2, 1, 0, 6⟩, [5])] &&
      (t.ctx 7).any (fun y => y.since == some 9)))]

theorem witness_ioReads : wIoReads.all id = true := by decide +kernel

/-- Witnesses of clauses of IoCommandsEnd, writes. -/
def wIoWrites : List Bool :=
  let s := fun x => spaces [ns1] (runs [x])
  let w := io 2 5 1
  let wr := fun (s : State) => { s with fls := { s.fls with writer := some 1 } }
  let f := io 4 0 0
  let q := { io 5 5 2 with entry := cmd [(1, 1, 5), (4, 2, 1), (16, 6, 5), (24, 4, 2), (32, 8, 4096), (40, 4, 32)] }
  let early := { io 2 5 1 with id := 6 }
  [wit ((writeSet ns1.layout (s w)).1 == .noWriter && absentWrite w ns1 (s w) == none) (.write 7) (s w) (done w 0x25 0 0 (s w)),
   (let x := { w with pieces := cutPieces true 2 5 1 }; let u := at' 9 (wr (s x))
    wit ((writeSet ns1.layout u).1 == .absent && !x.pieces.all pieceFinal && mayPark ns1 u) (.write 7) u (fun t => (t.ctx 7).any (fun y => y.parked == some 9))),
   (let x := { w with pieces := cutPieces true 2 5 1 }; let u := at' 9 (mapped [(0, .absent 70)] (s x))
    wit ((writeSet ns1.layout u).1 == .noWriter && absentWrite x ns1 u != none) (.write 7) u (fun t => (t.ctx 7).any (fun y => y.parked == some 9))),
   (let x := { w with pieces := cutPieces true 2 5 1, stage := 2 }; let u := sets (s x)
    wit ((writeSet ns1.layout u).1 == .have 5 && x.pieces.length == 1) (.write 7) u (fun t => (t.ctx 7).any (fun y => y.placed &&
      y.pieces.all (fun p => p.st == .placed)))),
   wit (flushCovers f (s f) == []) (.flush 7) (s f) (done f 0 0 0 (s f)),
   (let u := spaces [ns1] (runs [early, f]); wit (flushCovers f u == [early]) (.flush 7) u (fun t => t.ctx 7 == some f && t.host == u.host)),
   wit (absentQuery q ns1 (s q) == none && (locRuns ((List.range q.nlb).map (fun i => (q.slba + i, locate q ns1 i (s q))))).length == 1)
     (.queryLocation 7) (s q) (done q 0 1 32 (s q)),
   (let u := at' 9 (mapped [(0, .absent 77)] (s q)); wit (absentQuery q ns1 u == some (0, .lost 0x20 77)) (.queryLocation 7) u (fun t =>
      (t.ctx 7).any (fun y => y.parked == some 9))),
   (let k := { ns1 with siding := 0 }; let u := mapped [(0, .absent 77)] (spaces [k] (runs [q]))
    wit (!mayPark k u) (.queryLocation 7) u (done q 0x20 0 0 u))]

theorem witness_ioWrites : wIoWrites.all id = true := by decide +kernel


/-- An admin command of function 0, on ring 0. -/
def adm (op : Nat) (l : List (Nat × Nat × Nat) := []) : Ctx := ctxOf 0 0 op l
/-- What a mount reads of a disc: its identity, or that it is blank. -/
def discIn (ident : List (List Byte)) (blank : Bool) : DiscIn :=
  ⟨ident.map (fun p => (3, metaBlocks 1 1 0 p)), blank, [], [], [], []⟩

/-- Witnesses of clauses of NamespacesAndDiscsCome, namespaces. -/
def wNamespaces : List Bool :=
  let x := adm 0x80 [(4, 2, 9), (16, 6, 5000), (24, 1, 0x21)]
  let bad := adm 0x80 [(4, 2, 1), (16, 6, 5000), (24, 1, 0x21)]
  let s := fun y => spaces [ns1] (runs [y])
  let del := adm 0x81 [(4, 2, 1)]
  let list := adm 0x82 [(32, 8, 4096), (40, 4, 64)]
  [wit (createFault bad (s bad) == some (0x15, 0)) (.nsCreate 7) (s bad) (done bad 0x15 0 0 (s bad)),
   wit (createFault x (s x) == none && freeRun (createExts x) [ns1] == some 3) (.nsCreate 7) (s x) (fun t =>
     t.map.ready == [{ changes := [.nsCreate 3 9 0x21 0 5000 0], answer := some (7, 9) }] && t.ctx 7 == some x),
   wit (!nsBusy del (s del) && !nsGroupOpen (s del)) (.nsDelete 7) (s del) (fun t =>
     t.map.ready == [{ changes := [.nsDelete 1], answer := some (7, 0) }]),
   (let u := spaces [ns1] (runs [{ io 1 5 1 with id := 6 }, del]); wit (nsBusy del u) (.nsDelete 7) u (fun t => decide (t = u))),
   wit true (.nsList 7) (s list) (done list 0 0 32 (s list))]

theorem witness_namespaces : wNamespaces.all id = true := by decide +kernel

/-- Witnesses of clauses of NamespacesAndDiscsCome, mounts. -/
def wMounts : List Bool :=
  let x := adm 0x83 [(16, 1, 2), (24, 8, 77)]
  let b := { x with begun := true }
  let writer := fun (s : State) => { s with fls := { s.fls with writer := some 1 } }
  let on := fun d (y : Ctx) => (st [(DCM_STAT_MODE.at 2, mIDLE)] (loaded 2 d (runs [y]))).onDcm 2 (fun k => { k with mount := some { ctx := 7, blank := d == 0 } })
  let good := identityPayload 77 0 5
  let other := identityPayload 78 0 5
  [wit (mountFault x (loaded 2 5 (runs [x])) == some (0x26, driveDetail 2 (loaded 2 5 (runs [x])))) (.mountNotify 7 (discIn [] true))
     (loaded 2 5 (runs [x])) (fun t => (t.ctx 7).isNone),
   wit (mountFault x (runs [x]) == none && chanArg x == 2) (.mountNotify 7 (discIn [] true)) (runs [x]) (fun t =>
     t.getb (DCM_CTL_DISC_LOADED.at 2) && t.get (DCM_CTL_MODE_REQ.at 2) == mIDLE && t.get (DCM_TGT_BAND.at 2) == 0 &&
     (t.ctx 7).any (·.begun) && (t.chan 2).dcm.mount.map (·.ctx) == some 7),
   (let u := (on 77 b).onDcm 2 (fun k => { k with falls := 1 })
    wit (fellBack 2 b u) (.mountNotify 7 (discIn [] true)) u (fun t => done b 0x26 (driveDetail 2 u) 0 u t && !t.getb (DCM_CTL_DISC_LOADED.at 2))),
   (let u := st [(DCM_STAT_MODE.at 2, mSEEK)] (on 77 b); wit (!fellBack 2 b u) (.mountNotify 7 (discIn [] true)) u (fun t => decide (t = u))),
   wit (identityOf (discIn [good] false) == some good && identityOk good && field good 0 8 == discOf 2 (on 77 b)) (.mountNotify 7 (discIn [good] false))
     (on 77 b) (done b 0 0 0 (on 77 b)),
   wit (discOf 2 (on 0 b) == 0) (.mountNotify 7 (discIn [] true)) (writer (on 0 b)) (done b 0 0 0 (on 0 b)),
   wit (field other 0 8 != discOf 2 (on 77 b)) (.mountNotify 7 (discIn [other] false)) (on 77 b) (fun t => (t.ctx 7).isNone &&
     !t.getb (DCM_CTL_DISC_LOADED.at 2) && t.get (DCM_ERR_CAUSE.at 2) == 14 && evt ⟨.dcm, 2⟩ 2 t)]

theorem witness_mounts : wMounts.all id = true := by decide +kernel

/-- Witnesses of clauses of NamespacesAndDiscsCome, unmounts. -/
def wUnmounts : List Bool :=
  let x := adm 0x84 [(16, 1, 2)]
  let b := { x with begun := true }
  let stop := st [(DCM_STAT_STOPPED.at 2, 1)] (loaded 2 77 (runs [x]))
  let last := (st [(DCM_STAT_MODE.at 2, mPARKED)] (loaded 2 77 (runs [b]))).onDcm 2 (fun d => { d with unmountStep := 3 })
  [wit true (.unmount 7) (runs [x]) (done x 0 0 0 (runs [x])),
   wit true (.unmount 7) stop (fun t => done x 0x26 (driveDetail 2 stop) 0 stop t && !t.getb (DCM_CTL_DISC_LOADED.at 2)),
   wit (!fellBack 2 b last) (.unmount 7) last (fun t => done b 0 0 0 last t && !t.getb (DCM_CTL_DISC_LOADED.at 2))]

theorem witness_unmounts : wUnmounts.all id = true := by decide +kernel

/-- Witnesses of clauses of AdminCommandsAct, logs. -/
def wLogs : List Bool :=
  let g := fun k => adm 0x85 [(16, 1, k), (24, 8, 1), (32, 8, 4096), (40, 4, 96)]
  let log := fun (s : State) => ((s.logEvent (.dramUe 1)).logEvent (.dramUe 2)).onStr (fun t => { t with lost := List.replicate 5 ⟨1, 0, 0, 0, 1, 0, 1, 0⟩ })
  let s := fun k => log (runs [g k])
  let time := adm 0x86 [(16, 8, 99)]
  [wit (((s 1).hlt.eventLog.held.filter (fun p => decide (1 ≤ p.1))).length == 1) (.getLog 7) (s 1) (done (g 1) 0 0 32 (s 1)),
   wit true (.getLog 7) (s 2) (done (g 2) 0 0 0 (s 2)),
   wit true (.getLog 7) (s 3) (done (g 3) 0 0 0 (s 3)),
   wit true (.getLog 7) (s 4) (done (g 4) 0 0 96 (s 4)),
   wit true (.setTime 7) (runs [time]) (fun t => t.tb.todStaged == some 99 && t.tb.tod == 0 && done time 0 0 0 (runs [time]) t)]

theorem witness_logs : wLogs.all id = true := by decide +kernel

/-- Witnesses of clauses of AdminCommandsAct, firmware. -/
def wFirmware : List Bool :=
  let d := adm 0x87 [(16, 4, 16), (32, 8, 4096), (40, 4, 16)]
  let r := { d with receiving := true }
  let ready := fun y => (runs [y]).onFls (fun f => { f with down := { started := true } })
  let a := adm 0x88 [(16, 1, 1)]
  let act := fun settled (s : State) => hq (fun h => { h with act := some { ctx := 7, image := 1, since := 0, settled } }) s
  let mid := act false (runs [a, { io 1 5 1 with id := 6 }])
  [wit (!pieceOk 16 16 (runs [d])) (.fwDownload 7 [] false) (runs [d]) (done d 0x11 16 0 (runs [d])),
   wit (pieceOk 16 16 (ready d)) (.fwDownload 7 [] false) (ready d) (fun t => (t.ctx 7).any (·.receiving)),
   wit (!readsLeft 7 (ready r) && !powerHold (ready r)) (.fwDownload 7 (zeros 16) false) (ready r) (fun t =>
     t.fls.down.pieces == [(16, 16)] && done r 0 0 16 (ready r) t),
   wit true (.fwDownload 7 (zeros 16) true) (ready r) (fun t => done r 0x30 27 16 (ready r) t && flt 27 0 (ready r) t),
   wit true (.fwActivate 7) (act false (runs [a])) (fun t => decide (t = act false (runs [a]))),
   wit (imageCode 1 (runs [a]) == 1) (.fwActivate 7) (runs [a]) (done a 0x11 16 0 (runs [a])),
   (let u := runs [{ d with id := 6 }, a]; wit (runImage u != 1) (.fwActivate 7) u (done a 0x11 16 0 u)),
   wit true .activationDrainTimeout (at' 800000 mid) (fun t => t.host.act == some { ctx := 7, image := 1, since := 0, settled := true, old := runImage mid } && t.fls.coreGap && runImage t == 1),
   wit true .activationDrainTimeout (act false (runs [a])) (fun t => t.host.act == some { ctx := 7, image := 1, since := 0, settled := true, old := runImage mid } && t.fls.coreGap && runImage t == 1),
   wit true .activationDrainTimeout (act true (runs [a])) (fun t => decide (t = act true (runs [a]))),
   wit true (.activationImageStart true) (act true (runs [a])) (fun t => t.host.act == none && runImage t == runImage State.reset &&
     !t.getb FLS_STAT_FALLBACK && !t.fls.coreGap && (t.ctx 7).isNone),
   wit true (.activationImageStart false) (act true (runs [adm 0x88 [(16, 1, 1), (2, 1, 4)]])) (fun t => t.host.act == none && runImage t == 0 && (t.ctx 7).isNone),
   wit true (.activationImageStart true) mid (fun t => decide (t = mid))]

theorem witness_firmware : wFirmware.all id = true := by decide +kernel

/-- The completion of FW_ACTIVATE: every hypothesis but that of the image's signature, which rests on the opaque keys
(R634, log 39). -/
theorem witness_activate : let a := adm 0x88 [(16, 1, 1)]
    Running 7 0x88 a (runs [a]) ∧ (runs [a]).host.act = none ∧
    (runs [a]).host.ctxs.any (fun y => y.op == 0x87 && !y.silent) = false := by
  refine ⟨⟨by decide +kernel, by decide +kernel⟩, by decide +kernel, by decide +kernel⟩

/-- Witnesses of clauses of AdminCommandsAct, features. -/
def wFeatures : List Bool :=
  let f := fun k v => adm 0x8D [(16, 1, k), (24, 8, v), (4, 2, 1)]
  let s := fun x => spaces [ns1] (runs [x])
  let k := { ns1 with importOpen := true }
  let g := adm 0x8E [(16, 1, 4), (32, 8, 4096), (40, 4, 8)]
  let rb := fun c d => adm 0x89 [(16, 1, c), (24, 8, d)]
  let full := fun (x : Ctx) => (loaded 3 80 (loaded 1 78 (loaded 0 77 (runs [x])))).onStr (fun t => { t with sets := [{ set5 with state := 1 }] })
  [wit true (.setFeature 7) (s (f 4 900)) (fun t => t.memberTmo == 900 && done (f 4 900) 0 0 0 (s (f 4 900)) t),
   wit (!answering 7 (s (f 3 5))) (.setFeature 7) (s (f 3 5)) (fun t => t.map.ready == [{ changes := [.featureSet 1 3 5], answer := some (7, 0) }]),
   wit true (.importClose 7) (s (f 6 0)) (done (f 6 0) 0 0 0 (s (f 6 0))),
   (let u := spaces [k] (runs [f 6 0])
    wit true (.importClose 7) u (fun t => t.map.ready == [{ changes := closeChanges k u, answer := some (7, 0) }])),
   wit true (.setWriterId 7) (s (f 5 300)) (fun t => t.writer == 300 && t.fls.writer == some 300 && done (f 5 300) 0 0 0 (s (f 5 300)) t),
   wit true (.setWriterId 7) (loaded 1 5 (s (f 5 300))) (done (f 5 300) 0x11 24 0 (loaded 1 5 (s (f 5 300)))),
   wit true (.getFeature 7) (runs [g]) (done g 0 0 8 (runs [g])),
   wit (rebuildFault 3 79 (runs [rb 3 79]) == some (0x11, 24)) (.rebuildStart 7) (runs [rb 3 79]) (done (rb 3 79) 0x11 24 0 (runs [rb 3 79])),
   (let u := full (rb 3 79)
    wit (rebuildFault 3 79 u == none && !setBusy 5 u && (weltSector u.str.welt).isSome && u.str.sets.any (fun k => k.members.contains 79 && k.state != 0)) (.rebuildStart 7) u (fun t => done (rb 3 79) 0 0 0 u t &&
      t.str.rebuild.any (fun r => r.set == 5 && r.failed == 79 && r.repl == 80 && r.chan == 3 && r.pos == 0)))]

theorem witness_features : wFeatures.all id = true := by decide +kernel

/-- Witnesses of clauses of CalibrationMeasures, its command. -/
def wCalibrates : List Bool :=
  let k := fun c m => adm 0x8A [(16, 1, c), (17, 1, m)]
  let parked := fun s => st [(DCM_STAT_MODE.at 2, mPARKED)] s
  [wit (calArgFault 6 2 == some 16) (.calibrate 7) (runs [k 6 2]) (done (k 6 2) 0x11 16 0 (runs [k 6 2])),
   wit (calArgFault 2 6 == some 17) (.calibrate 7) (runs [k 2 6]) (done (k 2 6) 0x11 17 0 (runs [k 2 6])),
   wit (calArgFault 2 2 == none && isTrim 2) (.calibrate 7) (parked (runs [k 2 2])) (fun t => match t.cal.runs with
     | [r] => r.begun && r.ctx == some 7 && r.chan == 2 && r.measure == 2
     | _ => false),
   wit true (.calibrate 7) (runs [k 2 2]) (done (k 2 2) 0x11 17 0 (runs [k 2 2]))]

theorem witness_calibrates : wCalibrates.all id = true := by decide +kernel

/-! ### The recorder and calibration -/

/-- Witnesses of clauses of RecordingsRun. -/
def wRecords : List Bool :=
  let x := adm 0x8B [(16, 1, 5), (17, 1, 0xFF), (18, 1, 1), (20, 4, 640)]
  let load := adm 0x8B [(18, 1, 2), (24, 8, 4096), (32, 8, 4096), (40, 4, 16)]
  let ld := { load with receiving := true }
  let read := adm 0x8C [(18, 1, 2), (24, 8, 4096), (32, 8, 4096), (40, 4, 16)]
  let stop := adm 0x8C []
  let area := fun s => st [(TMB_AREA_SIZE_SIZE_MIB, 64)] s
  let s := fun y => area (runs [y])
  let run := fun s => st [(TMB_REC_STAT_RUN, 1)] s
  let waits := fun (s : State) => s.onRcd (fun r => { r with waiting := some (5, true, 640, 0xFF) })
  let due := st [(TMB_REC_STAT_RUN, 1), (TMB_REC_STAT_TRIGGERED, 1), (TMB_REC_STAT_ACTIVE, 5)] (at' 700 ((area State.reset).onRcd (fun r => { r with post := 640 })))
  [wit (startFault x (runs [x]) == some 16) (.recordStart 7) (runs [x]) (done x 0x11 16 0 (runs [x])),
   wit (startFault x (s x) == none && !x.recFlag 1) (.recordStart 7) (s x) (fun t => t.rcd.waiting == some (5, true, 640, 0xFF) &&
     t.rcd.startCtx == some 7 && (t.ctx 7).any (·.begun)),
   wit (load.recFlag 1 && recording (run (s load))) (.recordLoad 7 []) (run (s load)) (done load 0x11 18 0 (s load)),
   wit true (.recordLoad 7 []) (runs [load]) (done load 0x11 24 0 (runs [load])),
   wit (decide (load.recOffset + load.dataLen ≤ areaSize (s load))) (.recordLoad 7 []) (s load) (fun t => (t.ctx 7).any (·.receiving)),
   wit (!readsLeft 7 (s ld)) (.recordLoad 7 (zeros 16)) (s ld) (fun t => t.rcd.loaded == [(4096, zeros 16)] && done ld 0 0 16 (s ld) t),
   wit true (.recordStop 7) (run (s stop)) (fun t => done stop 0 0 0 (s stop) t && !t.getb TMB_REC_STAT_RUN && t.rcd.area.header &&
     t.get TMB_REC_STAT_STOP_CAUSE == 1),
   wit true (.recordRead 7) (runs [read]) (done read 0x11 24 0 (runs [read])),
   wit true (.recordRead 7) (s read) (done read 0 0 16 (s read)),
   wit true .recordingBegin (waits (at' 63)) (fun t => t.getb TMB_REC_STAT_RUN && t.get TMB_REC_STAT_ACTIVE == 5 && t.rcd.waiting == none &&
     t.rcd.area.first == 64 && t.rcd.snipOn && t.rcd.post == 640),
   wit true .recordingBegin (waits (at' 64)) (fun t => decide (t = waits (at' 64))),
   wit (recDue due) .recordingEnd due (fun t => !t.getb TMB_REC_STAT_RUN && t.get TMB_REC_STAT_ACTIVE == 0 && t.get TMB_REC_STAT_STOP_CAUSE == 2),
   wit (!recDue (at' 639 due)) .recordingEnd (at' 639 due) (fun t => decide (t = at' 639 due)),
   wit true (.replayEnd 3) (st [(DCM_STAT_MODE.at 3, mREPLAY), (DCM_CTL_MODE_REQ.at 3, mREPLAY)]) (fun t => t.mode 3 == mPARKED &&
     t.get (DCM_CTL_MODE_REQ.at 3) == mPARKED && evt ⟨.dcm, 3⟩ 1 t)]

theorem witness_records : wRecords.all id = true := by decide +kernel

/-- A good reference. -/
def ref0 : RefIn := ⟨1250000, 125000⟩
/-- A run in progress on channel 0. -/
def runOf (m : Nat) (d : List Nat := []) : CalRun := { ctx := none, chan := 0, measure := m, begun := true, refDone := true, done := d }
/-- Calibration has these runs; the channel is in a mode. -/
def cals (l : List CalRun) (m : Nat) (s : State := State.reset) : State := (st [(DCM_STAT_MODE.at 0, m)] s).onCal (fun k => { k with runs := l })
/-- A run makes a measurement next (`Measuring`). -/
def makes (chan m : Nat) (r : CalRun) (s : State) : Bool :=
  runOn chan s == some r && nextMeasure r == some m && !runLost r s && runReady r s && r.refDone && decide ((s.chan 0).dcm.calHits < 2)

/-- Witnesses of clauses of CalibrationMeasures. -/
def wTrims : List Bool :=
  let r6 : CalRun := { ctx := none, chan := 6, measure := 1, begun := true }
  let s := fun m => cals [runOf m] mPARKED
  let rej := fun m k (t : State) => (runOn 0 t).isNone && t.get CAL_LAST_REJ_REASON == k && t.get CAL_LAST_REJ_MEASURE == m && evt calBlk 2 t
  let afe : AfeIn := ⟨0, 655360, 0, 655360, 0⟩
  let sh : ShuntIn := ⟨4096, 4194304, 0⟩
  let mon := (5242880 : Int)
  [wit true (.calRef ref0) (cals [r6] 0) (fun t => t.getb CAL_STAT_REF_OK && t.cal.vref == 1250000 && (runOn 6 t).isNone && evt calBlk 1 t),
   wit true (.calRef ⟨1275001, 125000⟩) (cals [r6] 0) (fun t => !t.getb CAL_STAT_REF_OK && t.get CAL_LAST_REJ_REASON == 1 && evt calBlk 2 t),
   wit (makes 0 2 (runOf 2) (s 2)) (.calAfe 0 ref0 [(afe, afe)]) (s 2) (fun t => (runOn 0 t).isNone && t.geti ((RDC_TRIM_OFS.at 0).i 0) == 0),
   wit true (.calAfe 0 ref0 [({ afe with m0 := 25 * 4096 }, { afe with m0 := 25 * 4096 })]) (s 2) (rej 2 2),
   wit (makes 0 3 (runOf 3) (s 3)) (.calServoOfs 0 ref0 [(8192, 8192)]) (s 3) (fun t => (runOn 0 t).isNone && t.geti (CAL_SDOFSk_SD_OFS.ij 0 0) == -2),
   wit true (.calServoOfs 0 ref0 [(0, 5 * 4096)]) (s 3) (rej 3 3),
   wit (makes 0 4 (runOf 4) (s 4)) (.calMonitor 0 ref0 (mon, mon) (mon, mon)) (s 4) (fun t => (runOn 0 t).isNone &&
     t.geti (CAL_MON_LMON_GAIN.i 0) == 0),
   wit true (.calMonitor 0 ref0 (mon, mon) (0, mon)) (s 4) (rej 4 2),
   wit (makes 0 5 (runOf 5) (s 5)) (.calShunt 0 ref0 sh sh) (s 5) (fun t => (runOn 0 t).isNone && t.geti (SPN_TRIM_SH_OFS.at 0) == -2),
   wit true (.calShunt 0 ref0 { sh with z := 25 * 4096 } { sh with z := 25 * 4096 }) (s 5) (rej 5 2)]

theorem witness_trims : wTrims.all id = true := by decide +kernel

/-- Witnesses of clauses of CalibrationMeasures, ageing. -/
def wAgeing : List Bool :=
  let r := fun l => runOf 0x1F l
  let s := fun l => cals [r l] mCAL
  let res := fun (p : CalRun → Bool) (t : State) => (runOn 0 t).any p
  let written := fun l => dcm (fun d => { d with alloc := [((0, 0, 0), 3)] }) (s l)
  let line := (List.range 64).map (· * 16)
  let all := [0x10, 0x11, 0x12, 0x13, 0x14]
  let fl := fun (s : State) => st [(CAL_CTL_SCHED_EN, 1), (CAL_SCHED_AGE_HOURS, 1)] s
  let due := (st [(DCM_CTL_DISC_LOADED.at 0, 1)] (cals [] mIDLE (at' 10000000000))).onCalCh 0 (fun k => { k with due := some 1 })
  [wit (makes 0 0x10 (r []) (s [])) (.calLaser 0 ref0 []) (s []) (fun t => res (fun q => q.rejected == [0x10]) t && t.get CAL_LAST_REJ_REASON == 2),
   wit true (.calLaser 0 ref0 (List.replicate 8 line)) (s []) (res (fun q => q.done == [0x10] && q.rejected == [] && q.res.ith.length == 8)),
   wit (makes 0 0x11 (r [0x10]) (s [0x10])) (.calResponse 0 ref0 [5] 65537) (s [0x10]) (res (fun q => q.res.rmean == 1 && q.res.amp.headD 0 == 5)),
   wit (makes 0 0x11 (runOf 0x11) (cals [runOf 0x11] mCAL)) (.calResponse 0 ref0 [5] 65537) (cals [runOf 0x11] mCAL) (fun t =>
     (runOn 0 t).isNone && (t.calCh 0).latest.rmean == 1 && (t.calCh 0).latest.amp.headD 0 == 5),
   wit (makes 0 0x12 (r [0x10, 0x11]) (s [0x10, 0x11])) (.calActuator 0 ref0 [(3, 4096), (5, 4096), (7, 4096)]) (s [0x10, 0x11])
     (res (fun q => q.res.sens == [3, 5, 7])),
   wit (makes 0 0x13 (r (all.take 3)) (s (all.take 3))) (.calFriction 0 ref0 0 400000 56000) (s (all.take 3)) (res (fun q => q.res.decel == 1000)),
   wit (makes 0 0x14 (r (all.take 4)) (written (all.take 4)) && (marginTile 0 (written (all.take 4))).isSome) (.calMargin 0 ref0 []) (written (all.take 4))
     (res (fun q => q.res.ber0 == 0 && q.done == all)),
   wit (makes 0 0x30 (runOf 0x30) (cals [runOf 0x30] mIDLE)) (.calStoreTables 0 ref0) (cals [runOf 0x30] mIDLE) (fun t => (runOn 0 t).isNone),
   (let q := { runOf 0x0F [2, 3, 4, 5] with ctx := some 7 }; let x := adm 0x8A []; let u := cals [q] mPARKED (runs [x])
    wit (runAllDone q) (.calTrims 0) u (fun t => (runOn 0 t).isNone && evt calBlk 1 t && done x 0 0 0 u t)),
   (let q := { runOf 0x0F [2, 3, 4, 5] with ctx := some 7, rejected := [3] }; let x := adm 0x8A []; let u := cals [q] mPARKED (runs [x])
    wit true (.calTrims 0) u (done x 0x30 30 0 u)),
   wit (runAllDone (r all)) (.calAgeing 0) (s all) (fun t => (runOn 0 t).isNone),
   wit true (.calLastCapture 0) (cals [{ runOf 0x20 all with res := { amp := List.replicate 8 1, rmean := 1, sens := [1, 1, 1] } }] mCAL) (fun t => (t.calCh 0).lastValid && t.get (scFld 0 2) == 16384),
   (let u := cals [{ runOf 0x20 all with rejected := [0x10] }] mCAL
    wit true (.calLastCapture 0) u (fun t => t.calCh 0 == u.calCh 0)),
   (let u := (fl (at' 1440000000)).onCalCh 3 (fun k => { k with latest := { k.latest with valid := [] } })
    wit true (.ageingDue 3) u (fun t => (t.calCh 3).due == some 1440000000)),
   wit (decide (due.get CAL_SCHED_IDLE_SEC * 400000 ≤ 10000000000)) (.ageingStart 0) due (fun t => (t.calCh 0).due == none &&
     t.get (DCM_CTL_MODE_REQ.at 0) == mCAL && t.cal.runs.map (fun r => (r.begun, r.measure)) == [(true, 0x1F)])]

theorem witness_ageing : wAgeing.all id = true := by decide +kernel



/-! ### Health, the sideband and the boundary-scan port -/

/-- A fault of a class and an instance. -/
def fault (cls inst : Nat) : FaultRec := { tick := 0, cls, inst, blk := ⟨.rdc, 0⟩ }
/-- A change of the health manager. -/
def hlt (f : Health → Health) (s : State := State.reset) : State := { s with hlt := f s.hlt }
/-- A fault is being handled. -/
def handles (r : FaultRec) (s : State := State.reset) : State := hlt (fun h => { h with handling := some r }) s
/-- What is counted for an instance, and its class's threshold. -/
def inst0 (k : ClassInst) (n : Nat) (s : State) : State := st [(HLT_CLASSc_THRESH.i k.cls, n)] (hlt (fun h => { h with classes := [k] }) s)

/-- Witnesses of clauses of FaultsAreHandled, the junction. -/
def wJunction : List Bool :=
  let lim := st [(HLT_TEMP_TEMP_LIM, 100)]
  [wit true (.junctionHot 1600) lim (fun t => t.geti HLT_TEMP_TEMP == 1600 && t.hlt.hotArmed),
   wit true (.junctionHot (-32768)) lim (fun t => t.geti HLT_TEMP_TEMP == -32768 && t.hlt.hotArmed),
   wit true (.junctionHot 1601) lim (fun t => !t.hlt.hotArmed && flt 38 0 lim t && evt hltBlk 3 t),
   (let s := hlt (fun h => { h with hotArmed := false }) lim; wit true (.junctionHot 32767) s (fun t => t.geti HLT_TEMP_TEMP == 32767 && decide (t.hlt = s.hlt)))]

theorem witness_junction : wJunction.all id = true := by decide +kernel

/-- Witnesses of clauses of FaultsAreHandled, arrivals. -/
def wReports : List Bool :=
  let r := fault 2 0
  let s := hlt (fun h => { h with incoming := [r] })
  let two := handles (fault 3 0) s
  let full := hlt (fun h => { h with fifo := List.replicate 32 r }) two
  let same := handles r (hlt (fun h => { h with classes := [{ cls := 2, inst := 0, lasting := true, total := 65535 }] }) s)
  [wit true .faultReport State.reset (fun t => decide (t = State.reset)),
   wit true .faultReport s (fun t => t.hlt.handling == some r && t.hlt.incoming.isEmpty),
   wit true .faultReport two (fun t => t.hlt.fifo == [r] && t.hlt.handling == some (fault 3 0)),
   wit true .faultReport full (fun t => t.hlt.lostSince == 1 && t.hlt.fifo.length == 32 && t.getb HLT_STAT_FAULT_OVERRUN && evt hltBlk 2 t &&
     t.get HLT_CNT_FIFO_LOST == 1),
   wit true .faultReport same (fun t => t.hlt.fifo == [{ r with counted := true }] && (classInst 2 0 t).total == 65535)]

theorem witness_reports : wReports.all id = true := by decide +kernel

/-- Witnesses of clauses of FaultsAreHandled, handling. -/
def wHandles : List Bool :=
  let r := fault 2 0
  let k : ClassInst := { cls := 2, inst := 0 }
  let one := { k with count := 1, start := 5 }
  let counts := fun n (j : ClassInst) => inst0 j n (handles r)
  let c := { r with counted := true }
  let ch := fault 13 3
  let bus := fault 9 1
  let wr := fault 15 2
  let lasts := fun (f : FaultRec) => inst0 { cls := f.cls, inst := f.inst } 1 (handles f)
  [wit true .faultRecordHandle State.reset (fun t => decide (t = State.reset)),
   wit true .faultRecordHandle (handles c) (fun t => t.hlt.handling.isNone && t.hlt.eventLog.next == 1 && evt c.blk 0 t),
   wit true .faultRecordHandle (counts 3 { k with lasting := true }) (fun t => (classInst 2 0 t).lasting && (classInst 2 0 t).total == 1),
   (let s := counts 3 { one with start := 0 }; wit (decide (0 < 0 + classWindow 2 s ∧ 1 + 1 < classThresh 2 s)) .faultRecordHandle s (fun t =>
     (classInst 2 0 t).count == 2 && !(classInst 2 0 t).lasting)),
   (let s := counts 2 k; wit (decide (1 < classThresh 2 s)) .faultRecordHandle s (fun t => (classInst 2 0 t).count == 1 && (classInst 2 0 t).start == 0)),
   (let s := counts 2 one; wit (decide (0 < 5 + classWindow 2 s ∧ classThresh 2 s ≤ 1 + 1)) .faultRecordHandle s (fun t => (classInst 2 0 t).lasting && evt hltBlk 1 t)),
   wit (classThresh 13 (lasts ch) == 1) .faultRecordHandle (lasts ch) (fun t => t.getb (DCM_STAT_STOPPED.at 3) && t.get (DCM_ERR_CAUSE.at 3) == 13 &&
     !t.getb (DCM_STAT_STOPPED.at 2)),
   wit (classThresh 9 (lasts bus) == 1) .faultRecordHandle (lasts bus) (fun t => allCh.all (fun d => t.getb (DCM_STAT_STOPPED.at d) == ((busOf d).val == 1))),
   wit (classThresh 15 (lasts wr) == 1) .faultRecordHandle (lasts wr) (fun t => t.getb (DCM_STAT_WRITE_BLOCK.at 2) && !t.getb (DCM_STAT_STOPPED.at 2)),
   (let s := hlt (fun h => { h with fifo := [r], lostSince := 4 }) (handles c); wit true .faultRecordHandle s (fun t => t.hlt.handling == some r &&
     t.hlt.fifo.isEmpty && t.hlt.lostSince == 0))]

theorem witness_handles : wHandles.all id = true := by decide +kernel

/-- Witnesses of clauses of FaultsAreHandled, the logs in flash. -/
def wPersists : List Bool :=
  let log := hlt (fun h => { h with eventLog := { next := 1, held := [(0, ⟨0, .dramUe 3⟩)] } })
  let full := hlt (fun h => { h with persistCount := 256 }) log
  let v : ViolEntry := ⟨0, 3, 1, 0, 0⟩
  let viol := hlt (fun h => { h with violNext := 1, viol0 := { next := 1, held := [(0, v)] } })
  [wit true .eventLogPersist State.reset (fun t => decide (t = State.reset)),
   wit true .eventLogPersist log (fun t => t.hlt.eventStored == 1 && t.hlt.persisted == [.event 0 ⟨0, .dramUe 3⟩]),
   wit true .eventLogPersist full (fun t => t.hlt.eventStored == 1 && t.hlt.persisted.isEmpty && evt hltBlk 4 t),
   wit true .violationLogPersist viol (fun t => t.hlt.violStored == 1 && t.hlt.persisted == [.viol 0 v])]

theorem witness_persists : wPersists.all id = true := by decide +kernel

/-- The sideband answers. -/
def side (s : State := State.reset) : State := { s with pins := { s.pins with sbReady := true, sbPtr := 8, sbVal := 77 } }

/-- Witnesses of clauses of SidebandAndScanReachRegisters. -/
def wSideband : List Bool :=
  let tgt := (DCM_TGT.at 3).base
  [wit true .sidebandReady (at' 4000) (fun t => t.pins.sbReady),
   wit true .sidebandReady (at' 3999) (fun t => decide (t = at' 3999)),
   wit true .i2cBusReset (side) (fun t => t.pins.sbPtr == 0 && t.pins.sbVal == 0),
   wit true (.i2cPointerWrite 8) State.reset (fun t => decide (t = State.reset)),
   wit (targetOf 64 side == .reg 64) (.i2cPointerWrite 67) side (fun t => t.pins.sbPtr == 64 && t.pins.sbVal == side.view .i2c 64),
   wit true (.i2cRegisterWrite (BitVec.ofNat 32 HLT_TEMP_TEMP_LIM.base) 90 (.failed 8)) side (fun t => t.pins.sbPtr == HLT_TEMP_TEMP_LIM.base + 4),
   wit true (.i2cRead 1) side (fun t => sent (.sideband [77]) side t && t.pins.sbPtr == 12),
   wit true (.i2cRead 0) side (fun t => sent (.sideband []) side t && t.pins.sbPtr == 8),
   wit (targetOf 64 State.reset == .reg 64) (.jtagRegacc false 16 0 (.failed 8)) State.reset (fun t => t.pins.jtagData == State.reset.view .jtag 64 && t.pins.jtagStat == 0 &&
     sent (.jtag 64 0) State.reset t),
   wit (mayWrite .jtag tgt State.reset) (.jtagRegacc true (tgt / 4) 5 (.failed 8)) State.reset (fun t => t.pins.jtagData == 5 && t.pins.jtagStat == 0 &&
     (t.chan 3).stage == [⟨tgt, 5, .jtag⟩] && (t.chan 2).stage.isEmpty),
   wit (writeRefused .jtag FLS_DIVERT.base State.reset) (.jtagRegacc true (FLS_DIVERT.base / 4) 5 (.failed 8)) State.reset (fun t => t.pins.jtagStat == 2),
   wit true .jtagIdcode State.reset (sent (.jtag 32 0x06848001) State.reset),
   wit true .jtagBypass State.reset (sent (.jtag 1 0) State.reset),
   wit true (.jtagSamplePreload [true, false, true] [true]) State.reset (fun t => sent (.jtag 3 5) State.reset t && t.pins.cells == [true]),
   wit true (.jtagExtest [true]) State.reset (fun t => t.pins.extest && allCh.all (fun c => t.mode c == mOFF && t.getb (DCM_STAT_STOPPED.at c) &&
     t.get (DCM_ERR_CAUSE.at c) == 10)),
   (let s := { State.reset with pins := { State.reset.pins with extest := true } }
    wit true (.jtagExtest [true]) s (fun t => t.pins.cells == [true] && t.regs == s.regs))]

theorem witness_sideband : wSideband.all id = true := by decide +kernel



/-! ### The flash and the start -/

/-- A bank's operation. -/
def bank (b : Two) (n : Nat) (k : FBank) (s : State := State.reset) : State :=
  (st [(FLS_RESb_STATE.i b.val, n)] s).onBank b (fun _ => k)
/-- The flag cells have been scanned. -/
def scanned (s : State := State.reset) : State := st [(FLS_STAT_SCAN_DONE, 1)] s

/-- Witnesses of clauses of FlashOperationsEnd, operations. -/
def wFlashOps : List Bool :=
  let prog := bank 1 1 { prog := some (0x80005, 7) }
  let nested := fun r => at' 9 (bank 1 4 { prog := some (0x80005, 7), erasing := some 300, resumeHeld := r })
  let er := bank 1 2 { erasing := some 256 } (({ State.reset with fls := { State.reset.fls with flags := [256, 300] } }))
  let er := flashPut 0x80005 9 (flashPut 5 8 er)
  let lost := bank 0 2 { erasing := some 161 } (flashPut (161 * 2048 + 3) 9 State.reset)
  let sus := fun n => at' n (st [(FLS_RESb_SUSP_PEND.i 1, 1)] (bank 1 2 { erasing := some 300, runSince := 5, runBefore := 3 }))
  let acc := bank 1 2 { erasing := some 300, accepted := true }
  [wit true (.flashProgramDone 1 false) State.reset (fun t => decide (t = State.reset)),
   wit true (.flashProgramDone 1 false) prog (fun t => (t.fbank 1).prog.isNone && flashWord 0x80005 t == 7 && bankState 1 t == 0 &&
     t.get (FLS_RESb_STATUS.i 1) == 0 && evt flsBlk 2 t),
   wit true (.flashProgramDone 1 false) (nested false) (fun t => bankState 1 t == 3),
   wit true (.flashProgramDone 1 false) (nested true) (fun t => bankState 1 t == 2 && (t.fbank 1).runSince == 9),
   wit true (.flashProgramDone 1 true) prog (fun t => t.get (FLS_RESb_STATUS.i 1) == 5 && flt 27 0 prog t),
   wit ((prog.fbank 1).erasing == none) (.flashEraseDone 1 false) prog (fun t => decide (t = prog)),
   wit true (.flashEraseDone 1 false) acc (fun t => decide (t = acc)),
   wit true (.flashEraseDone 1 false) er (fun t => (t.fbank 1).erasing.isNone && bankState 1 t == 0 && t.fls.flags == [300] &&
     flashWord 0x80005 t == erasedWord && flashWord 5 t == 8 && evt flsBlk 2 t),
   wit (flashWord (161 * 2048 + 3) lost == 9) (.flashEraseDone 0 false) lost (fun t => bankState 0 t == 0 && (t.fbank 0).erasing.isNone),
   wit true (.flashEraseDone 1 true) er (fun t => (t.fbank 1).erasing.isNone && t.get (FLS_RESb_STATUS.i 1) == 5 &&
     t.get FLS_CNT_ECC_VERIFY_FAIL == 1),
   wit true (.flashSuspendAccept 1) (sus 405) (fun t => (t.fbank 1).accepted && !t.getb (FLS_RESb_SUSP_PEND.i 1) && (t.fbank 1).runBefore == 403),
   wit true (.flashSuspendAccept 1) (sus 404) (fun t => decide (t = sus 404)),
   wit true (.flashSuspended 1) acc (fun t => bankState 1 t == 3 && !(t.fbank 1).accepted && evt flsBlk 2 t),
   wit true (.flashSuspended 1) State.reset (fun t => decide (t = State.reset))]

theorem witness_flashOps : wFlashOps.all id = true := by decide +kernel

/-- Witnesses of clauses of FlashOperationsEnd, core reads. -/
def wCoreReads : List Bool :=
  let busy := bank 1 1 {} (scanned)
  let held := bank 1 3 { erasing := some 256 } (scanned)
  let word := flashPut 0x80800 9 held
  let div := st [(FLS_STAT_DIVERTED, 1)] (scanned)
  let waits := fun n => at' n { div with fls := { div.fls with stall := [none, some (10, false)] } }
  [wit (readBusy 0x80005 busy) (.flashCoreRead 1 0x800050 false []) busy (fun t => t.fls.got == [0, busyWord] && t.getb FLS_STAT_READ_WHILE_BUSY &&
     evt flsBlk 3 t),
   wit (readBusy 0x80005 held) (.flashCoreRead 1 0x800050 false []) held (fun t => t.fls.got == [0, busyWord]),
   wit (!readBusy 0x80800 word && !rawWord 0x80800) (.flashCoreRead 0 0x808000 false [136]) word (fun t => t.fls.got == [9, 0] && decide (t.hlt = word.hlt)),
   wit (!readBusy 0x80800 word) (.flashCoreRead 0 0x808000 false [0, 136]) word (fun t => flt 26 0 word t && evt flsBlk 5 t),
   wit true (.flashCoreRead 0 0x808000 true [0, 136]) word (fun t => t.hlt.incoming.map (·.cls) == [26, 37]),
   wit true (.flashCoreRead 1 0 true []) (at' 4 div) (fun t => t.fls.stall == [none, some (4, false)] && t.regs == div.regs),
   wit true (.fetchStall 1) (waits 80010) (fun t => flt 28 0 (waits 80010) t && t.fls.stall == [none, some (10, true)]),
   wit true (.fetchStall 1) (waits 80009) (fun t => decide (t = waits 80009)),
   wit (fetchBankIdle (waits 9)) .fetchDivertEnd (waits 9) (fun t => !t.getb FLS_STAT_DIVERTED && t.fls.stall == [none, none]),
   wit true .fetchDivertEnd (scanned) (fun t => decide (t = scanned)),
   (let s := st [(FLS_DIVERT_FETCH_DIVERT, 1)] div; wit true .fetchDivertEnd s (fun t => decide (t = s))),
   (let s := bank 0 3 {} div; wit (!fetchBankIdle s) .fetchDivertEnd s (fun t => decide (t = s)))]

theorem witness_coreReads : wCoreReads.all id = true := by decide +kernel

/-- Witnesses of clauses of FlashOperationsEnd, the start. -/
def wStartUp : List Bool :=
  let dirty := flashPut 5 8 (flashPut 2049 7 { State.reset with fls := { State.reset.fls with flags := [1, 511] } })
  let ready := (scanned (st [(MEM_STAT_FILL_DONE, 1)])).onFls (fun f => { f with checked := true, start := some 1 })
  let runs := fun (a : Option Activation) => (st [(HLT_SB_CORES_RUN, 1)] ready).onFls (fun f => { f with coreGap := true }) |> hq (fun h => { h with act := a })
  let swap := runs (some { ctx := 7, image := 1, since := 0, settled := true })
  [wit true .flashFlagScan (scanned) (fun t => decide (t = scanned)),
   wit true .flashFlagScan dirty (fun t => t.getb FLS_STAT_SCAN_DONE && t.fls.flags.isEmpty && flashWord 2049 t == erasedWord && flashWord 5 t == 8 &&
     t.getb (FLS_UNFINk_VALID.i 1) && t.get (FLS_UNFINk_SECTOR.i 1) == 511 && t.get FLS_STAT_UNFIN_CNT == 2),
   wit (imageCode 0 (scanned) == 1 && imageCode 1 (scanned) == 1) .imageCheck (scanned) (fun t => t.fls.checked && t.fls.start.isNone &&
     t.get FLS_IMGSTAT_CHECK_B == 1 && t.getb FLS_STAT_FW_NONE && t.getb HLT_SB_FW_NONE),
   wit true .imageCheck State.reset (fun t => decide (t = State.reset)),
   wit (!coresRun ready && calKinds.all (fun k => (newestRec k ready).isNone)) .coreRelease ready anyNext,
   wit (!coresRun (runs none)) .coreRelease (runs none) (fun t => !t.fls.coreGap && coresRun t),
   wit true .coreRelease swap (fun t => decide (t = swap)),
   wit true .coreRelease State.reset (fun t => decide (t = State.reset))]

theorem witness_startUp : wStartUp.all id = true := by decide +kernel



/-! ### The map and its cache -/

/-- Changes of the map manager. -/
def maps (f : MapM → MapM) (s : State := State.reset) : State := s.onMap f
/-- A journal region in which no sector has room. -/
def fullJrnl : List JRec :=
  (List.range 95).map (fun k => ⟨k + 1, 0, [], true, k, true⟩) ++ [⟨96, 0, List.replicate 1022 (.resume 0), true, 95, true⟩]

/-- Witnesses of clauses of MapCommitsAndRecovers, commits. -/
def wCommits : List Bool :=
  let g : Group := { changes := [.featureSet 1 2 50], answer := some (7, 9) }
  let x := adm 0x89
  let s := fun r => maps (fun m => { m with ready := [g, g], resumed := r }) (runs [x])
  let dead := { s true with host := State.reset.host }
  let full := maps (fun m => { m with ready := [g], resumed := true, jrnl := fullJrnl, nextSeq := 97 }) (runs [x])
  let busy := maps (fun m => { m with busy := some g, ready := [] }) (runs [x])
  let stuck := maps (fun m => { m with busy := some g, ready := [] }) full
  [wit ((programmed [.resume 0] (s false)).isSome) .mapCommit (s false) (fun t => t.map.busy == some { changes := [.resume 0] } && t.map.ready == [g, g]),
   wit (groupDead g dead) .mapCommit dead (fun t => t.map.busy.isNone && t.map.ready == [g]),
   wit (!groupDead g (s true) && (programmed g.changes (s true)).isSome) .mapCommit (s true) (fun t => t.map.busy == some g && t.map.ready == [g] &&
     (t.ctx 7).any (·.begun)),
   wit (!groupDead g full && programmed g.changes full == none) .mapCommit full (fun t => t.map.busy.isNone && t.map.ready == [g] &&
     t.getb MAP_STAT_JRNL_WAIT && evt mapBlk 1 t),
   wit true .mapCommit busy (fun t => decide (t = busy)),
   wit true .mapCommit State.reset (fun t => decide (t = State.reset)),
   wit ((programmed g.changes busy).isSome) .journalRecordProgrammed busy (fun t => t.map.jrnl == [⟨1, busy.stamp, g.changes, true, 48, true⟩] &&
     t.map.busy.isNone && t.map.resumed && t.map.nextSeq == 2 && t.get MAP_CNT_COMMIT_COMMITS == 1 && done x 0 9 0 busy t),
   wit (programmed g.changes stuck == none) .journalRecordProgrammed stuck (fun t => t.getb MAP_STAT_JRNL_WAIT && evt mapBlk 1 t && t.map.busy == some g),
   wit true .journalRecordProgrammed State.reset (fun t => decide (t = State.reset))]

theorem witness_commits : wCommits.all id = true := by decide +kernel

/-- Witnesses of clauses of MapCommitsAndRecovers, the rest. -/
def wRecovers : List Bool :=
  let old : Welt := { wseq := 1, kind := 2, layout := 0x21, set := 5, layer := 0, zone := 0, tile := 0, link := 1 }
  let s := maps (fun m => { m with base := { seq := 9, tombs := [(77, 1, 1, 0)] }, nextSeq := 3, jrnl := [⟨1, 0, [], true, 0, true⟩] })
    ((st [(MEM_STAT_FILL_DONE, 1), (HLT_SB_CORES_RUN, 1)]).onStr (fun t => { t with welt := [old, { old with wseq := 2 }] }))
  let on := maps (fun m => { m with nextSeq := 3, jrnl := [⟨1, 0, [], true, 0, true⟩] }) (spaces [ns1] (st [(MAP_CTL_MAP_EN, 1)]))
  let ck := maps (fun m => { m with tombs := [(77, 1, 1, 0), (78, 1, 1, 0)], nextSeq := 3 }) (loaded 2 77)
  let copies := (loaded 2 77).onStr (fun t => { t with copies := (78, old) :: List.replicate 3528 (77, old) })
  [wit (coresRun s) (.mapRecovery [1] [2]) s (fun t => t.getb MAP_CTL_MAP_EN && t.getb MEM_REPAIR_SRAM_SEAL && t.get STR_STAT_UNRESOLVED == 1 && !t.map.resumed && t.map.nextSeq == 10 && t.map.tombs == s.map.base.tombs),
   wit true (.mapRecovery [] []) on (fun t => decide (t = on)),
   wit true .mapBaseRewrite on (fun t => t.map.base.ns == [ns1] && t.map.base.seq == 2 && t.map.jrnl.isEmpty),
   wit true .mapBaseRewrite State.reset (fun t => decide (t = State.reset)),
   wit (checkpointDue 2 ck && !canWrite 2 ck) (.mapCheckpointWrite 2) ck (fun t => t.map.tombs == [(78, 1, 1, 0)] &&
     (t.chan 2).dcm.ckPend == some (2, checkpointExts 77 ck)),
   wit (mounted 2 copies) (.weltCopyWrite 2) copies (fun t => t.str.copies == [(78, old)])]

theorem witness_recovers : wRecovers.all id = true := by decide +kernel

/-- Changes of the map cache. -/
def mca (f : Mca → Mca) (s : State := State.reset) : State := { s with mca := f s.mca }

/-- Witnesses of clauses of CacheServesRequests. -/
def wCaches : List Bool :=
  let q : Stream := .nspace 1
  let off := st [(MCA_WAY_DISABLED, 65535)]
  let l5 : CLine := { line := 5, way := 1, age := 2 }
  let hit := mca (fun m => { m with lines := [l5] })
  let fills := mca (fun m => { m with fill := some (5, false, [⟨q, 5, true⟩]) })
  let dirty := (List.range 16).map (fun w => ({ line := 5 + 4096 * (w + 1), way := w, age := w, dirty := w == 15 } : CLine))
  let sends := mca (fun m => { m with lines := dirty }) fills
  let waits := mca (fun m => { m with evict := some 9, evictWrites := [⟨q, 9, true⟩] }) sends
  let filled := mca (fun m => { m with filled := true, evictWrites := [] }) waits
  [wit (allDisabled off) (.mapCacheAccess q 5 true) off (fun t => decide (t = off)),
   wit (lineAt 5 hit.mca.lines == some l5) (.mapCacheAccess q 5 true) hit (fun t => t.get MCA_CNT_HIT_HITS == 1 &&
     t.mca.lines == [{ l5 with dirty := true, age := 0 }]),
   wit (!allDisabled State.reset) (.mapCacheAccess q 5 false) State.reset (fun t => t.get MCA_CNT_MISS_MISSES == 1 &&
     t.mca.fill == some (5, false, [⟨q, 5, false⟩])),
   wit true .cacheFillDone State.reset (fun t => decide (t = State.reset)),
   wit (fillWay 5 fills == some (0, none)) .cacheFillDone fills (fun t => t.mca.fill.isNone && t.mca.lines.map (fun k => (k.line, k.way, k.dirty)) == [(5, 0, true)] &&
     t.mca.evict.isNone),
   wit ((fillWay 5 sends).map (fun p => (p.1, p.2.map (·.dirty))) == some (15, some true)) .cacheFillDone sends (fun t =>
     t.mca.evict == some (5 + 4096 * 16) && (lineAt 5 t.mca.lines).any (fun j => j.way == 15 && j.dirty)),
   wit true .cacheFillDone waits (fun t => t.mca == { waits.mca with filled := true }),
   wit (lineAt 5 filled.mca.lines == none) .cacheEvictDone filled (fun t => t.mca.fill.isNone && !t.mca.filled &&
     t.mca.evict == some (5 + 4096 * 16) && (lineAt 5 t.mca.lines).any (fun j => j.way == 15 && j.dirty)),
   wit true .cacheEvictDone waits (fun t => t.mca.evict.isNone && t.mca.evictWrites.isEmpty),
   wit true .cacheEvictDone State.reset (fun t => decide (t = State.reset))]

theorem witness_caches : wCaches.all id = true := by decide +kernel



/-! ### Stripes -/

/-- Changes of the stripe engine. -/
def str (f : Str → Str) (s : State) : State := s.onStr f
/-- A block of a rewrite that waits in the open stripe of set 5 since a tick. -/
def waitsAt (n : Nat) (s : State) : State :=
  str (fun t => { t with opens := [{ set := 5, queues := [[{ nsid := 1, lba := 4, bytes := [] }], []], first := some n, firstNs := 1 }] }) (spaces [ns1] (sets s))
/-- A Welt record. -/
def welt0 (kind w link sector : Nat) : Welt := { wseq := w, kind, layout := 0x21, set := 5, layer := 0, zone := 0, tile := 0, link, sector }
/-- A Welt region in which no sector has room. -/
def fullWelt : List Welt := (List.range 32).map (fun k => welt0 1 k 0 k) ++ List.replicate 512 (welt0 1 40 0 31)
/-- A verify of block 5 of the namespace, on disc 77, whose member read runs since tick 0. -/
def member0 (l : List Nat) : Ctx := { io 3 5 1 with since := some 0, rung5 := l }

/-- Witnesses of clauses of StripesCloseAndComplete. -/
def wCloses : List Bool :=
  let due := str (fun t => { t with opens := t.opens.map (fun o => { o with closeNow := true }) }) (waitsAt 0 State.reset)
  let full := str (fun t => { t with welt := fullWelt }) due
  let t0 : Stripe := { wseq := 3, set := 5, layer := 0, zone := 0, tile := 0, tiles := [], verified := [0, 1, 2] }
  let closed := str (fun t => { t with closed := [t0], welt := [welt0 1 3 0 0], nextW := 4 }) (sets)
  let old := str (fun t => { t with welt := [welt0 1 3 0 7, welt0 2 4 3 7, welt0 1 5 0 8] }) State.reset
  [wit true (.coalesceTimeout 5) (at' 40001 (waitsAt 1 State.reset)) (fun t => (openOf 5 t).closeNow),
   (let u := at' 40000 (waitsAt 1 State.reset); wit true (.coalesceTimeout 5) u (fun t => decide (t = u))),
   (let u := waitsAt 0 State.reset; wit (!closeDue set5 (openOf 5 u) u) (.stripeClose 5 []) u (fun t => decide (t = u))),
   wit (closeDue set5 (openOf 5 due) due && !setHeld set5 due && decide (setNext set5 due < posEnd) && (weltSector due.str.welt).isSome) (.stripeClose 5 []) due (fun t =>
     t.str.closed.map (fun p => (p.wseq, p.set)) == [(1, 5)] && t.str.welt.map (fun w => (w.kind, w.wseq, w.set)) == [(1, 1, 5)] &&
     t.get STR_CNT_CLOSED_CLOSED == 1),
   wit (weltSector full.str.welt == none && closeDue set5 (openOf 5 full) full) (.stripeClose 5 []) full (fun t => t.getb STR_STAT_WELT_WAIT && evt strBlk 4 t),
   wit (Sys2Proof.Machine.setOf 5 closed == some set5 && layoutN 0x21 == 3) (.stripeComplete 3) closed (fun t => t.str.closed.isEmpty &&
     (t.str.welt.getLast?.map (fun r => (r.kind, r.link, r.missing, r.set))) == some (2, 3, 0, 5)),
   wit (weltDone 7 old.str.welt) (.weltSectorErase 7) old (fun t => t.str.welt.map (·.sector) == [8]),
   wit (!weltDone 8 old.str.welt) (.weltSectorErase 8) old (fun t => decide (t = old))]

theorem witness_closes : wCloses.all id = true := by decide +kernel

/-- Witnesses of clauses of StripesCloseAndComplete, rung 5 and Resole. -/
def wRebuilds : List Bool :=
  let at77 := fun x (s : State) => onDisc 77 (sets (spaces [ns1] (runs [x] s)))
  let x := member0 [0]
  let stopped := st [(DCM_STAT_STOPPED.at 0, 1), (DCM_ERR_CAUSE.at 0, 13)]
  let slow := member0 []
  let r : Rebuild := { set := 5, member := 0, chan := 0, failed := 60, repl := 77 }
  let re := str (fun t => { t with rebuild := some r }) (sets)
  let (l, z, _) := posAt 0
  let grown := re.onDcm 1 (fun d => { d with alloc := [((0, l, z), 3)] })
  let kept := grown.onDcm 0 (fun d => { d with alloc := [((0, l, z), 1)] })
  let gone := str (fun t => { t with exc := [{ welt0 3 1 1 0 with layer := l, zone := z }] }) grown
  let few := st [(DCM_STAT_STOPPED.at 2, 1)] re
  [(let u := at77 x stopped
    wit (blockSrc x ns1 0 u == .rung5 ⟨77, 2, 1, 6, 5⟩ (some 0) && (memberOf 77 u).map (·.2) == some 0 && lostHere ⟨77, 2, 1, 6, 5⟩ u == none &&
      (rung5At set5 0 5 2 1 6 [] u).1 == none) (.stripeReconstruct (some 7) 0 0 []) u (fun t => done x 0x26 (driveDetail 0 u) 0 u t &&
        t.get STR_CNT_RECON_RECON_FAIL == 1)),
   (let u := at77 slow State.reset; let v := at' (u.memberTmo * 400) u
    wit (blockSrc slow ns1 0 v == .read 0 ⟨77, 2, 1, 6, 5⟩ && (memberOf 77 v).isSome) (.memberTimeout 7) v (fun t => (t.ctx 7).any (fun y => y.rung5 == [0]) &&
      t.get STR_CNT_MEMBER_SLOW == 1)),
   (let u := at77 slow State.reset; let v := at' (u.memberTmo * 400 - 1) u; wit true (.memberTimeout 7) v (fun t => decide (t = v))),
   wit true (.rebuildPosition [] true) (sets) (fun t => decide (t = sets)),
   wit (chanOf 77 few == some 0 && ((List.range 3).filter (fun y => y != 0 && survivor set5 y few)).length == 1) (.rebuildPosition [] true) few (fun t =>
     t.getb STR_STAT_REB_PAUSED && decide (t.str = few.str)),
   wit (decide (0 < setNext set5 kept) && excAt 5 l z 0 kept == none && decide (0 < nextBlank 0 0 l z kept)) (.rebuildPosition [] true) kept (fun t =>
     t.str.rebuild.any (fun q => q.pos == posNorm 1 && q.repl == 77)),
   wit (decide (0 < setNext set5 gone) && excAt 5 l z 0 gone == some none) (.rebuildPosition [] false) gone (fun t =>
     t.str.rebuild.any (fun q => q.pos == posNorm 1))]

theorem witness_rebuilds : wRebuilds.all id = true := by decide +kernel



/-! ### Rung 5 -/

theorem leNat_leBytes (k : Nat) : ∀ n, leNat (leBytes k n) = n % 256 ^ k := by
  induction k with
  | zero => intro n; simp [leBytes, leNat, Nat.mod_one]
  | succ k ih =>
    intro n
    rw [Nat.pow_succ, Nat.mul_comm (256 ^ k) 256, Nat.mod_mul, leBytes, leNat, ih, BitVec.toNat_ofNat]

theorem length_leBytes (k : Nat) : ∀ n, (leBytes k n).length = k := by
  induction k with
  | zero => intro n; rfl
  | succ k ih => intro n; simp [leBytes, ih]

theorem crc32cBit_lt {x : Nat} (h : x < 2 ^ 32) : crc32cBit x < 2 ^ 32 := by
  unfold crc32cBit
  split
  · exact Nat.xor_lt_two_pow (by omega) (by decide)
  · omega

theorem crc32c_lt (l : List Byte) : crc32c l < 2 ^ 32 := by
  refine Nat.xor_lt_two_pow ?_ (by decide)
  suffices h : ∀ x, x < 2 ^ 32 → l.foldl (fun x b => eight crc32cBit (x ^^^ b.toNat)) x < 2 ^ 32 from h _ (by decide)
  induction l with
  | nil => exact fun x h => h
  | cons b l ih =>
    intro x h
    refine ih _ ?_
    have hb : x ^^^ b.toNat < 2 ^ 32 := Nat.xor_lt_two_pow h (Nat.lt_of_lt_of_le b.isLt (by decide))
    unfold eight
    iterate 8 refine crc32cBit_lt ?_
    exact hb

/-- A block of 4,096 bytes whose guard stands behind them passes a seal point that injects nothing. -/
theorem guardCheck_passes (p nsid : Nat) (d r : List Byte) (s : State) (hd : d.length = 4096)
    (hs : s.getb SEA_INJ_ARM = false) : guardCheck p nsid false (d ++ leBytes 4 (crc32c d) ++ r) s = (true, s) := by
  have h1 : (d ++ leBytes 4 (crc32c d) ++ r).take 4096 = d := by simp [List.append_assoc, ← hd]
  have h2 : field (d ++ leBytes 4 (crc32c d) ++ r) 4096 4 = crc32c d := by
    have : ((d ++ leBytes 4 (crc32c d) ++ r).drop 4096).take 4 = leBytes 4 (crc32c d) := by
      rw [List.append_assoc, ← hd, List.drop_left]
      exact List.take_left' (length_leBytes 4 _)
    rw [field, this, leNat_leBytes]
    exact Nat.mod_eq_of_lt (crc32c_lt d)
  simp only [guardCheck, guardAt, hs, h1, h2, Bool.false_and, Bool.false_eq_true, if_false, beq_self_eq_true, Bool.not_false, Bool.and_self, if_true]

theorem decode_first (c : Nat) : stripeDecode 1 [0] [0, 0, c] = some [c, 0, c] := by
  unfold stripeDecode; simp [keyFind, List.zipIdx]

/-- Member 0 of three, whose other data block is empty and whose parity block is `P`, is decoded as `P`. -/
theorem decodeColumns_first (P : List Byte) (at' : Nat → Nat → List Byte → Nat) (h : ∀ j, at' j 1 [] = 0) (l : List Nat) :
    decodeColumns 1 [0] [(none, 0), (some [], 1), (some P, 2)] at' l = some (l.map (fun j => [at' j 2 P, 0, at' j 2 P])) := by
  induction l with
  | nil => rfl
  | cons j l ih => simp only [decodeColumns, List.map, h, decode_first, ih]

theorem rebuildIndex_of (m : Nat) (bs : List (Option (List Byte))) (b t : List (List Nat))
    (hb : decodeColumns m ((bs.zipIdx.filter (fun p => p.1.isNone)).map (·.2)) bs.zipIdx (fun j _ b => byteAt b j) (List.range 4096) = some b)
    (ht : decodeColumns m ((bs.zipIdx.filter (fun p => p.1.isNone)).map (·.2)) bs.zipIdx
      (fun j t b => byteAt b (if t < bs.length - m then 4106 + j else 4100 + j)) (List.range 6) = some t) :
    rebuildIndex m bs = some ((List.range bs.length).map (fun x => (memberBytes b x, memberBytes t x))) := by
  simp only [rebuildIndex, hb, ht, Option.bind_some, Option.map_some]

theorem rebuildIndex_first (P : List Byte) : ∃ r v, rebuildIndex 1 [none, some [], some P] = some r ∧ r[0]? = some v ∧
    v.1.length = 4096 ∧ v.2 = (List.range 6).map (fun j => BitVec.ofNat 8 (byteAt P (4100 + j))) := by
  refine ⟨_, _, rebuildIndex_of 1 [none, some [], some P] _ _ (decodeColumns_first P (fun j _ b => byteAt b j) (fun _ => rfl) _)
    (decodeColumns_first P (fun j t b => byteAt b (if t < 2 then 4106 + j else 4100 + j)) (fun _ => rfl) _), rfl, ?_, rfl⟩
  simp only [memberBytes, List.length_map, List.length_range]

/-- The tiles of the two survivors at data index 5: an empty data block and a parity block. -/
def tiles5 (P : List Byte) : List MemberTile := [⟨1, List.replicate 6 none ++ [some []]⟩, ⟨2, List.replicate 6 none ++ [some P]⟩]

theorem rung5At_first (P : List Byte) (u : State) (hP : P.take 4112 = P) (hns : (sealOf P).ns = 0xFFFE)
    (hg : guardCheck 5 (sealOf P).ns false P u = (true, u)) (he : guardCheck 5 0 false [] u = (true, u))
    (hx : excAt 5 2 1 6 u = none) (h1 : survivor set5 1 u = true) (h2 : survivor set5 2 u = true)
    (c1 : chanOf 78 u = some 1) (c2 : chanOf 79 u = some 2) :
    ∃ v, rung5At set5 0 5 2 1 6 (tiles5 P) u = (some v, [], u) ∧ v.1.length = 4096 ∧
      v.2 = (List.range 6).map (fun j => BitVec.ofNat 8 (byteAt P (4100 + j))) := by
  obtain ⟨r, v, hr, hv, hl, ht⟩ := rebuildIndex_first P
  refine ⟨v, ?_, hl, ht⟩
  have m0 : set5.members.getD 0 0 = 77 := rfl
  have m1 : set5.members.getD 1 0 = 78 := rfl
  have m2 : set5.members.getD 2 0 = 79 := rfl
  have b0 : ∀ y, bitOf y 0 = false := by intro y; simp [bitOf]
  have t1 : (tiles5 P).find? (fun t => t.member == 1) = some ⟨1, List.replicate 6 none ++ [some []]⟩ := rfl
  have t2 : (tiles5 P).find? (fun t => t.member == 2) = some ⟨2, List.replicate 6 none ++ [some P]⟩ := rfl
  have s1 : (List.replicate 6 none ++ [some ([] : List Byte)]).getD (slotOfIdx 5) none = some [] := rfl
  have s2 : (List.replicate 6 none ++ [some P]).getD (slotOfIdx 5) none = some P := rfl
  have e1 : (sealOf []).ns = 0 := rfl
  have hs : survivorSlots set5 0 5 0 (tiles5 P) [0, 1, 2] u = ([none, some [], some P], [], u) := by
    have hg' : guardCheck 5 65534 false P u = (true, u) := hns ▸ hg
    have k2 : layoutK set5.layout = 2 := rfl
    simp only [survivorSlots, m1, m2, b0, h1, h2, c1, c2, t1, t2, s1, s2, hP, e1, he, hg', hns, k2, if_true, Option.bind_some, Option.map_some,
      Bool.not_true, Bool.or_false, decide_true, decide_false, Bool.true_or, Option.bind_none, Option.isSome, Option.isNone, Bool.and_true,
      Bool.and_false, Bool.and_self, if_false, Bool.false_eq_true, List.take_nil, beq_self_eq_true, Nat.reduceLeDiff, reduceCtorEq,
      Nat.reduceBEq]
  have n3 : List.range (layoutN set5.layout) = [0, 1, 2] := rfl
  have k2 : layoutK set5.layout = 2 := rfl
  have l1 : layoutM set5.layout = 1 := rfl
  have i5 : set5.id = 5 := rfl
  simp only [rung5At, i5, hx, n3, Option.bind, Option.getD, hs, k2, l1, hr, hv]
  rfl

/-- A parity block of zeros over an empty block of namespace 1. -/
def parity0 (d : List Byte) : List Byte := d ++ leBytes 4 (crc32c d) ++ [1, 0, 0, 0, 0, 0, 0xFE, 0xFF, 0, 0, 0, 0]

/-- Bytes behind the guard of a block. -/
theorem behind_guard (d r : List Byte) (hd : d.length = 4096) : (d ++ leBytes 4 (crc32c d) ++ r).drop 4100 = r :=
  List.drop_left' (by simp [hd, length_leBytes])

theorem parity0_ns (d : List Byte) (hd : d.length = 4096) : (sealOf (parity0 d)).ns = 0xFFFE := by
  have h : (parity0 d).drop 4106 = [0xFE, 0xFF, 0, 0, 0, 0] := by
    rw [show 4106 = 4100 + 6 from rfl, ← List.drop_drop, parity0, behind_guard d _ hd]; rfl
  simp only [sealOf, field, h]; rfl

theorem parity0_tail (d : List Byte) (hd : d.length = 4096) :
    (List.range 6).map (fun j => BitVec.ofNat 8 (byteAt (parity0 d) (4100 + j))) = [1, 0, 0, 0, 0, 0] := by
  have h : ∀ j, byteAt (parity0 d) (4100 + j) = byteAt [1, 0, 0, 0, 0, 0, 0xFE, 0xFF, 0, 0, 0, 0] j := by
    intro j
    have e := behind_guard d [1, 0, 0, 0, 0, 0, 0xFE, 0xFF, 0, 0, 0, 0] hd
    rw [byteAt, byteAt, ← e, List.getD_eq_getElem?_getD, List.getD_eq_getElem?_getD, List.getElem?_drop]; rfl
  simp only [h]; rfl

theorem rebuilt_passes (v : List Byte × List Byte) (s : State) (hv : v.1.length = 4096) (ht : v.2 = [1, 0, 0, 0, 0, 0])
    (hs : s.getb SEA_INJ_ARM = false) :
    (guardCheck 6 1 false (rebuiltBlock 5 v) s).1 = true ∧ (sealOf (rebuiltBlock 5 v)).ns = 1 := by
  have e : rebuiltBlock 5 v = v.1 ++ leBytes 4 (crc32c v.1) ++ (leBytes 6 5 ++ [1, 0, 0, 0, 0, 0]) := by
    rw [rebuiltBlock, ht, List.append_assoc _ (leBytes 6 5)]
  constructor
  · rw [e, guardCheck_passes 6 1 v.1 _ s hv hs]
  · have h : (rebuiltBlock 5 v).drop 4106 = [1, 0, 0, 0, 0, 0] := by
      rw [e, show 4106 = 4100 + 6 from rfl, ← List.drop_drop, behind_guard v.1 _ hv]; rfl
    simp only [sealOf, field, h]; rfl

/-- A read of block 5, whose disc 77 stands in a stopped channel. -/
def rungs : State := onDisc 77 (sets (spaces [ns1] (runs [member0 [0]] (st [(DCM_STAT_STOPPED.at 0, 1), (DCM_ERR_CAUSE.at 0, 13)]))))

/-- StripesCloseAndComplete, a block that rung 5 rebuilds. -/
theorem witness_rung5 : (nsFind 1 rungs = some ns1 ∧ blockSrc (member0 [0]) ns1 0 rungs = .rung5 ⟨77, 2, 1, 6, 5⟩ (some 0) ∧
      memberOf 77 rungs = some (set5, 0)) ∧
    ∃ v, rung5At set5 0 5 2 1 6 (tiles5 (parity0 (zeros 4096))) rungs = (some v, [], rungs) ∧
      (guardCheck 6 1 false (rebuiltBlock 5 v) rungs).1 = true ∧ (sealOf (rebuiltBlock 5 v)).ns = 1 := by
  have hd : (zeros 4096).length = 4096 := List.length_replicate
  have hi : rungs.getb SEA_INJ_ARM = false := by decide +kernel
  refine ⟨by decide +kernel, ?_⟩
  have hlen : (parity0 (zeros 4096)).length = 4112 := by simp [parity0, hd, length_leBytes]
  obtain ⟨v, h, hl, ht⟩ := rung5At_first (parity0 (zeros 4096)) rungs (by rw [← hlen, List.take_length]) (parity0_ns _ hd)
    (guardCheck_passes 5 _ _ _ _ hd hi) (by decide +kernel) (by decide +kernel) (by decide +kernel) (by decide +kernel)
    (by decide +kernel) (by decide +kernel)
  exact ⟨v, h, rebuilt_passes v rungs hl (ht.trans (parity0_tail _ hd)) hi⟩


/-! ### DRAM and the on-chip arrays -/

/-- DRAM is trained and filled; line 7 holds 9 in byte 3. -/
def filled (s : State := State.reset) : State := dramPut 7 (dramEncode 7 ((zeros 64).set 3 9)) (st [(MEM_STAT_RATE, 3), (MEM_STAT_FILL_DONE, 1)] s)
/-- One byte arrives wrong. -/
def one : List (Nat × Byte) := [(70, 5)]
/-- Seventeen bytes arrive wrong. -/
def many : List (Nat × Byte) := (List.range 17).map (fun k => (3 * k, BitVec.ofNat 8 (k + 1)))
/-- The decode of line 7. -/
def dec7 (err : List (Nat × Byte)) (s : State) : DramEnd := dramDecode 7 (markedBytes 7 s) (arrive (dramGet 7 s) err)
/-- Is a decode corrected, uncorrectable? -/
def isCorr (v : List Byte) : DramEnd → Bool
  | .corrected w m => w == v && !m
  | _ => false

/-- Witnesses of clauses of MemoriesCorrectAndPoison, training. -/
def wTrains : List Bool :=
  [wit (decide (4 ≤ dramGib State.reset.straps)) (.dramTrainingDone [(true, false), (true, true)]) State.reset (fun t =>
     t.get MEM_STAT_SIZE_GIB == dramGib State.reset.straps && t.get MEM_STAT_RATE == 2 && t.get MEM_STAT_TRAIN_FAIL == 0),
   wit true (.dramTrainingDone [(true, false), (true, false), (true, false)]) State.reset (fun t => t.get MEM_STAT_TRAIN_FAIL == 2 && t.get HLT_SB_TRAIN_FAIL == 2),
   wit true (.dramTrainingDone []) State.reset (fun t => t.get MEM_STAT_TRAIN_FAIL == 3),
   wit true .dramFillDone (st [(MEM_STAT_RATE, 3)]) (fun t => t.getb MEM_STAT_FILL_DONE && t.getb HLT_SB_FILL_DONE && t.mem.lines.isEmpty),
   wit true .dramFillDone State.reset (fun t => decide (t = State.reset))]

theorem witness_trains : wTrains.all id = true := by decide +kernel

/-- Witnesses of clauses of MemoriesCorrectAndPoison, lines. -/
def wDram : List Bool :=
  let s := filled
  let w7 := dramGet 7 s
  let bg : DramUser := .background none
  let rec' := st [(TMB_REC_STAT_RUN, 1)] s
  let v := io 3 5 1
  let r := io 1 5 1
  let top := dramLines s - 1
  let copying := (st [(MEM_REMAPk_LINE.i 2, 7)] s).onMem (fun m => { m with copying := some 2 })
  let queued := s.onMem (fun m => { m with waiting := [.scrub 9 [], .read .recorder 8 []] })
  [wit (!lineServed 7 State.reset) (.dramRead bg 7 []) State.reset (fun t => decide (t = State.reset)),
   wit (lineServed 7 s && !lineReserved 7 s && dec7 [] s == .clean) (.dramRead bg 7 []) s (fun t => t.mem == { s.mem with served := s.mem.served.set 2 3 }),
   wit true (.dramRmw bg 7 [(63, 4)] []) s (fun t => (dramGet 7 t).take 64 == ((zeros 64).set 3 9).set 63 4 && dramGet 8 t == dramGet 8 s && t.get MEM_CNT_MISC_RMW == 1),
   wit (isCorr w7 (dec7 one s)) (.dramRead bg 7 one) s (fun t => dramGet 7 t == w7 && flt 21 0 s t && t.get MEM_CNT_CE_CE == 1),
   wit (dec7 many s == .uncorrectable) (.dramRead bg 7 many) s (fun t => flt 22 0 s t && evt memBlk 1 t && t.get MEM_LAST_UE_LINE == 7 && t.get MEM_CNT_MISC_UE == 1),
   wit true (.dramRmw bg 7 [] many) s (fun t => flt 22 0 s t && t.mem == { s.mem with served := s.mem.served.set 2 3 } && t.get MEM_CNT_MISC_RMW == 1),
   wit true (.dramRead (.background (some 7)) 7 many) (runs [v] s) (done v 0x30 22 0 (runs [v] s)),
   wit true (.dramRead .recorder 7 many) rec' (fun t => !t.getb TMB_REC_STAT_RUN && t.get TMB_REC_STAT_STOP_CAUSE == 5),
   wit true (.dramRead (.hostRead 7 0) 7 many) (runs [r] s) (fun t => (t.ctx 7).any (fun y => y.lost.any (fun l => l.1 == 0))),
   wit (lineServed top s && lineReserved top s) (.dramRead bg top []) s (fun t => flt 22 0 s t && evt memBlk 1 t),
   wit true (.dramRmw bg top [] []) s (fun t => t.mem == { s.mem with served := s.mem.served.set 2 3 }),
   wit (lineWaits 7 copying) (.dramRead bg 7 []) copying (fun t => t.mem.waiting == [.read bg 7 []]),
   wit (lineWaits 7 copying) (.dramRmw bg 7 [(0, 1)] []) copying (fun t => t.mem.waiting == [.rmw bg 7 [(0, 1)] []]),
   dramNext queued == some 1 && (dramTurn 0 (.scrub 9 []) queued).isSome]

theorem witness_dram : wDram.all id = true := by decide +kernel

/-- Witnesses of clauses of MemoriesCorrectAndPoison, scrubber and copies. -/
def wScrubs : List Bool :=
  let s := fun n => st [(MEM_CTL_SCRUB_EN, 1), (MEM_SCRUB_POS_POS, n)] (filled)
  let clean := fun n => dramDecode n (markedBytes n (s n)) (arrive (dramGet n (s n)) []) == .clean
  let last := dramLines State.reset - 1
  let copy := ((st [((MEM_REMAPk_VALID.i 15), 1), (MEM_REMAPk_LINE.i 15, 7)] (filled))).onMem (fun m => { m with copying := some 15 })
  let copy := { copy with fls := { copy.fls with remaps := [7] } }
  [wit true (.scrubRead []) (st [(MEM_CTL_SCRUB_EN, 0)] (filled)) (fun t => decide (t = st [(MEM_CTL_SCRUB_EN, 0)] (filled))),
   wit (clean 7) (.scrubRead []) (s 7) (fun t => t.get MEM_SCRUB_POS_POS == 8 && t.mem.served == (s 7).mem.served.set 3 5 && !t.getb MEM_STAT_SCRUB_LATE),
   wit (clean last) (.scrubRead []) (at' 9 (s last)) (fun t => t.get MEM_SCRUB_POS_POS == 0 && evt memBlk 5 t && t.mem.passStart == 9 && t.get MEM_CNT_MISC_PASSES == 1),
   wit (dramDecode 7 (markedBytes 7 copy) (dramGet 7 copy) == .clean) .remapCopyDone copy (fun t => t.mem.copying.isNone && !t.getb MEM_STAT_COPY_BUSY &&
     evt memBlk 2 t && keyFind (dramLines copy - 64 + 15) t.mem.lines == some (dramGet 7 copy)),
   (let u := { copy with mem := { copy.mem with copying := none, lines := [(last - 48, dramEncode 7 (zeros 64))] } }
    let u := (u.put MEM_CTL_SCRUB_EN 1).put MEM_SCRUB_POS_POS (last - 48)
    wit (scrubLine (last - 48) u == 7 && dramDecode 7 (markedBytes 7 u) (arrive (dramGet 7 u) []) == .clean) (.scrubRead []) u (fun t =>
      t.get MEM_SCRUB_POS_POS == last - 47 && t.mem.lines == u.mem.lines && !t.getb MEM_STAT_SCRUB_LATE)),
   (let u := (st [(MEM_CTL_SCRUB_EN, 1), (MEM_SCRUB_POS_POS, dramLines State.reset)] filled); wit true (.scrubRead []) u (fun t => decide (t = u))),
   (let u := (s 7).onMem (fun m => { m with waiting := [.scrub 7 []] }); wit true (.scrubRead []) u (fun t => decide (t = u))),
   (let u := copy.onMem (fun m => { m with waiting := [.rmw (.background none) 7 [(0, 1)] [], .read .recorder 7 []] })
    wit true .remapCopyDone u (fun t => t.mem.waiting.isEmpty && t.get MEM_CNT_MISC_RMW == 1)),
   wit true .remapCopyDone State.reset (fun t => decide (t = State.reset))]

theorem witness_scrubs : wScrubs.all id = true := by decide +kernel

/-- Witnesses of clauses of MemoriesCorrectAndPoison, on-chip arrays. -/
def wArrays : List Bool :=
  let words := st [(MEM_SRAM_MODE_LO_MODE, 2 ^ 31)]
  let used := fun n => { words with mem := { words.mem with arrs := words.mem.arrs.modify 31 (fun r => { r with used := n }) } }
  let x := io 3 5 1
  let tile := (State.reset).onRdc 0 (fun r => { r with tile := some tile0 })
  [wit (!arrWords 43 State.reset) (.sramCorrected 43 true) State.reset (fun t => t.get MEM_CNT_SRAM_CORRECTED == 1 && evt memBlk 4 t),
   wit (arrWords 31 (used 3)) (.sramCorrected 31 true) (used 3) (fun t => t.get MEM_CNT_SRAM_REPAIRS == 1),
   wit true (.sramCorrected 31 true) (used 4) (fun t => evt memBlk 4 t && flt 25 0 (used 4) t),
   wit true (.sramUncorrectable 16 7 []) (runs [x]) (done x 0x30 24 0 (runs [x])),
   wit true (.sramUncorrectable 18 0 [3]) tile (fun t => flt 24 0 tile t && evt memBlk 3 t && t.get MEM_CNT_SRAM_UNCORR == 1 &&
     (t.chan 0).rdc.tile.any (fun q => (q.slots[3]?.map (fun z => (z.st, z.reason))) == some (.erased 8, some 6))),
   wit true (.sramUncorrectable 31 0 []) State.reset (fun t => t.hlt.incoming.map (·.cls) == [24, 37]),
   wit true (.sramUncorrectable 37 0 []) State.reset (fun t => t.getb (DCM_STAT_STOPPED.at 5) && t.get (DCM_ERR_CAUSE.at 5) == 13)]

theorem witness_arrays : wArrays.all id = true := by decide +kernel



/-! ### Well-formed commands -/

/-- A tick with one input changed. -/
def tickWith (f : ChIn → ChIn) (vmA : Nat) : Instr :=
  .tick { quietTick with chans := f (quietTick.chans.headD ⟨[], false, false, none, 0, false, false, false⟩) :: quietTick.chans.drop 1, vmA }
/-- A wedge whose signals showed one code. -/
def wedgeOf (n : Nat) (z : Int) : Instr := .wedgeBoundary 0 (List.replicate n ⟨[z], none⟩)
/-- A row of sectors with lists of these lengths, one code and one expected value. -/
def rowOf (a d f p : Nat) (z y : Int) : Instr :=
  .sectorRowComplete 0 0 ⟨List.replicate a ⟨0, [z]⟩, List.replicate d [], List.replicate f [y], List.replicate p []⟩
/-- Data pulses counted on every emitter. -/
def sentOf (n m : Nat) : List (Nat × Nat) := List.replicate 8 (n, m)

/-- Ill-formed commands, one for each check at least. -/
def illFormed : List Instr :=
  let j := Origin.jtag
  [.tick { quietTick with chans := [] }, tickWith (fun c => { c with servo := [] }) 0, tickWith (fun c => { c with servo := List.replicate 10 8192 }) 0,
   tickWith (fun c => { c with servo := List.replicate 10 (-8193) }) 0, tickWith (fun c => { c with shunt := some 2048 }) 0,
   tickWith (fun c => { c with shunt := some (-2049) }) 0, tickWith id 4096, .tick { quietTick with vmB := 4096 },
   .registerWrite j 0x04000000 0xF 0 none (.failed 8), .registerWrite j 2 0xF 0 none (.failed 8), .registerWrite j 4 0xF 0 (some (0xF, 0)) (.failed 8),
   .registerWrite j 0 0xF 0 none (.failed 256), .tickCaptureRead j 0 0, .tickCaptureRead j 3 2, .todCaptureRead j 1 8, wedgeOf 9 0, wedgeOf 10 128, wedgeOf 10 (-129),
   .wedgeSync 0 0 ⟨⟨0, [128]⟩, [], [], none⟩, .sectorSync 0 0 0 ⟨0, [-129]⟩, .defectSpanStart 0 0 0 [], .dropoutStart 0 true 0 (List.replicate 32 512),
   .dropoutEnd 0 true 0 (List.replicate 32 (-513)), .defectSpanEnd 0 0 0 (List.replicate 32 0), .tileReadStart 0 ⟨16, 0, 0, 0⟩,
   .tileReadStart 0 ⟨0, 8, 0, 0⟩, .tileWriteStart 0 ⟨0, 0, 3, 0⟩, rowOf 9 8 8 8 0 0, rowOf 10 7 8 8 0 0,
   rowOf 10 8 7 8 0 0, rowOf 10 8 8 7 0 0, rowOf 10 8 8 8 128 0, rowOf 10 8 8 8 0 257, .apcUpdate 0 (List.replicate 15 0) (sentOf 0 0) 1,
   .apcUpdate 0 (List.replicate 16 4096) (sentOf 0 0) 1, .apcUpdate 0 (List.replicate 16 0) [] 1, .apcUpdate 0 (List.replicate 16 0) (sentOf 0 0) 0,
   .apcUpdate 0 (List.replicate 16 0) (sentOf 3 2) 4, .rapcUpdate 0 (List.replicate 17 0), .rapcUpdate 0 (List.replicate 16 4096), .bemfEdge 0 0 true 4096, .bemfEdge 0 0 true (-4097), .linkUp 0 0 1, .linkUp 0 6 1,
   .linkUp 0 1 3, .numvfsWrite 0 65536, .msixUnmask 0 (some 64), .ringEnable j 16384 0, .ringShutdown j 16384 0, .evqEnable j 16384 0,
   .drainComplete 16384 [], .doorbell 0 1024 0 0, .stagingDoorbell 0 1024 0 0 (.failed 0), .stagingDoorbell 0 0 0 0 (.failed 256),
   .entryFetched (.entry [0] []), .entryFetched (.failed 256), .dramTrainingDone [], .dramRead .recorder 0 [(80, 1)], .dramRmw .recorder 0 [(64, 1)] [],
   .dramRmw .recorder 0 [] [(80, 1)], .scrubRead [(80, 1)], .flashRead j 0 0 [137], .flashCoreRead 0 16777216 false [], .flashCoreRead 0 0 false [137],
   .weltSectorErase 32, .calAfe 0 ⟨0, 0⟩ [], .calServoOfs 0 ⟨0, 0⟩ [], .calLaser 0 ⟨0, 0⟩ [], .calResponse 0 ⟨0, 0⟩ [] 0, .calActuator 0 ⟨0, 0⟩ [],
   .calMargin 0 ⟨0, 0⟩ [], .trigWrite j 0 [], .jtagRegacc true 16777216 0 (.failed 8),
   .jtagRegacc true 0 0 (.failed 256), .i2cRegisterWrite 0 0 (.failed 256)]

/-- Commands at the ends of the ranges. -/
def atTheEnds : List Instr :=
  let j := Origin.jtag
  [.tick quietTick, tickWith (fun c => { c with servo := List.replicate 10 (-8192), shunt := some 2047 }) 4095, .registerWrite j 0x03FFFFFC 0xF 0 none (.entry (zeros 64) []),
   .registerWrite j 8 0xF 0 (some (0, 0)) (.failed 255), .tickCaptureRead j 3 1, .tickCaptureRead j 0 8, .todCaptureRead j 0 4, wedgeOf 10 127, wedgeOf 10 (-128),
   .wedgeSync 0 0 ⟨⟨0, [127]⟩, [], [], none⟩, .sectorSync 0 0 0 ⟨0, [-128]⟩, .defectSpanStart 0 0 0 (List.replicate 32 511),
   .dropoutEnd 0 true 0 (List.replicate 32 (-512)), .defectSpanEnd 0 0 0 (List.replicate 95 0), .tileReadStart 0 ⟨15, 7, 2, 9⟩, .tileWriteStart 0 ⟨15, 7, 2, 9⟩, rowOf 10 8 8 8 (-128) (-256), rowOf 10 8 8 8 127 256,
   .apcUpdate 0 (List.replicate 16 4095) (sentOf 1 3) 4, .rapcUpdate 0 (List.replicate 16 4095), .bemfEdge 0 0 true (-4096), .linkUp 0 5 4, .numvfsWrite 0 65535, .msixUnmask 0 (some 63), .ringEnable j 16383 0,
   .drainComplete 16383 [], .doorbell 0 1023 0 0, .stagingDoorbell 0 1023 0 0 (.failed 255), .entryFetched (.entry (zeros 64) []),
   .dramTrainingDone [(true, true), (true, true), (true, true)], .dramRead .recorder 0 [(79, 1)], .dramRmw .recorder 0 [(63, 1)] [(79, 1)], .scrubRead [(79, 1)],
   .flashRead j 0 0 [136], .flashCoreRead 0 16777215 false [136], .weltSectorErase 31, .jtagRegacc true 16777215 0 (.failed 255), .i2cRegisterWrite 0 0 (.failed 255), .jtagBypass]

theorem test_ill_formed_refused : illFormed.all (fun i => !i.wellFormed) = true := by decide +kernel
theorem test_ends_well_formed : atTheEnds.all (fun i => i.wellFormed) = true := by decide +kernel
theorem test_no_row_has_bits : decodeTableWord 0 0 = none := rfl

end Sys2Proof.Tests
end

namespace Sys2Proof

open Sys2Proof.Machine

/-! ### Every command answers a next state

A command's meaning is a next state in one of three shapes: as it is, behind the gate of chip reset (R739–R742), or behind
the gate of a channel's engine (R279, R365, R712). A closed gate answers the state as it is, so neither gate ever stops. -/

theorem isNext_next (t : State) : isNext (.next t) := ⟨t, rfl⟩

theorem isNext_gate {s : State} {o : Out} (h : isNext o) : isNext (gate s o) := by
  unfold gate
  split
  · exact isNext_next s
  · exact h

theorem isNext_gateEngine {c : Ch} {s : State} {o : Out} (h : isNext o) : isNext (gateEngine c s o) := by
  unfold gateEngine
  split
  · exact isNext_next s
  · exact h

theorem isNext_busWrite (o : Origin) (a : Nat) (v : W32) (x : WriteData) (s : State) : isNext (busWrite o a v x s) :=
  isNext_next _

/-- A block without counters to clear leaves the state as it is; the others take the bus write of their CNT_CLEAR bit. -/
theorem isNext_execCounterClear (o : Origin) (b : Blk) (bus : Two) (s : State) :
    isNext (execCounterClear o b bus s) := by
  refine isNext_gate ?_
  split
  · exact isNext_next s
  · exact isNext_busWrite ..

/-- Settles O2, by the commands: those of the reset pins, the supplies and the boundary-scan port act during chip reset
too, those of a channel's engines stand behind its gate, and all others, the register accesses among them, behind the gate
of chip reset alone. -/
theorem everyCommandAnswersNext : Obligations.EveryCommandAnswersNext := by
  intro i s
  cases i with
  | chipResetRelease | supplyRestored | jtagExtest | jtagSamplePreload | porstAssert | supplyLow | jtagIdcode
  | jtagBypass =>
    exact isNext_next _
  | routineOverrun | holdDelayExpiry | saAddress | wobbleReadStop | ttSwapApply | holdResume | focusCapture
  | focusSweepEnd | trackCapture | acquireAddressTimeout | layerJumpCorrectorDone | layerJumpProfileEnd
  | layerJumpCaptureTimeout | focusDrop | servoBeamLoss | trackSlip | oneBeamEnd | recoveryAttemptTimeout
  | recoveryDone | homingPhaseFail | seekCountTimeout | currentLimit | bemfEdge | startWatchTimeout | probeEnd
  | startTimeout | startPauseEnd | sixStepCommutation | commutationLost | catchCoastEnd | catchTimeout
  | shortV0Start | spindleStopped | wobblePllLock | wobblePllLockLoss =>
    exact isNext_gateEngine (isNext_next _)
  | counterClear o b bus => exact isNext_execCounterClear o b bus s
  | _ => exact isNext_gate (isNext_next _)

end Sys2Proof
